-- ==== Sys2Proof/Word.lean ====
section
/-! DEFINITION. Word types and the plain tables (association lists kept in ascending key order) the state is built of. -/

set_option linter.unusedVariables false

namespace Sys2Proof

/-- A byte of memory (R6). -/
abbrev Byte := BitVec 8
/-- A 16-bit word: sequence numbers and performed marks (R30, R31). -/
abbrev W16 := BitVec 16
/-- A lane register (R166). -/
abbrev W32 := BitVec 32
/-- A scalar register (R133). -/
abbrev W64 := BitVec 64

/-- A table from small numbers to values: an association list in ascending key order. -/
abbrev Tab (α : Type) := List (Nat × α)

/-- The value at a key, or none. -/
def Tab.find {α : Type} : Tab α → Nat → Option α
  | [], _ => none
  | (i, a) :: t, k => if i = k then some a else Tab.find t k

/-- The value at a key, or the given default. -/
def Tab.getD {α : Type} (t : Tab α) (k : Nat) (d : α) : α := (Tab.find t k).getD d

/-- Puts a value at a key, keeping the ascending order. -/
def Tab.set {α : Type} : Tab α → Nat → α → Tab α
  | [], k, a => [(k, a)]
  | (i, b) :: t, k, a =>
    if k < i then (k, a) :: (i, b) :: t
    else if i = k then (k, a) :: t
    else (i, b) :: Tab.set t k a

/-- Removes a key. -/
def Tab.del {α : Type} : Tab α → Nat → Tab α
  | [], _ => []
  | (i, b) :: t, k => if i = k then Tab.del t k else (i, b) :: Tab.del t k

/-- The keys of a table. -/
def Tab.keys {α : Type} (t : Tab α) : List Nat := t.map Prod.fst

/-- The values of a table. -/
def Tab.vals {α : Type} (t : Tab α) : List α := t.map Prod.snd

end Sys2Proof
end

