-- ==== Sys2Proof/Config.lean ====
section
/-! DEFINITION. What an implementation fixes, and the values the manual leaves open, as constants without a body:
nothing can evaluate them, and a statement about them holds whatever they are. -/

set_option linter.unusedVariables false

namespace Sys2Proof.Config

open Sys2Proof

/-- DIEID of a die, fused (Table 20-7). -/
opaque dieId : Nat → W64

/-- IDKEY of a die: the identity modulus, 3,072 bits, fused (Table 20-7). -/
opaque idKey : Nat → Nat

/-- IDCERT of a die, 3,072 bits, fused (Table 20-7). -/
opaque idCert : Nat → Nat

/-- The fused SHA-256 digest of the firmware signer's modulus, as a number with its first byte highest (R521). -/
opaque keyDigest : Nat

/-- The fused rollback version of a die (R521). -/
opaque rollback : Nat → Nat

/-- The MAGIC of a firmware image, which the manual does not give (R521) (DESIGN CHOICE, log 11). -/
opaque bootMagic : Nat

/-- The signature a quote holds: die, signed digest, and a counter that stands for the salt (R521, R522, Table 20-7). -/
opaque quote : Nat → Nat → Nat → Nat

/-- KIND of the fault record of a soft error, which is precise at no word; the manual gives none (R269, R287) (DESIGN CHOICE, log 63). -/
opaque softKind : Nat → BitVec 2

/-- The byte that a die's own read of a physical address outside the map takes: the manual gives none (R517, R530) (DESIGN CHOICE, log 12). -/
opaque freeByte : Nat → Byte

/-- The argument of an EVENT flit of a code for which the manual gives none (R520) (DESIGN CHOICE, log 23). -/
opaque eventArg : Nat → W32

/-- How many sectors, less one and modulo 8, the block coder makes of a block's contents; the manual does not give the coder
(R219) (DESIGN CHOICE, log 72). -/
opaque codedSize : Nat → Nat

/-- Whether a core's line of a block lies in a bank that leaves cache-way mode; the first argument is a fresh number. The
manual does not say which lines a bank holds (R214) (DESIGN CHOICE, log 73). -/
opaque lineInBank : Nat → Nat → Bool

/-- Whether the L2 holds a block in a way that leaves the cache; the first argument is a fresh number. The manual does not
say which blocks a way holds (R217) (DESIGN CHOICE, log 73). -/
opaque blockInWay : Nat → Nat → Bool

/-- What a word of a matrix tile or row bank, of an LV or a CV reads as once an error in it is uncorrectable; the manual gives
the code that reports it and no value (R222, R320) (DESIGN CHOICE, log 88). -/
opaque lostWord : Nat → W32

end Sys2Proof.Config
end

