-- ==== Sys2Proof/Syntax.lean ====
section
/-! DEFINITION. The instruction type: one constructor per row of the opcode table. Scalar constructors hold the row's
fields as they stand in the word; lane constructors hold the fields of Table 3-4; the steps of engines, controllers,
links and the outside hold which unit acts and what the manual leaves to it. -/

set_option linter.unusedVariables false

namespace Sys2Proof

/-- The fields of a lane word beside its opcode (Table 3-4). -/
structure LaneW where
  la : BitVec 4
  u : BitVec 1
  psel : BitVec 3
  pneg : BitVec 1
  d : BitVec 7
  a : BitVec 8
  b : BitVec 8
  c : BitVec 8
  mod : BitVec 8
  ty : BitVec 8
  imm : BitVec 32
  deriving DecidableEq, Repr

/-- The turn of an engine entry: the group whose queue it heads, and how many sectors, threads or records it works on. -/
structure Part where
  g : Nat
  n : Nat
  deriving DecidableEq, Repr

/-- The turn of a sampler entry: the group, which of its reads are made ahead, and how many threads it works on. -/
structure ReadPart where
  g : Nat
  ahead : List Nat
  n : Nat
  deriving DecidableEq, Repr

/-- The instructions and steps of the machine. -/
inductive Instr where
  -- scalar words
  /-- ADD (R138) -/
  | add (d : BitVec 5) (a : BitVec 5) (b : BitVec 5)
  /-- SUB (R138) -/
  | sub (d : BitVec 5) (a : BitVec 5) (b : BitVec 5)
  /-- MUL (R138) -/
  | mul (d : BitVec 5) (a : BitVec 5) (b : BitVec 5)
  /-- MULH_I64 (R138) -/
  | mulhI64 (d : BitVec 5) (a : BitVec 5) (b : BitVec 5)
  /-- MULH_N64 (R138) -/
  | mulhN64 (d : BitVec 5) (a : BitVec 5) (b : BitVec 5)
  /-- AND (R138) -/
  | andS (d : BitVec 5) (a : BitVec 5) (b : BitVec 5)
  /-- OR (R138) -/
  | orS (d : BitVec 5) (a : BitVec 5) (b : BitVec 5)
  /-- XOR (R138) -/
  | xorS (d : BitVec 5) (a : BitVec 5) (b : BitVec 5)
  /-- SHL (R139) -/
  | shl (d : BitVec 5) (a : BitVec 5) (b : BitVec 5)
  /-- SHR (R139) -/
  | shr (d : BitVec 5) (a : BitVec 5) (b : BitVec 5)
  /-- SRA (R139) -/
  | sra (d : BitVec 5) (a : BitVec 5) (b : BitVec 5)
  /-- MIN_I64 (R138) -/
  | minI64 (d : BitVec 5) (a : BitVec 5) (b : BitVec 5)
  /-- MIN_N64 (R138) -/
  | minN64 (d : BitVec 5) (a : BitVec 5) (b : BitVec 5)
  /-- MAX_I64 (R138) -/
  | maxI64 (d : BitVec 5) (a : BitVec 5) (b : BitVec 5)
  /-- MAX_N64 (R138) -/
  | maxN64 (d : BitVec 5) (a : BitVec 5) (b : BitVec 5)
  /-- CMP (R141) -/
  | cmp (f : BitVec 5) (a : BitVec 5) (b : BitVec 5)
  /-- TST (R141) -/
  | tst (f : BitVec 5) (a : BitVec 5) (b : BitVec 5)
  /-- LEA (R138) -/
  | lea (d : BitVec 5) (a : BitVec 5) (b : BitVec 5) (s : BitVec 3)
  /-- SEL (R142) -/
  | sel (d : BitVec 5) (a : BitVec 5) (b : BitVec 5) (f : BitVec 2) (c : BitVec 3)
  /-- ADD_IMM (R138) -/
  | addImm (d : BitVec 5) (a : BitVec 5) (i : BitVec 16)
  /-- AND_IMM (R138) -/
  | andImm (d : BitVec 5) (a : BitVec 5) (i : BitVec 16)
  /-- OR_IMM (R138) -/
  | orImm (d : BitVec 5) (a : BitVec 5) (i : BitVec 16)
  /-- XOR_IMM (R138) -/
  | xorImm (d : BitVec 5) (a : BitVec 5) (i : BitVec 16)
  /-- SHL_IMM (R139) -/
  | shlImm (d : BitVec 5) (a : BitVec 5) (i : BitVec 16)
  /-- SHR_IMM (R139) -/
  | shrImm (d : BitVec 5) (a : BitVec 5) (i : BitVec 16)
  /-- SRA_IMM (R139) -/
  | sraImm (d : BitVec 5) (a : BitVec 5) (i : BitVec 16)
  /-- MUL_IMM (R138) -/
  | mulImm (d : BitVec 5) (a : BitVec 5) (i : BitVec 16)
  /-- CMP_IMM (R141) -/
  | cmpImm (f : BitVec 5) (a : BitVec 5) (i : BitVec 16)
  /-- MOVI (R140) -/
  | movi (d : BitVec 5) (i : BitVec 16)
  /-- MOVHI (R140) -/
  | movhi (d : BitVec 5) (h : BitVec 2) (i : BitVec 16)
  /-- GETS (R161) -/
  | gets (d : BitVec 5) (n : BitVec 16)
  /-- SETS (R162) -/
  | sets (a : BitVec 5) (n : BitVec 16)
  /-- SLD (R154) -/
  | sld (d : BitVec 5) (b : BitVec 5) (l : BitVec 4) (s : BitVec 2) (o : BitVec 10)
  /-- SST (R154) -/
  | sst (d : BitVec 5) (b : BitVec 5) (s : BitVec 2) (o : BitVec 10)
  /-- ALD (R157) -/
  | ald (x : BitVec 1) (k : BitVec 2) (b : BitVec 5) (s : BitVec 2) (o : BitVec 10)
  /-- AST (R160) -/
  | ast (v : BitVec 5) (b : BitVec 5) (s : BitVec 2) (o : BitVec 10)
  /-- LOOP (R145) -/
  | loopImm (e : BitVec 10) (c : BitVec 10)
  /-- LOOP_SREG (R145) -/
  | loopSreg (a : BitVec 5) (e : BitVec 10)
  /-- LRUN (R150) -/
  | lrunImm (l : BitVec 20)
  /-- LRUN_SREG (R150) -/
  | lrunSreg (a : BitVec 5) (l : BitVec 20)
  /-- FENCE (R255) -/
  | fence (s : BitVec 3)
  /-- QFENCE (R256) -/
  | qfence (m : BitVec 10)
  /-- TRAP (R271) -/
  | trap (u : BitVec 16)
  /-- BR_SET (R143) -/
  | brSet (f : BitVec 2) (c : BitVec 2) (o : BitVec 22)
  /-- BR_CLEAR (R143) -/
  | brClear (f : BitVec 2) (c : BitVec 2) (o : BitVec 22)
  /-- JMP (R143) -/
  | jmp (o : BitVec 22)
  /-- CALL (R144) -/
  | call (o : BitVec 22)
  /-- NOP (R148) -/
  | nop
  /-- EXIT (R149) -/
  | exit
  /-- YIELD (R148) -/
  | yield
  /-- SLEEP (R148) -/
  | sleep (a : BitVec 5)
  /-- LSYNC (R152) -/
  | lsync
  /-- JMPR (R144) -/
  | jmpr (a : BitVec 5)
  /-- RET (R144) -/
  | ret
  /-- LEXIT (R147) -/
  | lexit
  /-- REGGIVE (R163) -/
  | reggive (d : BitVec 5) (a : BitVec 5)
  /-- REGCLAIM (R164) -/
  | regclaim (d : BitVec 5) (a : BitVec 5)
  /-- TRET_REGION (R273) -/
  | tretRegion
  /-- TRET_AGAIN (R273) -/
  | tretAgain
  /-- TRET_NEXT (R273) -/
  | tretNext
  /-- CAUSE (R274) -/
  | cause (d : BitVec 5) (a : BitVec 5)
  /-- REGN (R266) -/
  | regn
  /-- FREC (R275) -/
  | frec (d : BitVec 5) (a : BitVec 5)
  /-- SUSP (R276) -/
  | susp (a : BitVec 5)
  /-- MWAIT (R230) -/
  | mwait (d : BitVec 5) (a : BitVec 5) (b : BitVec 5)
  /-- BANKCFG (R231) -/
  | bankcfg (d : BitVec 5) (a : BitVec 5) (b : BitVec 5)
  /-- DISCARD (R232) -/
  | discard (a : BitVec 5) (b : BitVec 5)
  /-- FLUSH (R232) -/
  | flush (a : BitVec 5) (b : BitVec 5)
  /-- INVAL (R232) -/
  | inval (a : BitVec 5) (b : BitVec 5)
  /-- PREF (R232) -/
  | pref (a : BitVec 5) (b : BitVec 5)
  /-- L2CFG (R233) -/
  | l2cfg (d : BitVec 5) (a : BitVec 5)
  /-- BAR_INIT (R235) -/
  | barInit (a : BitVec 5) (b : BitVec 5)
  /-- BAR_ARRIVE (R236) -/
  | barArrive (d : BitVec 5) (a : BitVec 5) (b : BitVec 5)
  /-- BAR_WAIT (R237) -/
  | barWait (d : BitVec 5) (a : BitVec 5) (b : BitVec 5)
  /-- BAR_TEST (R237) -/
  | barTest (d : BitVec 5) (a : BitVec 5) (b : BitVec 5)
  /-- COPY (R296) -/
  | copy (d : BitVec 5) (a : BitVec 5)
  /-- GCOPY (R297) -/
  | gcopy (d : BitVec 5) (a : BitVec 5)
  /-- MCOPY (R298) -/
  | mcopy (d : BitVec 5) (a : BitVec 5) (b : BitVec 5)
  /-- CSEAL (R300) -/
  | cseal (d : BitVec 5)
  /-- CWAIT_UPTO (R301) -/
  | cwaitUpto (a : BitVec 5)
  /-- CWAIT_LEFT (R301) -/
  | cwaitLeft (a : BitVec 5)
  /-- CCONT (R304) -/
  | ccont (d : BitVec 5) (a : BitVec 5) (b : BitVec 5)
  /-- CSTAT (R302) -/
  | cstat (d : BitVec 5) (a : BitVec 5)
  /-- PATCH (R354) -/
  | patch (d : BitVec 5) (a : BitVec 5) (b : BitVec 5)
  /-- SPLIT (R356) -/
  | split (d : BitVec 5) (a : BitVec 5) (b : BitVec 5)
  /-- DICE (R349) -/
  | dice (d : BitVec 5) (a : BitVec 5) (b : BitVec 5)
  /-- GBOUND (R357) -/
  | gbound (d : BitVec 5) (a : BitVec 5) (b : BitVec 5)
  /-- BSPILL (R358) -/
  | bspill (d : BitVec 5) (a : BitVec 5) (b : BitVec 5)
  /-- BFILL (R359) -/
  | bfill (d : BitVec 5) (a : BitVec 5) (b : BitVec 5)
  /-- SPAT (R373) -/
  | spat (d : BitVec 5) (a : BitVec 5) (b : BitVec 5)
  /-- SGRID (R375) -/
  | sgrid (d : BitVec 5) (a : BitVec 5) (b : BitVec 5)
  /-- SFLUSH (R374) -/
  | sflush (d : BitVec 5) (a : BitVec 5) (b : BitVec 5)
  /-- SRESOLVE (R376) -/
  | sresolve (d : BitVec 5) (a : BitVec 5) (b : BitVec 5)
  /-- BVHBIND (R401) -/
  | bvhbind (d : BitVec 5) (a : BitVec 5) (b : BitVec 5)
  /-- RCFADE (R402) -/
  | rcfade (d : BitVec 5) (a : BitVec 5) (b : BitVec 5)
  /-- TEXBIND (R418) -/
  | texbind (d : BitVec 5) (a : BitVec 5) (b : BitVec 5)
  /-- XDELTA (R441) -/
  | xdelta (d : BitVec 5) (a : BitVec 5) (b : BitVec 5)
  /-- XDCMP (R442) -/
  | xdcmp (a : BitVec 5) (b : BitVec 5)
  /-- XFCLR (R440) -/
  | xfclr (a : BitVec 5) (b : BitVec 5)
  /-- KTWIN (R456) -/
  | ktwin (d : BitVec 5) (a : BitVec 5)
  /-- KPEAL (R457) -/
  | kpeal (d : BitVec 5) (a : BitVec 5) (b : BitVec 5)
  /-- KRST (R458) -/
  | krst (a : BitVec 5)
  /-- KWAIT (R459) -/
  | kwait (d : BitVec 5) (a : BitVec 5)
  /-- KSTAT (R460) -/
  | kstat (d : BitVec 5) (a : BitVec 5)
  /-- SPAWN (R483) -/
  | spawn (d : BitVec 5) (a : BitVec 5) (b : BitVec 5)
  /-- NDONE (R485) -/
  | ndone (a : BitVec 5) (b : BitVec 5)
  /-- STEPB (R486) -/
  | stepb (d : BitVec 5)
  /-- PRIO (R487) -/
  | prio (d : BitVec 5) (a : BitVec 5)
  /-- ERD (R488) -/
  | erd (d : BitVec 5) (a : BitVec 5)
  /-- BQPUSH (R489) -/
  | bqpush (d : BitVec 5) (a : BitVec 5) (b : BitVec 5)
  /-- BQPOP (R490) -/
  | bqpop (d : BitVec 5) (a : BitVec 5)
  /-- DIEQ (R488) -/
  | dieq (d : BitVec 5) (a : BitVec 5)
  /-- QROOT (R503) -/
  | qroot (d : BitVec 5)
  /-- QSPLIT (R504) -/
  | qsplit (d : BitVec 5) (a : BitVec 5) (b : BitVec 5)
  /-- QRET_W (R505) -/
  | qretW (d : BitVec 5) (a : BitVec 5)
  /-- QRET_M (R505) -/
  | qretM (d : BitVec 5) (a : BitVec 5)
  /-- QBORROW (R506) -/
  | qborrow (d : BitVec 5)
  /-- QWAIT (R507) -/
  | qwait (d : BitVec 5) (a : BitVec 5)
  /-- QPOLL (R508) -/
  | qpoll (d : BitVec 5) (a : BitVec 5)
  /-- QSEND (R509) -/
  | qsend (d : BitVec 5) (a : BitVec 5)
  /-- MSHAPE (R317) -/
  | mshape (s : BitVec 5) (a : BitVec 5) (b : BitVec 5)
  /-- MLOADB (R318) -/
  | mloadb (t : BitVec 5) (s : BitVec 5) (b : BitVec 5)
  /-- MMA (R319) -/
  | mma (c : BitVec 5) (s : BitVec 5) (b : BitVec 5)
  /-- MMAC (R319) -/
  | mmac (c : BitVec 5) (s : BitVec 5) (b : BitVec 5)
  /-- MZERO (R322) -/
  | mzero (c : BitVec 5) (s : BitVec 5) (b : BitVec 5)
  /-- MSTAT (R323) -/
  | mstat (d : BitVec 5) (a : BitVec 5) (b : BitVec 5)
  -- lane words
  /-- IADD (R170) -/
  | iadd (w : LaneW)
  /-- ISUB (R170) -/
  | isub (w : LaneW)
  /-- IMUL (R170) -/
  | imul (w : LaneW)
  /-- IMAD (R170) -/
  | imad (w : LaneW)
  /-- IMULH (R170) -/
  | imulh (w : LaneW)
  /-- IABS (R170) -/
  | iabs (w : LaneW)
  /-- IMIN (R170) -/
  | imin (w : LaneW)
  /-- IMAX (R170) -/
  | imax (w : LaneW)
  /-- LANE_AND (R170) -/
  | laneAnd (w : LaneW)
  /-- LANE_OR (R170) -/
  | laneOr (w : LaneW)
  /-- LANE_XOR (R170) -/
  | laneXor (w : LaneW)
  /-- NOT (R170) -/
  | notL (w : LaneW)
  /-- LANE_SHL (R171) -/
  | laneShl (w : LaneW)
  /-- LANE_SHR (R171) -/
  | laneShr (w : LaneW)
  /-- LANE_SRA (R171) -/
  | laneSra (w : LaneW)
  /-- BFE (R171) -/
  | bfe (w : LaneW)
  /-- BFI (R171) -/
  | bfi (w : LaneW)
  /-- POPC (R170) -/
  | popc (w : LaneW)
  /-- CLZ (R170) -/
  | clz (w : LaneW)
  /-- ISETP (R172) -/
  | isetp (w : LaneW)
  /-- MOV (R173) -/
  | mov (w : LaneW)
  /-- LANE_SEL (R174) -/
  | laneSel (w : LaneW)
  /-- PLOP (R175) -/
  | plop (w : LaneW)
  /-- FADD (R176) -/
  | fadd (w : LaneW)
  /-- FSUB (R176) -/
  | fsub (w : LaneW)
  /-- FMUL (R176) -/
  | fmul (w : LaneW)
  /-- FFMA (R176) -/
  | ffma (w : LaneW)
  /-- FMIN (R176) -/
  | fmin (w : LaneW)
  /-- FMAX (R176) -/
  | fmax (w : LaneW)
  /-- FSETP (R177) -/
  | fsetp (w : LaneW)
  /-- FRND (R178) -/
  | frnd (w : LaneW)
  /-- FRCP (R121) -/
  | frcp (w : LaneW)
  /-- FRSQ (R121) -/
  | frsq (w : LaneW)
  /-- FSQRT (R176) -/
  | fsqrt (w : LaneW)
  /-- FEXP2 (R121) -/
  | fexp2 (w : LaneW)
  /-- FLOG2 (R121) -/
  | flog2 (w : LaneW)
  /-- FSIN (R122) -/
  | fsin (w : LaneW)
  /-- FCOS (R122) -/
  | fcos (w : LaneW)
  /-- HADD2 (R179) -/
  | hadd2 (w : LaneW)
  /-- HMUL2 (R179) -/
  | hmul2 (w : LaneW)
  /-- HFMA2 (R179) -/
  | hfma2 (w : LaneW)
  /-- CVT (R180) -/
  | cvt (w : LaneW)
  /-- SHFL (R182) -/
  | shfl (w : LaneW)
  /-- VOTE (R183) -/
  | vote (w : LaneW)
  /-- GRED (R184) -/
  | gred (w : LaneW)
  /-- GSCAN (R184) -/
  | gscan (w : LaneW)
  /-- GDX (R185) -/
  | gdx (w : LaneW)
  /-- GDY (R185) -/
  | gdy (w : LaneW)
  /-- XCHG (R186) -/
  | xchg (w : LaneW)
  /-- BRL (R190) -/
  | brl (w : LaneW)
  /-- SWITCH (R191) -/
  | switchL (w : LaneW)
  /-- RECONV (R192) -/
  | reconv (w : LaneW)
  /-- LLOOP (R193) -/
  | lloop (w : LaneW)
  /-- LLEXIT (R195) -/
  | llexit (w : LaneW)
  /-- LSTOP (R196) -/
  | lstop (w : LaneW)
  /-- LD (R226) -/
  | ld (w : LaneW)
  /-- ST (R226) -/
  | st (w : LaneW)
  /-- LDX (R226) -/
  | ldx (w : LaneW)
  /-- STX (R226) -/
  | stx (w : LaneW)
  /-- ATOM (R227) -/
  | atom (w : LaneW)
  /-- ATOMX (R227) -/
  | atomx (w : LaneW)
  /-- FQPUT (R229) -/
  | fqput (w : LaneW)
  /-- FQGET (R229) -/
  | fqget (w : LaneW)
  /-- MFEED (R325) -/
  | mfeed (w : LaneW)
  /-- MSCALE (R326) -/
  | mscale (w : LaneW)
  /-- MDRAIN (R327) -/
  | mdrain (w : LaneW)
  /-- MFMT (R328) -/
  | mfmt (w : LaneW)
  /-- GREAD (R360) -/
  | gread (w : LaneW)
  /-- GREAD_APRON (R360) -/
  | greadApron (w : LaneW)
  /-- GWRITE (R361) -/
  | gwrite (w : LaneW)
  /-- GNORM (R362) -/
  | gnorm (w : LaneW)
  /-- SCOVER (R378) -/
  | scover (w : LaneW)
  /-- SREAD (R379) -/
  | sread (w : LaneW)
  /-- SWRITE (R379) -/
  | swrite (w : LaneW)
  /-- SWRITE_Z (R379) -/
  | swriteZ (w : LaneW)
  /-- TRACE (R391) -/
  | trace (w : LaneW)
  /-- TRACE_SORT (R392) -/
  | traceSort (w : LaneW)
  /-- HITGET (R395) -/
  | hitget (w : LaneW)
  /-- RCLOOK (R399) -/
  | rclook (w : LaneW)
  /-- RCINS (R400) -/
  | rcins (w : LaneW)
  /-- TEX (R414) -/
  | tex (w : LaneW)
  /-- TEXG (R414) -/
  | texg (w : LaneW)
  /-- TEXQ (R415) -/
  | texq (w : LaneW)
  /-- TEXLAT (R414) -/
  | texlat (w : LaneW)
  /-- XMAT (R427) -/
  | xmat (w : LaneW)
  /-- XLUT1 (R428) -/
  | xlut1 (w : LaneW)
  /-- XLUT3 (R429) -/
  | xlut3 (w : LaneW)
  /-- XRAW (R432) -/
  | xraw (w : LaneW)
  /-- XPACK (R430) -/
  | xpack (w : LaneW)
  /-- XUNPK (R430) -/
  | xunpk (w : LaneW)
  /-- KLAUNCH (R461) -/
  | klaunch (w : LaneW)
  /-- KCAPT (R462) -/
  | kcapt (w : LaneW)
  /-- SPAWN_LANE (R484) -/
  | spawnLane (w : LaneW)
  /-- QSEND_LANE (R510) -/
  | qsendLane (w : LaneW)
  -- steps of engines, controllers, links and the outside
  /-- LONG_LATENCY_RESULT_WRITE (R89) -/
  | longLatencyResultWrite (unit : Nat) (who : Nat) (k : Nat)
  /-- ALD_READS_PERFORM (R157) -/
  | aldReadsPerform (g : Nat) (q : Nat) (k : Nat)
  /-- LANE_MEMORY_ACCESS_PERFORM (R224) -/
  | laneMemoryAccessPerform (g : Nat) (k : Nat) (n : Nat)
  /-- RANGE_MAINTENANCE_PERFORM (R232) -/
  | rangeMaintenancePerform (part : Part) (keep : List Nat)
  /-- COPY_ENTRY_PERFORM (R293) -/
  | copyEntryPerform (g : Nat) (n : Nat)
  /-- CONTINUATION_START (R305) -/
  | continuationStart (gang : Nat) (k : Nat)
  /-- MLOADB_ENTRY_PERFORM (R318) -/
  | mloadbEntryPerform (gang : Nat)
  /-- MMA_ENTRY_PERFORM (R320) -/
  | mmaEntryPerform (gang : Nat)
  /-- MZERO_ENTRY_PERFORM (R322) -/
  | mzeroEntryPerform (gang : Nat)
  /-- MFEED_ENTRY_PERFORM (R325) -/
  | mfeedEntryPerform (g : Nat)
  /-- MSCALE_ENTRY_PERFORM (R326) -/
  | mscaleEntryPerform (g : Nat)
  /-- MDRAIN_ENTRY_PERFORM (R327) -/
  | mdrainEntryPerform (part : Part) (elems : List Nat)
  /-- MFMT_REQUEST (R328) -/
  | mfmtRequest (g : Nat) (tag : Nat)
  /-- DICE_ENTRY_PERFORM (R347) -/
  | diceEntryPerform (part : Part)
  /-- FILL_ENTRY_PERFORM (R349) -/
  | fillEntryPerform (part : Part)
  /-- SPILL_ENTRY_PERFORM (R342) -/
  | spillEntryPerform (g : Nat) (n : Nat)
  /-- ENGINE_SPILL (R343) -/
  | engineSpill (slot : Nat)
  /-- GREAD_ENTRY_PERFORM (R360) -/
  | greadEntryPerform (g : Nat)
  /-- GWRITE_ENTRY_PERFORM (R361) -/
  | gwriteEntryPerform (g : Nat)
  /-- SFLUSH_ENTRY_PERFORM (R374) -/
  | sflushEntryPerform (g : Nat) (n : Nat)
  /-- SGRID_ENTRY_PERFORM (R375) -/
  | sgridEntryPerform (part : Part)
  /-- SRESOLVE_ENTRY_PERFORM (R376) -/
  | sresolveEntryPerform (g : Nat) (n : Nat)
  /-- SCOVER_ENTRY_PERFORM (R378) -/
  | scoverEntryPerform (g : Nat)
  /-- SAMPLE_RECORD_ENTRY_PERFORM (R379) -/
  | sampleRecordEntryPerform (part : Part)
  /-- TRACE_ENTRY_PERFORM (R391) -/
  | traceEntryPerform (part : Part)
  /-- TRACE_SORT_MEETING (R394) -/
  | traceSortMeeting (gang : Nat) (pos : Nat) (regcnt : Nat) (n : Nat)
  /-- HITGET_ENTRY_PERFORM (R395) -/
  | hitgetEntryPerform (part : Part)
  /-- RCLOOK_ENTRY_PERFORM (R399) -/
  | rclookEntryPerform (part : Part)
  /-- RCINS_ENTRY_PERFORM (R400) -/
  | rcinsEntryPerform (part : Part)
  /-- RCFADE_ENTRY_PERFORM (R402) -/
  | rcfadeEntryPerform (g : Nat) (n : Nat)
  /-- TEX_ENTRY_PERFORM (R410) -/
  | texEntryPerform (part : ReadPart)
  /-- TEXQ_ENTRY_PERFORM (R415) -/
  | texqEntryPerform (part : ReadPart)
  /-- COLOUR_TRANSFORM_ENTRY_PERFORM (R426) -/
  | colourTransformEntryPerform (g : Nat)
  /-- PACK_ENTRY_PERFORM (R430) -/
  | packEntryPerform (g : Nat)
  /-- XRAW_ENTRY_PERFORM (R432) -/
  | xrawEntryPerform (g : Nat)
  /-- XFCLR_ENTRY_PERFORM (R440) -/
  | xfclrEntryPerform (g : Nat)
  /-- XDELTA_ENTRY_PERFORM (R441) -/
  | xdeltaEntryPerform (g : Nat)
  /-- XDCMP_ENTRY_PERFORM (R442) -/
  | xdcmpEntryPerform (g : Nat)
  /-- KTWIN_ENTRY_PERFORM (R456) -/
  | ktwinEntryPerform (g : Nat)
  /-- KPEAL_ENTRY_PERFORM (R457) -/
  | kpealEntryPerform (part : Part)
  /-- KRST_ENTRY_PERFORM (R458) -/
  | krstEntryPerform (g : Nat)
  /-- KLAUNCH_ENTRY_PERFORM (R461) -/
  | klaunchEntryPerform (g : Nat)
  /-- KCAPT_ENTRY_PERFORM (R462) -/
  | kcaptEntryPerform (g : Nat)
  /-- BALLAST_DEPOSIT_PERFORM (R504) -/
  | ballastDepositPerform (g : Nat)
  /-- QRET_ENTRY_PERFORM (R505) -/
  | qretEntryPerform (g : Nat)
  /-- TAKE_CAUSE (R262) -/
  | takeCause (unit : Nat) (who : Nat)
  /-- PARK_BLOCK_WRITE (R525) -/
  | parkBlockWrite (inst : Nat) (img : List (BitVec 8))
  /-- SOFT_ERROR (R287) -/
  | softError (unit : Nat) (who : Nat)
  /-- SLEEP_EXPIRE (R148) -/
  | sleepExpire (unit : Nat) (who : Nat)
  /-- MWAIT_WAKE (R230) -/
  | mwaitWake (unit : Nat) (who : Nat)
  /-- XCHG_MATCH (R187) -/
  | xchgMatch (g : Nat) (h : Nat)
  /-- TRANSLATION_WALK (R207) -/
  | translationWalk (die : Nat) (cl : Nat) (root : Nat) (va : Nat) (alt : Nat) (victim : Nat)
  /-- CACHE_LINE_EXPIRE (R247) -/
  | cacheLineExpire (die : Nat) (cl : Nat) (core : Nat) (block : Nat)
  /-- WRITE_COMBINE_TIMEOUT (R220) -/
  | writeCombineTimeout (die : Nat) (block : Nat) (secs : Nat)
  /-- GANG_ADMISSION (R50) -/
  | gangAdmission (inst : Nat) (x : Nat) (y : Nat) (z : Nat) (cl : Nat) (commit : Bool)
  /-- ADMISSION_RETRY (R50) -/
  | admissionRetry (inst : Nat) (x : Nat) (y : Nat) (z : Nat)
  /-- GANG_RETIRE (R22) -/
  | gangRetire (gang : Nat)
  /-- INSTANCE_RETIRE (R41) -/
  | instanceRetire (launch : Nat) (number : Nat)
  /-- DISPATCH_INSTANCE (R472) -/
  | dispatchInstance (die : Nat) (inst : Nat)
  /-- LAUNCH_START (R478) -/
  | launchStart (launch : Nat)
  /-- STEP_BOUNDARY (R55) -/
  | stepBoundary (launch : Nat)
  /-- PREEMPTION (R282) -/
  | preemption (launch : Nat)
  /-- PARTITION_RESUME (R68) -/
  | partitionResume (launch : Nat) (parts : List (Nat × List Nat))
  /-- CLUSTER_POWER_UP (R474) -/
  | clusterPowerUp (die : Nat) (cl : Nat)
  /-- PERIOD_BOUNDARY (R475) -/
  | periodBoundary (die : Nat)
  /-- POWER_WINDOW (R523) -/
  | powerWindow (die : Nat) (mw : Nat)
  /-- THERMAL_WARNING (R523) -/
  | thermalWarning (die : Nat) (sensor : Nat) (temp : Int)
  /-- THERMAL_RECOVERY (R523) -/
  | thermalRecovery (die : Nat) (temps : List Int)
  /-- THERMAL_FREEZE (R523) -/
  | thermalFreeze (die : Nat) (sensor : Nat) (temp : Int)
  /-- ACCUMULATOR_FORWARD (R497) -/
  | accumulatorForward (die : Nat) (k : Nat)
  /-- TETHER_STEAL (R480) -/
  | tetherSteal (die : Nat) (launch : Nat)
  /-- STEAL_RETRY (R480) -/
  | stealRetry (die : Nat) (launch : Nat)
  /-- DEPTH_REPORT_SEND (R480) -/
  | depthReportSend (die : Nat) (launch : Nat)
  /-- WRITE (R251) -/
  | writeMsg (src : Nat) (dst : Nat) (addr : Nat) (bytes : List (BitVec 8))
  /-- NOTICE (R251) -/
  | noticeMsg (src : Nat) (dst : Nat)
  /-- READ (R253) -/
  | readMsg (src : Nat) (dst : Nat)
  /-- RDATA (R253) -/
  | rdataMsg (src : Nat) (dst : Nat)
  /-- ACK (R253) -/
  | ackMsg (src : Nat) (dst : Nat)
  /-- MESSAGE_APPLY (R253) -/
  | messageApply (src : Nat) (dst : Nat)
  /-- RETURN (R497) -/
  | returnMsg (src : Nat) (dst : Nat)
  /-- BORROW (R496) -/
  | borrowMsg (src : Nat) (dst : Nat)
  /-- GRANT (R496) -/
  | grantMsg (src : Nat) (dst : Nat)
  /-- REFUSE (R496) -/
  | refuseMsg (src : Nat) (dst : Nat)
  /-- DEPOSIT (R500) -/
  | depositMsg (src : Nat) (dst : Nat)
  /-- TRANSFER (R480) -/
  | transferMsg (src : Nat) (dst : Nat)
  /-- WAKE (R507) -/
  | wakeMsg (src : Nat) (dst : Nat)
  /-- STEAL_REQUEST (R480) -/
  | stealRequest (src : Nat) (dst : Nat)
  /-- STEAL_REPLY (R480) -/
  | stealReply (src : Nat) (dst : Nat)
  /-- DEPTH_REPORT (R480) -/
  | depthReport (src : Nat) (dst : Nat)
  /-- HOST_REGISTER_REQUEST (R516) -/
  | hostRegisterRequest (die : Nat) (wr : Bool) (offset : Nat) (size : Nat) (val : Nat) (tag : Nat)
  /-- HOST_REGISTER_RESPONSE (R516) -/
  | hostRegisterResponse (die : Nat)
  /-- EVENT (R520) -/
  | eventFlit (die : Nat)
  /-- LQTAIL_WRITE (R517) -/
  | lqtailWrite (die : Nat) (val : Nat)
  /-- LAUNCH_RECORD (R519) -/
  | launchRecord (die : Nat)
  /-- RESUME (R279) -/
  | resumeCmd (die : Nat)
  /-- ABORT (R519) -/
  | abortCmd (die : Nat)
  /-- SWITCH_COMMAND (R282) -/
  | switchCmd (die : Nat)
  /-- WITHDRAW (R478) -/
  | withdrawCmd (die : Nat)
  /-- TLBINV (R519) -/
  | tlbinvCmd (die : Nat)
  /-- MCCLR (R223) -/
  | mcclr (die : Nat) (val : Nat)
  /-- REGISTER_WRITE (R528) -/
  | registerWrite (die : Nat) (offset : Nat) (size : Nat) (val : Nat)
  /-- BOOT (R521) -/
  | boot (die : Nat)
  /-- ATTESTATION_QUOTE (R522) -/
  | attestationQuote (die : Nat)
  /-- QUOTE_READY (R522) -/
  | quoteReady (die : Nat)
  /-- RESET (R521) -/
  | resetAll (form : Nat)
  /-- LINK_TRAINING (R512) -/
  | linkTraining (die : Nat) (k : Nat) (width : Nat) (rate : Nat)
  /-- LINK_LOST (R515) -/
  | linkLost (die : Nat) (k : Nat)
  /-- FREEZE (R288) -/
  | freeze
  /-- FREEZE_COMMAND (R288) -/
  | freezeCommand
  /-- THAW (R288) -/
  | thaw
  /-- THAW_COMMAND (R288) -/
  | thawCommand
  /-- TIME_SLICE_EXPIRY (R473) -/
  | timeSliceExpiry (launch : Nat)
  /-- HCMD_NOT_ACCEPTED (R529) -/
  | hcmdNotAccepted (die : Nat) (val : Nat)
  /-- LINK_DOWN (R515) -/
  | linkDown (die : Nat) (k : Nat)
  /-- DROPPED_FLIT (R513) -/
  | droppedFlit (die : Nat) (weight : Nat)
  /-- FLIT_RETRY (R513) -/
  | flitRetry (die : Nat) (k : Nat) (n : Nat)
  deriving DecidableEq, Repr

end Sys2Proof
end

