-- ==== Sys2Proof/Decode.lean ====
section
/-! DEFINITION. What each lane opcode accepts and the checks a lane word can fail by itself (R79 to R93, Table 3-10);
decoding words to instructions, rejecting by the cause a word raises, and encoding them back
(03_encoding.md). A word is taken as a number, bit 0 its least significant bit; lane words count 96 bits. -/

set_option linter.unusedVariables false

namespace Sys2Proof

/-! ## What a lane word may hold -/

/-- What an operand slot accepts (Table 3-5, R83). -/
inductive Slot where
  /-- the field is unused and holds zero -/
  | zero
  /-- any 32-bit operand code -/
  | any
  /-- a data slot: 32 bits, or 64 bits under a 64-bit type -/
  | typed
  /-- IMAD's C: as typed, and 64 bits under W (R170) -/
  | wide
  /-- a 64-bit address slot -/
  | addr
  /-- a v code only -/
  | vreg
  /-- an s code only -/
  | sreg
  /-- an s code or the zero code -/
  | sregZ
  /-- a sub-function code from 0 below the bound -/
  | sub (bound : Nat)
  /-- SWITCH's count, 1 to 8 -/
  | count8
  /-- GSCAN's sub-code: an operation below 6, plus 8 for exclusive -/
  | scan
  deriving DecidableEq, Repr

/-- What the destination accepts (R80). -/
inductive Dest where
  | none
  | v
  | vTyped
  | vExact
  | vExactTyped
  | vOr127
  | vOr127Typed
  | p
  | vp
  | only127
  deriving DecidableEq, Repr

/-- What a lane opcode accepts (R88). -/
structure LSpec where
  types : List Nat
  modMask : Nat
  dst : Dest
  a : Slot
  b : Slot
  c : Slot
  /-- the bits of IMM32 the instruction uses itself; none when IMM32 is an operand or zero -/
  imm : Option Nat
  long : Bool
  uniform : Bool
  unguarded : Bool
  deriving DecidableEq, Repr

/-- All integer types (Table 6-1). -/
def allInt : List Nat := [1, 2, 3, 4, 5, 6, 7, 8]

/-- A row of the arithmetic kind: no own IMM32, no uniform form, any guard. -/
def arith (types : List Nat) (modMask : Nat) (dst : Dest) (a b c : Slot) (long : Bool := false) : LSpec :=
  ⟨types, modMask, dst, a, b, c, none, long, false, false⟩

/-- A row that uses IMM32 itself and takes no type and no modifier. -/
def engine (dst : Dest) (a b c : Slot) (imm : Nat) (long : Bool) : LSpec :=
  ⟨[0], 0, dst, a, b, c, some imm, long, false, false⟩

/-- What each lane opcode accepts (Tables 3-9, 6-1 to 6-5, 7-8, 11-8, 12-11, 13-5, 14-5, 15-2, 16-3, 17-7, R484, R510) (DEDUCED, log 58). -/
def laneSpec (op : Nat) : Option LSpec :=
  match op with
  | 0x01 => some (arith allInt 0x08 .vTyped .typed .typed .zero)
  | 0x02 => some (arith allInt 0x08 .vTyped .typed .typed .zero)
  | 0x03 => some (arith allInt 0x09 .vTyped .typed .typed .zero)
  | 0x04 => some (arith [3, 7] 0x09 .vTyped .typed .typed .wide)
  | 0x05 => some (arith [3, 7] 0 .vTyped .typed .typed .zero)
  | 0x06 => some (arith [1, 2, 3, 4] 0x08 .vTyped .typed .zero .zero)
  | 0x07 => some (arith allInt 0 .vTyped .typed .typed .zero)
  | 0x08 => some (arith allInt 0 .vTyped .typed .typed .zero)
  | 0x09 => some (arith [7, 8] 0 .vTyped .typed .typed .zero)
  | 0x0A => some (arith [7, 8] 0 .vTyped .typed .typed .zero)
  | 0x0B => some (arith [7, 8] 0 .vTyped .typed .typed .zero)
  | 0x0C => some (arith [7, 8] 0 .vTyped .typed .zero .zero)
  | 0x0D => some (arith [7, 8] 0 .vTyped .typed .any .zero)
  | 0x0E => some (arith [7, 8] 0 .vTyped .typed .any .zero)
  | 0x0F => some (arith [3, 4] 0 .vTyped .typed .any .zero)
  | 0x10 => some (arith [3, 7] 0 .v .any .any .zero)
  | 0x11 => some (arith [7] 0 .v .any .any .any)
  | 0x12 => some (arith [7, 8] 0 .v .typed .zero .zero)
  | 0x13 => some (arith [7, 8] 0 .v .typed .zero .zero)
  | 0x14 => some (arith allInt 0 .p .typed .typed (.sub 6))
  | 0x18 => some (arith [0, 8] 0 .vp .typed .zero .zero)
  | 0x19 => some (arith [0, 8] 0 .vTyped .typed .typed .zero)
  | 0x1A => some ⟨[0], 0, .p, .zero, .zero, .zero, some 0x00FF0777, false, false, false⟩
  | 0x20 => some (arith [9] 0xFE .v .any .any .zero)
  | 0x21 => some (arith [9] 0xFE .v .any .any .zero)
  | 0x22 => some (arith [9] 0xFE .v .any .any .zero)
  | 0x23 => some (arith [9] 0xFE .v .any .any .any)
  | 0x24 => some (arith [9] 0xF0 .v .any .any .zero)
  | 0x25 => some (arith [9] 0xF0 .v .any .any .zero)
  | 0x26 => some (arith [9] 0xF0 .p .any .any (.sub 8))
  | 0x27 => some (arith [9] 0xA6 .v .any .zero .zero)
  | 0x28 => some (arith [9] 0xA0 .v .any .zero .zero true)
  | 0x29 => some (arith [9] 0xA0 .v .any .zero .zero true)
  | 0x2A => some (arith [9] 0xAE .v .any .zero .zero true)
  | 0x2B => some (arith [9] 0xA0 .v .any .zero .zero true)
  | 0x2C => some (arith [9] 0xA0 .v .any .zero .zero true)
  | 0x2D => some (arith [9] 0xA0 .v .any .zero .zero true)
  | 0x2E => some (arith [9] 0xA0 .v .any .zero .zero true)
  | 0x30 => some (arith [14, 15] 0xCE .v .any .any .zero)
  | 0x31 => some (arith [14, 15] 0xCE .v .any .any .zero)
  | 0x32 => some (arith [14, 15] 0xCE .v .any .any .any)
  | 0x38 => some (arith [1, 2, 3, 4, 5, 6, 7, 8, 9, 10, 11, 12, 13, 14, 15] 0x0E .vTyped .typed .any .zero)
  | 0x40 => some (arith [0] 0 .v .any .any (.sub 4))
  | 0x41 => some ⟨[0], 0, .vp, .zero, .zero, .sub 3, some 0xF, false, false, false⟩
  | 0x42 => some (arith [3, 7, 9] 0x06 .v .any .zero (.sub 6))
  | 0x43 => some (arith [3, 7, 9] 0x06 .v .any .zero .scan)
  | 0x44 => some (arith [3, 9] 0x06 .v .any .zero (.sub 1))
  | 0x45 => some (arith [3, 9] 0x06 .v .any .zero (.sub 1))
  | 0x46 => some (engine .v .vreg .sreg (.sub 1) 0xFFFF false)
  | 0x50 => some ⟨[0], 0, .none, .zero, .zero, .zero, some 0xFFFFFFFF, false, true, false⟩
  | 0x51 => some ⟨[0], 0, .none, .any, .zero, .count8, some 0xFFFFFFFF, false, true, false⟩
  | 0x52 => some ⟨[0], 0, .none, .zero, .zero, .zero, some 0, false, false, true⟩
  | 0x53 => some ⟨[0], 0, .vOr127, .any, .zero, .zero, some 0xFFFFFFFF, false, true, false⟩
  | 0x54 => some ⟨[0], 0, .none, .zero, .zero, .zero, some 0, false, true, false⟩
  | 0x55 => some ⟨[0], 0, .none, .zero, .zero, .zero, some 0, false, false, true⟩
  | 0x60 => some ⟨allInt, 0xFE, .vExactTyped, .addr, .zero, .zero, some 0xFFFFFFFF, true, false, false⟩
  | 0x61 => some ⟨[5, 6, 7, 8], 0xFE, .none, .addr, .typed, .zero, some 0xFFFFFFFF, false, false, false⟩
  | 0x62 => some ⟨allInt, 0xF8, .vExactTyped, .any, .zero, .zero, some 0xFFFFFFFF, true, false, false⟩
  | 0x63 => some ⟨[5, 6, 7, 8], 0xF8, .none, .any, .typed, .zero, some 0xFFFFFFFF, false, false, false⟩
  | 0x64 => some ⟨[3, 7, 4, 8, 9], 0xF8, .vOr127Typed, .addr, .typed, .typed, some 0xF, true, false, false⟩
  | 0x65 => some ⟨[3, 7, 4, 8, 9], 0xF8, .vOr127Typed, .any, .typed, .typed, some 0xF, true, false, false⟩
  | 0x66 => some (engine .none .any .zero .zero 0x1FF false)
  | 0x67 => some (engine .vExact .zero .zero .zero 0x1FF true)
  | 0x70 => some (engine .only127 .any .any .zero 0x7F false)
  | 0x71 => some (engine .only127 .any .zero .zero 0x7F false)
  | 0x72 => some ⟨[0], 0x0E, .only127, .sregZ, .zero, .zero, some 0xFF1F, false, false, false⟩
  | 0x73 => some (engine .vExact .zero .zero (.sub 7) 0x3 true)
  | 0x78 => some (engine .vExact .sreg .zero (.sub 2) 0x1F3F3F true)
  | 0x79 => some (engine .only127 .vreg .sreg .zero 0xFFF false)
  | 0x7A => some (engine .vExact .vreg .zero .zero 0 true)
  | 0x80 => some (arith [0] 0 .vExact .any .sreg .zero true)
  | 0x81 => some (arith [0] 0 .vExact .any .zero .zero true)
  | 0x82 => some (arith [0] 0 .only127 .vreg .any (.sub 2))
  | 0x88 => some (engine .vExact .vreg .zero .zero 0x303 true)
  | 0x89 => some ⟨[0], 0, .vExact, .vreg, .zero, .zero, some 0x303, false, false, true⟩
  | 0x8A => some (engine .vExact .any .zero (.sub 4) 0x3 true)
  | 0x8B => some (engine .vExact .vreg .zero .zero 0x3 true)
  | 0x8C => some (engine .only127 .vreg .zero .zero 0x3 false)
  | 0x90 => some (engine .vExact .vreg .zero .zero 0xFF03 true)
  | 0x91 => some (engine .vExact .vreg .zero .zero 0xFF03 true)
  | 0x92 => some (engine .vExact .any .any .zero 0xFF03 true)
  | 0x93 => some (engine .vExact .vreg .zero .zero 0xFF03 true)
  | 0x98 => some (engine .vExact .vreg .sreg .zero 0 true)
  | 0x99 => some (engine .vExact .vreg .sreg .zero 0 true)
  | 0x9A => some (engine .vExact .vreg .sreg .zero 0 true)
  | 0x9B => some (engine .vExact .zero .sreg .zero 0x11F true)
  | 0x9C => some (engine .only127 .any .sreg .zero 0x1F false)
  | 0x9D => some (engine .vExact .zero .sreg .zero 0x11F true)
  | 0xA0 => some (engine .only127 .any .zero .zero 0xFF3F false)
  | 0xA1 => some (engine .vExact .zero .zero .zero 0x10 true)
  | 0xA8 => some (engine .vOr127 .any .any .zero 0xFFFF true)
  | 0xA9 => some (arith [0] 0 .vOr127 .addr .any .zero true)
  | _ => none

/-- The primary type (R84). -/
def LaneW.pty (w : LaneW) : Nat := w.ty.toNat % 16
/-- The secondary type (R84). -/
def LaneW.sty (w : LaneW) : Nat := w.ty.toNat / 16

/-- A 64-bit type code. -/
def wide64 (t : Nat) : Bool := t == 4 || t == 8

/-- The W modifier of IMUL and IMAD. -/
def LaneW.wflag (op : Nat) (w : LaneW) : Bool := (op == 0x03 || op == 0x04) && w.mod.getLsbD 0

/-- A 32-bit operand code of Table 3-5 that is not reserved. -/
def okCode (c : Nat) (fe : Bool) : Bool :=
  c ≤ 0x59 || (0x80 ≤ c && c ≤ 0x9F) || (c == 0xFE && fe) || c == 0xFF

/-- A code a 64-bit slot accepts (R83). -/
def okCode64 (c : Nat) (fe : Bool) : Bool :=
  (c < 64 && c % 2 == 0) || (0x80 ≤ c && c ≤ 0x9F) || (c == 0xFE && fe) || c == 0xFF

/-- The width in force in the data slots: CVT reads its source type (R180). -/
def LaneW.dataTy (op : Nat) (w : LaneW) : Nat := if op = 0x38 then w.sty else w.pty

/-- The cause a slot's code raises, 0 for none (Table 3-10). -/
def slotCause (op : Nat) (w : LaneW) (fe : Bool) (s : Slot) (c : Nat) : Nat :=
  match s with
  | .zero => if c = 0 then 0 else 2
  | .any => if okCode c fe then 0 else 2
  | .typed => if wide64 (w.dataTy op) then (if okCode64 c fe then 0 else 2) else (if okCode c fe then 0 else 2)
  | .wide => if w.wflag op then (if okCode64 c fe then 0 else 2) else (if okCode c fe then 0 else 2)
  | .addr => if okCode64 c false then 0 else 2
  | .vreg => if c < 64 then 0 else 2
  | .sreg => if 0x80 ≤ c ∧ c ≤ 0x9F then 0 else 2
  | .sregZ => if (0x80 ≤ c ∧ c ≤ 0x9F) ∨ c = 0xFF then 0 else 2
  | .sub n => if c < n then 0 else 1
  | .count8 => if 1 ≤ c ∧ c ≤ 8 then 0 else 1
  | .scan => if c % 8 < 6 ∧ c < 16 then 0 else 1

/-- The destination is a 64-bit pair. -/
def LaneW.pairDst (op : Nat) (w : LaneW) : Bool := wide64 w.pty || w.wflag op

/-- The cause the destination code raises, 0 for none (R80, R83). -/
def dstCause (op : Nat) (w : LaneW) : Dest → Nat
  | .none => if w.d.toNat = 0 then 0 else 2
  | .v => if w.d.toNat < 64 ∨ w.d.toNat = 127 then 0 else 2
  | .vTyped => if (w.d.toNat < 64 ∧ (w.pairDst op = true → w.d.toNat % 2 = 0)) ∨ w.d.toNat = 127 then 0 else 2
  | .vExact => if w.d.toNat < 64 then 0 else 2
  | .vExactTyped => if w.d.toNat < 64 ∧ (w.pairDst op = true → w.d.toNat % 2 = 0) then 0 else 2
  | .vOr127 => if w.d.toNat < 64 ∨ w.d.toNat = 127 then 0 else 2
  | .vOr127Typed => if (w.d.toNat < 64 ∧ (w.pairDst op = true → w.d.toNat % 2 = 0)) ∨ w.d.toNat = 127 then 0 else 2
  | .p => if (64 ≤ w.d.toNat ∧ w.d.toNat < 72) ∨ w.d.toNat = 127 then 0 else 2
  | .vp => if (w.d.toNat < 64 ∧ (w.pairDst op = true → w.d.toNat % 2 = 0)) ∨ w.d.toNat = 127 ∨
      (64 ≤ w.d.toNat ∧ w.d.toNat < 72 ∧ w.pairDst op = false) then 0 else 2
  | .only127 => if w.d.toNat = 127 then 0 else 2

/-- Cause 2 unless the condition holds. -/
def need2 (b : Bool) : Nat := if b then 0 else 2
/-- Cause 1 unless the condition holds. -/
def need1 (b : Bool) : Nat := if b then 0 else 1

/-- CVT's pairs of destination and source type (Table 6-3). -/
def cvtPair (d s : Nat) : Bool :=
  let int := fun t => 1 ≤ t && t ≤ 8
  if int d then int s || (9 ≤ s && s ≤ 12)
  else if d == 9 then int s || s == 10 || s == 11 || s == 12 || s == 13
  else if d == 10 || d == 11 || d == 12 then int s || (9 ≤ s && s ≤ 12 && s != d)
  else if d == 13 then s == 9
  else (d == 14 || d == 15) && s == 9

/-- The checks that belong to single instructions: type against sub-code, modifiers that depend on the type, own IMM32
values (R170, R173, R180, R183, R184, R193, R225, R227, Table 6-4). -/
def ownCauses (op : Nat) (w : LaneW) : List Nat :=
  let ty := w.pty
  let c := w.c.toNat
  let m := w.mod.toNat
  match op with
  | 0x03 => [need2 (!w.mod.getLsbD 0 || ty == 3 || ty == 7)]
  | 0x38 => [need1 (cvtPair ty w.sty), need2 (ty == 14 || ty == 15 || w.b == 0)]
  | 0x41 => [need2 (c != 2 || w.d.toNat < 64 || w.d.toNat == 127)]
  | 0x42 => [need1 (c < 3 || ty == 7), need2 (m == 0 || (ty == 9 && c == 0))]
  | 0x43 => [need1 (c % 8 < 3 || ty == 7), need2 (m == 0 || (ty == 9 && c % 8 == 0))]
  | 0x44 => [need2 (m == 0 || ty == 9)]
  | 0x45 => [need2 (m == 0 || ty == 9)]
  | 0x53 => [need2 (1 ≤ w.imm.toNat && w.imm.toNat < 2 ^ 31)]
  | 0x60 => [need2 (m / 64 == 0 && m / 8 % 8 == 0 || m / 64 == 1 && m / 8 % 8 < 6)]
  | 0x61 => [need2 (m / 64 == 0 && m / 8 % 8 == 0 || m / 64 == 2 && m / 8 % 8 < 6)]
  | 0x62 => [need2 (m / 64 == 0 && m / 8 % 8 == 0 || m / 64 == 1 && m / 8 % 8 < 6)]
  | 0x63 => [need2 (m / 64 == 0 && m / 8 % 8 == 0 || m / 64 == 2 && m / 8 % 8 < 6)]
  | 0x64 => atomCauses ty c m w.imm.toNat
  | 0x65 => atomCauses ty c m w.imm.toNat
  | _ => []
where
  /-- ATOM and ATOMX: sub-code, type and compare slot (R227). -/
  atomCauses (ty c m imm : Nat) : List Nat :=
    let op := imm % 16
    [need2 (m / 64 == 0 && m / 8 % 8 == 0 || m / 64 != 0 && m / 8 % 8 < 6),
     need1 (op < 8),
     need1 (!(3 ≤ op && op ≤ 5) || ty == 7 || ty == 8),
     need2 (op == 7 || c == 0)]

/-- The lowest non-zero cause of a list, 0 when there is none (R34). -/
def lowest : List Nat → Nat
  | [] => 0
  | c :: cs =>
    let r := lowest cs
    if c = 0 then r else if r = 0 then c else min c r

/-- Whether the word holds 0xFE in a slot that reads an operand. -/
def usesImm (s : LSpec) (w : LaneW) : Bool :=
  let one := fun (sl : Slot) (c : BitVec 8) => match sl with
    | .any => c == 0xFE
    | .typed => c == 0xFE
    | .wide => c == 0xFE
    | _ => false
  one s.a w.a || one s.b w.b || one s.c w.c

/-- The cause a lane word with this opcode raises by its own fields, 0 for none (Table 3-10). -/
def laneCause (op : Nat) (w : LaneW) : Nat :=
  match laneSpec op with
  | none => 1
  | some s =>
    let fe := s.imm.isNone
    lowest
      ([ need1 (s.types.contains w.pty && (op == 0x38 || w.sty == 0)),
         need2 (w.mod.toNat &&& (255 - s.modMask) == 0),
         dstCause op w s.dst,
         slotCause op w fe s.a w.a.toNat,
         slotCause op w fe s.b w.b.toNat,
         (if (op = 0x64 ∨ op = 0x65) ∧ w.imm.toNat % 16 ≠ 7 then 0 else slotCause op w fe s.c w.c.toNat),
         need2 (!(w.psel == 7 && w.pneg == 1)),
         need2 (s.uniform || w.u == 0),
         need2 (s.long || w.la == 0),
         need2 (!s.unguarded || (w.psel == 7 && w.pneg == 0)),
         (match s.imm with
          | some mask => need2 (w.imm.toNat &&& (0xFFFFFFFF - mask) == 0)
          | none => need2 (usesImm s w || w.imm == 0)) ] ++ ownCauses op w)

/-- The opcode and word of a lane constructor, with the C sub-code its constructor stands for (2: any), and none for
the others (Table 3-9). -/
def Instr.laneOp : Instr → Option (Nat × LaneW × Nat)
  | .iadd w => some (0x01, w, 2)
  | .isub w => some (0x02, w, 2)
  | .imul w => some (0x03, w, 2)
  | .imad w => some (0x04, w, 2)
  | .imulh w => some (0x05, w, 2)
  | .iabs w => some (0x06, w, 2)
  | .imin w => some (0x07, w, 2)
  | .imax w => some (0x08, w, 2)
  | .laneAnd w => some (0x09, w, 2)
  | .laneOr w => some (0x0A, w, 2)
  | .laneXor w => some (0x0B, w, 2)
  | .notL w => some (0x0C, w, 2)
  | .laneShl w => some (0x0D, w, 2)
  | .laneShr w => some (0x0E, w, 2)
  | .laneSra w => some (0x0F, w, 2)
  | .bfe w => some (0x10, w, 2)
  | .bfi w => some (0x11, w, 2)
  | .popc w => some (0x12, w, 2)
  | .clz w => some (0x13, w, 2)
  | .isetp w => some (0x14, w, 2)
  | .mov w => some (0x18, w, 2)
  | .laneSel w => some (0x19, w, 2)
  | .plop w => some (0x1A, w, 2)
  | .fadd w => some (0x20, w, 2)
  | .fsub w => some (0x21, w, 2)
  | .fmul w => some (0x22, w, 2)
  | .ffma w => some (0x23, w, 2)
  | .fmin w => some (0x24, w, 2)
  | .fmax w => some (0x25, w, 2)
  | .fsetp w => some (0x26, w, 2)
  | .frnd w => some (0x27, w, 2)
  | .frcp w => some (0x28, w, 2)
  | .frsq w => some (0x29, w, 2)
  | .fsqrt w => some (0x2A, w, 2)
  | .fexp2 w => some (0x2B, w, 2)
  | .flog2 w => some (0x2C, w, 2)
  | .fsin w => some (0x2D, w, 2)
  | .fcos w => some (0x2E, w, 2)
  | .hadd2 w => some (0x30, w, 2)
  | .hmul2 w => some (0x31, w, 2)
  | .hfma2 w => some (0x32, w, 2)
  | .cvt w => some (0x38, w, 2)
  | .shfl w => some (0x40, w, 2)
  | .vote w => some (0x41, w, 2)
  | .gred w => some (0x42, w, 2)
  | .gscan w => some (0x43, w, 2)
  | .gdx w => some (0x44, w, 2)
  | .gdy w => some (0x45, w, 2)
  | .xchg w => some (0x46, w, 2)
  | .brl w => some (0x50, w, 2)
  | .switchL w => some (0x51, w, 2)
  | .reconv w => some (0x52, w, 2)
  | .lloop w => some (0x53, w, 2)
  | .llexit w => some (0x54, w, 2)
  | .lstop w => some (0x55, w, 2)
  | .ld w => some (0x60, w, 2)
  | .st w => some (0x61, w, 2)
  | .ldx w => some (0x62, w, 2)
  | .stx w => some (0x63, w, 2)
  | .atom w => some (0x64, w, 2)
  | .atomx w => some (0x65, w, 2)
  | .fqput w => some (0x66, w, 2)
  | .fqget w => some (0x67, w, 2)
  | .mfeed w => some (0x70, w, 2)
  | .mscale w => some (0x71, w, 2)
  | .mdrain w => some (0x72, w, 2)
  | .mfmt w => some (0x73, w, 2)
  | .gread w => some (0x78, w, 0)
  | .greadApron w => some (0x78, w, 1)
  | .gwrite w => some (0x79, w, 2)
  | .gnorm w => some (0x7A, w, 2)
  | .scover w => some (0x80, w, 2)
  | .sread w => some (0x81, w, 2)
  | .swrite w => some (0x82, w, 0)
  | .swriteZ w => some (0x82, w, 1)
  | .trace w => some (0x88, w, 2)
  | .traceSort w => some (0x89, w, 2)
  | .hitget w => some (0x8A, w, 2)
  | .rclook w => some (0x8B, w, 2)
  | .rcins w => some (0x8C, w, 2)
  | .tex w => some (0x90, w, 2)
  | .texg w => some (0x91, w, 2)
  | .texq w => some (0x92, w, 2)
  | .texlat w => some (0x93, w, 2)
  | .xmat w => some (0x98, w, 2)
  | .xlut1 w => some (0x99, w, 2)
  | .xlut3 w => some (0x9A, w, 2)
  | .xraw w => some (0x9B, w, 2)
  | .xpack w => some (0x9C, w, 2)
  | .xunpk w => some (0x9D, w, 2)
  | .klaunch w => some (0xA0, w, 2)
  | .kcapt w => some (0xA1, w, 2)
  | .spawnLane w => some (0xA8, w, 2)
  | .qsendLane w => some (0xA9, w, 2)
  | _ => none

/-! ## Decoding -/

/-- Why a word is rejected: the causes of Table 3-10. -/
inductive DecErr where
  /-- cause 0x01 -/
  | undefinedEncoding
  /-- cause 0x02 -/
  | reservedField
  /-- cause 0x04 -/
  | outOfRange
  deriving DecidableEq, Repr

/-- The cause code of a rejection (R93). -/
def DecErr.code : DecErr → Nat
  | .undefinedEncoding => 1
  | .reservedField => 2
  | .outOfRange => 4

/-- Field of n bits from bit lo (R5). -/
def fld (w lo n : Nat) : Nat := w / 2 ^ lo % 2 ^ n

/-- The instruction if every named unused field is zero, else the reserved cause (R70). -/
def zeros (fields : Nat) (i : Instr) : Except DecErr Instr :=
  if fields = 0 then .ok i else .error .reservedField

/-- Function codes of major 0x01 (Table 3-3). -/
def decAlu (w : Nat) : Except DecErr Instr :=
  if fld w 4 7 = 0x00 then
    zeros (fld w 0 4) (.add (BitVec.ofNat 5 (fld w 21 5)) (BitVec.ofNat 5 (fld w 16 5)) (BitVec.ofNat 5 (fld w 11 5)))
  else
  if fld w 4 7 = 0x01 then
    zeros (fld w 0 4) (.sub (BitVec.ofNat 5 (fld w 21 5)) (BitVec.ofNat 5 (fld w 16 5)) (BitVec.ofNat 5 (fld w 11 5)))
  else
  if fld w 4 7 = 0x02 then
    zeros (fld w 0 4) (.mul (BitVec.ofNat 5 (fld w 21 5)) (BitVec.ofNat 5 (fld w 16 5)) (BitVec.ofNat 5 (fld w 11 5)))
  else
  if fld w 4 7 = 0x03 then
    zeros (fld w 0 4) (.mulhI64 (BitVec.ofNat 5 (fld w 21 5)) (BitVec.ofNat 5 (fld w 16 5)) (BitVec.ofNat 5 (fld w 11 5)))
  else
  if fld w 4 7 = 0x04 then
    zeros (fld w 0 4) (.mulhN64 (BitVec.ofNat 5 (fld w 21 5)) (BitVec.ofNat 5 (fld w 16 5)) (BitVec.ofNat 5 (fld w 11 5)))
  else
  if fld w 4 7 = 0x05 then
    zeros (fld w 0 4) (.andS (BitVec.ofNat 5 (fld w 21 5)) (BitVec.ofNat 5 (fld w 16 5)) (BitVec.ofNat 5 (fld w 11 5)))
  else
  if fld w 4 7 = 0x06 then
    zeros (fld w 0 4) (.orS (BitVec.ofNat 5 (fld w 21 5)) (BitVec.ofNat 5 (fld w 16 5)) (BitVec.ofNat 5 (fld w 11 5)))
  else
  if fld w 4 7 = 0x07 then
    zeros (fld w 0 4) (.xorS (BitVec.ofNat 5 (fld w 21 5)) (BitVec.ofNat 5 (fld w 16 5)) (BitVec.ofNat 5 (fld w 11 5)))
  else
  if fld w 4 7 = 0x08 then
    zeros (fld w 0 4) (.shl (BitVec.ofNat 5 (fld w 21 5)) (BitVec.ofNat 5 (fld w 16 5)) (BitVec.ofNat 5 (fld w 11 5)))
  else
  if fld w 4 7 = 0x09 then
    zeros (fld w 0 4) (.shr (BitVec.ofNat 5 (fld w 21 5)) (BitVec.ofNat 5 (fld w 16 5)) (BitVec.ofNat 5 (fld w 11 5)))
  else
  if fld w 4 7 = 0x0A then
    zeros (fld w 0 4) (.sra (BitVec.ofNat 5 (fld w 21 5)) (BitVec.ofNat 5 (fld w 16 5)) (BitVec.ofNat 5 (fld w 11 5)))
  else
  if fld w 4 7 = 0x0B then
    zeros (fld w 0 4) (.minI64 (BitVec.ofNat 5 (fld w 21 5)) (BitVec.ofNat 5 (fld w 16 5)) (BitVec.ofNat 5 (fld w 11 5)))
  else
  if fld w 4 7 = 0x0C then
    zeros (fld w 0 4) (.minN64 (BitVec.ofNat 5 (fld w 21 5)) (BitVec.ofNat 5 (fld w 16 5)) (BitVec.ofNat 5 (fld w 11 5)))
  else
  if fld w 4 7 = 0x0D then
    zeros (fld w 0 4) (.maxI64 (BitVec.ofNat 5 (fld w 21 5)) (BitVec.ofNat 5 (fld w 16 5)) (BitVec.ofNat 5 (fld w 11 5)))
  else
  if fld w 4 7 = 0x0E then
    zeros (fld w 0 4) (.maxN64 (BitVec.ofNat 5 (fld w 21 5)) (BitVec.ofNat 5 (fld w 16 5)) (BitVec.ofNat 5 (fld w 11 5)))
  else
  if fld w 4 7 = 0x0F then
    zeros (fld w 0 4) (.cmp (BitVec.ofNat 5 (fld w 21 5)) (BitVec.ofNat 5 (fld w 16 5)) (BitVec.ofNat 5 (fld w 11 5)))
  else
  if fld w 4 7 = 0x10 then
    zeros (fld w 0 4) (.tst (BitVec.ofNat 5 (fld w 21 5)) (BitVec.ofNat 5 (fld w 16 5)) (BitVec.ofNat 5 (fld w 11 5)))
  else
  if fld w 7 4 = 3 then
    zeros (fld w 0 4) (.lea (BitVec.ofNat 5 (fld w 21 5)) (BitVec.ofNat 5 (fld w 16 5)) (BitVec.ofNat 5 (fld w 11 5)) (BitVec.ofNat 3 (fld w 4 3)))
  else
  if fld w 9 2 = 2 then
    zeros (fld w 0 4) (.sel (BitVec.ofNat 5 (fld w 21 5)) (BitVec.ofNat 5 (fld w 16 5)) (BitVec.ofNat 5 (fld w 11 5)) (BitVec.ofNat 2 (fld w 7 2)) (BitVec.ofNat 3 (fld w 4 3)))
  else
  .error .undefinedEncoding

/-- Function codes of major 0x02 (Table 3-3). -/
def decSystem (w : Nat) : Except DecErr Instr :=
  if fld w 4 7 = 0x00 then
    zeros (fld w 0 4 + fld w 11 15) .nop
  else
  if fld w 4 7 = 0x01 then
    zeros (fld w 0 4 + fld w 11 15) .exit
  else
  if fld w 4 7 = 0x02 then
    zeros (fld w 0 4 + fld w 11 15) .yield
  else
  if fld w 4 7 = 0x03 then
    zeros (fld w 0 4 + fld w 11 5 + fld w 21 5) (.sleep (BitVec.ofNat 5 (fld w 16 5)))
  else
  if fld w 4 7 = 0x04 then
    zeros (fld w 0 4 + fld w 11 15) .lsync
  else
  if fld w 4 7 = 0x05 then
    zeros (fld w 0 4 + fld w 11 5 + fld w 21 5) (.jmpr (BitVec.ofNat 5 (fld w 16 5)))
  else
  if fld w 4 7 = 0x06 then
    zeros (fld w 0 4 + fld w 11 15) .ret
  else
  if fld w 4 7 = 0x07 then
    zeros (fld w 0 4 + fld w 11 15) .lexit
  else
  if fld w 4 7 = 0x08 then
    zeros (fld w 0 4 + fld w 11 5) (.reggive (BitVec.ofNat 5 (fld w 21 5)) (BitVec.ofNat 5 (fld w 16 5)))
  else
  if fld w 4 7 = 0x09 then
    zeros (fld w 0 4 + fld w 11 5) (.regclaim (BitVec.ofNat 5 (fld w 21 5)) (BitVec.ofNat 5 (fld w 16 5)))
  else
  .error .undefinedEncoding

/-- Function codes of major 0x30 (Table 3-3). -/
def decPartition (w : Nat) : Except DecErr Instr :=
  if fld w 4 7 = 0x00 then
    if fld w 0 4 + fld w 11 10 = 0 then
      if fld w 21 5 = 0 then .ok .tretRegion else if fld w 21 5 = 1 then .ok .tretAgain
      else if fld w 21 5 = 2 then .ok .tretNext else .error .outOfRange
    else .error .reservedField
  else
  if fld w 4 7 = 0x01 then
    zeros (fld w 0 4 + fld w 11 5) (.cause (BitVec.ofNat 5 (fld w 21 5)) (BitVec.ofNat 5 (fld w 16 5)))
  else
  if fld w 4 7 = 0x02 then
    zeros (fld w 0 4 + fld w 11 15) .regn
  else
  if fld w 4 7 = 0x03 then
    zeros (fld w 0 4 + fld w 11 5) (.frec (BitVec.ofNat 5 (fld w 21 5)) (BitVec.ofNat 5 (fld w 16 5)))
  else
  if fld w 4 7 = 0x04 then
    zeros (fld w 0 4 + fld w 11 5 + fld w 21 5) (.susp (BitVec.ofNat 5 (fld w 16 5)))
  else
  .error .undefinedEncoding

/-- Function codes of major 0x31 (Table 3-3). -/
def decLoadStore (w : Nat) : Except DecErr Instr :=
  if fld w 4 7 = 0x00 then
    zeros (fld w 0 4) (.mwait (BitVec.ofNat 5 (fld w 21 5)) (BitVec.ofNat 5 (fld w 16 5)) (BitVec.ofNat 5 (fld w 11 5)))
  else
  if fld w 4 7 = 0x01 then
    zeros (fld w 0 4) (.bankcfg (BitVec.ofNat 5 (fld w 21 5)) (BitVec.ofNat 5 (fld w 16 5)) (BitVec.ofNat 5 (fld w 11 5)))
  else
  if fld w 4 7 = 0x02 then
    zeros (fld w 0 4 + fld w 21 5) (.discard (BitVec.ofNat 5 (fld w 16 5)) (BitVec.ofNat 5 (fld w 11 5)))
  else
  if fld w 4 7 = 0x03 then
    zeros (fld w 0 4 + fld w 21 5) (.flush (BitVec.ofNat 5 (fld w 16 5)) (BitVec.ofNat 5 (fld w 11 5)))
  else
  if fld w 4 7 = 0x04 then
    zeros (fld w 0 4 + fld w 21 5) (.inval (BitVec.ofNat 5 (fld w 16 5)) (BitVec.ofNat 5 (fld w 11 5)))
  else
  if fld w 4 7 = 0x05 then
    zeros (fld w 0 4 + fld w 21 5) (.pref (BitVec.ofNat 5 (fld w 16 5)) (BitVec.ofNat 5 (fld w 11 5)))
  else
  if fld w 4 7 = 0x06 then
    zeros (fld w 0 4 + fld w 11 5) (.l2cfg (BitVec.ofNat 5 (fld w 21 5)) (BitVec.ofNat 5 (fld w 16 5)))
  else
  if fld w 4 7 = 0x08 then
    zeros (fld w 0 4 + fld w 21 5) (.barInit (BitVec.ofNat 5 (fld w 16 5)) (BitVec.ofNat 5 (fld w 11 5)))
  else
  if fld w 4 7 = 0x09 then
    zeros (fld w 0 4) (.barArrive (BitVec.ofNat 5 (fld w 21 5)) (BitVec.ofNat 5 (fld w 16 5)) (BitVec.ofNat 5 (fld w 11 5)))
  else
  if fld w 4 7 = 0x0A then
    zeros (fld w 0 4) (.barWait (BitVec.ofNat 5 (fld w 21 5)) (BitVec.ofNat 5 (fld w 16 5)) (BitVec.ofNat 5 (fld w 11 5)))
  else
  if fld w 4 7 = 0x0B then
    zeros (fld w 0 4) (.barTest (BitVec.ofNat 5 (fld w 21 5)) (BitVec.ofNat 5 (fld w 16 5)) (BitVec.ofNat 5 (fld w 11 5)))
  else
  .error .undefinedEncoding

/-- Function codes of major 0x32 (Table 3-3). -/
def decCopy (w : Nat) : Except DecErr Instr :=
  if fld w 4 7 = 0x00 then
    zeros (fld w 0 4 + fld w 11 5) (.copy (BitVec.ofNat 5 (fld w 21 5)) (BitVec.ofNat 5 (fld w 16 5)))
  else
  if fld w 4 7 = 0x01 then
    zeros (fld w 0 4 + fld w 11 5) (.gcopy (BitVec.ofNat 5 (fld w 21 5)) (BitVec.ofNat 5 (fld w 16 5)))
  else
  if fld w 4 7 = 0x02 then
    zeros (fld w 0 4) (.mcopy (BitVec.ofNat 5 (fld w 21 5)) (BitVec.ofNat 5 (fld w 16 5)) (BitVec.ofNat 5 (fld w 11 5)))
  else
  if fld w 4 7 = 0x03 then
    zeros (fld w 0 4 + fld w 11 10) (.cseal (BitVec.ofNat 5 (fld w 21 5)))
  else
  if fld w 4 7 = 0x04 then
    zeros (fld w 0 4 + fld w 11 5 + fld w 21 5) (.cwaitUpto (BitVec.ofNat 5 (fld w 16 5)))
  else
  if fld w 4 7 = 0x05 then
    zeros (fld w 0 4 + fld w 11 5 + fld w 21 5) (.cwaitLeft (BitVec.ofNat 5 (fld w 16 5)))
  else
  if fld w 4 7 = 0x06 then
    zeros (fld w 0 4) (.ccont (BitVec.ofNat 5 (fld w 21 5)) (BitVec.ofNat 5 (fld w 16 5)) (BitVec.ofNat 5 (fld w 11 5)))
  else
  if fld w 4 7 = 0x07 then
    zeros (fld w 0 4 + fld w 11 5) (.cstat (BitVec.ofNat 5 (fld w 21 5)) (BitVec.ofNat 5 (fld w 16 5)))
  else
  .error .undefinedEncoding

/-- Function codes of major 0x33 (Table 3-3). -/
def decGeometry (w : Nat) : Except DecErr Instr :=
  if fld w 4 7 = 0x00 then
    zeros (fld w 0 4) (.patch (BitVec.ofNat 5 (fld w 21 5)) (BitVec.ofNat 5 (fld w 16 5)) (BitVec.ofNat 5 (fld w 11 5)))
  else
  if fld w 4 7 = 0x01 then
    zeros (fld w 0 4) (.split (BitVec.ofNat 5 (fld w 21 5)) (BitVec.ofNat 5 (fld w 16 5)) (BitVec.ofNat 5 (fld w 11 5)))
  else
  if fld w 4 7 = 0x02 then
    zeros (fld w 0 4) (.dice (BitVec.ofNat 5 (fld w 21 5)) (BitVec.ofNat 5 (fld w 16 5)) (BitVec.ofNat 5 (fld w 11 5)))
  else
  if fld w 4 7 = 0x03 then
    zeros (fld w 0 4) (.gbound (BitVec.ofNat 5 (fld w 21 5)) (BitVec.ofNat 5 (fld w 16 5)) (BitVec.ofNat 5 (fld w 11 5)))
  else
  if fld w 4 7 = 0x04 then
    zeros (fld w 0 4) (.bspill (BitVec.ofNat 5 (fld w 21 5)) (BitVec.ofNat 5 (fld w 16 5)) (BitVec.ofNat 5 (fld w 11 5)))
  else
  if fld w 4 7 = 0x05 then
    zeros (fld w 0 4) (.bfill (BitVec.ofNat 5 (fld w 21 5)) (BitVec.ofNat 5 (fld w 16 5)) (BitVec.ofNat 5 (fld w 11 5)))
  else
  .error .undefinedEncoding

/-- Function codes of major 0x34 (Table 3-3). -/
def decRaster (w : Nat) : Except DecErr Instr :=
  if fld w 4 7 = 0x00 then
    zeros (fld w 0 4) (.spat (BitVec.ofNat 5 (fld w 21 5)) (BitVec.ofNat 5 (fld w 16 5)) (BitVec.ofNat 5 (fld w 11 5)))
  else
  if fld w 4 7 = 0x01 then
    zeros (fld w 0 4) (.sgrid (BitVec.ofNat 5 (fld w 21 5)) (BitVec.ofNat 5 (fld w 16 5)) (BitVec.ofNat 5 (fld w 11 5)))
  else
  if fld w 4 7 = 0x02 then
    zeros (fld w 0 4) (.sflush (BitVec.ofNat 5 (fld w 21 5)) (BitVec.ofNat 5 (fld w 16 5)) (BitVec.ofNat 5 (fld w 11 5)))
  else
  if fld w 4 7 = 0x03 then
    zeros (fld w 0 4) (.sresolve (BitVec.ofNat 5 (fld w 21 5)) (BitVec.ofNat 5 (fld w 16 5)) (BitVec.ofNat 5 (fld w 11 5)))
  else
  .error .undefinedEncoding

/-- Function codes of major 0x35 (Table 3-3). -/
def decLantern (w : Nat) : Except DecErr Instr :=
  if fld w 4 7 = 0x00 then
    zeros (fld w 0 4) (.bvhbind (BitVec.ofNat 5 (fld w 21 5)) (BitVec.ofNat 5 (fld w 16 5)) (BitVec.ofNat 5 (fld w 11 5)))
  else
  if fld w 4 7 = 0x01 then
    zeros (fld w 0 4) (.rcfade (BitVec.ofNat 5 (fld w 21 5)) (BitVec.ofNat 5 (fld w 16 5)) (BitVec.ofNat 5 (fld w 11 5)))
  else
  if fld w 4 7 = 0x08 then
    zeros (fld w 0 4) (.texbind (BitVec.ofNat 5 (fld w 21 5)) (BitVec.ofNat 5 (fld w 16 5)) (BitVec.ofNat 5 (fld w 11 5)))
  else
  .error .undefinedEncoding

/-- Function codes of major 0x36 (Table 3-3). -/
def decTransform (w : Nat) : Except DecErr Instr :=
  if fld w 4 7 = 0x00 then
    zeros (fld w 0 4) (.xdelta (BitVec.ofNat 5 (fld w 21 5)) (BitVec.ofNat 5 (fld w 16 5)) (BitVec.ofNat 5 (fld w 11 5)))
  else
  if fld w 4 7 = 0x01 then
    zeros (fld w 0 4 + fld w 21 5) (.xdcmp (BitVec.ofNat 5 (fld w 16 5)) (BitVec.ofNat 5 (fld w 11 5)))
  else
  if fld w 4 7 = 0x02 then
    zeros (fld w 0 4 + fld w 21 5) (.xfclr (BitVec.ofNat 5 (fld w 16 5)) (BitVec.ofNat 5 (fld w 11 5)))
  else
  .error .undefinedEncoding

/-- Function codes of major 0x37 (Table 3-3). -/
def decCarillon (w : Nat) : Except DecErr Instr :=
  if fld w 4 7 = 0x00 then
    zeros (fld w 0 4 + fld w 11 5) (.ktwin (BitVec.ofNat 5 (fld w 21 5)) (BitVec.ofNat 5 (fld w 16 5)))
  else
  if fld w 4 7 = 0x01 then
    zeros (fld w 0 4) (.kpeal (BitVec.ofNat 5 (fld w 21 5)) (BitVec.ofNat 5 (fld w 16 5)) (BitVec.ofNat 5 (fld w 11 5)))
  else
  if fld w 4 7 = 0x02 then
    zeros (fld w 0 4 + fld w 11 5 + fld w 21 5) (.krst (BitVec.ofNat 5 (fld w 16 5)))
  else
  if fld w 4 7 = 0x03 then
    zeros (fld w 0 4 + fld w 11 5) (.kwait (BitVec.ofNat 5 (fld w 21 5)) (BitVec.ofNat 5 (fld w 16 5)))
  else
  if fld w 4 7 = 0x04 then
    zeros (fld w 0 4 + fld w 11 5) (.kstat (BitVec.ofNat 5 (fld w 21 5)) (BitVec.ofNat 5 (fld w 16 5)))
  else
  .error .undefinedEncoding

/-- Function codes of major 0x38 (Table 3-3). -/
def decScheduler (w : Nat) : Except DecErr Instr :=
  if fld w 4 7 = 0x00 then
    zeros (fld w 0 4) (.spawn (BitVec.ofNat 5 (fld w 21 5)) (BitVec.ofNat 5 (fld w 16 5)) (BitVec.ofNat 5 (fld w 11 5)))
  else
  if fld w 4 7 = 0x01 then
    zeros (fld w 0 4 + fld w 21 5) (.ndone (BitVec.ofNat 5 (fld w 16 5)) (BitVec.ofNat 5 (fld w 11 5)))
  else
  if fld w 4 7 = 0x02 then
    zeros (fld w 0 4 + fld w 11 10) (.stepb (BitVec.ofNat 5 (fld w 21 5)))
  else
  if fld w 4 7 = 0x03 then
    zeros (fld w 0 4 + fld w 11 5) (.prio (BitVec.ofNat 5 (fld w 21 5)) (BitVec.ofNat 5 (fld w 16 5)))
  else
  if fld w 4 7 = 0x04 then
    zeros (fld w 0 4 + fld w 11 5) (.erd (BitVec.ofNat 5 (fld w 21 5)) (BitVec.ofNat 5 (fld w 16 5)))
  else
  if fld w 4 7 = 0x05 then
    zeros (fld w 0 4) (.bqpush (BitVec.ofNat 5 (fld w 21 5)) (BitVec.ofNat 5 (fld w 16 5)) (BitVec.ofNat 5 (fld w 11 5)))
  else
  if fld w 4 7 = 0x06 then
    zeros (fld w 0 4 + fld w 11 5) (.bqpop (BitVec.ofNat 5 (fld w 21 5)) (BitVec.ofNat 5 (fld w 16 5)))
  else
  if fld w 4 7 = 0x07 then
    zeros (fld w 0 4 + fld w 11 5) (.dieq (BitVec.ofNat 5 (fld w 21 5)) (BitVec.ofNat 5 (fld w 16 5)))
  else
  .error .undefinedEncoding

/-- Function codes of major 0x39 (Table 3-3). -/
def decBallast (w : Nat) : Except DecErr Instr :=
  if fld w 4 7 = 0x00 then
    zeros (fld w 0 4 + fld w 11 10) (.qroot (BitVec.ofNat 5 (fld w 21 5)))
  else
  if fld w 4 7 = 0x01 then
    zeros (fld w 0 4) (.qsplit (BitVec.ofNat 5 (fld w 21 5)) (BitVec.ofNat 5 (fld w 16 5)) (BitVec.ofNat 5 (fld w 11 5)))
  else
  if fld w 4 7 = 0x03 then
    zeros (fld w 0 4 + fld w 11 10) (.qborrow (BitVec.ofNat 5 (fld w 21 5)))
  else
  if fld w 4 7 = 0x04 then
    zeros (fld w 0 4 + fld w 11 5) (.qwait (BitVec.ofNat 5 (fld w 21 5)) (BitVec.ofNat 5 (fld w 16 5)))
  else
  if fld w 4 7 = 0x05 then
    zeros (fld w 0 4 + fld w 11 5) (.qpoll (BitVec.ofNat 5 (fld w 21 5)) (BitVec.ofNat 5 (fld w 16 5)))
  else
  if fld w 4 7 = 0x06 then
    zeros (fld w 0 4 + fld w 11 5) (.qsend (BitVec.ofNat 5 (fld w 21 5)) (BitVec.ofNat 5 (fld w 16 5)))
  else
  if fld w 4 7 = 0x02 then
    if fld w 0 4 = 0 then
      if fld w 11 5 = 0 then .ok (.qretW (BitVec.ofNat 5 (fld w 21 5)) (BitVec.ofNat 5 (fld w 16 5)))
      else if fld w 11 5 = 1 then .ok (.qretM (BitVec.ofNat 5 (fld w 21 5)) (BitVec.ofNat 5 (fld w 16 5)))
      else .error .outOfRange
    else .error .reservedField
  else
  .error .undefinedEncoding

/-- Function codes of major 0x3C (Table 3-3). -/
def decMatrix (w : Nat) : Except DecErr Instr :=
  if fld w 4 7 = 0x00 then
    zeros (fld w 0 4) (.mshape (BitVec.ofNat 5 (fld w 21 5)) (BitVec.ofNat 5 (fld w 16 5)) (BitVec.ofNat 5 (fld w 11 5)))
  else
  if fld w 4 7 = 0x01 then
    zeros (fld w 0 4) (.mloadb (BitVec.ofNat 5 (fld w 21 5)) (BitVec.ofNat 5 (fld w 16 5)) (BitVec.ofNat 5 (fld w 11 5)))
  else
  if fld w 4 7 = 0x02 then
    zeros (fld w 0 4) (.mma (BitVec.ofNat 5 (fld w 21 5)) (BitVec.ofNat 5 (fld w 16 5)) (BitVec.ofNat 5 (fld w 11 5)))
  else
  if fld w 4 7 = 0x03 then
    zeros (fld w 0 4) (.mmac (BitVec.ofNat 5 (fld w 21 5)) (BitVec.ofNat 5 (fld w 16 5)) (BitVec.ofNat 5 (fld w 11 5)))
  else
  if fld w 4 7 = 0x04 then
    zeros (fld w 0 4) (.mzero (BitVec.ofNat 5 (fld w 21 5)) (BitVec.ofNat 5 (fld w 16 5)) (BitVec.ofNat 5 (fld w 11 5)))
  else
  if fld w 4 7 = 0x05 then
    zeros (fld w 0 4) (.mstat (BitVec.ofNat 5 (fld w 21 5)) (BitVec.ofNat 5 (fld w 16 5)) (BitVec.ofNat 5 (fld w 11 5)))
  else
  .error .undefinedEncoding

/-- Decodes a scalar word (R69 to R76). -/
def decodeScalar (w : Nat) : Except DecErr Instr :=
  if fld w 26 6 = 0x01 then decAlu w else
  if fld w 26 6 = 0x02 then decSystem w else
  if fld w 26 6 = 0x03 then zeros (0) (.addImm (BitVec.ofNat 5 (fld w 21 5)) (BitVec.ofNat 5 (fld w 16 5)) (BitVec.ofNat 16 (fld w 0 16))) else
  if fld w 26 6 = 0x04 then zeros (0) (.andImm (BitVec.ofNat 5 (fld w 21 5)) (BitVec.ofNat 5 (fld w 16 5)) (BitVec.ofNat 16 (fld w 0 16))) else
  if fld w 26 6 = 0x05 then zeros (0) (.orImm (BitVec.ofNat 5 (fld w 21 5)) (BitVec.ofNat 5 (fld w 16 5)) (BitVec.ofNat 16 (fld w 0 16))) else
  if fld w 26 6 = 0x06 then zeros (0) (.xorImm (BitVec.ofNat 5 (fld w 21 5)) (BitVec.ofNat 5 (fld w 16 5)) (BitVec.ofNat 16 (fld w 0 16))) else
  if fld w 26 6 = 0x07 then zeros (0) (.shlImm (BitVec.ofNat 5 (fld w 21 5)) (BitVec.ofNat 5 (fld w 16 5)) (BitVec.ofNat 16 (fld w 0 16))) else
  if fld w 26 6 = 0x08 then zeros (0) (.shrImm (BitVec.ofNat 5 (fld w 21 5)) (BitVec.ofNat 5 (fld w 16 5)) (BitVec.ofNat 16 (fld w 0 16))) else
  if fld w 26 6 = 0x09 then zeros (0) (.sraImm (BitVec.ofNat 5 (fld w 21 5)) (BitVec.ofNat 5 (fld w 16 5)) (BitVec.ofNat 16 (fld w 0 16))) else
  if fld w 26 6 = 0x0A then zeros (0) (.mulImm (BitVec.ofNat 5 (fld w 21 5)) (BitVec.ofNat 5 (fld w 16 5)) (BitVec.ofNat 16 (fld w 0 16))) else
  if fld w 26 6 = 0x0B then zeros (0) (.cmpImm (BitVec.ofNat 5 (fld w 21 5)) (BitVec.ofNat 5 (fld w 16 5)) (BitVec.ofNat 16 (fld w 0 16))) else
  if fld w 26 6 = 0x0C then zeros (fld w 16 5) (.movi (BitVec.ofNat 5 (fld w 21 5)) (BitVec.ofNat 16 (fld w 0 16))) else
  if fld w 26 6 = 0x0D then zeros (fld w 18 3) (.movhi (BitVec.ofNat 5 (fld w 21 5)) (BitVec.ofNat 2 (fld w 16 2)) (BitVec.ofNat 16 (fld w 0 16))) else
  if fld w 26 6 = 0x0E then zeros (fld w 16 5) (.gets (BitVec.ofNat 5 (fld w 21 5)) (BitVec.ofNat 16 (fld w 0 16))) else
  if fld w 26 6 = 0x0F then zeros (fld w 21 5) (.sets (BitVec.ofNat 5 (fld w 16 5)) (BitVec.ofNat 16 (fld w 0 16))) else
  if fld w 26 6 = 0x10 then zeros (0) (.sld (BitVec.ofNat 5 (fld w 21 5)) (BitVec.ofNat 5 (fld w 16 5)) (BitVec.ofNat 4 (fld w 12 4)) (BitVec.ofNat 2 (fld w 10 2)) (BitVec.ofNat 10 (fld w 0 10))) else
  if fld w 26 6 = 0x11 then zeros (fld w 12 4) (.sst (BitVec.ofNat 5 (fld w 21 5)) (BitVec.ofNat 5 (fld w 16 5)) (BitVec.ofNat 2 (fld w 10 2)) (BitVec.ofNat 10 (fld w 0 10))) else
  if fld w 26 6 = 0x12 then zeros (fld w 12 4 + fld w 24 2) (.ald (BitVec.ofNat 1 (fld w 23 1)) (BitVec.ofNat 2 (fld w 21 2)) (BitVec.ofNat 5 (fld w 16 5)) (BitVec.ofNat 2 (fld w 10 2)) (BitVec.ofNat 10 (fld w 0 10))) else
  if fld w 26 6 = 0x13 then zeros (fld w 12 4) (.ast (BitVec.ofNat 5 (fld w 21 5)) (BitVec.ofNat 5 (fld w 16 5)) (BitVec.ofNat 2 (fld w 10 2)) (BitVec.ofNat 10 (fld w 0 10))) else
  if fld w 26 6 = 0x14 then
    if fld w 20 1 = 1 then zeros (fld w 21 5) (.loopImm (BitVec.ofNat 10 (fld w 10 10)) (BitVec.ofNat 10 (fld w 0 10)))
    else zeros (fld w 0 10) (.loopSreg (BitVec.ofNat 5 (fld w 21 5)) (BitVec.ofNat 10 (fld w 10 10)))
  else
  if fld w 26 6 = 0x15 then
    if fld w 20 1 = 1 then zeros (fld w 21 5) (.lrunImm (BitVec.ofNat 20 (fld w 0 20)))
    else zeros (0) (.lrunSreg (BitVec.ofNat 5 (fld w 21 5)) (BitVec.ofNat 20 (fld w 0 20)))
  else
  if fld w 26 6 = 0x16 then zeros (fld w 3 23) (.fence (BitVec.ofNat 3 (fld w 0 3))) else
  if fld w 26 6 = 0x17 then zeros (fld w 10 16) (.qfence (BitVec.ofNat 10 (fld w 0 10))) else
  if fld w 26 6 = 0x18 then zeros (fld w 16 10) (.trap (BitVec.ofNat 16 (fld w 0 16))) else
  if fld w 26 6 = 0x20 then zeros (0) (.brSet (BitVec.ofNat 2 (fld w 24 2)) (BitVec.ofNat 2 (fld w 22 2)) (BitVec.ofNat 22 (fld w 0 22))) else
  if fld w 26 6 = 0x21 then zeros (0) (.brClear (BitVec.ofNat 2 (fld w 24 2)) (BitVec.ofNat 2 (fld w 22 2)) (BitVec.ofNat 22 (fld w 0 22))) else
  if fld w 26 6 = 0x22 then zeros (fld w 22 4) (.jmp (BitVec.ofNat 22 (fld w 0 22))) else
  if fld w 26 6 = 0x23 then zeros (fld w 22 4) (.call (BitVec.ofNat 22 (fld w 0 22))) else
  if fld w 26 6 = 0x30 then decPartition w else
  if fld w 26 6 = 0x31 then decLoadStore w else
  if fld w 26 6 = 0x32 then decCopy w else
  if fld w 26 6 = 0x33 then decGeometry w else
  if fld w 26 6 = 0x34 then decRaster w else
  if fld w 26 6 = 0x35 then decLantern w else
  if fld w 26 6 = 0x36 then decTransform w else
  if fld w 26 6 = 0x37 then decCarillon w else
  if fld w 26 6 = 0x38 then decScheduler w else
  if fld w 26 6 = 0x39 then decBallast w else
  if fld w 26 6 = 0x3C then decMatrix w else
  .error .undefinedEncoding

/-- The fields of a lane word (Table 3-4). -/
def laneFields (w : Nat) : LaneW :=
  { la := BitVec.ofNat 4 (fld w 84 4), u := BitVec.ofNat 1 (fld w 83 1), psel := BitVec.ofNat 3 (fld w 80 3),
    pneg := BitVec.ofNat 1 (fld w 79 1), d := BitVec.ofNat 7 (fld w 72 7), a := BitVec.ofNat 8 (fld w 64 8),
    b := BitVec.ofNat 8 (fld w 56 8), c := BitVec.ofNat 8 (fld w 48 8), mod := BitVec.ofNat 8 (fld w 40 8),
    ty := BitVec.ofNat 8 (fld w 32 8), imm := BitVec.ofNat 32 (fld w 0 32) }

/-- The lane word with this opcode and these fields (Table 3-4). -/
def laneBits (op : Nat) (w : LaneW) : Nat :=
  op * 2 ^ 88 + w.la.toNat * 2 ^ 84 + w.u.toNat * 2 ^ 83 + w.psel.toNat * 2 ^ 80 + w.pneg.toNat * 2 ^ 79 +
  w.d.toNat * 2 ^ 72 + w.a.toNat * 2 ^ 64 + w.b.toNat * 2 ^ 56 + w.c.toNat * 2 ^ 48 + w.mod.toNat * 2 ^ 40 +
  w.ty.toNat * 2 ^ 32 + w.imm.toNat

/-- The instruction an opcode names; GREAD and SWRITE are told apart by C (Table 3-9, Tables 12-11 and 13-5). -/
def laneInstr (op : Nat) (w : LaneW) : Option Instr :=
  match op with
  | 0x01 => some (.iadd w)
  | 0x02 => some (.isub w)
  | 0x03 => some (.imul w)
  | 0x04 => some (.imad w)
  | 0x05 => some (.imulh w)
  | 0x06 => some (.iabs w)
  | 0x07 => some (.imin w)
  | 0x08 => some (.imax w)
  | 0x09 => some (.laneAnd w)
  | 0x0A => some (.laneOr w)
  | 0x0B => some (.laneXor w)
  | 0x0C => some (.notL w)
  | 0x0D => some (.laneShl w)
  | 0x0E => some (.laneShr w)
  | 0x0F => some (.laneSra w)
  | 0x10 => some (.bfe w)
  | 0x11 => some (.bfi w)
  | 0x12 => some (.popc w)
  | 0x13 => some (.clz w)
  | 0x14 => some (.isetp w)
  | 0x18 => some (.mov w)
  | 0x19 => some (.laneSel w)
  | 0x1A => some (.plop w)
  | 0x20 => some (.fadd w)
  | 0x21 => some (.fsub w)
  | 0x22 => some (.fmul w)
  | 0x23 => some (.ffma w)
  | 0x24 => some (.fmin w)
  | 0x25 => some (.fmax w)
  | 0x26 => some (.fsetp w)
  | 0x27 => some (.frnd w)
  | 0x28 => some (.frcp w)
  | 0x29 => some (.frsq w)
  | 0x2A => some (.fsqrt w)
  | 0x2B => some (.fexp2 w)
  | 0x2C => some (.flog2 w)
  | 0x2D => some (.fsin w)
  | 0x2E => some (.fcos w)
  | 0x30 => some (.hadd2 w)
  | 0x31 => some (.hmul2 w)
  | 0x32 => some (.hfma2 w)
  | 0x38 => some (.cvt w)
  | 0x40 => some (.shfl w)
  | 0x41 => some (.vote w)
  | 0x42 => some (.gred w)
  | 0x43 => some (.gscan w)
  | 0x44 => some (.gdx w)
  | 0x45 => some (.gdy w)
  | 0x46 => some (.xchg w)
  | 0x50 => some (.brl w)
  | 0x51 => some (.switchL w)
  | 0x52 => some (.reconv w)
  | 0x53 => some (.lloop w)
  | 0x54 => some (.llexit w)
  | 0x55 => some (.lstop w)
  | 0x60 => some (.ld w)
  | 0x61 => some (.st w)
  | 0x62 => some (.ldx w)
  | 0x63 => some (.stx w)
  | 0x64 => some (.atom w)
  | 0x65 => some (.atomx w)
  | 0x66 => some (.fqput w)
  | 0x67 => some (.fqget w)
  | 0x70 => some (.mfeed w)
  | 0x71 => some (.mscale w)
  | 0x72 => some (.mdrain w)
  | 0x73 => some (.mfmt w)
  | 0x78 => some (if w.c = 0 then .gread w else .greadApron w)
  | 0x79 => some (.gwrite w)
  | 0x7A => some (.gnorm w)
  | 0x80 => some (.scover w)
  | 0x81 => some (.sread w)
  | 0x82 => some (if w.c = 0 then .swrite w else .swriteZ w)
  | 0x88 => some (.trace w)
  | 0x89 => some (.traceSort w)
  | 0x8A => some (.hitget w)
  | 0x8B => some (.rclook w)
  | 0x8C => some (.rcins w)
  | 0x90 => some (.tex w)
  | 0x91 => some (.texg w)
  | 0x92 => some (.texq w)
  | 0x93 => some (.texlat w)
  | 0x98 => some (.xmat w)
  | 0x99 => some (.xlut1 w)
  | 0x9A => some (.xlut3 w)
  | 0x9B => some (.xraw w)
  | 0x9C => some (.xpack w)
  | 0x9D => some (.xunpk w)
  | 0xA0 => some (.klaunch w)
  | 0xA1 => some (.kcapt w)
  | 0xA8 => some (.spawnLane w)
  | 0xA9 => some (.qsendLane w)
  | _ => none

/-- Decodes a lane word (R78 to R88, R93). -/
def decodeLane (w : Nat) : Except DecErr Instr :=
  let op := fld w 88 8
  let f := laneFields w
  match laneCause op f with
  | 0 =>
    match laneInstr op f with
    | some i => .ok i
    | none => .error .undefinedEncoding
  | 1 => .error .undefinedEncoding
  | 2 => .error .reservedField
  | _ => .error .outOfRange

/-- Decodes the bytes at the front of a list, in memory order, as a scalar word (R6). -/
def decodeScalarBytes (bs : List Byte) : Except DecErr Instr :=
  decodeScalar ((bs.take 4).foldr (fun b acc => b.toNat + 256 * acc) 0)

/-- Decodes the bytes at the front of a list, in memory order, as a lane word (R6). -/
def decodeLaneBytes (bs : List Byte) : Except DecErr Instr :=
  decodeLane ((bs.take 12).foldr (fun b acc => b.toNat + 256 * acc) 0)

/-- The instruction the decoder reads from a word of the opcode table: 32 bits are a scalar word, 96 bits a lane word;
the steps without an encoding have none. -/
def decodeTableWord (nbits w : Nat) : Option Instr :=
  if nbits ≤ 32 then (decodeScalar (w % 2 ^ 32)).toOption else (decodeLane (w % 2 ^ 96)).toOption

/-- Places a field's value at its lowest bit (R70). -/
def place (acc v lo : Nat) : Nat := acc + v * 2 ^ lo

/-- The word of a scalar instruction, from the same tables (none for the others). -/
def encodeScalar : Instr → Option Nat
  | .add x0 x1 x2 => some (place (place (place 0x04000000 x0.toNat 21) x1.toNat 16) x2.toNat 11)
  | .sub x0 x1 x2 => some (place (place (place 0x04000010 x0.toNat 21) x1.toNat 16) x2.toNat 11)
  | .mul x0 x1 x2 => some (place (place (place 0x04000020 x0.toNat 21) x1.toNat 16) x2.toNat 11)
  | .mulhI64 x0 x1 x2 => some (place (place (place 0x04000030 x0.toNat 21) x1.toNat 16) x2.toNat 11)
  | .mulhN64 x0 x1 x2 => some (place (place (place 0x04000040 x0.toNat 21) x1.toNat 16) x2.toNat 11)
  | .andS x0 x1 x2 => some (place (place (place 0x04000050 x0.toNat 21) x1.toNat 16) x2.toNat 11)
  | .orS x0 x1 x2 => some (place (place (place 0x04000060 x0.toNat 21) x1.toNat 16) x2.toNat 11)
  | .xorS x0 x1 x2 => some (place (place (place 0x04000070 x0.toNat 21) x1.toNat 16) x2.toNat 11)
  | .shl x0 x1 x2 => some (place (place (place 0x04000080 x0.toNat 21) x1.toNat 16) x2.toNat 11)
  | .shr x0 x1 x2 => some (place (place (place 0x04000090 x0.toNat 21) x1.toNat 16) x2.toNat 11)
  | .sra x0 x1 x2 => some (place (place (place 0x040000A0 x0.toNat 21) x1.toNat 16) x2.toNat 11)
  | .minI64 x0 x1 x2 => some (place (place (place 0x040000B0 x0.toNat 21) x1.toNat 16) x2.toNat 11)
  | .minN64 x0 x1 x2 => some (place (place (place 0x040000C0 x0.toNat 21) x1.toNat 16) x2.toNat 11)
  | .maxI64 x0 x1 x2 => some (place (place (place 0x040000D0 x0.toNat 21) x1.toNat 16) x2.toNat 11)
  | .maxN64 x0 x1 x2 => some (place (place (place 0x040000E0 x0.toNat 21) x1.toNat 16) x2.toNat 11)
  | .cmp x0 x1 x2 => some (place (place (place 0x040000F0 x0.toNat 21) x1.toNat 16) x2.toNat 11)
  | .tst x0 x1 x2 => some (place (place (place 0x04000100 x0.toNat 21) x1.toNat 16) x2.toNat 11)
  | .lea x0 x1 x2 x3 => some (place (place (place (place 0x04000180 x0.toNat 21) x1.toNat 16) x2.toNat 11) x3.toNat 4)
  | .sel x0 x1 x2 x3 x4 => some (place (place (place (place (place 0x04000400 x0.toNat 21) x1.toNat 16) x2.toNat 11) x3.toNat 7) x4.toNat 4)
  | .addImm x0 x1 x2 => some (place (place (place 0x0C000000 x0.toNat 21) x1.toNat 16) x2.toNat 0)
  | .andImm x0 x1 x2 => some (place (place (place 0x10000000 x0.toNat 21) x1.toNat 16) x2.toNat 0)
  | .orImm x0 x1 x2 => some (place (place (place 0x14000000 x0.toNat 21) x1.toNat 16) x2.toNat 0)
  | .xorImm x0 x1 x2 => some (place (place (place 0x18000000 x0.toNat 21) x1.toNat 16) x2.toNat 0)
  | .shlImm x0 x1 x2 => some (place (place (place 0x1C000000 x0.toNat 21) x1.toNat 16) x2.toNat 0)
  | .shrImm x0 x1 x2 => some (place (place (place 0x20000000 x0.toNat 21) x1.toNat 16) x2.toNat 0)
  | .sraImm x0 x1 x2 => some (place (place (place 0x24000000 x0.toNat 21) x1.toNat 16) x2.toNat 0)
  | .mulImm x0 x1 x2 => some (place (place (place 0x28000000 x0.toNat 21) x1.toNat 16) x2.toNat 0)
  | .cmpImm x0 x1 x2 => some (place (place (place 0x2C000000 x0.toNat 21) x1.toNat 16) x2.toNat 0)
  | .movi x0 x1 => some (place (place 0x30000000 x0.toNat 21) x1.toNat 0)
  | .movhi x0 x1 x2 => some (place (place (place 0x34000000 x0.toNat 21) x1.toNat 16) x2.toNat 0)
  | .gets x0 x1 => some (place (place 0x38000000 x0.toNat 21) x1.toNat 0)
  | .sets x0 x1 => some (place (place 0x3C000000 x0.toNat 16) x1.toNat 0)
  | .sld x0 x1 x2 x3 x4 => some (place (place (place (place (place 0x40000000 x0.toNat 21) x1.toNat 16) x2.toNat 12) x3.toNat 10) x4.toNat 0)
  | .sst x0 x1 x2 x3 => some (place (place (place (place 0x44000000 x0.toNat 21) x1.toNat 16) x2.toNat 10) x3.toNat 0)
  | .ald x0 x1 x2 x3 x4 => some (place (place (place (place (place 0x48000000 x0.toNat 23) x1.toNat 21) x2.toNat 16) x3.toNat 10) x4.toNat 0)
  | .ast x0 x1 x2 x3 => some (place (place (place (place 0x4C000000 x0.toNat 21) x1.toNat 16) x2.toNat 10) x3.toNat 0)
  | .loopImm x0 x1 => some (place (place 0x50100000 x0.toNat 10) x1.toNat 0)
  | .loopSreg x0 x1 => some (place (place 0x50000000 x0.toNat 21) x1.toNat 10)
  | .lrunImm x0 => some (place 0x54100000 x0.toNat 0)
  | .lrunSreg x0 x1 => some (place (place 0x54000000 x0.toNat 21) x1.toNat 0)
  | .fence x0 => some (place 0x58000000 x0.toNat 0)
  | .qfence x0 => some (place 0x5C000000 x0.toNat 0)
  | .trap x0 => some (place 0x60000000 x0.toNat 0)
  | .brSet x0 x1 x2 => some (place (place (place 0x80000000 x0.toNat 24) x1.toNat 22) x2.toNat 0)
  | .brClear x0 x1 x2 => some (place (place (place 0x84000000 x0.toNat 24) x1.toNat 22) x2.toNat 0)
  | .jmp x0 => some (place 0x88000000 x0.toNat 0)
  | .call x0 => some (place 0x8C000000 x0.toNat 0)
  | .nop => some 0x08000000
  | .exit => some 0x08000010
  | .yield => some 0x08000020
  | .sleep x0 => some (place 0x08000030 x0.toNat 16)
  | .lsync => some 0x08000040
  | .jmpr x0 => some (place 0x08000050 x0.toNat 16)
  | .ret => some 0x08000060
  | .lexit => some 0x08000070
  | .reggive x0 x1 => some (place (place 0x08000080 x0.toNat 21) x1.toNat 16)
  | .regclaim x0 x1 => some (place (place 0x08000090 x0.toNat 21) x1.toNat 16)
  | .tretRegion => some 0xC0000000
  | .tretAgain => some 0xC0200000
  | .tretNext => some 0xC0400000
  | .cause x0 x1 => some (place (place 0xC0000010 x0.toNat 21) x1.toNat 16)
  | .regn => some 0xC0000020
  | .frec x0 x1 => some (place (place 0xC0000030 x0.toNat 21) x1.toNat 16)
  | .susp x0 => some (place 0xC0000040 x0.toNat 16)
  | .mwait x0 x1 x2 => some (place (place (place 0xC4000000 x0.toNat 21) x1.toNat 16) x2.toNat 11)
  | .bankcfg x0 x1 x2 => some (place (place (place 0xC4000010 x0.toNat 21) x1.toNat 16) x2.toNat 11)
  | .discard x0 x1 => some (place (place 0xC4000020 x0.toNat 16) x1.toNat 11)
  | .flush x0 x1 => some (place (place 0xC4000030 x0.toNat 16) x1.toNat 11)
  | .inval x0 x1 => some (place (place 0xC4000040 x0.toNat 16) x1.toNat 11)
  | .pref x0 x1 => some (place (place 0xC4000050 x0.toNat 16) x1.toNat 11)
  | .l2cfg x0 x1 => some (place (place 0xC4000060 x0.toNat 21) x1.toNat 16)
  | .barInit x0 x1 => some (place (place 0xC4000080 x0.toNat 16) x1.toNat 11)
  | .barArrive x0 x1 x2 => some (place (place (place 0xC4000090 x0.toNat 21) x1.toNat 16) x2.toNat 11)
  | .barWait x0 x1 x2 => some (place (place (place 0xC40000A0 x0.toNat 21) x1.toNat 16) x2.toNat 11)
  | .barTest x0 x1 x2 => some (place (place (place 0xC40000B0 x0.toNat 21) x1.toNat 16) x2.toNat 11)
  | .copy x0 x1 => some (place (place 0xC8000000 x0.toNat 21) x1.toNat 16)
  | .gcopy x0 x1 => some (place (place 0xC8000010 x0.toNat 21) x1.toNat 16)
  | .mcopy x0 x1 x2 => some (place (place (place 0xC8000020 x0.toNat 21) x1.toNat 16) x2.toNat 11)
  | .cseal x0 => some (place 0xC8000030 x0.toNat 21)
  | .cwaitUpto x0 => some (place 0xC8000040 x0.toNat 16)
  | .cwaitLeft x0 => some (place 0xC8000050 x0.toNat 16)
  | .ccont x0 x1 x2 => some (place (place (place 0xC8000060 x0.toNat 21) x1.toNat 16) x2.toNat 11)
  | .cstat x0 x1 => some (place (place 0xC8000070 x0.toNat 21) x1.toNat 16)
  | .patch x0 x1 x2 => some (place (place (place 0xCC000000 x0.toNat 21) x1.toNat 16) x2.toNat 11)
  | .split x0 x1 x2 => some (place (place (place 0xCC000010 x0.toNat 21) x1.toNat 16) x2.toNat 11)
  | .dice x0 x1 x2 => some (place (place (place 0xCC000020 x0.toNat 21) x1.toNat 16) x2.toNat 11)
  | .gbound x0 x1 x2 => some (place (place (place 0xCC000030 x0.toNat 21) x1.toNat 16) x2.toNat 11)
  | .bspill x0 x1 x2 => some (place (place (place 0xCC000040 x0.toNat 21) x1.toNat 16) x2.toNat 11)
  | .bfill x0 x1 x2 => some (place (place (place 0xCC000050 x0.toNat 21) x1.toNat 16) x2.toNat 11)
  | .spat x0 x1 x2 => some (place (place (place 0xD0000000 x0.toNat 21) x1.toNat 16) x2.toNat 11)
  | .sgrid x0 x1 x2 => some (place (place (place 0xD0000010 x0.toNat 21) x1.toNat 16) x2.toNat 11)
  | .sflush x0 x1 x2 => some (place (place (place 0xD0000020 x0.toNat 21) x1.toNat 16) x2.toNat 11)
  | .sresolve x0 x1 x2 => some (place (place (place 0xD0000030 x0.toNat 21) x1.toNat 16) x2.toNat 11)
  | .bvhbind x0 x1 x2 => some (place (place (place 0xD4000000 x0.toNat 21) x1.toNat 16) x2.toNat 11)
  | .rcfade x0 x1 x2 => some (place (place (place 0xD4000010 x0.toNat 21) x1.toNat 16) x2.toNat 11)
  | .texbind x0 x1 x2 => some (place (place (place 0xD4000080 x0.toNat 21) x1.toNat 16) x2.toNat 11)
  | .xdelta x0 x1 x2 => some (place (place (place 0xD8000000 x0.toNat 21) x1.toNat 16) x2.toNat 11)
  | .xdcmp x0 x1 => some (place (place 0xD8000010 x0.toNat 16) x1.toNat 11)
  | .xfclr x0 x1 => some (place (place 0xD8000020 x0.toNat 16) x1.toNat 11)
  | .ktwin x0 x1 => some (place (place 0xDC000000 x0.toNat 21) x1.toNat 16)
  | .kpeal x0 x1 x2 => some (place (place (place 0xDC000010 x0.toNat 21) x1.toNat 16) x2.toNat 11)
  | .krst x0 => some (place 0xDC000020 x0.toNat 16)
  | .kwait x0 x1 => some (place (place 0xDC000030 x0.toNat 21) x1.toNat 16)
  | .kstat x0 x1 => some (place (place 0xDC000040 x0.toNat 21) x1.toNat 16)
  | .spawn x0 x1 x2 => some (place (place (place 0xE0000000 x0.toNat 21) x1.toNat 16) x2.toNat 11)
  | .ndone x0 x1 => some (place (place 0xE0000010 x0.toNat 16) x1.toNat 11)
  | .stepb x0 => some (place 0xE0000020 x0.toNat 21)
  | .prio x0 x1 => some (place (place 0xE0000030 x0.toNat 21) x1.toNat 16)
  | .erd x0 x1 => some (place (place 0xE0000040 x0.toNat 21) x1.toNat 16)
  | .bqpush x0 x1 x2 => some (place (place (place 0xE0000050 x0.toNat 21) x1.toNat 16) x2.toNat 11)
  | .bqpop x0 x1 => some (place (place 0xE0000060 x0.toNat 21) x1.toNat 16)
  | .dieq x0 x1 => some (place (place 0xE0000070 x0.toNat 21) x1.toNat 16)
  | .qroot x0 => some (place 0xE4000000 x0.toNat 21)
  | .qsplit x0 x1 x2 => some (place (place (place 0xE4000010 x0.toNat 21) x1.toNat 16) x2.toNat 11)
  | .qretW x0 x1 => some (place (place 0xE4000020 x0.toNat 21) x1.toNat 16)
  | .qretM x0 x1 => some (place (place 0xE4000820 x0.toNat 21) x1.toNat 16)
  | .qborrow x0 => some (place 0xE4000030 x0.toNat 21)
  | .qwait x0 x1 => some (place (place 0xE4000040 x0.toNat 21) x1.toNat 16)
  | .qpoll x0 x1 => some (place (place 0xE4000050 x0.toNat 21) x1.toNat 16)
  | .qsend x0 x1 => some (place (place 0xE4000060 x0.toNat 21) x1.toNat 16)
  | .mshape x0 x1 x2 => some (place (place (place 0xF0000000 x0.toNat 21) x1.toNat 16) x2.toNat 11)
  | .mloadb x0 x1 x2 => some (place (place (place 0xF0000010 x0.toNat 21) x1.toNat 16) x2.toNat 11)
  | .mma x0 x1 x2 => some (place (place (place 0xF0000020 x0.toNat 21) x1.toNat 16) x2.toNat 11)
  | .mmac x0 x1 x2 => some (place (place (place 0xF0000030 x0.toNat 21) x1.toNat 16) x2.toNat 11)
  | .mzero x0 x1 x2 => some (place (place (place 0xF0000040 x0.toNat 21) x1.toNat 16) x2.toNat 11)
  | .mstat x0 x1 x2 => some (place (place (place 0xF0000050 x0.toNat 21) x1.toNat 16) x2.toNat 11)
  | .iadd _ => none
  | .isub _ => none
  | .imul _ => none
  | .imad _ => none
  | .imulh _ => none
  | .iabs _ => none
  | .imin _ => none
  | .imax _ => none
  | .laneAnd _ => none
  | .laneOr _ => none
  | .laneXor _ => none
  | .notL _ => none
  | .laneShl _ => none
  | .laneShr _ => none
  | .laneSra _ => none
  | .bfe _ => none
  | .bfi _ => none
  | .popc _ => none
  | .clz _ => none
  | .isetp _ => none
  | .mov _ => none
  | .laneSel _ => none
  | .plop _ => none
  | .fadd _ => none
  | .fsub _ => none
  | .fmul _ => none
  | .ffma _ => none
  | .fmin _ => none
  | .fmax _ => none
  | .fsetp _ => none
  | .frnd _ => none
  | .frcp _ => none
  | .frsq _ => none
  | .fsqrt _ => none
  | .fexp2 _ => none
  | .flog2 _ => none
  | .fsin _ => none
  | .fcos _ => none
  | .hadd2 _ => none
  | .hmul2 _ => none
  | .hfma2 _ => none
  | .cvt _ => none
  | .shfl _ => none
  | .vote _ => none
  | .gred _ => none
  | .gscan _ => none
  | .gdx _ => none
  | .gdy _ => none
  | .xchg _ => none
  | .brl _ => none
  | .switchL _ => none
  | .reconv _ => none
  | .lloop _ => none
  | .llexit _ => none
  | .lstop _ => none
  | .ld _ => none
  | .st _ => none
  | .ldx _ => none
  | .stx _ => none
  | .atom _ => none
  | .atomx _ => none
  | .fqput _ => none
  | .fqget _ => none
  | .mfeed _ => none
  | .mscale _ => none
  | .mdrain _ => none
  | .mfmt _ => none
  | .gread _ => none
  | .greadApron _ => none
  | .gwrite _ => none
  | .gnorm _ => none
  | .scover _ => none
  | .sread _ => none
  | .swrite _ => none
  | .swriteZ _ => none
  | .trace _ => none
  | .traceSort _ => none
  | .hitget _ => none
  | .rclook _ => none
  | .rcins _ => none
  | .tex _ => none
  | .texg _ => none
  | .texq _ => none
  | .texlat _ => none
  | .xmat _ => none
  | .xlut1 _ => none
  | .xlut3 _ => none
  | .xraw _ => none
  | .xpack _ => none
  | .xunpk _ => none
  | .klaunch _ => none
  | .kcapt _ => none
  | .spawnLane _ => none
  | .qsendLane _ => none
  | .longLatencyResultWrite _ _ _ => none
  | .aldReadsPerform _ _ _ => none
  | .laneMemoryAccessPerform _ _ _ => none
  | .rangeMaintenancePerform _ _ => none
  | .copyEntryPerform _ _ => none
  | .continuationStart _ _ => none
  | .mloadbEntryPerform _ => none
  | .mmaEntryPerform _ => none
  | .mzeroEntryPerform _ => none
  | .mfeedEntryPerform _ => none
  | .mscaleEntryPerform _ => none
  | .mdrainEntryPerform _ _ => none
  | .mfmtRequest _ _ => none
  | .diceEntryPerform _ => none
  | .fillEntryPerform _ => none
  | .spillEntryPerform _ _ => none
  | .engineSpill _ => none
  | .greadEntryPerform _ => none
  | .gwriteEntryPerform _ => none
  | .sflushEntryPerform _ _ => none
  | .sgridEntryPerform _ => none
  | .sresolveEntryPerform _ _ => none
  | .scoverEntryPerform _ => none
  | .sampleRecordEntryPerform _ => none
  | .traceEntryPerform _ => none
  | .traceSortMeeting _ _ _ _ => none
  | .hitgetEntryPerform _ => none
  | .rclookEntryPerform _ => none
  | .rcinsEntryPerform _ => none
  | .rcfadeEntryPerform _ _ => none
  | .texEntryPerform _ => none
  | .texqEntryPerform _ => none
  | .colourTransformEntryPerform _ => none
  | .packEntryPerform _ => none
  | .xrawEntryPerform _ => none
  | .xfclrEntryPerform _ => none
  | .xdeltaEntryPerform _ => none
  | .xdcmpEntryPerform _ => none
  | .ktwinEntryPerform _ => none
  | .kpealEntryPerform _ => none
  | .krstEntryPerform _ => none
  | .klaunchEntryPerform _ => none
  | .kcaptEntryPerform _ => none
  | .ballastDepositPerform _ => none
  | .qretEntryPerform _ => none
  | .takeCause _ _ => none
  | .parkBlockWrite _ _ => none
  | .softError _ _ => none
  | .sleepExpire _ _ => none
  | .mwaitWake _ _ => none
  | .xchgMatch _ _ => none
  | .translationWalk _ _ _ _ _ _ => none
  | .cacheLineExpire _ _ _ _ => none
  | .writeCombineTimeout _ _ _ => none
  | .gangAdmission _ _ _ _ _ _ => none
  | .admissionRetry _ _ _ _ => none
  | .gangRetire _ => none
  | .instanceRetire _ _ => none
  | .dispatchInstance _ _ => none
  | .launchStart _ => none
  | .stepBoundary _ => none
  | .preemption _ => none
  | .partitionResume _ _ => none
  | .clusterPowerUp _ _ => none
  | .periodBoundary _ => none
  | .powerWindow _ _ => none
  | .thermalWarning _ _ _ => none
  | .thermalRecovery _ _ => none
  | .thermalFreeze _ _ _ => none
  | .accumulatorForward _ _ => none
  | .tetherSteal _ _ => none
  | .stealRetry _ _ => none
  | .depthReportSend _ _ => none
  | .writeMsg _ _ _ _ => none
  | .noticeMsg _ _ => none
  | .readMsg _ _ => none
  | .rdataMsg _ _ => none
  | .ackMsg _ _ => none
  | .messageApply _ _ => none
  | .returnMsg _ _ => none
  | .borrowMsg _ _ => none
  | .grantMsg _ _ => none
  | .refuseMsg _ _ => none
  | .depositMsg _ _ => none
  | .transferMsg _ _ => none
  | .wakeMsg _ _ => none
  | .stealRequest _ _ => none
  | .stealReply _ _ => none
  | .depthReport _ _ => none
  | .hostRegisterRequest _ _ _ _ _ _ => none
  | .hostRegisterResponse _ => none
  | .eventFlit _ => none
  | .lqtailWrite _ _ => none
  | .launchRecord _ => none
  | .resumeCmd _ => none
  | .abortCmd _ => none
  | .switchCmd _ => none
  | .withdrawCmd _ => none
  | .tlbinvCmd _ => none
  | .mcclr _ _ => none
  | .registerWrite _ _ _ _ => none
  | .boot _ => none
  | .attestationQuote _ => none
  | .quoteReady _ => none
  | .resetAll _ => none
  | .linkTraining _ _ _ _ => none
  | .linkLost _ _ => none
  | .freeze => none
  | .freezeCommand => none
  | .thaw => none
  | .thawCommand => none
  | .timeSliceExpiry _ => none
  | .hcmdNotAccepted _ _ => none
  | .linkDown _ _ => none
  | .droppedFlit _ _ => none
  | .flitRetry _ _ _ => none

/-- The word of an instruction and its length in bits; none for a step without an encoding. -/
def encode (i : Instr) : Option (Nat × Nat) :=
  match i.laneOp with
  | some (op, w, _) => some (96, laneBits op w)
  | none =>
    match encodeScalar i with
    | some w => some (32, w)
    | none => none

end Sys2Proof
end

