-- ==== Sys2Proof/Machine/State.lean ====
section
/-! DEFINITION. The state of the machine as plain data: every register, queue, memory and record the manual names,
the reasons a step can stop, and the state right after reset. -/

set_option linter.unusedVariables false

namespace Sys2Proof.Machine

open Sys2Proof

/-! ## Streams: what a group's scalar stream and a control-core context share -/

/-- One condition flag with the four outcomes of a comparison (R134, Table 5-1). -/
structure Flag where
  eq : Bool
  lt : Bool
  ltn : Bool
  ovf : Bool
  deriving DecidableEq, Repr

/-- One entry of the scalar loop stack (R145). -/
structure LoopEnt where
  start : Nat
  fin : Nat
  count : Nat
  deriving DecidableEq, Repr

/-- A cause as it is raised, with what the fault record takes of it (R33, Table 9-2). -/
structure Cause where
  code : Nat
  kind : Nat
  qbit : Nat
  tnum : Nat
  user : Nat
  xpc : Nat
  xlpc : Nat
  addr : Nat
  hseq : Nat
  stops : Nat
  deriving DecidableEq, Repr

/-- The fault record of a group or context (R269, Table 9-2). `taken` is false until a cause has been taken. -/
structure FaultRec where
  taken : Bool
  cause : Cause
  epc : Nat
  regnc : Nat
  base : Tab W16
  second : Nat
  deriving DecidableEq, Repr

/-- What a scalar stream is waiting in (R52, R68). -/
inductive Wait where
  /-- not waiting -/
  | none
  /-- on the lane stream (R46); `joins` for LRUN, LSYNC, AST, REGGIVE, REGCLAIM and EXIT, which end a pop's wait (R159) -/
  | onLane (joins : Bool)
  /-- in ALD for a free entry (R157, R159) -/
  | aldFull
  /-- in an engine, batch or memory wait that is simply tried again -/
  | engine
  /-- in QFENCE, for these last earlier entries, as pairs of queue and number (R256) -/
  | qfence (targets : List (Nat × W16))
  /-- in FENCE at .sys, until the messages this die had sent are applied everywhere (R255) -/
  | fence (sent : Nat)
  /-- in MWAIT on the sector of this physical address (R230) -/
  | mwait (sector : Nat) (woken : Bool)
  /-- in BAR.WAIT on the barrier at this scratchpad address; woken with the STATUS of the phase that completed (R24, R237) -/
  | barWait (bar : Nat) (woken : Option W32)
  /-- in SLEEP with this many clk left (R148) -/
  | sleep (left : Nat)
  /-- in STEPB; released with the word that s_D receives (R486) -/
  | stepb (released : Option W64)
  /-- in QWAIT on this root of this generation (R507) -/
  | qwait (root : Nat) (gen : Nat) (woken : Option W64)
  /-- in BQPOP with an empty deque; released when the wait has ended empty (R490) -/
  | bqpop (released : Bool)
  /-- in AST: elements below this one are done (R160) -/
  | ast (next : Nat)
  /-- waiting for the answer of a borrow (R496): none yet, granted, or refused; in DICE and SPLIT, the halves of a pair
  appended before (R351) -/
  | borrow (answer : Option Bool) (halves : Nat)
  /-- in DICE or BFILL for a slot (R349) -/
  | slot
  deriving DecidableEq, Repr

/-- A scalar long-latency result not yet written (R89): SLD's destination and value, and the window that is left. -/
structure SPend where
  dst : Nat
  val : W64
  left : Nat
  /-- it issued in trap mode: numbers 24–31 are the trap bank's (R261) -/
  trap : Bool
  deriving DecidableEq, Repr

/-- The scalar stream of a group, or a control-core context's stream (R133 to R147, R259 to R262, R311). -/
structure Stream where
  /-- the scalar PC, a virtual address -/
  pc : Nat
  /-- s1–s31 or c1–c31; s0 and c0 are not stored (R133) -/
  regs : Tab W64
  /-- the trap bank, numbers 24–31 (R261) -/
  bank : Tab W64
  flags : Tab Flag
  /-- return stack, top first, at most 8 (R144) -/
  rstack : List Nat
  /-- scalar loop stack, innermost first, at most 4 (R145) -/
  loops : List LoopEnt
  /-- lc0–lc3 -/
  lc : Tab Nat
  tmode : Bool
  /-- where the stream stood, what it waited in, and the word it waited in, when its handler was entered -/
  tpc : Nat
  twait : Wait
  tword : Nat
  hmask : W16
  frec : FaultRec
  /-- the cause the stream holds and that has not been taken (R34) -/
  held : Option Cause
  /-- the cause it holds or handles, which CAUSE, XPC and XLPC name until TRET or a resume (Tables 5-2 and 9-1, R273) -/
  cause : Option Cause
  /-- causes kept for the next instruction boundary: queue halts, lane faults (R35, R224, R262) -/
  due : List Cause
  wait : Wait
  /-- open scalar lookahead windows (R89) -/
  pend : List SPend
  /-- the stream has ended: EXIT or CCONT (R149, R304) -/
  ended : Bool
  /-- stopped by the partition controller: parked, or its partition is out (R277, R282) -/
  stopped : Bool
  /-- clk ready without issuing, the w of R52 -/
  age : Nat
  /-- the word that issued last: a waiting stream waits in it -/
  word : Nat
  deriving DecidableEq, Repr

/-! ## Lane runs -/

/-- A thread's class in the lane run (R59). -/
inductive Cls where
  | normal
  | helper
  | void
  deriving DecidableEq, Repr

/-- One thread: registers, predicates and identity (R43, R166). -/
structure Thread where
  v : Tab W32
  /-- bit i is predicate i, 0–6 -/
  p : Byte
  tid : Nat
  cls : Cls
  /-- the thread has finished the run at LSTOP (R196) -/
  fin : Bool
  deriving DecidableEq, Repr

/-- An entry of the divergence stack (R188). -/
inductive SEnt where
  | join (mask : W32) (rc : Option Int)
  | pend (mask : W32) (start : Int)
  | loop (start fin : Int) (dst : Nat) (done : W32) (cnt it : Tab Nat)
  deriving DecidableEq, Repr

/-- What a fragment waits in (R186, R229, R392). -/
inductive FWait where
  | none
  /-- in XCHG: partner word, tag, the match count, destination, and the values read at issue by TNUM (R186, R187) -/
  | xchg (partner tag count dst : Nat) (vals : Tab W32)
  /-- tracing in TRACE.SORT at this lane index (R392) -/
  | tracing (x : Int)
  /-- waiting in its n-th TRACE.SORT meeting (R393) -/
  | meeting (n : Nat) (x : Int)
  /-- at a pop of this queue with no present entry (R159) -/
  | pop (q : Nat)
  /-- at a full or empty FIFO (R229) -/
  | fifo
  /-- in a memory, engine or queue wait that is simply tried again -/
  | engine
  /-- in SPAWN or QSEND for the answer of a borrow, with the results of the threads already served (R496) -/
  | borrow (served : List (Nat × Nat)) (answer : Option Bool)
  deriving DecidableEq, Repr

/-- A fragment of a lane run (R188). `wins` holds its open lookahead windows: result tag and what is left (R89). -/
structure Frag where
  mask : W32
  pc : Int
  /-- its part of the divergence stack, top first -/
  stack : List SEnt
  wait : FWait
  wins : List (Nat × Nat)
  /-- tags of .acq loads that later memory instructions of the fragment wait for (R226) -/
  acqs : List Nat
  /-- the lane word that issued last: a waiting fragment waits in it -/
  word : Nat
  /-- clk ready without issuing, the w of R52 -/
  age : Nat
  deriving DecidableEq, Repr

/-- The root join (R188). -/
structure RootJoin where
  parked : W32
  rc : Option Int
  pends : List (W32 × Int)
  deriving DecidableEq, Repr

/-- What a run keeps of its GREAD (R360). -/
structure GMap where
  handle : Nat
  col0 : Int
  row0 : Int
  wd : Nat
  deriving DecidableEq, Repr

/-- The active lane run of a group (R150, R188). LACT is `active`. -/
structure Run where
  active : Bool
  /-- the broadcast copy of s1–s31 (R151) -/
  bcast : Tab W64
  frags : List Frag
  root : Option RootJoin
  gmap : Option GMap
  /-- the width of the run's links: 8 unless a GREAD has set it since the run began or last met in TRACE.SORT (R185, R360, R394) -/
  linkWd : Nat := 8
  deriving DecidableEq, Repr

/-- A long-latency or pending lane result: tag, whether it is ready, and the register writes by TNUM and register (R89, R92). -/
structure LPend where
  tag : Nat
  ready : Bool
  writes : List (Nat × Nat × W32)
  deriving DecidableEq, Repr

/-- The kinds of lane memory access (Table 7-8). -/
inductive AccKind where
  | load
  | store
  | atomic (op : Nat)
  | fqput
  | fqget
  deriving DecidableEq, Repr

/-- One thread's part of a pending lane access: TNUM, address (virtual or scratchpad), data and compare value. -/
structure AccThread where
  tnum : Nat
  addr : Nat
  data : Nat
  cmp : Nat
  deriving DecidableEq, Repr

/-- A lane memory instruction that has issued and whose threads perform in ascending TNUM order (R224, R226). -/
structure LAcc where
  tag : Nat
  kind : AccKind
  /-- scratchpad space rather than virtual -/
  spad : Bool
  /-- type code of Table 3-7 -/
  ty : Nat
  ord : Nat
  scope : Nat
  pol : Nat
  dst : Option Nat
  /-- threads still to perform -/
  todo : List AccThread
  /-- the checks that come before a non-idempotent access have passed (R268) -/
  checked : Bool
  /-- what was issued before it: the last earlier entry of each queue, and the ALDs then pending (R268) -/
  after : List (Nat × W16)
  alds : List Nat
  deriving DecidableEq, Repr

/-! ## Operand queues -/

/-- The reads of an ALD that have not been performed (R157). -/
structure AldJob where
  base : Nat
  stride : Int
  size : Nat
  sx : Bool
  mask : W32
  /-- a read met a cause: the entry stays not present (R157) -/
  failed : Bool
  /-- its place in the program order of the group's ALDs (R155) -/
  born : Nat
  deriving DecidableEq, Repr

/-- An entry of an operand queue: present with 32 words, or with the words read so far (R156, R240). -/
structure QEnt where
  words : List W32
  job : Option AldJob
  deriving DecidableEq, Repr

/-- One operand queue: the number of the first entry kept, the entries, and a head per TNUM (R156). -/
structure OpQ where
  base : Nat
  ents : List QEnt
  heads : Tab Nat
  /-- entries below this number that some thread had not passed at the region checkpoint are retained (R266) -/
  keep : Nat
  deriving DecidableEq, Repr

/-! ## Engine queues -/

/-- The records engines copy whole at issue are held as numbers of their bits (R291, R364, R383, R405, R424). -/
abbrev Record := Nat

/-- A barrier an entry arrives at: none, or its scratchpad offset in position 0 (R24). -/
abbrev BarRef := Option Nat

/-- A per-thread operand list carried by an entry: TNUM, helper, and the words read at issue. -/
structure TArg where
  tnum : Nat
  helper : Bool
  words : List W32
  deriving DecidableEq, Repr

/-- The raster binding an entry takes at issue (R364, R373). -/
structure Raster where
  header : Record
  entries : List Nat
  sbuf : Nat
  deriving DecidableEq, Repr

/-- How a copy addresses its source and destination (R296 to R298). -/
inductive CopyKind where
  | plain
  | gather
  | multi (mask : Nat)
  deriving DecidableEq, Repr

/-- What an issued queue entry does when it performs. Operands are those read at issue (R17). -/
inductive EOp where
  | range (fn : Nat) (addr size : Nat)
  | copy (kind : CopyKind) (shapeRec : Record) (ndim : Nat)
  | mloadb (tile : Nat) (shape : Record) (off : Nat)
  | mma (bcast : Bool) (acc : Nat) (shape : Record) (tile : Nat) (keep : Bool)
  | mzero (acc : Nat) (shape : Record) (free : Bool)
  | mfeed (row : Nat) (words : List W32) (fmt : Option W32)
  | mscale (scales : List (Nat × Byte))
  | mdrain (acc : Nat) (spad : Bool) (zero sat : Bool) (rm : Nat) (base : Nat) (bar : BarRef)
  | dice (patch : Nat) (shapeRec : Record) (slot : Nat) (victim : Bool) (bucket : Nat) (bar : BarRef)
  | fill (image : Nat) (slot : Nat) (victim : Bool) (bucket : Nat) (bar : BarRef)
  | spill (slot : Nat) (image : Nat) (bar : BarRef)
  | gread (slot : Nat) (map : GMap) (dst : Nat) (threads : List (Nat × Bool)) (tag : Nat)
  | gwrite (slot : Nat) (mask : Nat) (nu : Nat) (args : List (Nat × List W32)) (map : GMap)
  | sflush (binding : Raster) (bx bk : Nat) (depth : W32) (bar : BarRef)
  | sgrid (binding : Raster) (bx bk : Nat) (slot : Nat) (gang : Nat) (bar : BarRef)
  | sresolve (binding : Raster) (bx bk : Nat) (base : Nat) (bar : BarRef)
  | scover (binding : Raster) (bx bk : Nat) (slot : Nat) (dst : Nat) (args : List TArg) (tag : Nat)
  | sread (binding : Raster) (dst : Nat) (args : List TArg) (tag : Nat)
  | swrite (binding : Raster) (z : Bool) (args : List TArg) (tag : Nat)
  | trace (bvh : Record) (cullb cullf : Bool) (dst : Nat) (args : List TArg) (tag : Nat)
  | hitget (bvh : Record) (sel : Nat) (dst : Nat) (args : List TArg) (tag : Nat)
  | rclook (bvh : Record) (dst : Nat) (args : List TArg) (tag : Nat)
  | rcins (bvh : Record) (args : List TArg) (tag : Nat)
  | rcfade (bvh : Record) (factor : Nat) (bar : BarRef)
  | tex (desc : Record) (form : Nat) (dst : Nat) (args : List TArg) (bar : BarRef) (tag : Nat)
  | texq (desc : Record) (dst : Nat) (args : List TArg) (bar : BarRef) (tag : Nat)
  | colour (kind : Nat) (desc : Nat) (dst : Nat) (args : List TArg) (tag : Nat)
  | pack (addr w : Nat) (args : List TArg) (tag : Nat)
  | unpack (addr w : Nat) (sx : Bool) (dst : Nat) (args : List TArg) (tag : Nat)
  | xraw (addr w : Nat) (chain : Bool) (dst : Nat) (args : List TArg) (tag : Nat)
  | xfclr (desc : Record) (first count : Nat)
  | xdelta (desc : Record) (tile src : Nat) (mask : W64)
  | xdcmp (desc : Record) (tile : Nat)
  | ktwin (t : Nat)
  | kpeal (src slot : Nat) (bar : BarRef)
  | krst (lv cv : Bool)
  | klaunch (peal : Nat) (half go : Bool) (vals : Tab Nat) (bar : BarRef)
  | kcapt (half : Bool) (dst : Nat) (threads : List Nat) (tag : Nat)
  | deposit (adds : List (Nat × W64))
  | qretw (weight : W64)
  | qretm (word : Nat)
  deriving DecidableEq, Repr

/-- A leaf translation that is kept (R207, R265): root, virtual page base, log2 of its size, and the leaf entry. -/
structure Tlb where
  root : Nat
  va : Nat
  lg : Nat
  pte : Nat
  /-- HMLIM of the walking die as the walk read the leaf: host memory at or above it is not reached through it (R202) -/
  lim : Nat
  deriving DecidableEq, Repr

/-- An issued entry: its sequence number, what it does, how far it has come, and what it has gathered (R17, R30, R382). -/
structure Ent where
  seq : W16
  /-- its place in the order of issue over all groups (R419, R453): the model's own -/
  born : Nat
  op : EOp
  /-- it has begun (R282) -/
  started : Bool
  /-- progress: sectors, threads, tiles or slots already done -/
  pos : Nat
  /-- sectors written so far, the STOPS of a halt (R269) -/
  wrote : Nat
  /-- status gathered so far -/
  status : W32
  /-- it can no longer raise a cause (R265) -/
  committed : Bool
  /-- the copy batch it belongs to (R300) -/
  batch : Nat
  /-- report barrier read at issue, for context entries (R324) -/
  report : BarRef
  /-- what it computed and goes on to write (R382, R444), or the TNUMs whose result came from the latent (R414) -/
  buf : List Byte
  /-- destination sectors read and merged and not yet written: the merge is not atomic towards other writers (R244) -/
  merge : Tab Nat
  /-- what it has read or taken ahead: elements of a drain's accumulator, cores whose banks an MMA has taken, the reads of a
  sampler entry's threads (R309, R329, R417) -/
  reads : Tab Nat := []
  /-- the highest count of a message it sent to each home (R249) -/
  sent : Tab Nat
  /-- what was issued before it: the last earlier entry of each queue, and the lane accesses and ALDs then pending (R268) -/
  after : List (Nat × W16)
  accs : List Nat
  alds : List Nat
  /-- the translations it holds since it committed (R265) -/
  xlat : List Tlb
  deriving DecidableEq, Repr

/-- One engine queue of a group or context (R17, R30, R31, R35). -/
structure Queue where
  next : W16
  mark : W16
  ents : List Ent
  halt : Option Cause
  deriving DecidableEq, Repr

/-- STICKY and LAST of a queue's status record (R302, R421, R455, R502). -/
structure Sts where
  sticky : Nat
  last : W32
  deriving DecidableEq, Repr

/-! ## Groups, gangs and contexts -/

/-- A region checkpoint (R266). -/
structure Ckpt where
  regs : Tab W64
  flags : Tab Flag
  rstack : List Nat
  loops : List LoopEnt
  lc : Tab Nat
  astr : W32
  amask : W32
  wgt : W64
  heads : Tab (Tab Nat)
  tails : Tab Nat
  first : Nat
  deriving DecidableEq, Repr

/-- Copy batches of a group (R300). -/
structure Batches where
  opened : Nat
  /-- sealed unfinished batches, oldest first -/
  sealed : List Nat
  deriving DecidableEq, Repr

/-- The Carillon's record of a group: entries not listed are NEVER (R445). -/
structure KVec where
  lv : Tab Nat
  cv : Tab Nat
  sts : Sts
  deriving DecidableEq, Repr

/-- A group's place and fixed identity (R42, R43, R49). -/
structure GroupId where
  gang : Nat
  gidx : Nat
  pos : Nat
  lane : Nat
  gslot : Nat
  role : Nat
  deriving DecidableEq, Repr

/-- A group (R45, R165, R199). -/
structure Group where
  id : GroupId
  st : Stream
  /-- current lane registers per thread (R51) -/
  regcnt : Nat
  astr : W32
  amask : W32
  threads : Tab Thread
  run : Run
  /-- next result tag -/
  tags : Nat
  lpend : List LPend
  laccs : List LAcc
  opq : Tab OpQ
  queues : Tab Queue
  epc : Nat
  regnc : Nat
  base : Tab W16
  ckpt : Ckpt
  wgt : W64
  attach : W64
  prio : Nat
  batches : Batches
  csts : Sts
  xsts : Sts
  bsts : Sts
  kvec : KVec
  /-- raw-block chain state P0, P1 and POISON (R432) -/
  p0 : Nat
  p1 : Nat
  poison : Bool
  raster : Option Raster
  /-- the instance adopted by the last BQPOP (R490) -/
  adopted : Option Nat
  /-- MFMT requests not yet answered: tag, field, slot, destination and threads (R328) -/
  fmts : List (Nat × Nat × Nat × Nat × List Nat)
  /-- TRACE.SORTs issued, and XCHGs issued by 2^16 × partner word + tag (R392, R187) -/
  sorts : Nat
  xchgs : Tab Nat
  /-- the group has ended; its slot is kept for a continuation (R304) -/
  exited : Bool
  awaits : Bool
  deriving DecidableEq, Repr

/-- A tile of the resident B operand (Table 11-1, R318). -/
structure Tile where
  k : Nat
  n : Nat
  fmt : Nat
  elems : Tab Nat
  brow : Tab Nat
  bcol : Tab Nat
  deriving DecidableEq, Repr

/-- A live accumulator (R308). Elements not listed are zero. -/
structure Acc where
  m : Nat
  n : Nat
  cfmt : Nat
  rfmt : Nat
  res : Nat
  rrs : Int
  rb : Nat
  cb : Nat
  elems : Tab W32
  deriving DecidableEq, Repr

/-- A row of a row bank (Table 11-1). -/
structure Row where
  words : List W32
  fmt : Option W32
  deriving DecidableEq, Repr

/-- A row bank: marked rows, and row scales that are not 0x7F (R309). -/
structure Bank where
  rows : Tab Row
  scales : Tab Byte
  deriving DecidableEq, Repr

/-- A core's matrix engine (R307). `filling` is the number of the filling bank, `kept` says the other bank is kept (R321). -/
structure Matrix where
  tiles : Tab Tile
  accs : Tab Acc
  bank0 : Bank
  bank1 : Bank
  filling : Nat
  kept : Bool
  deriving DecidableEq, Repr

/-- A gang (R42, R48, R203). Holdings are per position, in their fixed order, each with its mode 0, 1 or 2 (R213). -/
structure Gang where
  launch : Nat
  inst : Nat
  node : Nat
  gx : Nat
  gy : Nat
  gz : Nat
  die : Nat
  cluster : Nat
  core0 : Nat
  cores : Nat
  gpc : Nat
  regs : Nat
  nbar : Nat
  hold : Tab (List Nat)
  /-- pending statuses of barrier objects by offset (R25) -/
  barPend : Tab W32
  /-- FIFO contents by 512 × position + holding index (R228) -/
  fifos : Tab (List (List W32))
  /-- lane registers of the gang's allotment that are free, by 64 × core position + lane position (R49, R51) -/
  free : Tab Nat
  /-- the bound bucket record's address and the slot budget (R334) -/
  bucket : Option Nat
  budget : Nat
  bvh : Tab Record
  tex : Tab Record
  matrix : Tab Matrix
  /-- continuations handed to the copy engine and not yet started: their records as they stood at the hand-off (R305) -/
  handoffs : List Nat
  /-- lane and register needs and holds still held on the cluster -/
  placed : Bool
  retired : Bool
  deriving DecidableEq, Repr

/-- A tile or accumulator in a context's issue view (R313). -/
structure View where
  tiles : Tab (Nat × Nat × Nat)
  accs : Tab Acc
  deriving DecidableEq, Repr

/-- A control-core context (R311, Table 11-10). -/
structure Ctx where
  gang : Nat
  ctxno : Nat
  st : Stream
  slots : Tab Record
  mrb : W32
  sts : Sts
  queue : Queue
  /-- issue view per gang core position -/
  view : Tab View
  deriving DecidableEq, Repr

/-! ## Launches and instances -/

/-- Where an instance stands (R39 to R41, R471). -/
inductive IPhase where
  | pool
  | ready (order : Nat)
  | deque
  | running
  | retiring
  | retired
  | parked
  | aborted
  deriving DecidableEq, Repr

/-- What the partition controller keeps of a parked or stopping instance (R277 to R280). -/
structure Park where
  reason : Nat
  cause : Cause
  who : Nat
  frec : FaultRec
  /-- physical address of its control block, once written -/
  block : Option Nat
  isize : Nat
  /-- the mode of the RESUME under which it is being admitted again (R279) -/
  resuming : Option Nat
  deriving DecidableEq, Repr

/-- A node instance (R39). -/
structure Inst where
  launch : Nat
  number : Nat
  node : Nat
  index : Nat
  die : Nat
  phase : IPhase
  wgt : W64
  /-- pairs of output slot and tile already published (R467) -/
  published : List (Nat × Nat)
  admitted : Bool
  debit : Nat
  /-- gangs of the grid not yet started -/
  unstarted : List (Nat × Nat × Nat)
  park : Option Park
  /-- created by BQPUSH: no admission (R476) -/
  bucket : Bool
  /-- input tiles not yet found complete, as region and tile, and whether the last read of the counter met a cause (R527) -/
  wants : List (Nat × Nat × Bool)
  /-- per cluster it has occupied, by 16 × die + cluster: the cluster's meter and core-clk as it came, and its own core-clk
  there (R475) -/
  shares : Tab (Nat × Nat × Nat) := []
  deriving DecidableEq, Repr

/-- A deque entry (Table 18-3). -/
structure DqEnt where
  node : Nat
  index : Nat
  inst : Nat
  bx : Nat
  bk : Nat
  brec : Nat
  wgt : W64
  deriving DecidableEq, Repr

/-- A die's Tether agent for a launch (R479, R480). -/
structure Tether where
  /-- cold end first -/
  deque : List DqEnt
  lastBx : Nat
  lastBy : Nat
  stealing : Bool
  /-- last heard reports by die: depth and cold-end bucket -/
  heard : Tab (Nat × Nat × Nat)
  /-- instances created so far on this die in the launch (R39) -/
  created : Nat
  /-- the clk reports are counted from, reports sent, and when a thief may choose again (R480) -/
  start : Nat
  reports : Nat
  retryAt : Nat
  deriving DecidableEq, Repr

/-- The Carillon of a cluster (R445): window, peal slots as 2,048 cell words (a slot not listed is all KILL), LOADED. -/
structure Carillon where
  twin : Nat
  peals : Tab (List Nat)
  loaded : Nat
  deriving DecidableEq, Repr

/-- The state of a grid slot (Table 12-8). -/
inductive SlotState where
  | free
  | owned
  | ready
  | sampled
  | spilling
  deriving DecidableEq, Repr

/-- A slot of a Cupola (R340). Its 16 KiB of contents are bytes of the memory. -/
structure Slot where
  state : SlotState
  gen : Nat
  owner : Nat
  holders : List Nat
  /-- a request of R343 has reached the slot -/
  spillReq : Bool
  /-- the image allocated for the slot's spill, if any (R342, R524) -/
  image : Option Nat
  /-- NU and NV of the grid, known at allocation (R360) -/
  nu : Nat
  nv : Nat
  /-- the generation of the victim that the allocating entry still has to spill (R349) -/
  oldGen : Option Nat
  /-- the engine's own work on the slot met a cause, and waits for the owning instance to resume (R524) -/
  failed : Bool
  deriving DecidableEq, Repr

/-- A launch (R36, Table 20-8). `record` is the launch record's 1,024 bits as read. -/
structure Launch where
  record : Record
  /-- ring index and physical address of the record -/
  index : Nat
  addr : Nat
  /-- the die that launched the record -/
  home : Nat
  /-- 0 pending, 1 running, 2 ended, 3 refused, 4 aborted -/
  state : Nat
  /-- node records kept from submission (R38) -/
  nodes : List Record
  regions : List Record
  safe : List Nat
  live : List Nat
  /-- the dies of its set, each with its partition numbers (R478) -/
  dies : Tab (List Nat)
  /-- its partitions are switched out (R282) -/
  out : Bool
  /-- a switch has been requested and its streams are stopped (R282, R473) -/
  stopping : Bool
  /-- clk of its home die at which it took its partitions (R473) -/
  since : Nat
  /-- dies the host asked to withdraw (R478) -/
  withdraw : List Nat
  tethers : Tab Tether
  /-- Carillons by 16 × die + VCL; one not listed is as the launch found it (R445, R452) -/
  carillons : Tab Carillon
  deriving DecidableEq, Repr

/-! ## Dies -/

/-- A Ballast root (Table 19-2). -/
structure Root where
  live : Bool
  launch : Nat
  gen : Nat
  issued : Nat
  returned : Nat
  /-- groups asleep in QWAIT, as group numbers -/
  waiters : List Nat
  deriving DecidableEq, Repr

/-- A return accumulator (R497). -/
structure Accum where
  root : Nat
  tag : Nat
  sum : Nat
  since : Nat
  deriving DecidableEq, Repr

/-- Memory control registers (Table 7-7). -/
structure McRegs where
  wcwait : Nat
  blocks : Nat
  sectors : Nat
  merged : Nat
  rmw : Nat
  corrected : Nat
  uncorrected : Nat
  deriving DecidableEq, Repr

/-- Energy registers and the energy account (Table 18-2, R475). -/
structure Energy where
  /-- when the running 1 ms window of R523 began, and USED then -/
  winBegan : Nat := 0
  winUsed : Nat := 0
  en : Bool
  clmax : Nat
  budget : Nat
  period : Nat
  /-- the BUDGET in force, from the last boundary (R474) -/
  budgetNow : Nat
  bal : Int
  used : Nat
  /-- values in force for the running period, and the clk it began -/
  began : Nat
  length : Nat
  deriving DecidableEq, Repr

/-- Debug registers of a partition (Table 9-7). -/
structure Debug where
  step : Bool
  bpen : Nat
  bpa : Tab Nat
  deriving DecidableEq, Repr

/-- Host queue and command registers (Table 20-5). -/
structure HostRegs where
  lqbase : Nat
  lqctl : Nat
  lqtail : Nat
  lqhead : Nat
  fqbase : Nat
  fqctl : Nat
  fqtail : Nat
  fqhead : Nat
  /-- the command in progress: OP and ARG -/
  hcmd : Option (Nat × Nat)
  lost : Bool
  tailbad : Bool
  fqfull : Bool
  cmdbad : Bool
  parkfull : Bool
  fqbad : Bool
  /-- parking waits for a write of FQBASE (R530) -/
  fqwait : Bool
  hmlim : Nat
  deriving DecidableEq, Repr

/-- Identity, boot and attestation registers (Table 20-7). -/
structure Boot where
  bootaddr : Nat
  bootsts : Nat
  fwver : Nat
  mr : Nat
  nonce : Nat
  attBusy : Bool
  /-- the nonce copied when GO was accepted (R522) -/
  attNonce : Nat
  quote : Nat
  /-- a write of BOOTADDR has asked the ROM to run (R521) -/
  bootReq : Bool
  /-- BOOTADDR has been written since reset: the other blocks answer (R521) -/
  opened : Bool
  deriving DecidableEq, Repr

/-- Link registers (Table 20-6). -/
structure Link where
  state : Nat
  width : Nat
  rate : Nat
  retry : Nat
  /-- clk at which the link went down, while it is down: its flits stay in the retry buffers (R515) -/
  downAt : Option Nat
  deriving DecidableEq, Repr

/-- A clean line held in a core's cache ways or in an L2: block address, its 256 bytes as a number, and the clk it was
filled at (R212, R247) (DEDUCED, log 8). -/
structure Line where
  block : Nat
  data : Nat
  filled : Nat
  /-- sectors whose read at the home needed a correction (bits 7:0) or was uncorrectable (bits 15:8) (R222) -/
  errs : Nat
  deriving DecidableEq, Repr

/-- A block that waits in a memory controller's write-combining buffer: the bytes of it that have come, one bit each, the
partial writes they came in, and the clk of the first (R220). -/
structure Comb where
  block : Nat
  bytes : Nat
  writes : Nat
  since : Nat
  deriving DecidableEq, Repr

/-- A cluster: translation cache and power (R207, R474). -/
structure Cluster where
  tlb : List Tlb
  powered : Bool
  /-- nJ metered, and core-clk that instances have held, since reset (R475) -/
  meter : Nat := 0
  held : Nat := 0
  deriving DecidableEq, Repr

/-- A cluster that nothing has touched: gated. -/
def Cluster.off : Cluster := { tlb := [], powered := false }

/-- A die. -/
structure Die where
  /-- generations of the Cupola slots that no running launch has allocated, by 128 × cluster + slot (R340) -/
  gens : Tab Nat := []
  /-- the 64-bit clk counter (Table 5-2) -/
  clk : Nat
  wmask : Nat
  mc : McRegs
  energy : Energy
  debug : Tab Debug
  host : HostRegs
  boot : Boot
  links : Tab Link
  lerr : Nat
  temps : Tab Int
  pwr : Nat
  /-- holds on admission: power window and temperature (R523) -/
  powerHold : Bool
  thermalHold : Bool
  roots : Tab Root
  accums : List Accum
  /-- partition p belongs to this launch (R478) -/
  parts : Tab Nat
  clusters : Tab Cluster
  /-- cache ways by 8 × cluster + core -/
  caches : Tab (List Line)
  /-- clean copies of remote lines in this die's L2 (R212) -/
  copies : List Line
  /-- vector clock: entries 0–3 for dies, 4 for the host (R252) -/
  vclock : Tab Nat
  /-- counts of this die's messages that each site has acknowledged (R253) -/
  acked : Tab Nat
  /-- replies to reads that wait for their clock: block, data, clock, and the errors as in `Line` (R253) -/
  rdata : List (Nat × Nat × Tab Nat × Nat)
  /-- sectors of normal memory whose home data is dirty in this die's L2, with what GDDR 7 still holds (R212, R221) -/
  dirty : Tab Nat
  /-- the write-combining buffer (R220) -/
  combs : List Comb
  deriving DecidableEq, Repr

/-! ## Messages -/

/-- What a message carries (Table 20-3). -/
inductive MsgBody where
  /-- a system-shared write at its home: physical address, size in bytes, value, and whether the page is normal -/
  | write (addr size value : Nat) (normal : Bool)
  /-- notice of a write to a copy holder or bystander: physical address and size (R251) -/
  | notice (addr size : Nat)
  | read (block : Nat)
  | rdata (block : Nat) (data : Nat) (clock : Tab Nat) (errs : Nat)
  | ack (count : Nat)
  | ret (root tag amount : Nat)
  | borrow (root tag launch : Nat) (who : Nat)
  | grant (root tag : Nat) (who : Nat)
  | refuse (who : Nat)
  | deposit (group word : Nat) (weight : W64)
  | transfer (launch : Nat) (ent : DqEnt)
  | wake (root gen issued : Nat)
  | stealRequest (launch : Nat)
  | stealReply (launch : Nat)
  | depth (launch n bx bk : Nat)
  | hostRequest (write : Bool) (offset value size tag : Nat)
  | hostResponse (tag value : Nat)
  | event (code arg : Nat)
  deriving DecidableEq, Repr

/-- A message in flight from one site to another; sites are dies 0–3 and 4 for the host (Table 20-2). -/
structure Msg where
  src : Nat
  dst : Nat
  clock : Tab Nat
  body : MsgBody
  deriving DecidableEq, Repr

/-! ## The whole machine -/

/-- A gang's reservation in admission (R50): its window, whether it is held, its back-off count and when it may retry. -/
structure Resv where
  inst : Nat
  gx : Nat
  gy : Nat
  gz : Nat
  die : Nat
  cluster : Nat
  core0 : Nat
  held : Bool
  backoff : Nat
  retryAt : Nat
  deriving DecidableEq, Repr

/-- Who issues the instruction of the turn. -/
inductive Actor where
  /-- the scalar stream of a group -/
  | scalar (group : Nat)
  /-- a control-core context, named by its gang -/
  | control (gang : Nat)
  /-- a fragment of a group's lane run -/
  | lane (group frag : Nat)
  /-- an engine, controller, link or the outside -/
  | event
  deriving DecidableEq, Repr

/-- What one turn does: a stream issues its next word, or an event takes place. -/
inductive TurnAct where
  | scalar (group : Nat)
  | control (gang : Nat)
  | lane (group frag : Nat)
  | event (i : Instr)
  deriving DecidableEq, Repr

/-- A word of on-chip SRAM that the memory list does not hold and that an error can strike (R222): elements of a gang core's
accumulators and tiles, rows and row scales of its banks, peal cells of a launch's Carillon (by 16 × die + VCL), entries of a
group's LV and CV, and the rest of a group's state (R287). -/
inductive Sram where
  | acc (gang pos acc elem : Nat)
  | tile (gang pos tile elem : Nat)
  | row (gang pos bank row : Nat)
  | scale (gang pos bank row : Nat)
  | peal (launch carillon slot cell : Nat)
  | lv (group thread : Nat)
  | cv (group thread : Nat)
  | groupState (group : Nat)
  deriving DecidableEq, Repr

/-- What an error strikes: a 32-byte sector of storage, by its key over 32, or a word of SRAM (R222). -/
inductive Upset where
  | sector (x : Nat)
  | word (w : Sram)
  deriving DecidableEq, Repr

/-- One turn of the agenda: the clk that pass before it, the errors that strike before it, each correctable or not, the energy
metered before it, and what acts (DESIGN CHOICE, log 1). -/
structure Turn where
  clk : Nat
  act : TurnAct
  upsets : List (Upset × Bool) := []
  /-- energy that the meters read before it: die, cluster or 16 for the rest of the die, and nJ (R475) -/
  energy : List (Nat × Nat × Nat) := []
  deriving DecidableEq, Repr

/-- The machine. -/
structure State where
  /-- form of supply: 0 5400-D, 1 5400-P, 2 5400-M (Table 0-1) -/
  form : Nat
  /-- frozen under R288 -/
  frozen : Bool
  /-- every byte of memory the machine has, by storage key; an unlisted byte reads 0 -/
  mem : List Host.Cell
  /-- storage sectors with an uncorrectable error, and with a correctable one (R222) -/
  bad : List Nat
  corr : List Nat
  /-- words of SRAM with an uncorrectable error, and with a correctable one (R222) -/
  sramBad : List Sram
  sramCorr : List Sram
  dies : Tab Die
  launches : Tab Launch
  insts : Tab Inst
  gangs : Tab Gang
  groups : Tab Group
  ctxs : Tab Ctx
  /-- gang reservations of admission (R50) -/
  resvs : List Resv
  /-- grid slots by launch, die, VCL and slot number -/
  slots : Tab Slot
  /-- messages in flight, oldest first -/
  msgs : List Msg
  /-- write messages that have arrived and wait to be applied (R253) -/
  inbox : List Msg
  /-- the host site's vector clock (R514) -/
  hostClock : Tab Nat
  /-- counts of the host's messages that each die has acknowledged (R253) -/
  hostAcked : Tab Nat
  /-- EVENT words the host has received: die, code, argument (R520) -/
  hostEvents : List (Nat × Nat × Nat)
  /-- responses to host register requests: tag and value (R516) -/
  hostReads : List (Nat × Nat)
  /-- next launch and gang numbers -/
  nextLaunch : Nat
  nextGang : Nat
  /-- counter that orders readiness and issue and draws free values: the model's own -/
  tick : Nat
  /-- reads so far that needed a correction: by it an entry sees that one of its own did (R222); the model's own -/
  corrSeen : Nat
  /-- who issues now: the model's own -/
  actor : Actor
  /-- the turns to come, oldest first: the model's own stand for timing, arbitration and the outside -/
  agenda : List Turn
  deriving DecidableEq, Repr

/-- Why a step stops with a fault. -/
inductive Fault where
  /-- Raised by every scalar, control and lane meaning when the actor names no live stream: no hardware situation
  corresponds to it, since a word issues from a stream. Safe. -/
  | noStream
  deriving DecidableEq, Repr

/-- Why a step refuses. -/
inductive Refusal where
  /-- Raised by a dispatch arm whose instruction has no meaning yet. Safe. -/
  | notModelled (mnemonic : String)
  deriving DecidableEq, Repr

/-! ## Reset -/

/-- A cause record of zeros. -/
def Cause.zero : Cause := ⟨0, 0, 0, 0, 0, 0, 0, 0, 0, 0⟩

/-- The fault record before any cause (R269). -/
def FaultRec.zero : FaultRec := ⟨false, Cause.zero, 0, 0, [], 0⟩

/-- Memory control registers at reset (Table 7-7). -/
def McRegs.reset : McRegs := ⟨64, 0, 0, 0, 0, 0, 0⟩

/-- Energy registers at reset (Table 18-2, R475). -/
def Energy.reset : Energy :=
  { en := false, clmax := 16, budget := 0, period := 1500000, budgetNow := 0, bal := 0, used := 0, began := 0, length := 1500000 }

/-- Host registers at reset (Table 20-5). -/
def HostRegs.reset : HostRegs :=
  { lqbase := 0, lqctl := 4, lqtail := 0, lqhead := 0, fqbase := 0, fqctl := 4, fqtail := 0, fqhead := 0,
    hcmd := none, lost := false, tailbad := false, fqfull := false, cmdbad := false, parkfull := false,
    fqbad := false, fqwait := false, hmlim := 0 }

/-- Boot and attestation registers at reset (Table 20-7). -/
def Boot.reset : Boot := ⟨0, 0, 0, 0, 0, false, 0, 0, false, false⟩

/-- A die at reset (R521). Temperature and power readings start at 0, and clusters start gated. -/
def Die.reset : Die :=
  { clk := 0, wmask := 0, mc := McRegs.reset, energy := Energy.reset, debug := [], host := HostRegs.reset,
    boot := Boot.reset, links := [], lerr := 0, temps := [], pwr := 0, powerHold := false, thermalHold := false,
    roots := [], accums := [], parts := [], clusters := [], caches := [], copies := [], vclock := [], acked := [], rdata := [],
    dirty := [], combs := [] }

/-- The dies a form of supply has (Table 0-1): one on the 5400-D, four on the others. -/
def diesOf (form : Nat) : List Nat := if form = 0 then [0] else [0, 1, 2, 3]

/-- The machine right after reset in a form of supply: memory lists nothing, no launch is present, no turn is to come. -/
def State.resetForm (form : Nat) : State :=
  { form := form, frozen := false, mem := [], bad := [], corr := [], sramBad := [], sramCorr := [],
    dies := (diesOf form).map (fun d => (d, Die.reset)),
    launches := [], insts := [], gangs := [], groups := [], ctxs := [], resvs := [], slots := [], msgs := [], inbox := [],
    hostClock := [], hostAcked := [], hostEvents := [], hostReads := [], nextLaunch := 0, nextGang := 0, tick := 0, corrSeen := 0,
    actor := .event, agenda := [] }

/-- The machine right after reset, in the form 5400-P (DESIGN CHOICE: the form is a strap of the part) (DESIGN CHOICE, log 5). -/
def State.reset : State := State.resetForm 1

end Sys2Proof.Machine
end

