-- ==== Sys2Proof/Machine/Bits.lean ====
section
/-! DEFINITION. Bits and bytes as numbers: signed readings, wrapping, byte order, and small list helpers. -/

set_option linter.unusedVariables false

namespace Sys2Proof.Machine

open Sys2Proof

/-- The low w bits of n read as signed (R5). -/
def sext (w n : Nat) : Int :=
  let m := n % 2 ^ w
  if m < 2 ^ (w - 1) then (m : Int) else (m : Int) - 2 ^ w

/-- An integer wrapped to w bits, as an unsigned number (R107). -/
def wrap (w : Nat) (x : Int) : Nat := (x % (2 ^ w : Int)).toNat

/-- An integer saturated to the signed range of w bits. -/
def satS (w : Nat) (x : Int) : Int :=
  if x < -(2 ^ (w - 1) : Int) then -(2 ^ (w - 1) : Int)
  else if x > (2 ^ (w - 1) : Int) - 1 then (2 ^ (w - 1) : Int) - 1 else x

/-- An integer saturated to the unsigned range of w bits. -/
def satN (w : Nat) (x : Int) : Int :=
  if x < 0 then 0 else if x > (2 ^ w : Int) - 1 then (2 ^ w : Int) - 1 else x

/-- Bit i of a number. -/
def bit (x i : Nat) : Bool := x / 2 ^ i % 2 = 1

/-- 1 for true. -/
def b2n (b : Bool) : Nat := if b then 1 else 0

/-- Field [lo, lo+n) of x replaced by v (R5). -/
def setFld (x lo n v : Nat) : Nat := x - fld x lo n * 2 ^ lo + (v % 2 ^ n) * 2 ^ lo

/-- Ceiling division. -/
def ceilDiv (a b : Nat) : Nat := (a + b - 1) / b

/-- The number whose bytes, lowest first, are given (R6). -/
def ofBytes (bs : List Byte) : Nat := bs.foldr (fun b acc => b.toNat + 256 * acc) 0

/-- The n bytes of a number, lowest first (R6). -/
def toBytes : Nat → Nat → List Byte
  | 0, _ => []
  | n + 1, v => BitVec.ofNat 8 v :: toBytes n (v / 256)

/-- The numbers from a on, n of them. -/
def upFrom (a : Nat) : Nat → List Nat
  | 0 => []
  | n + 1 => a :: upFrom (a + 1) n

/-- The set bits of a mask among the n lowest, ascending. -/
def bitsOf (n mask : Nat) : List Nat := (upFrom 0 n).filter (fun i => bit mask i)

/-- The mask of a list of bit numbers. -/
def maskOf (l : List Nat) : Nat := l.foldl (fun m i => m ||| 2 ^ i) 0

/-- Number of set bits among the n lowest. -/
def popcount (n x : Nat) : Nat := (bitsOf n x).length

/-- Leading zeros of an n-bit number. -/
def clzN : Nat → Nat → Nat
  | 0, _ => 0
  | n + 1, x => if bit x n then 0 else clzN n x + 1

/-- The element at an index, or the default. -/
def nth {α : Type} : List α → Nat → α → α
  | [], _, d => d
  | a :: _, 0, _ => a
  | _ :: t, n + 1, d => nth t n d

/-- Replaces the element at an index. -/
def setNth {α : Type} : List α → Nat → α → List α
  | [], _, _ => []
  | _ :: t, 0, x => x :: t
  | a :: t, n + 1, x => a :: setNth t n x

/-- Removes the first element that satisfies a test, giving it and the rest. -/
def takeFirst {α : Type} (p : α → Bool) : List α → Option (α × List α)
  | [] => none
  | a :: t =>
    if p a then some (a, t)
    else
      match takeFirst p t with
      | none => none
      | some (x, r) => some (x, a :: r)

/-- The least of a list of numbers, or the default when it is empty. -/
def leastOf (d : Nat) : List Nat → Nat
  | [] => d
  | [a] => a
  | a :: t => min a (leastOf d t)

/-- Inserts in ascending order of a key. -/
def insertBy {α : Type} (key : α → Nat) (x : α) : List α → List α
  | [] => [x]
  | a :: t => if key x < key a then x :: a :: t else a :: insertBy key x t

/-- Sorts by an ascending key; equal keys keep their order. -/
def sortBy {α : Type} (key : α → Nat) (l : List α) : List α := l.foldl (fun acc x => insertBy key x acc) []

/-- Value at a key of a table, changed by a function of the present value or the default. -/
def Tab.alter {α : Type} (t : Tab α) (k : Nat) (d : α) (f : α → α) : Tab α := Tab.set t k (f (Tab.getD t k d))

/-! ## Memory as a canonical list of cells -/

/-- The byte at a storage key; an unlisted byte reads 0 (DESIGN CHOICE, log 4). -/
def Mem.get : List Host.Cell → Nat → Byte
  | [], _ => 0
  | (a, b) :: t, k => if a = k then b else Mem.get t k

/-- Writes a byte, keeping the addresses rising and no byte 0 listed. -/
def Mem.set : List Host.Cell → Nat → Byte → List Host.Cell
  | [], k, b => if b = 0 then [] else [(k, b)]
  | (a, c) :: t, k, b =>
    if k < a then (if b = 0 then (a, c) :: t else (k, b) :: (a, c) :: t)
    else if a = k then (if b = 0 then t else (k, b) :: t)
    else (a, c) :: Mem.set t k b

/-- The n bytes from a key on, as a number with the lowest byte lowest (R6). -/
def Mem.read (m : List Host.Cell) (k n : Nat) : Nat :=
  m.foldl (fun acc c => if k ≤ c.1 ∧ c.1 < k + n then acc + c.2.toNat * 2 ^ (8 * (c.1 - k)) else acc) 0

/-- Writes the n bytes of a number from a key on, the lowest byte first (R6). -/
def Mem.write (m : List Host.Cell) (k : Nat) : Nat → Nat → List Host.Cell
  | 0, _ => m
  | n + 1, v => Mem.write (Mem.set m k (BitVec.ofNat 8 v)) (k + 1) n (v / 256)

/-- Clears the n bytes from a key on to what an unlisted byte reads as. -/
def Mem.clear (m : List Host.Cell) (k n : Nat) : List Host.Cell := m.filter (fun c => !(decide (k ≤ c.1) && decide (c.1 < k + n)))

/-- Writes the n bytes of a number from a key on; zero clears them at once. -/
def Mem.put (m : List Host.Cell) (k n v : Nat) : List Host.Cell := if v = 0 then Mem.clear m k n else Mem.write m k n v

/-- Whether a list of cells is canonical from a bound on: addresses strictly rise and no byte is 0. -/
def Mem.wfFrom (lo : Nat) : List Host.Cell → Bool
  | [] => true
  | (a, b) :: t => decide (lo ≤ a) && !(b == 0) && Mem.wfFrom (a + 1) t

/-- The canonical form of memory: strictly rising addresses, none listed at what an unlisted address reads as. -/
def Mem.wf (m : List Host.Cell) : Bool := Mem.wfFrom 0 m

end Sys2Proof.Machine
end

