-- ==== Sys2Proof/Machine/Ops.lean ====
section
/-! DEFINITION. The named operations every meaning is built of: who acts and its stream, completing a word, raising and
taking a cause, parking, and the small state monad in which meanings change the machine. -/

set_option linter.unusedVariables false

namespace Sys2Proof.Machine

open Sys2Proof

/-! ## Putting one record back -/

/-- The machine with its memory replaced. -/
def State.setMem (s : State) (m : List Host.Cell) : State := { s with mem := m }
/-- The machine with one group replaced. -/
def State.setGroup (s : State) (k : Nat) (g : Group) : State := { s with groups := Tab.set s.groups k g }
/-- The machine with one context replaced. -/
def State.setCtx (s : State) (k : Nat) (c : Ctx) : State := { s with ctxs := Tab.set s.ctxs k c }
/-- The machine with one gang replaced. -/
def State.setGang (s : State) (k : Nat) (g : Gang) : State := { s with gangs := Tab.set s.gangs k g }
/-- The machine with one launch replaced. -/
def State.setLaunch (s : State) (k : Nat) (l : Launch) : State := { s with launches := Tab.set s.launches k l }
/-- The machine with one instance replaced. -/
def State.setInst (s : State) (k : Nat) (i : Inst) : State := { s with insts := Tab.set s.insts k i }
/-- The machine with one die replaced. -/
def State.setDie (s : State) (k : Nat) (d : Die) : State := { s with dies := Tab.set s.dies k d }
/-- The machine with one grid slot replaced. -/
def State.setSlot (s : State) (k : Nat) (x : Slot) : State := { s with slots := Tab.set s.slots k x }
/-- The machine with its counter of issue moved on. -/
def State.tickOn (s : State) : State := { s with tick := s.tick + 1 }

/-! ## Who acts -/

/-- A unit with a scalar stream: a group by its number, or a control-core context by its gang. -/
inductive Who where
  | group (g : Nat)
  | ctx (gang : Nat)
  deriving DecidableEq, Repr

/-- The key of a group: its gang and its GIDX (R42). -/
def groupKey (gang gidx : Nat) : Nat := gang * 65536 + gidx

/-- The gang of a unit. -/
def Who.gang : Who → Nat
  | .group g => g / 65536
  | .ctx c => c

/-- The unit named by an event: unit 0 a group, 1 a context. -/
def whoOf (unit who : Nat) : Who := if unit = 1 then .ctx who else .group who

/-- The unit whose stream issues. -/
def State.issuer (s : State) : Option Who :=
  match s.actor with
  | .scalar g => some (.group g)
  | .control c => some (.ctx c)
  | .lane g _ => some (.group g)
  | .event => none

/-- A unit's scalar stream. -/
def State.stream (s : State) : Who → Option Stream
  | .group g => (Tab.find s.groups g).map (fun x => x.st)
  | .ctx c => (Tab.find s.ctxs c).map (fun x => x.st)

/-- Puts a unit's scalar stream back. -/
def State.setStream (s : State) (u : Who) (st : Stream) : State :=
  match u with
  | .group g =>
    match Tab.find s.groups g with
    | none => s
    | some x => (s.setGroup g { x with st := st })
  | .ctx c =>
    match Tab.find s.ctxs c with
    | none => s
    | some x => (s.setCtx c { x with st := st })

/-- The gang record of a unit. -/
def State.gangOf (s : State) (u : Who) : Option Gang := Tab.find s.gangs u.gang

/-- The launch record bits of a gang's launch. -/
def State.launchRec (s : State) (launch : Nat) : Nat := ((Tab.find s.launches launch).map (fun l => l.record)).getD 0

/-- The key of a die. -/
def State.die (s : State) (d : Nat) : Die := Tab.getD s.dies d Die.reset

/-! ## Registers of a stream -/

/-- Reads scalar register n: s0 reads zero, and 24–31 name the trap bank in trap mode (R133, R261). -/
def Stream.get (st : Stream) (n : Nat) : W64 :=
  if n = 0 then 0 else if st.tmode && decide (24 ≤ n) then Tab.getD st.bank n 0 else Tab.getD st.regs n 0

/-- Writes scalar register n: a write to s0 is discarded (R133, R261). -/
def Stream.put (st : Stream) (n : Nat) (v : W64) : Stream :=
  if n = 0 then st
  else if st.tmode && decide (24 ≤ n) then { st with bank := Tab.set st.bank n v }
  else { st with regs := Tab.set st.regs n v }

/-- The flag before any comparison (R45). -/
def Flag.zero : Flag := ⟨false, false, false, false⟩

/-- A stream at its start (R45). -/
def Stream.start (pc : Nat) : Stream :=
  { pc := pc, regs := [], bank := [], flags := [], rstack := [], loops := [], lc := [], tmode := false,
    tpc := 0, twait := .none, tword := 0, hmask := 0x7FFF, frec := FaultRec.zero, held := none, cause := none, due := [], wait := .none, pend := [], ended := false,
    stopped := false, age := 0, word := 0 }

/-! ## Completing a word -/

/-- The loop hardware after the word at y: a back-edge target, and the stack and counters that remain (R146). -/
def loopEnd (y : Nat) : List LoopEnt → Tab Nat → Option Nat × List LoopEnt × Tab Nat
  | [], lc => (none, [], lc)
  | e :: t, lc =>
    if e.fin = y then
      if Tab.getD lc t.length 0 + 1 < e.count then
        (some e.start, e :: t, Tab.set lc t.length (Tab.getD lc t.length 0 + 1))
      else loopEnd y t lc
    else (none, e :: t, lc)

/-- A virtual address after an offset, wrapped to 64 bits. -/
def addr64 (a : Nat) (off : Int) : Nat := wrap 64 ((a : Int) + off)

/-- The stream after a word that is no transfer: the next word or a loop's start (R146). -/
def Stream.complete (st : Stream) : Stream :=
  let r := loopEnd st.pc st.loops st.lc
  { st with pc := r.1.getD (addr64 st.pc 4), loops := r.2.1, lc := r.2.2, wait := .none, age := 0 }

/-- The stream after a transfer (R146). -/
def Stream.jump (st : Stream) (pc : Nat) : Stream := { st with pc := pc, wait := .none, age := 0 }

/-! ## Causes -/

/-- Partition debug registers of a unit (R286). -/
def State.debugOf (s : State) (u : Who) : Debug :=
  match s.gangOf u with
  | none => ⟨false, 0, []⟩
  | some g => Tab.getD (s.die g.die).debug (g.cluster / 4) ⟨false, 0, []⟩

/-- A cause precise at the scalar word at xpc (KIND 0). -/
def Cause.atWord (code xpc addr : Nat) : Cause := { Cause.zero with code := code, xpc := xpc, addr := addr }

/-- A cause precise at a lane word (KIND 1): lane index and lowest TNUM of the fragment (Table 9-1). -/
def Cause.atLane (code : Nat) (lpc : Int) (tnum addr : Nat) : Cause :=
  { Cause.zero with code := code, kind := 1, xlpc := wrap 32 lpc + tnum * 2 ^ 32 + 2 ^ 63, addr := addr }

/-- A memory fault of a lane thread, an AST element or a pending ALD (KIND 3). -/
def Cause.ofThread (code tnum addr : Nat) : Cause :=
  { Cause.zero with code := code, kind := 3, tnum := tnum, addr := addr }

/-- A queue halt (KIND 2). -/
def Cause.ofHalt (code q seq stops addr : Nat) : Cause :=
  { Cause.zero with code := code, kind := 2, qbit := q, hseq := seq, stops := stops, addr := addr }

/-- After a scalar word at y, single-step leaves its cause for the next boundary (R286). -/
def State.stepped (s : State) (u : Who) (y : Nat) (st : Stream) : Stream :=
  if (s.debugOf u).step then { st with due := st.due ++ [Cause.atWord 0xF0 y 0] } else st

/-- The result tag a queue entry writes to, for entries with a lane destination. -/
def EOp.tag : EOp → Option Nat
  | .gread _ _ _ _ t => some t
  | .scover _ _ _ _ _ _ t => some t
  | .sread _ _ _ t => some t
  | .swrite _ _ _ t => some t
  | .trace _ _ _ _ _ t => some t
  | .hitget _ _ _ _ t => some t
  | .rclook _ _ _ t => some t
  | .rcins _ _ t => some t
  | .tex _ _ _ _ _ t => some t
  | .texq _ _ _ _ t => some t
  | .colour _ _ _ _ t => some t
  | .pack _ _ _ t => some t
  | .unpack _ _ _ _ _ t => some t
  | .xraw _ _ _ _ _ t => some t
  | .kcapt _ _ _ t => some t
  | .range _ _ _ | .copy _ _ _ | .mloadb _ _ _ | .mma _ _ _ _ _ | .mzero _ _ _ | .mfeed _ _ _ | .mscale _
  | .mdrain _ _ _ _ _ _ _ | .dice _ _ _ _ _ _ | .fill _ _ _ _ _ | .spill _ _ _ | .gwrite _ _ _ _ _
  | .sflush _ _ _ _ _ | .sgrid _ _ _ _ _ _ | .sresolve _ _ _ _ _ | .rcfade _ _ _ | .xfclr _ _ _ | .xdelta _ _ _ _
  | .xdcmp _ _ | .ktwin _ | .kpeal _ _ _ | .krst _ _ | .klaunch _ _ _ _ _ | .deposit _ | .qretw _ | .qretm _ => none

/-- Whether a result tag belongs to an entry of a halted queue, which writes no result until replay (R35). -/
def Group.tagHalted (g : Group) (tag : Nat) : Bool :=
  g.queues.any (fun q => q.2.halt.isSome && q.2.ents.any (fun e => e.op.tag == some tag))

/-- Whether every issued lane instruction has finished and every long-latency result has arrived (R262). -/
def Group.drained (g : Group) : Bool :=
  g.laccs.isEmpty && g.lpend.all (fun p => p.ready || g.tagHalted p.tag)

/-- Writes lane registers by TNUM and register. -/
def writeLanes (ts : Tab Thread) (ws : List (Nat × Nat × W32)) : Tab Thread :=
  ws.foldl (fun ts w =>
    match Tab.find ts w.1 with
    | none => ts
    | some t => Tab.set ts w.1 { t with v := Tab.set t.v w.2.1 w.2.2 }) ts

/-- Writes a long-latency result to the register its word named: in the bank of the mode it issued in (R89, R261). -/
def Stream.result (st : Stream) (p : SPend) : Stream :=
  if p.dst = 0 then st
  else if p.trap && decide (24 ≤ p.dst) then { st with bank := Tab.set st.bank p.dst p.val }
  else { st with regs := Tab.set st.regs p.dst p.val }

/-- Writes every pending scalar result (R89, R92). -/
def Stream.flush (st : Stream) : Stream := { st.pend.foldl Stream.result st with pend := [] }

/-- Writes every lane result that has arrived and closes its window (R89, R92). -/
def Group.flushLanes (g : Group) : Group :=
  let done := g.lpend.filter (fun p => p.ready)
  let tags := done.map (fun p => p.tag)
  { g with
    threads := done.foldl (fun ts p => writeLanes ts p.writes) g.threads
    lpend := g.lpend.filter (fun p => !p.ready)
    run := { g.run with frags := g.run.frags.map (fun f => { f with wins := f.wins.filter (fun w => !tags.contains w.1) }) } }

/-- The fields of WHO for a group: gang coordinate and GIDX (Table 9-4). -/
def whoField (gx gy gz gidx : Nat) : Nat := gx + gy * 2 ^ 16 + gz * 2 ^ 32 + gidx * 2 ^ 48

/-- WHO of a unit; GIDX 0xFFFF names the gang's context (R263). -/
def State.whoWord (s : State) (u : Who) : Nat :=
  match s.gangOf u with
  | none => 0
  | some g =>
    match u with
    | .group k => whoField g.gx g.gy g.gz (k % 65536)
    | .ctx _ => whoField g.gx g.gy g.gz 0xFFFF

/-- The instance key of a unit. -/
def State.instOf (s : State) (u : Who) : Nat := ((s.gangOf u).map (fun g => g.inst)).getD 0

/-- The gangs of an instance. -/
def State.gangsOf (s : State) (inst : Nat) : List Nat :=
  (s.gangs.filter (fun g => g.2.inst == inst && !g.2.retired)).map (fun g => g.1)

/-- A queue whose entries read anew what they had read for a merge (R282, R299). -/
def Queue.unmerged (x : Queue) : Queue := { x with ents := x.ents.map (fun e => { e with merge := [] }) }

/-- Marks every stream of the gangs listed as stopped, or lets it run again; an entry that goes on after a stop reads after it
(R282, R299). -/
def State.setStopped (s : State) (gangs : List Nat) (b : Bool) : State :=
  { s with
    groups := s.groups.map (fun g =>
      if gangs.contains (g.1 / 65536) then (g.1, { g.2 with
        st := { g.2.st with stopped := b }
        queues := if b then g.2.queues else g.2.queues.map (fun q => (q.1, q.2.unmerged)) }) else g)
    ctxs := s.ctxs.map (fun c =>
      if gangs.contains c.1 then (c.1, { c.2 with st := { c.2.st with stopped := b } }) else c) }

/-- Parks an instance: its streams stop, and the control block is written when there is room (R277, R525).
An instance is parked only once at a time. -/
def State.park (s : State) (inst reason : Nat) (c : Cause) (who : Nat) (frec : FaultRec) : State :=
  match Tab.find s.insts inst with
  | none => s
  | some i =>
    if i.park.isSome then s
    else
      let s1 := (s.setInst inst { i with park := some ⟨reason, c, who, frec, none, 0, none⟩ })
      s1.setStopped (s1.gangsOf inst) true

/-- The handler entry of a unit: HENTRY or CHENTRY of its launch (R260, Table 20-8). -/
def State.handler (s : State) (u : Who) : Nat :=
  match s.gangOf u with
  | none => 0
  | some g =>
    match u with
    | .group _ => fld (s.launchRec g.launch) 320 64
    | .ctx _ => fld (s.launchRec g.launch) 384 64

/-- Why a cause parks rather than reaching the handler, if it does (R262, Table 9-4). -/
def parkReason (st : Stream) (c : Cause) (handler : Nat) (ctxHalt : Bool) : Option Nat :=
  if st.tmode then some 2
  else if c.code = 0x13 then some 1
  else if c.code ≥ 0xF0 then some 4
  else if ctxHalt then some 6
  else if handler = 0 then some 0
  else if bit st.hmask.toNat (c.code / 16) then none else some 0

/-- The fault record a group or context holds after taking a cause (Table 9-2, R262). -/
def Stream.record (st : Stream) (c : Cause) (epc regnc : Nat) (base : Tab W16) : FaultRec :=
  if st.tmode then { st.frec with second := c.code } else ⟨true, c, epc, regnc, base, 0⟩

/-- TAKING A CAUSE (R262): the one operation. Long-latency results are written, the fault record is written, and the
handler runs in trap mode or the instance parks. A cause of an instance that is already being parked stays held (R277). -/
def State.take (s : State) (u : Who) : State :=
  match s.stream u with
  | none => s
  | some st =>
    match st.held with
    | none => s
    | some c =>
      if ((Tab.find s.insts (s.instOf u)).map (fun i => i.park.isSome)).getD false then s
      else
        let st1 := st.flush
        let isCtx := match u with | .ctx _ => true | .group _ => false
        let gr := match u with | .group g => Tab.find s.groups g | .ctx _ => none
        let frec := st1.record c ((gr.map (fun g => g.epc)).getD 0) ((gr.map (fun g => g.regnc)).getD 0)
          ((gr.map (fun g => g.base)).getD [])
        match parkReason st1 c (s.handler u) (isCtx && c.kind == 2) with
        | some reason =>
          (s.setStream u { st1 with held := none, frec := frec }).park (s.instOf u) reason frec.cause (s.whoWord u) frec
        | none =>
          s.setStream u { st1 with
            held := none, frec := frec, tmode := true, tpc := st1.pc, twait := st1.wait, tword := st1.word
            pc := s.handler u, wait := .none, age := 0 }

/-- Lets the lane results that have arrived be written, when the unit is a group (R92, R262). -/
def State.settleLanes (s : State) (u : Who) : State :=
  match u with
  | .ctx _ => s
  | .group g =>
    match Tab.find s.groups g with
    | none => s
    | some x => (s.setGroup g x.flushLanes)

/-- Whether nothing that a held cause waits for is outstanding (R262). -/
def State.quiet (s : State) (u : Who) : Bool :=
  match u with
  | .ctx _ => true
  | .group g => ((Tab.find s.groups g).map Group.drained).getD true

/-- A unit comes to hold a cause (R34): it is taken at once if nothing issued is outstanding, else by TAKE_CAUSE. -/
def State.raise (s : State) (u : Who) (c : Cause) : State :=
  match s.stream u with
  | none => s
  | some st =>
    if st.held.isSome then s
    else
      let s1 := s.setStream u { st with held := some c, cause := if st.tmode then st.cause else some c }
      if s1.quiet u then (s1.settleLanes u).take u else s1

/-- Leaves a cause for the unit's next instruction boundary (R35, R224). -/
def State.later (s : State) (u : Who) (c : Cause) : State :=
  match s.stream u with
  | none => s
  | some st => s.setStream u { st with due := st.due ++ [c] }

/-- The causes due at a boundary: in trap mode queue halts stay pending (R262). -/
def Stream.dueNow (st : Stream) : List Cause := if st.tmode then st.due.filter (fun c => !(c.kind == 2)) else st.due

/-- Removes the first cause of a code from a list. -/
def dropCode (code : Nat) : List Cause → List Cause
  | [] => []
  | c :: t => if c.code = code then t else c :: dropCode code t

/-- The due cause of lowest code (R34). -/
def lowestCause : List Cause → Option Cause
  | [] => none
  | c :: t =>
    match lowestCause t with
    | none => some c
    | some d => if d.code < c.code then some d else some c

/-- Changes what a stream waits in, here or beneath its handler. -/
def Stream.onWait (st : Stream) (f : Wait → Wait) : Stream := { st with wait := f st.wait, twait := f st.twait }

/-! ## What a stream alone decides -/

/-- How a word that needs only its own stream ends. -/
inductive Flow where
  /-- it completes with this stream -/
  | next (st : Stream)
  /-- it is a transfer to this address -/
  | jump (st : Stream) (pc : Nat)
  /-- it raises this cause -/
  | raise (code : Nat)

/-- Runs a word that needs only its own stream, in a group or a context. -/
def onStream (f : Stream → Flow) (s : State) : Host.Outcome State Fault Refusal :=
  match s.issuer with
  | none => .fault .noStream
  | some u =>
    match s.stream u with
    | none => .fault .noStream
    | some st =>
      match f st with
      | .next t => .next (s.setStream u (s.stepped u st.pc t.complete))
      | .jump t pc => .next (s.setStream u (s.stepped u st.pc (t.jump pc)))
      | .raise code => .next (s.raise u (Cause.atWord code st.pc 0))

/-- The storage key of byte 0 of a gang core position's scratchpad. -/
def spadKey (gang pos : Nat) : Nat := 2 ^ 49 + gang * 2 ^ 23 + pos * 2 ^ 20

/-- The storage key of a barrier object. -/
def barKey (gang addr : Nat) : Nat := spadKey gang 0 + addr

/-- A barrier object's bytes as an update of the barrier unit writes them: the reserved fields are zero (R26). -/
def barClean (v : Nat) : Nat := setFld (setFld v 16 15 0) 48 16 0

/-- A unit asleep in BAR.WAIT counts in WAITERS (R237): the object's key, and its bytes without the unit, if it is asleep. -/
def State.waiterStore (s : State) (u : Who) : Option (Nat × Nat) :=
  match s.stream u with
  | none => none
  | some st =>
    match st.wait with
    | .barWait b none =>
      let k := barKey u.gang b
      let v := Mem.read s.mem k 16
      some (k, barClean (setFld v 112 16 (fld v 112 16 - 1)))
    | _ => none

/-- The unit sleeps no longer. -/
def State.clearWait (s : State) (u : Who) : State :=
  match s.stream u with
  | none => s
  | some st => s.setStream u { st with wait := .none }

/-- Takes a unit out of a BAR.WAIT it sleeps in, because a cause stops it. -/
def State.leaveWait (s : State) (u : Who) : State :=
  match s.waiterStore u with
  | none => s
  | some (k, v) => (s.clearWait u).setMem (Mem.put s.mem k 16 v)

/-! ## Meanings that reach further -/

/-- What a meaning carries: the machine as it is being changed, and the stores to memory made so far, newest first. -/
structure Work where
  cur : State
  stores : List (Nat × Nat × Nat)

/-- Why a meaning ends without its own effect. -/
inductive Stop where
  /-- nothing happens this turn -/
  | stall
  /-- the scalar stream waits -/
  | wait (w : Wait)
  /-- the fragment waits -/
  | laneWait (w : FWait)
  /-- the issuing instruction raises a cause -/
  | raise (c : Cause)
  /-- as raise, for an uncorrectable error that a die counts (Table 7-7) -/
  | raiseBad (c : Cause) (die : Nat)
  /-- a remote line must be read first (R253) -/
  | read (die block : Nat)
  /-- the actor names no stream -/
  | dead

/-- A meaning's computation. -/
abbrev Act (α : Type) := StateT Work (Except Stop) α

/-- The machine now. -/
def now : Act State := do return (← get).cur

/-- Changes anything but memory. -/
def upd (f : State → State) : Act Unit :=
  modify (fun w => { w with cur := (f w.cur).setMem w.cur.mem })

/-- The machine after a store of n bytes at a storage key; the error marks of sectors that are wholly written clear
(R222). -/
def State.store (s : State) (k n v : Nat) : State :=
  { s with
    mem := Mem.put s.mem k n v
    bad := s.bad.filter (fun x => !(decide (k ≤ 32 * x) && decide (32 * x + 32 ≤ k + n)))
    corr := s.corr.filter (fun x => !(decide (k ≤ 32 * x) && decide (32 * x + 32 ≤ k + n))) }

/-- Stores n bytes at a storage key. -/
def poke (k n v : Nat) : Act Unit := modify (fun w => { cur := w.cur.store k n v, stores := (k, n, v) :: w.stores })

/-- Takes a unit out of a BAR.WAIT it sleeps in. -/
def leaveWait (u : Who) : Act Unit := do
  let s ← (do return (← get).cur : Act State)
  match s.waiterStore u with
  | none => pure ()
  | some (k, v) =>
    poke k 16 v
    upd (fun s => s.clearWait u)

/-- A unit comes to hold a cause that arose outside its own word. -/
def raiseUnit (u : Who) (c : Cause) : Act Unit := do
  leaveWait u
  upd (fun s => s.raise u c)

/-- Ends a meaning. -/
def halt {α : Type} (e : Stop) : Act α := throw e

/-- Nothing happens this turn. -/
def stall {α : Type} : Act α := throw .stall

/-- The memory after a meaning's stores, oldest first. -/
def storeAll (m : List Host.Cell) (l : List (Nat × Nat × Nat)) : List Host.Cell :=
  l.foldr (fun x m => Mem.put m x.1 x.2.1 x.2.2) m

/-- A scalar stream begins to wait. -/
def State.setWait (s : State) (w : Wait) : State :=
  match s.issuer with
  | none => s
  | some u =>
    match s.stream u with
    | none => s
    | some st => s.setStream u { st with wait := w }

/-- A fragment begins to wait. -/
def State.setLaneWait (s : State) (w : FWait) : State :=
  match s.actor with
  | .lane g f =>
    match Tab.find s.groups g with
    | none => s
    | some x =>
      (s.setGroup g { x with run := { x.run with
          frags := (match x.run.frags[f]? with
            | none => x.run.frags
            | some fr => setNth x.run.frags f { fr with wait := w }) } })
  | _ => s

/-- Raises a cause on the unit that issues. -/
def State.raiseIssuer (s : State) (c : Cause) : State :=
  match s.issuer with
  | none => s
  | some u => (s.leaveWait u).raise u c

/-- The die that homes a normal block of GDDR 7 (Table 7-1). -/
def gddrDie (pa : Nat) : Nat := pa / 2 ^ 45

/-- Whether a read of a block by a die is already under way (R253). -/
def State.reading (s : State) (die block : Nat) : Bool :=
  s.msgs.any (fun m =>
    (m.src == die && (match m.body with | .read b => b == block | _ => false)) ||
    (m.dst == die && (match m.body with | .rdata b _ _ _ => b == block | _ => false))) ||
  (s.die die).rdata.any (fun r => r.1 == block)

/-- Sends a READ to the home of a block, unless one is under way (R253). -/
def State.sendRead (s : State) (die block : Nat) : State :=
  if s.reading die block then s
  else { s with msgs := s.msgs ++ [⟨die, gddrDie (256 * block), (s.die die).vclock, .read block⟩] }

/-- Counts an uncorrectable error on a die (Table 7-7). -/
def State.countBad (s : State) (die : Nat) : State :=
  match Tab.find s.dies die with
  | none => s
  | some d => (s.setDie die { d with mc := { d.mc with uncorrected := (d.mc.uncorrected + 1) % 2 ^ 64 } })

/-- The machine after an issue that stopped before its word issued; none when no stream was there. -/
def State.stop (s : State) : Stop → Option State
  | .stall => some s
  | .wait w => some (s.setWait w)
  | .laneWait w => some (s.setLaneWait w)
  | .raise c => some (s.raiseIssuer c)
  | .raiseBad c d => some ((s.countBad d).raiseIssuer c)
  | .read d b => some (s.sendRead d b)
  | .dead => none

/-- A word that has issued and cannot go on waits, and is tried again without issuing again (R52, R89). -/
def State.tryAgain (s : State) : State :=
  match s.actor with
  | .scalar _ | .control _ =>
    match s.issuer with
    | none => s
    | some u => if ((s.stream u).map (fun st => st.wait)) = some .none then s.setWait .engine else s
  | .lane g f =>
    if ((Tab.find s.groups g).bind (fun x => (x.run.frags[f]?).map (fun fr => fr.wait))) = some .none then s.setLaneWait .engine
    else s
  | .event => s

/-- The machine after a meaning that stopped; none when no stream was there. -/
def State.halted (s : State) : Stop → Option State
  | .stall => some s.tryAgain
  | .read d b => some (s.tryAgain.sendRead d b)
  | e => s.stop e

/-- Runs a meaning: its effects happen together, or it stops and the machine is as the stop says. -/
def perform (m : Act Unit) (s : State) : Host.Outcome State Fault Refusal :=
  match m ⟨s, []⟩ with
  | .ok (_, w) => .next (w.cur.setMem (storeAll s.mem w.stores))
  | .error e =>
    match s.halted e with
    | some t => .next t
    | none => .fault .noStream

/-! ## Reading and writing the machine's records -/

/-- The value of an option, or nothing happens. -/
def need {α : Type} : Option α → Act α
  | some a => pure a
  | none => stall

/-- A condition, or nothing happens. -/
def guardA (b : Bool) : Act Unit := if b then pure () else stall

/-- A group by key. -/
def getGroup (k : Nat) : Act Group := do need (Tab.find (← now).groups k)

/-- Puts a group. -/
def putGroup (k : Nat) (g : Group) : Act Unit := upd (fun s => s.setGroup k g)

/-- Changes a group, if it is there. -/
def modGroup (k : Nat) (f : Group → Group) : Act Unit :=
  upd (fun s => match Tab.find s.groups k with
    | none => s
    | some g => (s.setGroup k (f g)))

/-- A gang by number. -/
def getGang (k : Nat) : Act Gang := do need (Tab.find (← now).gangs k)

/-- Puts a gang. -/
def putGang (k : Nat) (g : Gang) : Act Unit := upd (fun s => s.setGang k g)

/-- Changes a gang, if it is there. -/
def modGang (k : Nat) (f : Gang → Gang) : Act Unit :=
  upd (fun s => match Tab.find s.gangs k with
    | none => s
    | some g => (s.setGang k (f g)))

/-- A context by gang. -/
def getCtx (k : Nat) : Act Ctx := do need (Tab.find (← now).ctxs k)

/-- Puts a context. -/
def putCtx (k : Nat) (c : Ctx) : Act Unit := upd (fun s => s.setCtx k c)

/-- Changes a context, if it is there. -/
def modCtx (k : Nat) (f : Ctx → Ctx) : Act Unit :=
  upd (fun s => match Tab.find s.ctxs k with
    | none => s
    | some c => (s.setCtx k (f c)))

/-- A launch by number. -/
def getLaunch (k : Nat) : Act Launch := do need (Tab.find (← now).launches k)

/-- Puts a launch. -/
def putLaunch (k : Nat) (l : Launch) : Act Unit := upd (fun s => s.setLaunch k l)

/-- Changes a launch, if it is there. -/
def modLaunch (k : Nat) (f : Launch → Launch) : Act Unit :=
  upd (fun s => match Tab.find s.launches k with
    | none => s
    | some l => (s.setLaunch k (f l)))

/-- An instance by key. -/
def getInst (k : Nat) : Act Inst := do need (Tab.find (← now).insts k)

/-- Puts an instance. -/
def putInst (k : Nat) (i : Inst) : Act Unit := upd (fun s => s.setInst k i)

/-- Changes an instance, if it is there. -/
def modInst (k : Nat) (f : Inst → Inst) : Act Unit :=
  upd (fun s => match Tab.find s.insts k with
    | none => s
    | some i => (s.setInst k (f i)))

/-- A die by number; a die the form does not have is not there. -/
def getDie (k : Nat) : Act Die := do need (Tab.find (← now).dies k)

/-- Puts a die. -/
def putDie (k : Nat) (d : Die) : Act Unit := upd (fun s => s.setDie k d)

/-- Changes a die, if it is there. -/
def modDie (k : Nat) (f : Die → Die) : Act Unit :=
  upd (fun s => match Tab.find s.dies k with
    | none => s
    | some d => (s.setDie k (f d)))

/-- Queues a message (R513). -/
def post (m : Msg) : Act Unit := upd (fun s => { s with msgs := s.msgs ++ [m] })

/-- Sends an EVENT flit to the host (R520). -/
def sendEvent (die code arg : Nat) : Act Unit := do
  post ⟨die, 4, ((← now).die die).vclock, .event code arg⟩

/-! ## The issuing scalar stream -/

/-- The unit that issues. -/
def me : Act Who := do
  match (← now).issuer with
  | some u => pure u
  | none => halt .dead

/-- The issuing unit's stream. -/
def myStream : Act Stream := do
  match (← now).stream (← me) with
  | some st => pure st
  | none => halt .dead

/-- Puts the issuing unit's stream. -/
def putStream (st : Stream) : Act Unit := do
  let u ← me
  upd (fun s => s.setStream u st)

/-- Raises a cause at the issuing scalar word. -/
def raiseAt {α : Type} (code addr : Nat) : Act α := do
  halt (.raise (Cause.atWord code (← myStream).pc addr))

/-- Raises a cause at the issuing scalar word. -/
def raise {α : Type} (code : Nat) : Act α := raiseAt code 0

/-- Raises the lowest of the causes that arise together, if any (R34). -/
def check (l : List (Bool × Nat)) : Act Unit :=
  match (l.filter (fun x => x.1)).map (fun x => x.2) with
  | [] => pure ()
  | c :: t => raise (leastOf c (c :: t))

/-- The key of the issuing group; a context raises 0x01 there (R74). -/
def myGroup : Act Nat := do
  match ← me with
  | .group g => pure g
  | .ctx _ => raise 0x01

/-- Reads a scalar register of the issuing stream. -/
def sreg (n : Nat) : Act Nat := do return ((← myStream).get n).toNat

/-- Writes a scalar register of the issuing stream. -/
def setSreg (n v : Nat) : Act Unit := do putStream ((← myStream).put n (BitVec.ofNat 64 v))

/-- Completes the issuing word. -/
def finish : Act Unit := do
  let u ← me
  let st ← myStream
  upd (fun s => s.setStream u (s.stepped u st.pc st.complete))

/-- Completes the issuing word as a transfer. -/
def finishAt (pc : Nat) : Act Unit := do
  let u ← me
  let st ← myStream
  upd (fun s => s.setStream u (s.stepped u st.pc (st.jump pc)))

/-- Completes the issuing word with a result in s_d. -/
def finishWith (d v : Nat) : Act Unit := do
  setSreg d v
  finish

/-- Writes the scalar results that are outstanding: a closer waits for them (R90). -/
def closeWindows : Act Unit := do putStream (← myStream).flush

/-- The issuing unit's gang number and record. -/
def myGang : Act (Nat × Gang) := do
  let u ← me
  match (← now).gangOf u with
  | some g => pure (u.gang, g)
  | none => halt .dead

/-- Waits until no lane run is active, with every lane access performed and every lane result written (R46, R152, R153).
`joins` is as in `Wait.onLane`. -/
def waitRun (k : Nat) (joins : Bool) : Act Unit := do
  let g ← getGroup k
  if g.run.active || !g.laccs.isEmpty || !g.lpend.isEmpty then halt (.wait (.onLane joins)) else pure ()

/-- A cause 0x03 in trap mode (R259). -/
def noTrapMode : Act Unit := do if (← myStream).tmode then raise 0x03 else pure ()

end Sys2Proof.Machine
end

