-- ==== Sys2Proof/Machine/Regs.lean ====
section
/-! DEFINITION. The device register region (Tables 20-4 to 20-7, 7-7, 9-7 and 18-2): reading and writing a register. -/

set_option linter.unusedVariables false

namespace Sys2Proof.Machine

open Sys2Proof

/-- Identity and boot block (R528, Table 20-7). -/
def bootReg (s : State) (d off : Nat) : Nat :=
  let b := (s.die d).boot
  if off = 0 then (Config.dieId d).toNat
  else if off = 0x08 then s.form + d * 4
  else if off = 0x10 then b.bootaddr
  else if off = 0x18 then b.bootsts
  else if off = 0x20 then b.fwver
  else if 0x28 ≤ off ∧ off ≤ 0x40 then fld b.mr (8 * (off - 0x28)) 64
  else if 0x48 ≤ off ∧ off ≤ 0x1C0 then fld (Config.idKey d) (8 * (off - 0x48)) 64
  else if 0x1C8 ≤ off ∧ off ≤ 0x340 then fld (Config.idCert d) (8 * (off - 0x1C8)) 64
  else if 0x348 ≤ off ∧ off ≤ 0x360 then fld b.nonce (8 * (off - 0x348)) 64
  else if off = 0x370 then b2n b.attBusy
  else if 0x378 ≤ off ∧ off ≤ 0x4F0 then fld b.quote (8 * (off - 0x378)) 64
  else 0

/-- Memory control block (Table 7-7). -/
def mcReg (m : McRegs) (off : Nat) : Nat :=
  if off = 0x00 then m.wcwait
  else if off = 0x10 then m.blocks
  else if off = 0x18 then m.sectors
  else if off = 0x20 then m.merged
  else if off = 0x28 then m.rmw
  else if off = 0x30 then m.corrected
  else if off = 0x38 then m.uncorrected
  else 0

/-- Energy block (Table 18-2). -/
def energyReg (e : Energy) (off : Nat) : Nat :=
  if off = 0x00 then b2n e.en + e.clmax * 2
  else if off = 0x08 then e.budget
  else if off = 0x10 then e.period
  else if off = 0x18 then wrap 64 e.bal
  else if off = 0x20 then e.used
  else 0

/-- Debug block of a partition (Table 9-7). -/
def debugReg (g : Debug) (off : Nat) : Nat :=
  if off = 0 then b2n g.step + g.bpen * 2
  else if off ≤ 0x20 then Tab.getD g.bpa (off / 8 - 1) 0
  else 0

/-- Host queue and command block (Table 20-5); HCMD is write-only. -/
def hostReg (h : HostRegs) (off : Nat) : Nat :=
  if off = 0x00 then h.lqbase
  else if off = 0x08 then h.lqctl
  else if off = 0x10 then h.lqtail
  else if off = 0x18 then h.lqhead
  else if off = 0x20 then h.fqbase
  else if off = 0x28 then h.fqctl
  else if off = 0x30 then h.fqtail
  else if off = 0x38 then h.fqhead
  else if off = 0x48 then b2n h.hcmd.isSome + b2n h.lost * 2
  else if off = 0x50 then b2n h.tailbad + b2n h.fqfull * 2 + b2n h.cmdbad * 4 + b2n h.parkfull * 8 + b2n h.fqbad * 16
  else if off = 0x58 then h.hmlim
  else 0

/-- A link at reset: down, never trained (Table 20-6). -/
def Link.reset : Link := ⟨0, 0, 0, 0, none⟩

/-- Link k of a die. -/
def Die.link (x : Die) (k : Nat) : Link := Tab.getD x.links k Link.reset

/-- Links and management block (Table 20-6); PLIM is 650 W in every form (Table 20-9). -/
def linkReg (x : Die) (off : Nat) : Nat :=
  let lk := x.link
  if off ≤ 0x18 then (lk (off / 8)).state + (lk (off / 8)).width * 4 + (lk (off / 8)).rate * 1024
  else if off ≤ 0x38 then (lk (off / 8 - 4)).retry
  else if off = 0x40 then x.lerr
  else if off ≤ 0xC8 then wrap 16 (Tab.getD x.temps (off / 8 - 9) 0)
  else if off = 0xD0 then x.pwr
  else if off = 0xD8 then 650000
  else 0

/-- The 64-bit register at an 8-byte aligned offset; an offset no block defines reads zero (R516). Until BOOTADDR is
written only the identity and boot block answers (R521). -/
def State.reg64 (s : State) (d off : Nat) : Nat :=
  let x := s.die d
  if off < 0x1000 then bootReg s d off
  else if !x.boot.opened then 0
  else if off < 0x2000 then mcReg x.mc (off - 0x1000)
  else if off < 0x3000 then energyReg x.energy (off - 0x2000)
  else if off < 0x3400 then debugReg (Tab.getD x.debug ((off - 0x3000) / 256) ⟨false, 0, []⟩) (off % 256)
  else if 0x8000 ≤ off ∧ off < 0x9000 then hostReg x.host (off - 0x8000)
  else if 0x9000 ≤ off ∧ off < 0xA000 then linkReg x (off - 0x9000)
  else 0

/-- Reads n naturally aligned bytes of a register (R528); an engine's wider access takes the registers one after another. -/
def State.regRead (s : State) (d off n : Nat) : Nat :=
  if n ≤ 8 then fld (s.reg64 d (off / 8 * 8)) (8 * (off % 8)) (8 * n)
  else (upFrom 0 (n / 8)).foldl (fun x i => x + s.reg64 d (off / 8 * 8 + 8 * i) * 2 ^ (64 * i)) 0

/-- A write in the identity and boot block. A write of BOOTADDR starts the ROM unless firmware runs (R521, R522). -/
def writeBoot (b : Boot) (off v : Nat) : Boot :=
  if off = 0x10 then { b with bootaddr := fld v 0 48, bootReq := b.bootReq || !(b.bootsts == 1), opened := true }
  else if 0x348 ≤ off ∧ off ≤ 0x360 then { b with nonce := setFld b.nonce (8 * (off - 0x348)) 64 v }
  else if off = 0x368 then
    if bit v 0 && !b.attBusy then { b with attBusy := true, attNonce := b.nonce } else b
  else b

/-- A write in the memory control block: MCWC, and MCCLR which clears every counter (R223). -/
def writeMc (m : McRegs) (off v : Nat) : McRegs :=
  if off = 0 then { m with wcwait := fld v 0 10 }
  else if off = 0x08 then if bit v 0 then { McRegs.reset with wcwait := m.wcwait } else m
  else m

/-- A write in the energy block: CLMAX outside 2–16 writes 2 or 16, and a PERIOD below 1,500 writes 1,500
(Table 18-2) (DEDUCED, log 59) (DESIGN CHOICE, log 93). -/
def writeEnergy (e : Energy) (off v : Nat) : Energy :=
  if off = 0 then { e with en := bit v 0, clmax := max 2 (min 16 (fld v 1 5)) }
  else if off = 0x08 then { e with budget := v }
  else if off = 0x10 then { e with period := max 1500 (fld v 0 32) }
  else e

/-- A write in a debug block (Table 9-7). -/
def writeDebug (g : Debug) (off v : Nat) : Debug :=
  if off = 0 then { g with step := bit v 0, bpen := fld v 1 4 }
  else if off ≤ 0x20 then { g with bpa := Tab.set g.bpa (off / 8 - 1) (fld v 2 46 * 4) }
  else g

/-- Takes an HCMD write as R529 states. -/
def writeHcmd (h : HostRegs) (v : Nat) : HostRegs :=
  if h.hcmd.isSome then { h with lost := true }
  else if 1 ≤ fld v 0 8 ∧ fld v 0 8 ≤ 5 then { h with hcmd := some (fld v 0 8, fld v 8 56) }
  else { h with cmdbad := true }

/-- Takes an LQTAIL write as R517 states. -/
def writeTail (h : HostRegs) (v : Nat) : HostRegs :=
  let ahead := (v + 2 ^ 32 - h.lqhead) % 2 ^ 32
  if 1 ≤ ahead ∧ ahead ≤ 2 ^ h.lqctl then { h with lqtail := v % 2 ^ 32 } else { h with tailbad := true }

/-- A write in the host block. `cov` has a one for every bit the write covers: WC bits clear and HCMD acts only there. -/
def writeHost (h : HostRegs) (off v cov : Nat) : HostRegs :=
  if off = 0x00 then { h with lqbase := fld v 0 48 }
  else if off = 0x08 then { h with lqctl := fld v 0 4 }
  else if off = 0x10 then writeTail h v
  else if off = 0x20 then { h with fqbase := fld v 0 48, fqwait := false }
  else if off = 0x28 then { h with fqctl := fld v 0 4 }
  else if off = 0x38 then { h with fqhead := v % 2 ^ 32 }
  else if off = 0x40 then if fld cov 0 8 = 0xFF then writeHcmd h (v &&& cov) else h
  else if off = 0x48 then { h with lost := h.lost && !bit (v &&& cov) 1 }
  else if off = 0x50 then
    let c := v &&& cov
    { h with tailbad := h.tailbad && !bit c 0, fqfull := h.fqfull && !bit c 1, cmdbad := h.cmdbad && !bit c 2,
             parkfull := h.parkfull && !bit c 3, fqbad := h.fqbad && !bit c 4 }
  else if off = 0x58 then { h with hmlim := fld v 0 45 }
  else h

/-- A write of the whole register at an 8-byte aligned offset; RO registers and undefined offsets ignore it (R516). -/
def State.write64 (s : State) (d off v cov : Nat) : State :=
  match Tab.find s.dies d with
  | none => s
  | some x =>
    let y : Die :=
      if off < 0x1000 then { x with boot := writeBoot x.boot off (if off = 0x368 then v &&& cov else v) }
      else if !x.boot.opened then x
      else if off < 0x2000 then { x with mc := writeMc x.mc (off - 0x1000) (if off = 0x1008 then v &&& cov else v) }
      else if off < 0x3000 then { x with energy := writeEnergy x.energy (off - 0x2000) v }
      else if off < 0x3400 then
        let p := (off - 0x3000) / 256
        { x with debug := Tab.set x.debug p (writeDebug (Tab.getD x.debug p ⟨false, 0, []⟩) (off % 256) v) }
      else if 0x8000 ≤ off ∧ off < 0x9000 then { x with host := writeHost x.host (off - 0x8000) v cov }
      else x
    (s.setDie d y)

/-- Writes up to 8 naturally aligned bytes: a 64-bit write whose other bytes carry the present value (R528). -/
def State.regPut (s : State) (d off n v : Nat) : State :=
  let a := off / 8 * 8
  let lo := 8 * (off % 8)
  s.write64 d a (setFld (s.reg64 d a) lo (8 * n) v) (setFld 0 lo (8 * n) (2 ^ (8 * n) - 1))

/-- Writes n naturally aligned bytes of registers (R528); an engine's wider access takes them one after another. -/
def State.regWrite (s : State) (d off n v : Nat) : State :=
  if n ≤ 8 then s.regPut d off n v
  else (upFrom 0 (n / 8)).foldl (fun s i => s.regPut d (off / 8 * 8 + 8 * i) 8 (fld v (64 * i) 64)) s

end Sys2Proof.Machine
end

