-- ==== Sys2Proof/Machine/Memory.lean ====
section
/-! DEFINITION. Memory: physical targets, translation, accesses with their caches and copies, atomics, messages of
system-shared writes, scratchpad addresses and barrier objects (07_memory.md, 08_consistency.md). -/

set_option linter.unusedVariables false

namespace Sys2Proof.Machine

open Sys2Proof

/-! ## Storage -/

/-- Usable bytes of a die's GDDR 7 (R13). -/
def gddrBytes : Nat := 30 * 2 ^ 30

/-- A physical target (Table 7-1). -/
inductive Target where
  | gddr (die : Nat)
  | host
  | scratch (die off : Nat)
  | device (die off : Nat)
  deriving DecidableEq, Repr

/-- Whether the form of supply has a die. -/
def State.hasDie (s : State) (d : Nat) : Bool := (Tab.find s.dies d).isSome

/-- The target of a physical address, none where the map makes it invalid (R202). -/
def State.target (s : State) (pa : Nat) : Option Target :=
  let t := pa / 2 ^ 45
  if t < 4 then if s.hasDie t && decide (pa % 2 ^ 45 < gddrBytes) then some (.gddr t) else none
  else if t = 4 then some .host
  else if t = 5 then
    if s.hasDie (fld pa 43 2) && decide (fld pa 0 43 < 48 * 2 ^ 20) then some (.scratch (fld pa 43 2) (fld pa 0 43)) else none
  else if t = 6 then if s.hasDie (fld pa 43 2) then some (.device (fld pa 43 2) (fld pa 0 43)) else none
  else none

/-- The storage key of an aperture offset under the present way mask; none beyond the scratch ways (R216). -/
def State.scratchKey (s : State) (die off : Nat) : Option Nat :=
  let ways := bitsOf 16 (s.die die).wmask
  if off / 2 ^ 22 < ways.length then
    some (2 ^ 48 + die * 2 ^ 40 + nth ways (off / 2 ^ 22) 0 * 2 ^ 22 + off % 2 ^ 22)
  else none

/-- The key of a Cupola slot's record: launch, die, virtual cluster and slot number (R339). -/
def slotKey (launch die vcl n : Nat) : Nat := ((launch * 4 + die) * 16 + vcl) * 128 + n

/-- The storage key of byte 0 of a Cupola slot. -/
def cupolaKey (slot : Nat) : Nat := 2 ^ 49 + 2 ^ 48 + slot * 2 ^ 14

/-- The sectors that n bytes at a key touch. -/
def sectorsOf (k n : Nat) : List Nat := if n = 0 then [] else upFrom (k / 32) ((k + n - 1) / 32 - k / 32 + 1)

/-- Whether a sector that n bytes at a key touch is uncorrectable (R222) (DEDUCED, log 68). -/
def State.badAt (s : State) (k n : Nat) : Bool := s.bad.any (fun x => decide (k / 32 ≤ x) && decide (x * 32 < k + n))

/-- Whether a read of n bytes at a key needs a correction (R222). -/
def State.corrAt (s : State) (k n : Nat) : Bool := s.corr.any (fun x => decide (k / 32 ≤ x) && decide (x * 32 < k + n))

/-! ## Translation -/

/-- What a walk finds. -/
inductive Walk where
  /-- a leaf: the entry, log2 of its page, and the physical address of the access -/
  | leaf (pte lg pa : Nat)
  | cause (code : Nat)
  | need (block : Nat)
  deriving DecidableEq, Repr

/-- A clean copy of a remote block in a die's L2 (R212). -/
def State.copyLine (s : State) (die block : Nat) : Option Line := (s.die die).copies.find? (fun l => l.block == block)

/-- The contents of a clean copy of a remote block. -/
def State.copyOf (s : State) (die block : Nat) : Option Nat := (s.copyLine die block).map (fun l => l.data)

/-- Whether n bytes from an offset of a line on touch a sector with an error: corrected ones are told by base 0, the
uncorrectable ones by base 8 (R222). -/
def Line.errAt (l : Line) (base off n : Nat) : Bool :=
  (upFrom 0 8).any (fun i => bit l.errs (base + i) && decide (32 * i < off + n) && decide (off < 32 * i + 32))

/-- The errors of a block at its home, as a line carries them (R222). -/
def State.blockErrs (s : State) (block : Nat) : Nat :=
  (upFrom 0 8).foldl (fun e i =>
    e + b2n (!s.badAt (256 * block + 32 * i) 32 && s.corrAt (256 * block + 32 * i) 32) * 2 ^ i
      + b2n (s.badAt (256 * block + 32 * i) 32) * 2 ^ (8 + i)) 0

/-- Reads 8 bytes at a physical address as a die's normal, cacheable read (R207): a value, or what stops it. -/
def State.readEntry (s : State) (die pa : Nat) : Except Walk Nat :=
  match s.target pa with
  | some (.gddr d) =>
    if d = die then if s.badAt pa 8 then .error (.cause 0x13) else .ok (Mem.read s.mem pa 8)
    else
      match s.copyLine die (pa / 256) with
      | some l => if l.errAt 8 (pa % 256) 8 then .error (.cause 0x13) else .ok (fld l.data (8 * (pa % 256)) 64)
      | none => .error (.need (pa / 256))
  | some .host => .ok (Mem.read s.mem pa 8)
  | some (.scratch d off) =>
    match s.scratchKey d off with
    | some k => if s.badAt k 8 then .error (.cause 0x13) else .ok (Mem.read s.mem k 8)
    | none => .error (.cause 0x15)
  | _ => .error (.cause 0x10)

/-- The address of the entry that a level of the table uses (R204). -/
def entryAddr (base va lvl : Nat) : Nat := base / 4096 * 4096 + 8 * (va / 2 ^ (12 + 9 * lvl) % 512)

/-- Whether an entry is well formed at its level (R205). -/
def entryOk (e lvl : Nat) : Bool :=
  bit e 0 && decide (fld e 48 16 = 0) && decide (fld e 9 3 = 0) &&
  (if bit e 1 then
     decide (lvl < 3) && decide (fld e 6 2 ≠ 3) && (decide (lvl = 0) || !bit e 8) &&
     (decide (lvl ≠ 2) || decide (fld e 12 18 = 0)) && (decide (lvl ≠ 1) || decide (fld e 12 9 = 0))
   else decide (lvl ≠ 0) && decide (fld e 2 7 = 0))

/-- Whether the physical address a leaf gives is valid for the walking die, host memory under its HMLIM (R202). -/
def State.paOk (s : State) (die pa : Nat) : Bool :=
  match s.target pa with
  | some .host => decide (pa % 2 ^ 45 < (s.die die).host.hmlim)
  | some _ => true
  | none => false

/-- The leaf a level-0 entry gives: 4 KiB, or 64 KiB when all 16 entries of its block carry CONT (R206). -/
def leafZero (s : State) (die va e : Nat) (cont : Bool) : Walk :=
  let lg := if cont then 16 else 12
  let pa := fld e lg (48 - lg) * 2 ^ lg + va % 2 ^ lg
  if s.paOk die pa then .leaf e lg pa else .cause 0x10

/-- Whether all 16 entries of the block that holds the entry at ea are valid and carry CONT (R206). That each must be valid as
well is the model's (DEDUCED, log 74). -/
def State.contBlock (s : State) (die ea : Nat) : Bool :=
  (upFrom 0 16).all (fun i =>
    match s.readEntry die (ea / 128 * 128 + 8 * i) with
    | .ok e => bit e 8 && bit e 0
    | .error _ => false)

/-- Walks the table from a level down (R204, R205). `alt` names the entry of a 64 KiB block that is used, when given. -/
def State.walkFrom (s : State) (die va : Nat) (alt : Option Nat) : Nat → Nat → Walk
  | 0, base =>
    let ea := entryAddr base va 0
    match s.readEntry die ea with
    | .error w => w
    | .ok e =>
      if !entryOk e 0 then .cause 0x10
      else if bit e 8 && s.contBlock die ea then
        match alt with
        | none => leafZero s die va e true
        | some i =>
          match s.readEntry die (ea / 128 * 128 + 8 * (i % 16)) with
          | .error w => w
          | .ok e2 => if entryOk e2 0 then leafZero s die va e2 true else .cause 0x10
      else leafZero s die va e false
  | l + 1, base =>
    let ea := entryAddr base va (l + 1)
    match s.readEntry die ea with
    | .error w => w
    | .ok e =>
      if !entryOk e (l + 1) then .cause 0x10
      else if bit e 1 then
        let lg := 12 + 9 * (l + 1)
        let pa := fld e lg (48 - lg) * 2 ^ lg + va % 2 ^ lg
        if s.paOk die pa then .leaf e lg pa else .cause 0x10
      else s.walkFrom die va alt l (fld e 12 36 * 4096)

/-- The addresses of the table entries that a walk reads, from a level down (R204). -/
def State.walkPath (s : State) (die va : Nat) : Nat → Nat → List Nat
  | 0, base => [entryAddr base va 0]
  | l + 1, base =>
    let ea := entryAddr base va (l + 1)
    ea :: (match s.readEntry die ea with
      | .ok e => if entryOk e (l + 1) && !bit e 1 then s.walkPath die va l (fld e 12 36 * 4096) else []
      | .error _ => [])

/-- Where an access comes from: its die and cluster, the core whose cache ways it uses, its page-table root, and the
translations that a committed entry holds (R265). `clear` is false for an entry that must not yet reach a page of type device
(R268). -/
structure Port where
  die : Nat
  cluster : Nat
  core : Option Nat
  root : Nat
  held : List Tlb := []
  clear : Bool := true
  deriving DecidableEq, Repr

/-- The physical address a kept translation gives. -/
def Tlb.pa (t : Tlb) (va : Nat) : Nat := fld t.pte t.lg (48 - t.lg) * 2 ^ t.lg + va % 2 ^ t.lg

/-- Whether a kept translation serves an address: its page holds it, and host memory is reached below the HMLIM of the walk
only (R202, R207). -/
def Tlb.serves (t : Tlb) (root va : Nat) : Bool :=
  t.root == root && t.va == va / 2 ^ t.lg && (!(t.pa va / 2 ^ 45 == 4) || decide (t.pa va % 2 ^ 45 < t.lim))

/-- The translation that serves an address without a walk: one that the entry holds, or the cluster's (R207, R265). -/
def State.kept (s : State) (p : Port) (va : Nat) : Option Tlb :=
  (p.held ++ (Tab.getD (s.die p.die).clusters p.cluster .off).tlb).find? (fun t => t.serves p.root va)

/-- A translation of a virtual address: the cluster's cached one if present, else a walk (R201, R207) (DEDUCED, log 64). -/
def State.translate (s : State) (p : Port) (va : Nat) : Walk :=
  if va ≥ 2 ^ 48 then .cause 0x10
  else
    match s.kept p va with
    | some t => .leaf t.pte t.lg (t.pa va)
    | none => s.walkFrom p.die va none 3 p.root

/-- What an access needs of its leaf (R205, R210). -/
inductive Need where
  | read
  | write
  | fetch
  | atomic
  | watch
  deriving DecidableEq, Repr

/-- The effective page type: host memory is uncached and the register region device, whatever TYPE says (R210). -/
def pageType (t : Target) (pte : Nat) : Nat :=
  match t with
  | .host => 1
  | .device _ _ => 2
  | _ => fld pte 6 2

/-- The cause an access meets at its leaf, 0 for none (R205, R210, R227, R230). -/
def leafCause (n : Need) (t : Target) (pte : Nat) : Nat :=
  let noAt := pageType t pte == 2 || !bit pte 5 || (t == .host)
  match n with
  | .read => if bit pte 2 then 0 else 0x11
  | .write => if bit pte 3 then 0 else 0x11
  | .fetch => if bit pte 4 then 0 else 0x11
  | .atomic => if !(bit pte 2 && bit pte 3) then 0x11 else if noAt then 0x16 else 0
  | .watch => if !bit pte 2 then 0x11 else if noAt then 0x16 else 0

/-- A translated access: target, physical address, effective type. -/
structure Place where
  target : Target
  pa : Nat
  ty : Nat
  deriving DecidableEq, Repr

/-- Counts an uncorrectable error met by a read (Table 7-7). -/
def countBad (die : Nat) : Act Unit := upd (fun s => s.countBad die)

/-- The machine after a read that needed a correction: an entry sees that one of its reads did (R222). -/
def State.sawCorr (s : State) : State := { s with corrSeen := s.corrSeen + 1 }

/-- The reads so far that needed a correction: an entry compares before and after its own (R222). -/
def State.corrections (s : State) : Nat := s.corrSeen

/-- The machine after a die has corrected an error (Table 7-7). -/
def State.countCorr (s : State) (die : Nat) : State :=
  match Tab.find s.dies die with
  | none => s.sawCorr
  | some d => (s.setDie die { d with mc := { d.mc with corrected := (d.mc.corrected + 1) % 2 ^ 64 } }).sawCorr

/-- Counts a corrected error (Table 7-7). -/
def countCorr (die : Nat) : Act Unit := upd (fun s => s.countCorr die)

/-- The machine after the reads of a walk, with the errors they met at their home counted (R207, R222). -/
def State.walked (s : State) (p : Port) (va : Nat) : State :=
  if (s.bad.isEmpty && s.corr.isEmpty) || (s.kept p va).isSome || decide (va ≥ 2 ^ 48) then s
  else (s.walkPath p.die va 3 p.root).foldl (fun s ea =>
    match s.target ea with
    | some (.gddr d) =>
      if d = p.die then if s.badAt ea 8 then s.countBad d else if s.corrAt ea 8 then s.countCorr d else s else s
    | some (.scratch d off) =>
      match s.scratchKey d off with
      | some k => if s.badAt k 8 then s.countBad d else if s.corrAt k 8 then s.countCorr d else s
      | none => s
    | _ => s) s

/-- Translates for an access, giving its place or its cause; a table entry on another die may have to be read first. -/
def locate (p : Port) (va : Nat) (n : Need) : Act (Except Nat Place) := do
  let s ← now
  upd (fun s => s.walked p va)
  match s.translate p va with
  | .cause c => return .error c
  | .need b => halt (.read p.die b)
  | .leaf pte lg pa =>
    match s.target pa with
    | none => return .error 0x10
    | some t =>
      let c := leafCause n t pte
      if c ≠ 0 then return .error c
      else if pageType t pte = 2 && !p.clear then stall
      else return .ok ⟨t, pa, pageType t pte⟩

/-! ## Clocks and messages -/

/-- The vector clock of a site: dies 0–3, 4 the host (R252). -/
def State.clockOf (s : State) (site : Nat) : Tab Nat := if site = 4 then s.hostClock else (s.die site).vclock

/-- Whether clock a covers clock b in every entry. -/
def covers (a b : Tab Nat) : Bool := (upFrom 0 5).all (fun i => decide (Tab.getD b i 0 ≤ Tab.getD a i 0))

/-- Entry-wise greatest of two clocks. -/
def mergeClock (a b : Tab Nat) : Tab Nat :=
  (upFrom 0 5).map (fun i => (i, max (Tab.getD a i 0) (Tab.getD b i 0)))

/-- Sets a site's clock. -/
def State.setClock (s : State) (site : Nat) (c : Tab Nat) : State :=
  if site = 4 then { s with hostClock := c }
  else
    match Tab.find s.dies site with
    | none => s
    | some d => (s.setDie site { d with vclock := c })

/-- The other sites of the package: its other dies and the host (R251). -/
def State.others (s : State) (site : Nat) : List Nat := ((s.dies.map (fun (d : Nat × Die) => d.1)) ++ [4]).filter (fun x => !(x == site))

/-- The counts of a site's messages that others have acknowledged (R253). -/
def State.ackedOf (s : State) (site : Nat) : Tab Nat := if site = 4 then s.hostAcked else (s.die site).acked

/-- Whether a site may send one more counted message (R253). -/
def State.maySend (s : State) (site : Nat) : Bool :=
  (s.others site).all (fun o => decide (Tab.getD (s.clockOf site) site 0 < Tab.getD (s.ackedOf site) o 0 + (2 ^ 31 - 1)))

/-- The site that homes a target (R241). -/
def homeOf (t : Target) : Nat :=
  match t with
  | .gddr d => d
  | .host => 4
  | .scratch d _ => d
  | .device d _ => d

/-- Wakes the watchers on a die of one of these sectors of physical addresses (R230). -/
def State.wakeWatch (s : State) (die : Nat) (secs : List Nat) : State :=
  let hit := fun (u : Who) (st : Stream) =>
    if ((s.gangOf u).map (fun g => g.die == die)).getD false then
      st.onWait (fun w => match w with
        | .mwait sec b => .mwait sec (b || secs.contains sec)
        | x => x)
    else st
  { s with
    groups := s.groups.map (fun g => (g.1, { g.2 with st := hit (.group g.1) g.2.st }))
    ctxs := s.ctxs.map (fun c => (c.1, { c.2 with st := hit (.ctx c.1) c.2.st })) }

/-- Drops a die's copy of a remote block, and a read of it that is under way: its data would be older than the write
(R251, R253). -/
def State.dropCopy (s : State) (die block : Nat) : State :=
  match Tab.find s.dies die with
  | none => s
  | some d =>
    let stale := fun (m : Msg) => match m.body with
      | .read b => m.src == die && b == block
      | .rdata b _ _ _ => m.dst == die && b == block
      | _ => false
    { s with
      msgs := s.msgs.filter (fun m => !stale m)
      dies := Tab.set s.dies die { d with
        copies := d.copies.filter (fun l => !(l.block == block))
        rdata := d.rdata.filter (fun r => !(r.1 == block)) } }

/-- Drops a block from one core's cache ways. -/
def State.dropLine (s : State) (p : Port) (block : Nat) : State :=
  match p.core, Tab.find s.dies p.die with
  | some c, some d =>
    (s.setDie p.die { d with
        caches := Tab.set d.caches (8 * p.cluster + c)
          ((Tab.getD d.caches (8 * p.cluster + c) []).filter (fun l => !(l.block == block))) })
  | _, _ => s

/-- Drops every clean line in a core's cache ways (Table 8-3). -/
def State.dropCore (s : State) (p : Port) : State :=
  match p.core, Tab.find s.dies p.die with
  | some c, some d => (s.setDie p.die { d with caches := Tab.set d.caches (8 * p.cluster + c) [] })
  | _, _ => s

/-- Sends a counted message from a site: its own entry rises, and the body goes to the home and a notice elsewhere
(R251, R252). With no home body, every other site gets the notice. -/
def sendShared (src : Nat) (home : Option Nat) (body : MsgBody) (pa n0 : Nat) : Act Nat := do
  let s ← now
  guardA (s.maySend src)
  let n := Tab.getD (s.clockOf src) src 0 + 1
  let clk := Tab.set (s.clockOf src) src n
  let ms := (s.others src).map (fun o => (⟨src, o, clk, if some o == home then body else .notice pa n0⟩ : Msg))
  upd (fun s => { s.setClock src clk with msgs := s.msgs ++ ms })
  return n

/-- The dirty table after a store at a key to memory m (R221). -/
def markDirty (m : List Host.Cell) (k n : Nat) (t : Tab Nat) : Tab Nat :=
  (sectorsOf k n).foldl (fun t x => if (Tab.find t x).isSome then t else Tab.set t x (Mem.read m (32 * x) 32)) t

/-- Remembers what GDDR 7 still holds of the normal sectors a store dirties in the home L2 (R212, R221). -/
def dirtySectors (die k n : Nat) : Act Unit := do
  let m := (← now).mem
  modDie die (fun d => { d with dirty := markDirty m k n d.dirty })

/-- Whether the home has handed a block to a die that has not yet taken it: the reply is on its way or waits there (R253). -/
def State.handed (s : State) (die block : Nat) : Bool :=
  s.msgs.any (fun m => m.dst == die && (match m.body with | .rdata b _ _ _ => b == block | _ => false)) ||
    (s.die die).rdata.any (fun r => r.1 == block)

/-- The dies other than the home that the home directory records with a copy of a block, from the reply on (R251). -/
def State.sharers (s : State) (home block : Nat) : List Nat :=
  (s.dies.filter (fun d => !(d.1 == home) && (d.2.copies.any (fun l => l.block == block) || s.handed d.1 block))).map (fun d => d.1)

/-- Whether a unit of another die watches one of these sectors (R230). -/
def State.watchedElsewhere (s : State) (home : Nat) (secs : List Nat) : Bool :=
  let hit := fun (u : Who) (st : Stream) =>
    !(((s.gangOf u).map (fun g => g.die == home)).getD true) &&
      (match st.wait, st.twait with
        | .mwait sec _, _ => secs.contains sec
        | _, .mwait sec _ => secs.contains sec
        | _, _ => false)
  s.groups.any (fun g => hit (.group g.1) g.2.st) || s.ctxs.any (fun c => hit (.ctx c.1) c.2.st)

/-- Whether a write that the home's own die makes must be told to other dies: a copy is recorded there, or a unit there waits
for a write of the sector (R230, R251). -/
def State.toldOf (s : State) (home pa n : Nat) : Bool :=
  !(s.sharers home (pa / 256)).isEmpty || s.watchedElsewhere home (sectorsOf pa n)

/-- Whether a message is counted in the clocks (R252) (DEDUCED, log 9). -/
def MsgBody.counted : MsgBody → Bool
  | .write _ _ _ _ => true
  | .notice _ _ => true
  | _ => false

/-- Whether a site may apply a counted message now: its source's next, and every other source's already (R253). -/
def State.mayApply (s : State) (m : Msg) : Bool :=
  let c := s.clockOf m.dst
  Tab.getD m.clock m.src 0 == Tab.getD c m.src 0 + 1 &&
    (upFrom 0 5).all (fun e => e == m.src || e == m.dst || decide (Tab.getD m.clock e 0 ≤ Tab.getD c e 0)) &&
    decide (Tab.getD m.clock m.dst 0 ≤ Tab.getD c m.dst 0)

/-- How many sectors the block coder makes of a block (R219). -/
def codedSectors (data : Nat) : Nat := 1 + Config.codedSize data % 8

/-- A die has coded a block of these contents (R219, Table 7-7). -/
def McRegs.code (m : McRegs) (data : Nat) : McRegs :=
  { m with blocks := (m.blocks + 1) % 2 ^ 64, sectors := (m.sectors + codedSectors data) % 2 ^ 64 }

/-- Counts a block coded for a transfer (R219, Table 7-7). -/
def Die.code (d : Die) (data : Nat) : Die := { d with mc := d.mc.code data }

/-- A held block is completed: the stored block is read, merged and coded again (R220). -/
def Die.mergeStored (d : Die) (c : Comb) (data : Nat) : Die :=
  { (d.code data) with
    combs := d.combs.filter (fun x => !(x.block == c.block))
    mc := { d.mc.code data with rmw := (d.mc.rmw + c.writes) % 2 ^ 64 } }

/-- Whether a held block has waited WCWAIT clk (R220). -/
def Die.combOver (d : Die) (c : Comb) : Bool := decide (d.mc.wcwait ≤ (d.clk + 2 ^ 64 - c.since) % 2 ^ 64)

/-- A write of some bytes of a block reaches a die's memory controller: a whole block is coded at once; a part waits for the
rest of the block, and is coded whole once that has come (R220). -/
def Die.combine (d0 : Die) (block bytes data : Nat) : Die :=
  let all := 2 ^ 256 - 1
  let d := match d0.combs.find? (fun c => c.block == block && d0.combOver c) with
    | some c => d0.mergeStored c data
    | none => d0
  match d.combs.find? (fun c => c.block == block) with
  | none =>
    if bytes = all then d.code data else { d with combs := d.combs ++ [⟨block, bytes, 1, d.clk⟩] }
  | some c =>
    let writes := c.writes + b2n (!(bytes == all))
    let rest := d.combs.filter (fun x => !(x.block == block))
    if c.bytes ||| bytes = all then
      { (d.code data) with combs := rest, mc := { d.mc.code data with merged := (d.mc.merged + writes) % 2 ^ 64 } }
    else { d with combs := rest ++ [⟨block, c.bytes ||| bytes, writes, c.since⟩] }

/-- The bytes of its block that n bytes at an address are, one bit each. -/
def bytesOfBlock (pa n : Nat) : Nat := (2 ^ n - 1) * 2 ^ (pa % 256) % 2 ^ 256

/-- A write reaches the memory controller of a die: an uncached one, or a write-back (R219, R220). -/
def toController (die pa n : Nat) : Act Unit := do
  let m := (← now).mem
  modDie die (fun d => d.combine (pa / 256) (bytesOfBlock pa n) (Mem.read m (pa / 256 * 256) 256))

/-- A store that the home performs: a normal one is dirty in its L2, an uncached one goes to its memory controller (R210, R212,
R220). -/
def storeHome (d pa n v ty : Nat) : Act Unit := do
  if ty = 0 then dirtySectors d pa n
  poke pa n v
  if ty ≠ 0 then toController d pa n

/-- Applies a counted message at its receiver: the home writes the data, another die drops its copy; the receiver's clock
takes the message's in, and the sender hears of it (R251, R253). -/
def applyShared (m : Msg) : Act Unit := do
  let s ← now
  guardA (s.mayApply m)
  match m.body with
  | .write pa n v normal =>
    match s.target pa with
    | some (.gddr d) =>
      storeHome d pa n v (if normal then 0 else 1)
    | some (.scratch d off) =>
      match s.scratchKey d off with
      | none => pure ()
      | some k => poke k n v
    | _ => pure ()
    upd (fun s => s.wakeWatch m.dst (sectorsOf pa n))
  | .notice pa n => upd (fun s => (s.dropCopy m.dst (pa / 256)).wakeWatch m.dst (sectorsOf pa n))
  | _ => stall
  upd (fun s => s.setClock m.dst (mergeClock (s.clockOf m.dst) m.clock))
  upd (fun s => { s with msgs := s.msgs ++ [⟨m.dst, m.src, s.clockOf m.dst, .ack (Tab.getD m.clock m.src 0)⟩] })

/-- The first counted message on its way to a site that the site may apply now (R253). -/
def State.nextFor (s : State) (dst : Nat) : Option Msg :=
  (s.inbox ++ s.msgs).find? (fun m => m.dst == dst && m.body.counted && s.mayApply m)

/-- What is on its way to a site is applied there as far as the clocks allow, n messages at most (R253). -/
def deliver (dst : Nat) : Nat → Act Unit
  | 0 => pure ()
  | n + 1 => do
    match (← now).nextFor dst with
    | none => pure ()
    | some m =>
      upd (fun s => { s with inbox := s.inbox.erase m, msgs := s.msgs.erase m })
      applyShared m
      deliver dst n

/-- Site a comes to have applied all that the clock of site b covers: what is done on a after this sees what b had applied,
read or made (R253, R254). -/
def reach (a b : Nat) : Act Unit := do
  let s ← now
  if covers (s.clockOf a) (s.clockOf b) then pure ()
  else
    deliver a (s.inbox.length + s.msgs.length)
    let s ← now
    guardA (covers (s.clockOf a) (s.clockOf b))

/-- Waits until each of two dies has applied all that the other's clock covers: a remote access performed at its home
at once (R253). What they still lack of each other's writes is applied before it (DEDUCED, log 65). -/
def together (a b : Nat) : Act Unit := do
  reach b a
  reach a b

/-! ## Accesses at a place -/

/-- Reads n bytes of storage at a home, with the error checks of R222. -/
def readKey (die k n : Nat) : Act (Except Nat Nat) := do
  let s ← now
  if s.badAt k n then
    countBad die
    return .error 0x13
  else
    if s.corrAt k n then countCorr die
    return .ok (Mem.read s.mem k n)

/-- Reads a word of SRAM that the memory list does not hold: whether it is uncorrectable; errors are counted (R222). -/
def readWord (die : Nat) (w : Sram) : Act Bool := do
  let s ← now
  if s.sramBad.contains w then
    countBad die
    return true
  else
    if s.sramCorr.contains w then countCorr die
    return false

/-- An engine of a die reads all words of SRAM of a kind: the status code it reports, 3 where one is uncorrectable, 2 where one
needed correction; errors are counted (R222). -/
def readWords (die : Nat) (f : Sram → Bool) : Act Nat := do
  let s ← now
  let bad := s.sramBad.filter f
  let corr := s.sramCorr.filter f
  bad.forM (fun _ => countBad die)
  corr.forM (fun _ => countCorr die)
  return if !bad.isEmpty then 3 else if !corr.isEmpty then 2 else 0

/-- Words of SRAM are written anew: their errors are gone (R222). -/
def State.rewrite (s : State) (f : Sram → Bool) : State :=
  { s with sramBad := s.sramBad.filter (fun w => !f w), sramCorr := s.sramCorr.filter (fun w => !f w) }

/-- How a read treats copies: `plain` may use and fill the core's cache ways; `pol` is POL (Table 7-5). -/
structure ReadMode where
  plain : Bool
  pol : Nat
  deriving DecidableEq, Repr

/-- The mode of an engine's read or of an acquire: at die scope, without the core's cache ways (R246, R249). -/
def fresh : ReadMode := ⟨false, 0⟩

/-- A line of a core's cache ways. -/
def State.lineOf (s : State) (p : Port) (block : Nat) : Option Nat :=
  match p.core with
  | none => none
  | some c => ((Tab.getD (s.die p.die).caches (8 * p.cluster + c) []).find? (fun l => l.block == block)).map (fun l => l.data)

/-- Whether the launch of a number has its partitions in (R282). -/
def State.launchIn (s : State) (launch : Nat) : Bool := !((Tab.find s.launches launch).map (fun l => l.out)).getD false

/-- The banks of a core that placed gangs hold in another mode than cache way (R213). -/
def State.banksOut (s : State) (die cluster core : Nat) : Nat :=
  (s.gangs.filter (fun g => g.2.placed && s.launchIn g.2.launch && g.2.die == die && g.2.cluster == cluster)).foldl (fun n g =>
    n + (if g.2.core0 ≤ core ∧ core < g.2.core0 + g.2.cores then
      ((Tab.getD g.2.hold (core - g.2.core0) []).filter (fun m => !(m == 0))).length else 0)) 0

/-- Lines of a core's cache ways as a bank leaves cache-way mode: those it holds are invalidated, and with no bank left in
that mode none remains (R214, Table 7-6). The number drawn is the counter's. -/
def State.loseBank (s : State) (die cluster core : Nat) : State :=
  match Tab.find s.dies die with
  | none => s
  | some d =>
    let k := 8 * cluster + core
    let left := if 48 ≤ s.banksOut die cluster core then []
      else (Tab.getD d.caches k []).filter (fun l => !Config.lineInBank s.tick l.block)
    (s.setDie die { d with caches := Tab.set d.caches k left }).tickOn

/-- Fills a line of a core's cache ways, if a bank of the core is in that mode (R210, R211, R213). -/
def fillLine (p : Port) (block data : Nat) : Act Unit := do
  match p.core with
  | none => pure ()
  | some c =>
    if (← now).banksOut p.die p.cluster c < 48 then
      modDie p.die (fun d => { d with
        caches := Tab.set d.caches (8 * p.cluster + c) (⟨block, data, d.clk, 0⟩ :: Tab.getD d.caches (8 * p.cluster + c) []) })

/-- Reads n bytes at a place, within one 256-byte block: a value or a cause (R210, R222, R242, R253) (DEDUCED, log 62). -/
def readPlace (p : Port) (m : ReadMode) (pl : Place) (n : Nat) : Act (Except Nat Nat) := do
  let s ← now
  match pl.target with
  | .device d off =>
    if d ≠ p.die then together p.die d
    return .ok (s.regRead d off n)
  | .host => return .ok (Mem.read s.mem pl.pa n)
  | .scratch d off =>
    match s.scratchKey d off with
    | none => return .error 0x15
    | some k =>
      if d ≠ p.die then together p.die d
      readKey d k n
  | .gddr d =>
    let block := pl.pa / 256
    if pl.ty ≠ 0 then
      if d ≠ p.die then together p.die d
      readKey d pl.pa n
    else
      match (if m.plain then s.lineOf p block else none) with
      | some data => return .ok (fld data (8 * (pl.pa % 256)) (8 * n))
      | none =>
        let fill := m.plain && (m.pol == 0 || m.pol == 2)
        if d = p.die then
          if fill && !s.badAt (256 * block) 256 then fillLine p block (Mem.read s.mem (256 * block) 256)
          readKey d pl.pa n
        else
          match s.copyLine p.die block with
          | some l =>
            if l.errAt 8 (pl.pa % 256) n then return .error 0x13
            else
              if l.errAt 0 (pl.pa % 256) n then upd State.sawCorr
              if fill && decide (l.errs < 256) then fillLine p block l.data
              return .ok (fld l.data (8 * (pl.pa % 256)) (8 * n))
          | none =>
            if m.pol = 3 then
              together p.die d
              readKey d pl.pa n
            else halt (.read p.die block)

/-- A remote write that its home performs at once: every other die and the host have notice of it, and the home has taken in
what was sent (R251, R253) (DEDUCED, log 65). -/
def noticeFrom (p : Port) (home pa n : Nat) : Act Unit := do
  discard (sendShared p.die none (.notice pa n) pa n)
  reach home p.die

/-- Writes n bytes at a place, within one block: the cause, if any (R212, R241, R251). The result is the home and count
of the message it sent, if it sent one. -/
def writePlace (p : Port) (pl : Place) (n v : Nat) : Act (Except Nat (Option (Nat × Nat))) := do
  let s ← now
  match pl.target with
  | .device d off =>
    if d ≠ p.die then
      together p.die d
      noticeFrom p d pl.pa n
    upd (fun s => s.regWrite d off n v)
    return .ok none
  | .host =>
    poke pl.pa n v
    return .ok none
  | .scratch d off =>
    if d ≠ p.die then together p.die d
    match (← now).scratchKey d off with
    | none => return .error 0x15
    | some k =>
      if d ≠ p.die then
        noticeFrom p d pl.pa n
        upd (fun s => s.wakeWatch p.die (sectorsOf pl.pa n))
      else if s.watchedElsewhere d (sectorsOf pl.pa n) then discard (sendShared d none (.notice pl.pa n) pl.pa n)
      poke k n v
      upd (fun s => s.wakeWatch d (sectorsOf pl.pa n))
      return .ok none
  | .gddr d =>
    let block := pl.pa / 256
    upd (fun s => s.dropLine p block)
    if d = p.die then
      if s.toldOf d pl.pa n then discard (sendShared d none (.notice pl.pa n) pl.pa n)
      storeHome d pl.pa n v pl.ty
      upd (fun s => s.wakeWatch d (sectorsOf pl.pa n))
      return .ok none
    else
      let c ← sendShared p.die (some d) (.write pl.pa n v (pl.ty == 0)) pl.pa n
      modDie p.die (fun x => x.code v)
      upd (fun s => (s.dropCopy p.die block).wakeWatch p.die (sectorsOf pl.pa n))
      return .ok (some (d, c))

/-- An indivisible read-modify-write at the home of a place; the old value or a cause (R227, R248). -/
def rmwPlace (p : Port) (pl : Place) (n : Nat) (f : Nat → Nat) : Act (Except Nat Nat) := do
  let s ← now
  let key := match pl.target with
    | .scratch d off => s.scratchKey d off
    | _ => some pl.pa
  match key with
  | none => return .error 0x15
  | some k =>
    let d := homeOf pl.target
    upd (fun s => s.dropLine p (pl.pa / 256))
    if d ≠ p.die then together p.die d
    match ← readKey d k n with
    | .error c => return .error c
    | .ok old =>
      let block := pl.pa / 256
      if d ≠ p.die then
        noticeFrom p d pl.pa n
        upd (fun s => (s.dropCopy p.die block).wakeWatch p.die (sectorsOf pl.pa n))
      else if s.toldOf d pl.pa n then discard (sendShared d none (.notice pl.pa n) pl.pa n)
      match pl.target with
      | .gddr _ => storeHome d pl.pa n (f old) pl.ty
      | _ => poke k n (f old)
      upd (fun s => s.wakeWatch d (sectorsOf pl.pa n))
      return .ok old

/-! ## Virtual accesses -/

/-- Reads n bytes at a virtual address. -/
def readVA (p : Port) (m : ReadMode) (va n : Nat) : Act (Except Nat Nat) := do
  match ← locate p va .read with
  | .error c => return .error c
  | .ok pl => readPlace p m pl n

/-- Writes n bytes at a virtual address. -/
def writeVA (p : Port) (va n v : Nat) : Act (Except Nat (Option (Nat × Nat))) := do
  match ← locate p va .write with
  | .error c => return .error c
  | .ok pl => writePlace p pl n v

/-- Reads a record that may span blocks, in pieces that each lie in one sector; the first cause met, with its address.
`k` bounds the pieces. -/
def readSpan (p : Port) (m : ReadMode) : Nat → Nat → Nat → Act (Except (Nat × Nat) Nat)
  | 0, _, _ => pure (.ok 0)
  | k + 1, va, n => do
    if n = 0 then return .ok 0
    let here := min n (32 - va % 32)
    match ← readVA p m va here with
    | .error c => return .error (c, va)
    | .ok x =>
      match ← readSpan p m k (va + here) (n - here) with
      | .error e => return .error e
      | .ok y => return .ok (x + y * 2 ^ (8 * here))

/-- Reads n bytes at a virtual address, whatever sectors they lie in (R249). -/
def readRange (p : Port) (m : ReadMode) (va n : Nat) : Act (Except (Nat × Nat) Nat) := readSpan p m (n / 32 + 2) va n

/-- Writes n bytes sector by sector in ascending order (R243); stops at the first cause with its address (DEDUCED, log 69). -/
def writeSpan (p : Port) : Nat → Nat → Nat → Nat → Act (Except (Nat × Nat) (Tab Nat))
  | 0, _, _, _ => pure (.ok [])
  | k + 1, va, n, v => do
    if n = 0 then return .ok []
    let here := min n (32 - va % 32)
    match ← writeVA p va here (v % 2 ^ (8 * here)) with
    | .error c => return .error (c, va)
    | .ok sent =>
      match ← writeSpan p k (va + here) (n - here) (v / 2 ^ (8 * here)) with
      | .error e => return .error e
      | .ok t =>
        match sent with
        | none => return .ok t
        | some (h, c) => return .ok (Tab.set t h (max c (Tab.getD t h 0)))

/-- Writes n bytes at a virtual address, whatever sectors they lie in. -/
def writeRange (p : Port) (va n v : Nat) : Act (Except (Nat × Nat) (Tab Nat)) := writeSpan p (n / 32 + 2) va n v

/-- Whether every page that [va, va + n) touches gives this access; the first cause met, with its address. -/
def probe (p : Port) (need : Need) : Nat → Nat → Nat → Act (Option (Nat × Nat))
  | 0, _, _ => pure none
  | k + 1, va, n => do
    if n = 0 then return none
    let here := min n (4096 - va % 4096)
    match ← locate p va need with
    | .error c => return some (c, va)
    | .ok _ => probe p need k (va + here) (n - here)

/-- The port of a unit's own accesses: a group's core, a context's cluster (R201, R259). -/
def State.portOf (s : State) (u : Who) : Port :=
  match s.gangOf u with
  | none => ⟨0, 0, none, 0, [], true⟩
  | some g =>
    let root := fld (s.launchRec g.launch) 192 48
    match u with
    | .group k => ⟨g.die, g.cluster, some (g.core0 + ((Tab.find s.groups k).map (fun x => x.id.pos)).getD 0), root, [], true⟩
    | .ctx _ => ⟨g.die, g.cluster, none, root, [], true⟩

/-- The port of the issuing unit. -/
def myPort : Act Port := do return (← now).portOf (← me)

/-! ## Scratchpad -/

/-- Position and offset of a scratchpad address if its fields and bounds hold (Table 7-2), for n bytes. -/
def spadAt (g : Gang) (addr n : Nat) : Option (Nat × Nat) :=
  let pos := fld addr 20 3
  let off := fld addr 0 20
  if addr < 2 ^ 23 ∧ pos < g.cores ∧ off + n ≤ 8192 * (Tab.getD g.hold pos []).length then some (pos, off) else none

/-- Whether every holding that n bytes at an offset touch is in scratchpad mode (R203). -/
def spadMode (g : Gang) (pos off n : Nat) : Bool :=
  n == 0 || (upFrom (off / 8192) ((off + n - 1) / 8192 - off / 8192 + 1)).all (fun h => nth (Tab.getD g.hold pos []) h 0 == 1)

/-- Reads n bytes of scratchpad: a value or a cause (0x14, 0x15, 0x13). -/
def readSpad (gang : Nat) (addr n : Nat) : Act (Except Nat Nat) := do
  let g ← getGang gang
  match spadAt g addr n with
  | none => return .error 0x14
  | some (pos, off) => if spadMode g pos off n then readKey g.die (spadKey gang pos + off) n else return .error 0x15

/-- Writes n bytes of scratchpad. -/
def writeSpad (gang : Nat) (addr n v : Nat) : Act (Except Nat Unit) := do
  let g ← getGang gang
  match spadAt g addr n with
  | none => return .error 0x14
  | some (pos, off) =>
    if spadMode g pos off n then
      poke (spadKey gang pos + off) n v
      return .ok ()
    else return .error 0x15

/-! ## Barrier objects -/

/-- Rank of a status code (Table 1-6). -/
def statusRank (code : Nat) : Nat := nth [0, 3, 1, 10, 6, 4, 5, 8, 7, 2, 9] code 0

/-- A status word: code, reporting queue, AUX and sequence number (R27). -/
def statusWord (code src aux seq : Nat) : Nat := code * 2 ^ 24 + src * 2 ^ 20 + aux * 2 ^ 16 + seq % 65536

/-- Whether a scratchpad address names a barrier object of the gang (R234). -/
def isBarrier (g : Gang) (addr : Nat) : Bool :=
  decide (addr % 16 = 0) && decide (addr < 16 * g.nbar)

/-- Reads a barrier object's 16 bytes. -/
def readBar (gang addr : Nat) : Act Nat := do return Mem.read (← now).mem (barKey gang addr) 16

/-- Writes a barrier object's 16 bytes, its reserved fields as zero (R26). -/
def writeBar (gang addr v : Nat) : Act Unit :=
  poke (barKey gang addr) 16 (barClean v)

/-- Wakes the groups and context of a gang that sleep in BAR.WAIT on an object, with the STATUS of the phase that completed
(R24). -/
def State.wakeBar (s : State) (gang addr status : Nat) : State :=
  let w := fun (st : Stream) => st.onWait (fun x => match x with
    | .barWait b none => .barWait b (if b = addr then some (BitVec.ofNat 32 status) else none)
    | x => x)
  { s with
    groups := s.groups.map (fun g => if g.1 / 65536 = gang then (g.1, { g.2 with st := w g.2.st }) else g)
    ctxs := s.ctxs.map (fun c => if c.1 = gang then (c.1, { c.2 with st := w c.2.st }) else c) }

/-- A continuation is handed to the copy engine: it reads the record as it stands, and the record's weight goes with it (R305). -/
def handOff (gang cont : Nat) : Act Unit := do
  let key := spadKey gang 0 + 128 * cont
  let v := Mem.read (← now).mem key 128
  poke (key + 8) 8 0
  let g ← getGang gang
  putGang gang { g with handoffs := g.handoffs ++ [v] }

/-- An arrival of count n with a status at a barrier object (R24, R25, R26). -/
def arrive (gang addr n status : Nat) : Act Unit := do
  let g ← getGang gang
  let v ← readBar gang addr
  let expected := fld v 0 16
  let arrived := fld v 32 16
  if arrived ≥ expected then pure ()
  else
    let pend := (Tab.getD g.barPend addr 0).toNat
    let best := if statusRank (status / 2 ^ 24) > statusRank (pend / 2 ^ 24) then status else pend
    if arrived + n ≥ expected then
      let cont := fld v 96 16
      let v1 := setFld (setFld v 64 32 best) 32 16 0
      let v2 := setFld (setFld (setFld v1 31 1 (1 - fld v 31 1)) 112 16 0) 96 16 0xFFFF
      writeBar gang addr v2
      putGang gang { g with barPend := Tab.set g.barPend addr 0 }
      if cont ≠ 0xFFFF then handOff gang cont
      upd (fun s => s.wakeBar gang addr best)
    else
      writeBar gang addr (setFld v 32 16 (arrived + n))
      putGang gang { g with barPend := Tab.set g.barPend addr (BitVec.ofNat 32 best) }

/-- An arrival of an entry at its barrier, if it has one. -/
def arriveAt (gang : Nat) (bar : BarRef) (status : Nat) : Act Unit :=
  match bar with
  | none => pure ()
  | some a => arrive gang a 1 status

end Sys2Proof.Machine
end

