-- ==== Sys2Proof/Machine/Num.lean ====
section
/-! DEFINITION. Number formats and arithmetic (04_numbers.md): floating values as exact dyadic numbers, one rounding
function, the helpers of Table 4-3, the approximating functions and LNS6. -/

set_option linter.unusedVariables false

namespace Sys2Proof.Machine

open Sys2Proof

/-- A binary floating-point format (Table 4-1). `ieee` is false for E4M3, which has no infinity. -/
structure Fmt where
  ebits : Nat
  fbits : Nat
  bias : Nat
  ieee : Bool
  deriving DecidableEq, Repr

/-- binary32 -/
def fmt32 : Fmt := ⟨8, 23, 127, true⟩
/-- binary16 -/
def fmt16 : Fmt := ⟨5, 10, 15, true⟩
/-- BF16 -/
def fmtB16 : Fmt := ⟨8, 7, 127, true⟩
/-- E4M3 -/
def fmtE4M3 : Fmt := ⟨4, 3, 7, false⟩

/-- The width of a format. -/
def Fmt.width (f : Fmt) : Nat := 1 + f.ebits + f.fbits

/-- The largest finite magnitude's encoding without sign (Table 4-1). -/
def Fmt.maxFin (f : Fmt) : Nat := if f.ieee then (2 ^ f.ebits - 1) * 2 ^ f.fbits - 1 else 2 ^ (f.ebits + f.fbits) - 2

/-- The canonical NaN (Table 4-1). -/
def Fmt.qnan (f : Fmt) : Nat :=
  if f.ieee then (2 ^ f.ebits - 1) * 2 ^ f.fbits + 2 ^ (f.fbits - 1) else 2 ^ (f.ebits + f.fbits) - 1

/-- The encoding of infinity, or the largest finite magnitude where the format has none. -/
def Fmt.inf (f : Fmt) : Nat := if f.ieee then (2 ^ f.ebits - 1) * 2 ^ f.fbits else f.maxFin

/-- The sign bit of a format when set. -/
def Fmt.sign (f : Fmt) (neg : Bool) : Nat := if neg then 2 ^ (f.ebits + f.fbits) else 0

/-- A floating value: NaN, an infinity, or the exact number ± m × 2^e; m = 0 is a zero with its sign. -/
inductive FV where
  | nan
  | inf (neg : Bool)
  | fin (neg : Bool) (m : Nat) (e : Int)
  deriving DecidableEq, Repr

/-- The value of an encoding (R110). -/
def decodeF (f : Fmt) (x : Nat) : FV :=
  let neg := bit x (f.ebits + f.fbits)
  let e := fld x f.fbits f.ebits
  let m := fld x 0 f.fbits
  if f.ieee && decide (e = 2 ^ f.ebits - 1) then (if m = 0 then .inf neg else .nan)
  else if !f.ieee && decide (e = 2 ^ f.ebits - 1) && decide (m = 2 ^ f.fbits - 1) then .nan
  else if e = 0 then .fin neg m (1 - (f.bias : Int) - f.fbits)
  else .fin neg (2 ^ f.fbits + m) ((e : Int) - f.bias - f.fbits)

/-- Whether the magnitude is rounded up: mode, sign, odd quotient, remainder against half (Table 4-2). -/
def roundUp (rm : Nat) (neg odd : Bool) (rem half : Nat) : Bool :=
  if rem = 0 then false
  else if rm = 0 then decide (rem > half) || (decide (rem = half) && odd)
  else if rm = 1 then false
  else if rm = 2 then !neg
  else neg

/-- m × 2^e rounded to an integer multiple of 2^q: the multiple (Table 4-2). -/
def roundTo (rm : Nat) (neg : Bool) (m : Nat) (e q : Int) : Nat :=
  if q ≤ e then m * 2 ^ (e - q).toNat
  else
    let d := 2 ^ (q - e).toNat
    let n := m / d
    if roundUp rm neg (n % 2 == 1) (2 * (m % d)) d then n + 1 else n

/-- RND(x, T, rm) as an encoding (R116, R117, Table 4-3). -/
def encodeF (f : Fmt) (rm : Nat) (x : FV) : Nat :=
  match x with
  | .nan => f.qnan
  | .inf neg => f.sign neg + f.inf
  | .fin neg m e =>
    if m = 0 then f.sign neg
    else
      let top : Int := (Nat.log2 m : Int) + e
      let emin : Int := 1 - (f.bias : Int)
      let q : Int := max top emin - f.fbits
      let n := roundTo rm neg m e q
      let bits := (q + f.fbits + f.bias - 1).toNat * 2 ^ f.fbits + n
      if bits ≤ f.maxFin then f.sign neg + bits
      else if !f.ieee then f.sign neg + f.maxFin
      else if rm = 0 ∨ (rm = 2 ∧ !neg) ∨ (rm = 3 ∧ neg) then f.sign neg + f.inf
      else f.sign neg + f.maxFin

/-- sat on an encoding: an infinity becomes the largest finite value of its sign (Table 4-3). -/
def satF (f : Fmt) (x : Nat) : Nat :=
  if f.ieee && decide (x % 2 ^ (f.ebits + f.fbits) = f.inf) then x - 1 else x

/-- The exact value of an integer. -/
def FV.ofInt (x : Int) : FV := .fin (x < 0) x.natAbs 0

/-- Negation. -/
def FV.neg : FV → FV
  | .nan => .nan
  | .inf n => .inf (!n)
  | .fin n m e => .fin (!n) m e

/-- Absolute value. -/
def FV.abs : FV → FV
  | .nan => .nan
  | .inf _ => .inf false
  | .fin _ m e => .fin false m e

/-- The sign and magnitude as a signed integer at exponent q, for q at or below e. -/
def atExp (neg : Bool) (m : Nat) (e q : Int) : Int :=
  let v : Int := m * 2 ^ (e - q).toNat
  if neg then -v else v

/-- Exact sum; the sign of an exact zero follows R117 under the mode. -/
def addF (rm : Nat) (a b : FV) : FV :=
  match a, b with
  | .nan, _ => .nan
  | _, .nan => .nan
  | .inf n, .inf k => if n = k then .inf n else .nan
  | .inf n, .fin _ _ _ => .inf n
  | .fin _ _ _, .inf k => .inf k
  | .fin n m e, .fin k p g =>
    let q := min e g
    let s := atExp n m e q + atExp k p g q
    if s = 0 then .fin (if m = 0 ∧ p = 0 ∧ n = k then n else rm == 3) 0 0
    else .fin (s < 0) s.natAbs q

/-- Exact product (R117). -/
def mulF (a b : FV) : FV :=
  match a, b with
  | .nan, _ => .nan
  | _, .nan => .nan
  | .inf n, .inf k => .inf (xor n k)
  | .inf n, .fin k p _ => if p = 0 then .nan else .inf (xor n k)
  | .fin n m _, .inf k => if m = 0 then .nan else .inf (xor n k)
  | .fin n m e, .fin k p g => .fin (xor n k) (m * p) (e + g)

/-- Value order of two non-NaN values: negative, zero or positive. −0 equals +0. -/
def cmpF (a b : FV) : Int :=
  match a, b with
  | .nan, _ => 0
  | _, .nan => 0
  | .inf n, .inf k => if n = k then 0 else if n then -1 else 1
  | .inf n, .fin _ _ _ => if n then -1 else 1
  | .fin _ _ _, .inf k => if k then 1 else -1
  | .fin n m e, .fin k p g =>
    let q := min e g
    let d := atExp n m e q - atExp k p g q
    if d < 0 then -1 else if d > 0 then 1 else 0

/-- The sign of a value. -/
def FV.isNeg : FV → Bool
  | .nan => false
  | .inf n => n
  | .fin n _ _ => n

/-- Whether a value is NaN. -/
def FV.isNan : FV → Bool
  | .nan => true
  | .inf _ => false
  | .fin _ _ _ => false

/-- fmin (or fmax) of two encodings: minimumNumber, −0 below +0 (Table 4-3). -/
def minF (f : Fmt) (mx : Bool) (x y : Nat) : Nat :=
  let a := decodeF f x
  let b := decodeF f y
  match a.isNan, b.isNan with
  | true, true => f.qnan
  | true, false => y
  | false, true => x
  | false, false =>
    let c := cmpF a b
    let less := decide (c < 0) || (decide (c = 0) && a.isNeg)
    if less = mx then y else x

/-- The integral value a float rounds to under a mode: sign and magnitude (R178). -/
def intRound (rm : Nat) (neg : Bool) (m : Nat) (e : Int) : Nat := roundTo rm neg m e 0

/-- Float to integer: rounded, then clamped to [lo, hi]; NaN gives 0 (Table 4-4). -/
def toInt (rm : Nat) (lo hi : Int) (x : FV) : Int :=
  match x with
  | .nan => 0
  | .inf n => if n then lo else hi
  | .fin n m e =>
    let v : Int := intRound rm n m e
    max lo (min hi (if n then -v else v))

/-- Integer square root by Newton's steps; `fuel` bounds them. -/
def isqrtFrom : Nat → Nat → Nat → Nat
  | 0, _, x => x
  | fuel + 1, n, x =>
    let y := (x + n / x) / 2
    if y < x then isqrtFrom fuel n y else x

/-- floor of the square root. -/
def isqrt (n : Nat) : Nat := if n = 0 then 0 else isqrtFrom (Nat.log2 n + 2) n (2 ^ (Nat.log2 n / 2 + 1))

/-- A quotient m ÷ d × 2^e with enough bits to round once: the lowest bit is sticky. -/
def quotient (neg : Bool) (m d : Nat) (e : Int) : FV :=
  if m = 0 then .fin neg 0 0
  else
    let k := Nat.log2 d + 64
    let q := m * 2 ^ k / d
    .fin neg (2 * q + b2n (!(m * 2 ^ k % d == 0))) (e - k - 1)

/-- Exact quotient of values, as a value that rounds once correctly. -/
def divF (a b : FV) : FV :=
  match a, b with
  | .nan, _ => .nan
  | _, .nan => .nan
  | .inf _, .inf _ => .nan
  | .inf n, .fin k _ _ => .inf (xor n k)
  | .fin n _ _, .inf k => .fin (xor n k) 0 0
  | .fin n m e, .fin k p g =>
    if p = 0 then (if m = 0 then .nan else .inf (xor n k)) else quotient (xor n k) m p (e - g)

/-- Square root as a value that rounds once correctly (R176). -/
def sqrtF (a : FV) : FV :=
  match a with
  | .nan => .nan
  | .inf n => if n then .nan else .inf false
  | .fin n m e =>
    if m = 0 then .fin n 0 0
    else if n then .nan
    else
      let k : Nat := 128 + (e % 2).toNat
      let r := isqrt (m * 2 ^ k)
      .fin false (2 * r + b2n (!(r * r == m * 2 ^ k))) ((e - k) / 2 - 1)

/-! ## Approximating functions (R121, R122, Table 4-5): exact values carried to many bits, rounded once -/

/-- FRCP. -/
def frcp (x : Nat) : Nat :=
  match decodeF fmt32 x with
  | .nan => fmt32.qnan
  | .inf n => fmt32.sign n
  | .fin n m e => if m = 0 then fmt32.sign n + fmt32.inf else encodeF fmt32 0 (quotient n 1 m (-e))

/-- FRSQ. -/
def frsq (x : Nat) : Nat :=
  match decodeF fmt32 x with
  | .nan => fmt32.qnan
  | .inf n => if n then fmt32.qnan else 0
  | .fin n m e =>
    if m = 0 then fmt32.sign n + fmt32.inf
    else if n then fmt32.qnan
    else
      let m2 := if e % 2 = 0 then m else 2 * m
      let e2 := if e % 2 = 0 then e else e - 1
      let r := isqrt (2 ^ 240 / m2)
      encodeF fmt32 0 (.fin false (2 * r + b2n (!(r * r * m2 == 2 ^ 240))) (-(e2 / 2) - 121))

/-- 2^f for a fraction f of `k` bits, scaled by 2^160: products of repeated square roots of 2. -/
def exp2Frac : Nat → Nat → Nat → Nat → Nat
  | 0, _, _, acc => acc
  | k + 1, f, r, acc => exp2Frac k f (isqrt (r * 2 ^ 160)) (if bit f k then acc * r / 2 ^ 160 else acc)

/-- FEXP2. -/
def fexp2 (x : Nat) : Nat :=
  match decodeF fmt32 x with
  | .nan => fmt32.qnan
  | .inf n => if n then 0 else fmt32.inf
  | .fin n m e =>
    if m = 0 then 0x3F800000
    else if (Nat.log2 m : Int) + e ≥ 9 then (if n then 0 else fmt32.inf)
    else if (Nat.log2 m : Int) + e < -26 then 0x3F800000
    else
      let v := atExp n m e (-50)
      let i := v / 2 ^ 50
      let f := (v % 2 ^ 50).toNat
      if f = 0 then encodeF fmt32 0 (if i ≤ -150 then .fin false 0 0 else .fin false 1 i)
      else if i < -150 then 0
      else encodeF fmt32 0 (.fin false (2 * exp2Frac 50 f (isqrt (2 * 2 ^ 320)) (2 ^ 160) + 1) (i - 161))

/-- The fraction bits of log2 t for t in [1, 2) scaled by 2^220: repeated squaring. -/
def log2Frac : Nat → Nat → Nat → Nat
  | 0, _, acc => acc
  | k + 1, t, acc =>
    let u := t * t / 2 ^ 220
    if u ≥ 2 ^ 221 then log2Frac k (u / 2) (2 * acc + 1) else log2Frac k u (2 * acc)

/-- FLOG2. -/
def flog2 (x : Nat) : Nat :=
  match decodeF fmt32 x with
  | .nan => fmt32.qnan
  | .inf n => if n then fmt32.qnan else fmt32.inf
  | .fin n m e =>
    if m = 0 then fmt32.sign true + fmt32.inf
    else if n then fmt32.qnan
    else
      let l := Nat.log2 m
      let k : Int := (l : Int) + e
      if m = 2 ^ l then encodeF fmt32 0 (FV.ofInt k)
      else
        let f := log2Frac 100 (m * 2 ^ (220 - l)) 0
        let v : Int := k * 2 ^ 100 + f
        if v ≥ 0 then encodeF fmt32 0 (.fin false (2 * v.toNat + 1) (-101))
        else encodeF fmt32 0 (.fin true (2 * ((-v).toNat - 1) + 1) (-101))

/-- floor of π × 2^400. -/
def piScaled : Nat := 0x3243f6a8885a308d313198a2e03707344a4093822299f31d0082efa98ec4e6c89452821e638d01377be5466cf34e90c6cc0ac

/-- Terms of the sine or cosine series from a term on, alternating, at scale 2^400. -/
def trigSeries : Nat → Nat → Nat → Int → Int → Int
  | 0, _, _, _, acc => acc
  | fuel + 1, n, t2, term, acc =>
    let next := -(term * t2 / 2 ^ 400 / ((n + 1) * (n + 2) : Nat))
    trigSeries fuel (n + 2) t2 next (acc + next)

/-- sin (2π r ÷ 2^152) for r below an eighth turn, at scale 2^400. -/
def sinSmall (r : Nat) : Nat :=
  let t := 2 * piScaled * r / 2 ^ 152
  (trigSeries 60 1 (t * t / 2 ^ 400) t t).toNat

/-- cos (2π r ÷ 2^152) for r up to an eighth turn, at scale 2^400. -/
def cosSmall (r : Nat) : Nat :=
  let t := 2 * piScaled * r / 2 ^ 152
  (trigSeries 60 0 (t * t / 2 ^ 400) (2 ^ 400) (2 ^ 400)).toNat

/-- sin of r ÷ 2^152 turns for r from 0 to a quarter turn, at scale 2^400. -/
def sinQuarter (r : Nat) : Nat := if r ≤ 2 ^ 149 then sinSmall r else cosSmall (2 ^ 150 - r)

/-- The sine of a magnitude |x| = m × 2^e in turns that is no multiple of a quarter: sign and value at scale 2^400.
`shift` is 0 for the sine and a quarter turn for the cosine. -/
def turnSin (m : Nat) (e : Int) (shift : Nat) : Bool × Nat :=
  let r := ((atExp false m e (-152)).toNat + shift) % 2 ^ 152
  let q := r / 2 ^ 150
  let p := r % 2 ^ 150
  (decide (2 ≤ q), if q % 2 = 0 then sinQuarter p else sinQuarter (2 ^ 150 - p))

/-- The number of quarter turns of x modulo a turn when x is a multiple of a quarter, by R122. -/
def quarters (n : Bool) (m : Nat) (e : Int) : Option Nat :=
  let v := atExp n m e (min e (-2))
  let d : Int := 2 ^ (-2 - min e (-2)).toNat
  if v % d = 0 then some ((v / d) % 4).toNat else none

/-- FSIN. -/
def fsin (x : Nat) : Nat :=
  match decodeF fmt32 x with
  | .nan => fmt32.qnan
  | .inf _ => fmt32.qnan
  | .fin n m e =>
    if m = 0 then fmt32.sign n
    else
      match quarters n m e with
      | some k => if k = 1 then 0x3F800000 else if k = 3 then 0xBF800000 else 0
      | none =>
        let r := turnSin m e 0
        encodeF fmt32 0 (.fin (xor n r.1) (2 * r.2 + 1) (-401))

/-- FCOS. -/
def fcos (x : Nat) : Nat :=
  match decodeF fmt32 x with
  | .nan => fmt32.qnan
  | .inf _ => fmt32.qnan
  | .fin n m e =>
    match quarters n m e with
    | some k => if k = 0 then 0x3F800000 else if k = 2 then 0xBF800000 else 0
    | none =>
      let r := turnSin m e (2 ^ 150)
      encodeF fmt32 0 (.fin r.1 (2 * r.2 + 1) (-401))

/-! ## FP32 shorthands on encodings -/

/-- RNE of an exact sum. -/
def fadd32 (x y : Nat) : Nat := encodeF fmt32 0 (addF 0 (decodeF fmt32 x) (decodeF fmt32 y))
/-- RNE of an exact difference. -/
def fsub32 (x y : Nat) : Nat := encodeF fmt32 0 (addF 0 (decodeF fmt32 x) (decodeF fmt32 y).neg)
/-- RNE of an exact product. -/
def fmul32 (x y : Nat) : Nat := encodeF fmt32 0 (mulF (decodeF fmt32 x) (decodeF fmt32 y))
/-- RNE of an exact a × b + c (R118). -/
def ffma32 (x y z : Nat) : Nat := encodeF fmt32 0 (addF 0 (mulF (decodeF fmt32 x) (decodeF fmt32 y)) (decodeF fmt32 z))
/-- RNE of an exact quotient. -/
def fdiv32 (x y : Nat) : Nat := encodeF fmt32 0 (divF (decodeF fmt32 x) (decodeF fmt32 y))
/-- RNE of an exact square root. -/
def fsqrt32 (x : Nat) : Nat := encodeF fmt32 0 (sqrtF (decodeF fmt32 x))
/-- flerp(a, b, w) (Table 4-3). -/
def flerp32 (a b w : Nat) : Nat := ffma32 w (fsub32 b a) a
/-- Sign flip of an encoding. -/
def fneg32 (x : Nat) : Nat := x ^^^ 0x80000000
/-- Sign clear of an encoding. -/
def fabs32 (x : Nat) : Nat := x % 0x80000000
/-- a < b on encodings; false with a NaN. -/
def flt32 (x y : Nat) : Bool :=
  let a := decodeF fmt32 x
  let b := decodeF fmt32 y
  !a.isNan && !b.isNan && decide (cmpF a b < 0)
/-- a ≤ b on encodings; false with a NaN. -/
def fle32 (x y : Nat) : Bool :=
  let a := decodeF fmt32 x
  let b := decodeF fmt32 y
  !a.isNan && !b.isNan && decide (cmpF a b ≤ 0)
/-- a = b on encodings as values; false with a NaN. -/
def feq32 (x y : Nat) : Bool :=
  let a := decodeF fmt32 x
  let b := decodeF fmt32 y
  !a.isNan && !b.isNan && decide (cmpF a b = 0)
/-- NaN on an encoding. -/
def fnan32 (x : Nat) : Bool := (decodeF fmt32 x).isNan
/-- Finite on an encoding. -/
def ffin32 (x : Nat) : Bool := fld x 23 8 != 255
/-- The FP32 encoding of an integer under RNE. -/
def fOfInt (x : Int) : Nat := encodeF fmt32 0 (FV.ofInt x)
/-- The FP32 encoding of an exact dyadic x × 2^e under RNE. -/
def fOfDyadic (x : Int) (e : Int) : Nat := encodeF fmt32 0 (.fin (x < 0) x.natAbs e)
/-- An FP16 encoding widened to FP32, exact. -/
def f32of16 (x : Nat) : Nat := encodeF fmt32 0 (decodeF fmt16 x)
/-- An FP32 encoding rounded to FP16 under RNE. -/
def f16of32 (x : Nat) : Nat := encodeF fmt16 0 (decodeF fmt32 x)

/-- floor of a finite value as an integer. -/
def FV.floorInt : FV → Int
  | .fin n m e => if 0 ≤ e then atExp n m e 0 else (if n then -(m : Int) else m) / 2 ^ (-e).toNat
  | _ => 0

/-- shr_rne(x, n): x ÷ 2^n to the nearest integer, a tie to even (Table 4-3). -/
def shrRne (x : Int) (n : Nat) : Int :=
  let q := x / 2 ^ n
  let r := 2 * (x % 2 ^ n)
  if r > 2 ^ n ∨ (r = 2 ^ n ∧ q % 2 = 1) then q + 1 else q

/-- floor(log2) of a positive rational a ÷ b. -/
def ratLog2 (a b : Nat) : Int :=
  let k : Int := (Nat.log2 a : Int) - Nat.log2 b
  if 0 ≤ k then (if b * 2 ^ k.toNat ≤ a then k else k - 1) else (if b ≤ a * 2 ^ (-k).toNat then k else k - 1)

/-! ## LNS6 (R123 to R126) -/

/-- The fraction table (Table 4-7). -/
def lnsT (f : Nat) : Nat := nth [32768, 38968, 46341, 55109] f 0

/-- The linear value of an LNS6 code from its bits 5:0 (R125). -/
def decodeL6 (x : Nat) : FV :=
  let l := sext 5 x
  if x % 32 = 16 then .fin (bit x 5) 0 0
  else .fin (bit x 5) (lnsT (l % 4).toNat) (l / 4 - 15)

/-- FP32 to LNS6 (R125): the integer nearest to 4 log2 |x| by comparing eighth powers. -/
def encodeL6 (x : FV) : Nat :=
  match x with
  | .nan => 0x10
  | .inf n => b2n n * 32 + 15
  | .fin n m e =>
    if m = 0 then b2n n * 32 + 16
    else
      let f : Int := (Nat.log2 (m ^ 8) : Int) + 8 * e
      let k := (f + 1) / 2
      if k < -15 then b2n n * 32 + 16
      else if k > 15 then b2n n * 32 + 15
      else b2n n * 32 + wrap 5 k

end Sys2Proof.Machine
end

