-- ==== Sys2Proof/Machine/Operands.lean ====
section
/-! DEFINITION. Lane operands and results (R79 to R85, R156, R166, R167): the issuing fragment, its participants, reading
slots with their pops and peeks, writing destinations, lookahead windows, and completing a lane word (R194). -/

set_option linter.unusedVariables false

namespace Sys2Proof.Machine

open Sys2Proof

/-- The issuing fragment: its group's key and record, its index among the run's fragments, and itself. -/
structure Lane where
  k : Nat
  g : Group
  fi : Nat
  fr : Frag

/-- The issuing fragment. -/
def myLane : Act Lane := do
  let s ← now
  match s.actor with
  | .lane k f =>
    match Tab.find s.groups k with
    | none => halt .dead
    | some g =>
      match g.run.frags[f]? with
      | none => halt .dead
      | some fr => return ⟨k, g, f, fr⟩
  | _ => halt .dead

/-- The TNUMs of a fragment's active threads, ascending. -/
def Lane.active (l : Lane) : List Nat := bitsOf 32 l.fr.mask.toNat

/-- A thread by TNUM. -/
def Group.thread (g : Group) (t : Nat) : Thread := Tab.getD g.threads t ⟨[], 0, t, .normal, false⟩

/-- Predicate i of a thread; p7 reads true (R166). -/
def Thread.pred (t : Thread) (i : Nat) : Bool := i == 7 || t.p.getLsbD i

/-- The guard of a thread (R79, R167). -/
def Lane.guard (l : Lane) (w : LaneW) (t : Nat) : Bool := xor ((l.g.thread t).pred w.psel.toNat) (w.pneg == 1)

/-- part(F): the active threads whose guard is true, ascending (R167). -/
def Lane.part (l : Lane) (w : LaneW) : List Nat := l.active.filter (l.guard w)

/-- Raises a cause precise at the issuing lane word. -/
def raiseLane {α : Type} (l : Lane) (code addr : Nat) : Act α :=
  halt (.raise (Cause.atLane code l.fr.pc (leastOf 0 l.active) addr))

/-- The node record a gang runs from (R38). -/
def State.nodeRec (s : State) (g : Gang) : Nat :=
  ((Tab.find s.launches g.launch).map (fun l => nth l.nodes g.node 0)).getD 0

/-- The index of a gang's instance (R39). -/
def State.instIndex (s : State) (g : Gang) : Nat := ((Tab.find s.insts g.inst).map (fun i => i.index)).getD 0

/-- The number of a cluster among the clusters of its launch's partitions on its die (R339, R478). -/
def State.vcl (s : State) (launch die cluster : Nat) : Nat :=
  let parts := ((Tab.find s.launches launch).map (fun l => Tab.getD l.dies die [])).getD []
  ((parts.filter (fun p => decide (p < cluster / 4))).length) * 4 + cluster % 4

/-- The cluster that a virtual cluster number names, on a die of a launch (R339). -/
def State.clusterOf (s : State) (launch die vcl : Nat) : Option Nat :=
  let parts := ((Tab.find s.launches launch).map (fun l => Tab.getD l.dies die [])).getD []
  match (sortBy (fun p => p) parts)[vcl / 4]? with
  | none => none
  | some p => some (4 * p + vcl % 4)

/-- The key of a gang's Carillon among its launch's: 16 × die + virtual cluster. -/
def State.carKey (s : State) (g : Gang) : Nat := 16 * g.die + s.vcl g.launch g.die g.cluster

/-- TWIN of the gang's cluster (Table 3-6, R447). -/
def State.twin (s : State) (g : Gang) : Nat :=
  ((Tab.find s.launches g.launch).map (fun l => (Tab.getD l.carillons (s.carKey g) ⟨1024, [], 0⟩).twin)).getD 0

/-- A special operand of a thread (Table 3-6). -/
def State.special (s : State) (k : Nat) (g : Group) (t code : Nat) : Nat :=
  let ga := (Tab.find s.gangs (k / 65536))
  let get := fun (f : Gang → Nat) => (ga.map f).getD 0
  let clk := (s.die (get (fun x => x.die))).clk % 2 ^ 64
  match code - 0x48 with
  | 0 => (g.thread t).tid
  | 1 => t
  | 2 => g.id.lane
  | 3 => g.id.gslot
  | 4 => g.id.gidx
  | 5 => get (fun x => x.gx)
  | 6 => get (fun x => x.gy)
  | 7 => get (fun x => x.gz)
  | 8 => g.id.role
  | 9 => get (fun x => fld (s.nodeRec x) 244 3)
  | 10 => get (fun x => s.instIndex x)
  | 11 => if (g.thread t).cls = .helper then 1 else 0
  | 12 => get (fun x => s.twin x)
  | 13 => clk % 2 ^ 32
  | 14 => clk / 2 ^ 32
  | 15 => get (fun x => x.die)
  | 16 => get (fun x => x.cluster)
  | _ => get (fun x => x.core0) + g.id.pos

/-! ## Operand queues -/

/-- An empty operand queue. -/
def OpQ.empty : OpQ := ⟨0, [], [], 0⟩

/-- The head of a thread. -/
def OpQ.head (q : OpQ) (t : Nat) : Nat := Tab.getD q.heads t 0

/-- The least head over the threads given, or the tail when there is none. -/
def OpQ.least (q : OpQ) (ts : List Nat) : Nat := leastOf (q.base + q.ents.length) (ts.map q.head)

/-- Entries allocated and not yet freed: those some thread has not passed, and those a checkpoint retains (R156, R266). -/
def OpQ.fill (q : OpQ) (ts : List Nat) : Nat :=
  ((upFrom q.base q.ents.length).filter (fun n => decide (n < q.keep) || decide (q.least ts ≤ n))).length

/-- Drops the entries at the front that are freed. -/
def OpQ.trim (q : OpQ) (ts : List Nat) : OpQ :=
  let d := min (q.least ts) (q.base + q.ents.length) - q.base
  if q.keep ≤ q.base then { q with base := q.base + d, ents := q.ents.drop d } else q

/-- The TNUMs of a group's threads that are not void. -/
def Group.present (g : Group) : List Nat := (upFrom 0 32).filter (fun t => !((g.thread t).cls == .void))

/-- The entry at a thread's head: absent, not yet present, or its word. The head of a thread that was void while entries it had
not passed were freed stays behind them, and finds none (DESIGN CHOICE, log 80). -/
def OpQ.look (q : OpQ) (t : Nat) : Option (Option W32) :=
  match q.ents[q.head t - q.base]? with
  | none => none
  | some e => if q.head t < q.base then none else some (if e.job.isSome then none else some (nth e.words t 0))

/-- What reading the slots meets. -/
inductive ReadStop where
  /-- no entry at a thread's head of this queue -/
  | absent (q : Nat)
  /-- the entry at a head is not yet present -/
  | pending (q : Nat)

/-- One slot of an instruction: its code, whether 64 bits are read, and how IMM32 widens (signed for .i64). -/
structure SlotReq where
  code : Nat
  wide : Bool
  signed : Bool

/-- A plain 32-bit slot. -/
def slot32 (c : BitVec 8) : SlotReq := ⟨c.toNat, false, false⟩

/-- A 64-bit address slot. -/
def slot64 (c : BitVec 8) : SlotReq := ⟨c.toNat, true, false⟩

/-- A data slot of a type (R83). -/
def slotT (ty : Nat) (c : BitVec 8) : SlotReq := ⟨c.toNat, wide64 ty, ty == 4⟩

/-- Reads a slot for one thread from registers, specials, broadcast scalars, IMM32 or zero (Table 3-5). -/
def Lane.plain (s : State) (l : Lane) (imm : Nat) (r : SlotReq) (t : Nat) : Nat :=
  let th := l.g.thread t
  let v := fun n => (Tab.getD th.v n 0).toNat
  if r.code < 64 then (if r.wide then v r.code + v (r.code + 1) * 2 ^ 32 else v r.code)
  else if r.code < 0x60 then s.special l.k l.g t r.code
  else if 0x80 ≤ r.code ∧ r.code ≤ 0x9F then
    let x := if r.code = 0x80 then 0 else (Tab.getD l.g.run.bcast (r.code - 0x80) 0).toNat
    if r.wide then x else x % 2 ^ 32
  else if r.code = 0xFE then (if r.wide then (if r.signed then wrap 64 (sext 32 imm) else imm) else imm)
  else 0

/-- Reads one slot for the threads given, advancing heads at pops (R82). -/
def Lane.readSlot (s : State) (l : Lane) (imm : Nat) (r : SlotReq) : List Nat → Tab OpQ → Except ReadStop (List Nat × Tab OpQ)
  | [], qs => .ok ([], qs)
  | t :: ts, qs =>
    if 0x40 ≤ r.code ∧ r.code < 0x48 then
      let n := r.code % 4
      let q := Tab.getD qs n OpQ.empty
      match q.look t with
      | none => .error (.absent n)
      | some none => .error (.pending n)
      | some (some x) =>
        let qs1 := if r.code < 0x44 then Tab.set qs n { q with heads := Tab.set q.heads t (q.head t + 1) } else qs
        match Lane.readSlot s l imm r ts qs1 with
        | .error e => .error e
        | .ok (xs, qs2) => .ok (x.toNat :: xs, qs2)
    else
      match Lane.readSlot s l imm r ts qs with
      | .error e => .error e
      | .ok (xs, qs2) => .ok (l.plain s imm r t :: xs, qs2)

/-- Reads slots in order A, B, C: for each slot the values by thread (R82). -/
def Lane.readSlots (s : State) (l : Lane) (imm : Nat) (ts : List Nat) : List SlotReq → Tab OpQ →
    Except ReadStop (List (List Nat) × Tab OpQ)
  | [], qs => .ok ([], qs)
  | r :: rs, qs =>
    match Lane.readSlot s l imm r ts qs with
    | .error e => .error e
    | .ok (xs, qs1) =>
      match Lane.readSlots s l imm ts rs qs1 with
      | .error e => .error e
      | .ok (ys, qs2) => .ok (xs :: ys, qs2)

/-- Whether a code names a lane register the group does not have (R166). -/
def Group.noReg (g : Group) (code : Nat) (wide : Bool) : Bool :=
  decide (code < 64) && decide (g.regcnt ≤ code + b2n wide)

/-- Whether a range that ends at register n passes REGCNT (R166). -/
def Group.lacks (g : Group) (n : Nat) : Bool := decide (g.regcnt ≤ n)

/-- Whether the scalar stream waits on the lane stream, so that an underflowing pop ends (R159). -/
def Stream.joining (st : Stream) : Bool :=
  match st.wait with
  | .onLane j => j
  | .aldFull => true
  | _ => false

/-- Reads slots for the threads given: checks registers, waits at pops, and commits the heads. Results are by thread,
one value per slot (DEDUCED, log 53). -/
def readOps (w : LaneW) (ts : List Nat) (rs : List SlotReq) : Act (List (Nat × List Nat)) := do
  let l ← myLane
  if rs.any (fun r => l.g.noReg r.code r.wide) then raiseLane l 0x04 0
  match l.readSlots (← now) w.imm.toNat ts rs l.g.opq with
  | .error (.pending q) => halt (.laneWait (.pop q))
  | .error (.absent q) => if l.g.st.joining then raiseLane l 0x09 0 else halt (.laneWait (.pop q))
  | .ok (cols, qs) =>
    let ps := l.g.present
    putGroup l.k { l.g with opq := qs.map (fun q => (q.1, q.2.trim ps)) }
    return (upFrom 0 ts.length).map (fun i => (nth ts i 0, cols.map (fun c => nth c i 0)))

/-- Raises 0x04 when a source slot names a lane register the group does not have (R166). -/
def checkSrc (rs : List SlotReq) : Act Unit := do
  let l ← myLane
  if rs.any (fun r => l.g.noReg r.code r.wide) then raiseLane l 0x04 0

/-- Raises 0x04 when D names a lane register the group does not have (R166). -/
def checkD (w : LaneW) (wide : Bool) : Act Unit := do
  let l ← myLane
  if l.g.noReg w.d.toNat wide then raiseLane l 0x04 0

/-- The register writes of results by thread: one register, or a pair. -/
def resultWrites (d : Nat) (wide : Bool) (rs : List (Nat × Nat)) : List (Nat × Nat × W32) :=
  if d < 64 then
    rs.flatMap (fun r =>
      if wide then [(r.1, d, BitVec.ofNat 32 r.2), (r.1, d + 1, BitVec.ofNat 32 (r.2 / 2 ^ 32))]
      else [(r.1, d, BitVec.ofNat 32 r.2)])
  else []

/-- Writes predicate i of a thread; p7 is discarded (R80). -/
def Thread.setPred (t : Thread) (i : Nat) (b : Bool) : Thread :=
  if i < 7 then { t with p := BitVec.ofNat 8 (setFld t.p.toNat i 1 (b2n b)) } else t

/-- Writes results to D: a register, a pair or a predicate; 127 discards (R80). -/
def Group.writeD (g : Group) (d : Nat) (wide : Bool) (rs : List (Nat × Nat)) : Group :=
  if 64 ≤ d ∧ d < 72 then
    { g with threads := rs.foldl (fun ts r =>
        match Tab.find ts r.1 with
        | none => ts
        | some t => Tab.set ts r.1 (t.setPred (d - 64) (!(r.2 == 0)))) g.threads }
  else { g with threads := writeLanes g.threads (resultWrites d wide rs) }

/-! ## Completing a lane word -/

/-- The loop rule at the word y of a fragment: the fragment, and the D writes of the loops that go round (R194). -/
def laneLoop (y : Int) : List SEnt → W32 → List (Nat × Nat × W32) → W32 × Option Int × List SEnt × List (Nat × Nat × W32)
  | .loop start fin dst done cnt it :: rest, mask, ws =>
    if fin = y then
      let ts := bitsOf 32 mask.toNat
      let it2 := ts.foldl (fun i t => Tab.set i t (Tab.getD i t 0 + 1)) it
      let stay := ts.filter (fun t => decide (Tab.getD it2 t 0 < Tab.getD cnt t 0))
      let sm := BitVec.ofNat 32 (maskOf stay)
      let done2 := done ||| (mask &&& ~~~sm)
      if stay.isEmpty then laneLoop y rest done2 ws
      else (sm, some start, .loop start fin dst done2 cnt it2 :: rest,
        ws ++ resultWrites dst false (stay.map (fun t => (t, Tab.getD it2 t 0))))
    else (mask, none, .loop start fin dst done cnt it :: rest, ws)
  | st, mask, ws => (mask, none, st, ws)

/-- A group after fragment fi completes a word that is no transfer: the loop rule, else the next word (R194). -/
def Group.laneNext (g : Group) (fi : Nat) : Group :=
  match g.run.frags[fi]? with
  | none => g
  | some fr =>
    let r := laneLoop fr.pc fr.stack fr.mask []
    { g with
      threads := writeLanes g.threads r.2.2.2
      run := { g.run with
        frags := setNth g.run.frags fi { fr with
          mask := r.1, pc := r.2.1.getD (fr.pc + 1), stack := r.2.2.1, wait := .none } } }

/-- Completes the issuing lane word. -/
def laneDone : Act Unit := do
  let l ← myLane
  modGroup l.k (fun g => g.laneNext l.fi)

/-- Writes results to D and completes the word. -/
def laneResult (w : LaneW) (wide : Bool) (rs : List (Nat × Nat)) : Act Unit := do
  let l ← myLane
  putGroup l.k ((l.g.writeD w.d.toNat wide rs).laneNext l.fi)

/-- Opens a lookahead window for a result tag on the issuing fragment, and records the pending result (R89). -/
def Group.openWindow (g : Group) (fi la : Nat) (p : LPend) : Group :=
  match g.run.frags[fi]? with
  | none => g
  | some fr =>
    { g with
      lpend := g.lpend ++ [p]
      run := { g.run with frags := setNth g.run.frags fi { fr with wins := fr.wins ++ [(p.tag, la)] } } }

/-- Completes a long-latency word whose results are known: without lookahead they are written at once, since the next
instruction waits for them; with it they stay pending until the window ends (R89). -/
def laneLong (w : LaneW) (rs : List (Nat × Nat)) : Act Unit := do
  let l ← myLane
  if w.la = 0 then laneResult w false rs
  else
    let g := l.g.openWindow l.fi w.la.toNat ⟨l.g.tags, true, resultWrites w.d.toNat false rs⟩
    putGroup l.k ({ g with tags := g.tags + 1 }.laneNext l.fi)

/-- Completes a long-latency word whose results an engine or memory brings later; its result tag. -/
def laneLater (w : LaneW) : Act Nat := do
  let l ← myLane
  let tag := l.g.tags
  let g := l.g.openWindow l.fi w.la.toNat ⟨tag, false, []⟩
  putGroup l.k ({ g with tags := tag + 1 }.laneNext l.fi)
  return tag

/-- Marks a pending result ready with its writes (R89). -/
def resultReady (k tag : Nat) (ws : List (Nat × Nat × W32)) : Act Unit :=
  modGroup k (fun g => { g with
    lpend := g.lpend.map (fun p => if p.tag == tag then { p with ready := true, writes := p.writes ++ ws } else p) })

/-- Adds writes to a pending result that is not ready yet. -/
def resultAdd (k tag : Nat) (ws : List (Nat × Nat × W32)) : Act Unit :=
  modGroup k (fun g => { g with
    lpend := g.lpend.map (fun p => if p.tag == tag then { p with writes := p.writes ++ ws } else p) })

/-- Drops the results that a pending instruction has gathered. -/
def resultDrop (k tag : Nat) : Act Unit :=
  modGroup k (fun g => { g with lpend := g.lpend.map (fun p => if p.tag == tag then { p with writes := [] } else p) })

/-- Writes the results of the tags given that have arrived, and closes their windows. -/
def Group.writeTags (g : Group) (tags : List Nat) : Group :=
  let done := g.lpend.filter (fun p => p.ready && tags.contains p.tag)
  let dt := done.map (fun p => p.tag)
  { g with
    threads := done.foldl (fun ts p => writeLanes ts p.writes) g.threads
    lpend := g.lpend.filter (fun p => !dt.contains p.tag)
    run := { g.run with frags := g.run.frags.map (fun f => { f with wins := f.wins.filter (fun w => !dt.contains w.1) }) } }

/-- Whether a tag's result is still to come. -/
def Group.coming (g : Group) (tag : Nat) : Bool := g.lpend.any (fun p => p.tag == tag && !p.ready)

/-- Closes every window of the issuing fragment, waiting for its outstanding results (R90, R169). -/
def closeLane : Act Unit := do
  let l ← myLane
  let tags := l.fr.wins.map (fun w => w.1)
  guardA (!tags.any l.g.coming)
  putGroup l.k (l.g.writeTags tags)

/-! ## Fragments -/

/-- Entries of the divergence stack in use by the whole group: every fragment's part and the root PENDs (R188). -/
def Run.depth (r : Run) : Nat :=
  (r.frags.map (fun f => f.stack.length)).foldl (fun a b => a + b) 0 + ((r.root.map (fun x => x.pends.length)).getD 0)

/-- The next mask, PC and stack when a fragment's part is resumed; none when the part is exhausted (R189). -/
def resumePart : List SEnt → Option (W32 × Int × List SEnt)
  | [] => none
  | .pend m start :: t => if m = 0 then resumePart t else some (m, start, t)
  | .join m rc :: t => if m = 0 then resumePart t else some (m, rc.getD 0 + 1, t)
  | .loop _ fin _ done _ _ :: t => if done = 0 then resumePart t else some (done, fin + 1, t)

/-- Removes the element at an index. -/
def dropNth {α : Type} : List α → Nat → List α
  | [], _ => []
  | _ :: t, 0 => t
  | a :: t, n + 1 => a :: dropNth t n

/-- The threads of a run still to run: neither void nor finished. -/
def Group.unfinished (g : Group) : W32 :=
  BitVec.ofNat 32 (maskOf ((upFrom 0 32).filter (fun t => !((g.thread t).cls == .void) && !(g.thread t).fin)))

/-- A fragment with a mask at a lane PC. -/
def Frag.at (mask : W32) (pc : Int) : Frag := ⟨mask, pc, [], .none, [], [], 0, 0⟩

/-- Root completion: when every unfinished thread is parked they form one fragment; with none left the run ends (R189). -/
def Group.rootDone (g : Group) : Group :=
  match g.run.root with
  | none => if g.run.frags.isEmpty then { g with run := { g.run with active := false, gmap := none } } else g
  | some r =>
    if r.parked = g.unfinished ∧ r.pends = [] ∧ g.run.frags = [] then
      if r.parked = 0 then { g with run := { g.run with active := false, frags := [], root := none, gmap := none } }
      else { g with run := { g.run with frags := [Frag.at r.parked (r.rc.getD 0 + 1)], root := none } }
    else g

/-- resume(F) for the fragment at an index with the mask that is left at its PC, which parks at the root (R189). -/
def Group.resume (g : Group) (fi : Nat) (park : W32) : Group :=
  match g.run.frags[fi]? with
  | none => g
  | some fr =>
    match resumePart fr.stack with
    | some (m, pc, st) =>
      { g with run := { g.run with frags := setNth g.run.frags fi { fr with mask := m, pc := pc, stack := st, wait := .none } } }
    | none =>
      match g.run.root with
      | none => { g with run := { g.run with frags := dropNth g.run.frags fi } }.rootDone
      | some r =>
        let r1 := { r with parked := r.parked ||| park }
        match r1.pends with
        | (m, pc) :: rest =>
          { g with run := { g.run with
            root := some { r1 with pends := rest }
            frags := setNth g.run.frags fi { fr with mask := m, pc := pc, stack := [], wait := .none } } }
        | [] => { g with run := { g.run with root := some r1, frags := dropNth g.run.frags fi } }.rootDone

/-- Removes threads from an entry of the divergence stack. -/
def SEnt.without (x : W32) : SEnt → SEnt
  | .join m rc => .join (m &&& ~~~x) rc
  | .pend m s => .pend (m &&& ~~~x) s
  | .loop s f d done c i => .loop s f d (done &&& ~~~x) c i

/-- Removes threads from every mask of a run (R189). -/
def Run.without (r : Run) (x : W32) : Run :=
  { r with
    frags := r.frags.map (fun f => { f with mask := f.mask &&& ~~~x, stack := f.stack.map (SEnt.without x) })
    root := r.root.map (fun q => { q with
      parked := q.parked &&& ~~~x
      pends := (q.pends.map (fun p => (p.1 &&& ~~~x, p.2))).filter (fun p => !(p.1 == 0)) }) }

/-- Lets every fragment whose mask has emptied resume, from the highest index down. -/
def Group.resumeEmpty (g : Group) : Nat → Group
  | 0 => g
  | n + 1 =>
    let g1 := match g.run.frags[n]? with
      | none => g
      | some f => if f.mask = 0 then g.resume n 0 else g
    Group.resumeEmpty g1 n

/-- Puts a changed group back for the issuing fragment. -/
def putLaneGroup (l : Lane) (g : Group) : Act Unit := putGroup l.k g

end Sys2Proof.Machine
end

