-- ==== Sys2Proof/Machine/Issue.lean ====
section
/-! DEFINITION. Issue: what happens between turns, what a stream does before its next word issues (due causes, lookahead
windows, breakpoints), and fetching and decoding the word (R77, R89, R93, R201, R286). -/

set_option linter.unusedVariables false

namespace Sys2Proof.Machine

open Sys2Proof

/-! ## Time -/

/-- A stream after n clk: it ages unless it waits, and a SLEEP's remaining time runs down (R52, R148). -/
def Stream.pass (n : Nat) (st : Stream) : Stream :=
  match st.wait with
  | .sleep left => if st.stopped then st else { st with wait := .sleep (left - n) }
  | .none => if st.stopped then st else { st with age := st.age + n }
  | _ => st

/-- A die after n clk: its counter runs, and clean lines of cache ways older than 65,536 clk are gone (R247). -/
def Die.pass (n : Nat) (d : Die) : Die :=
  let clk := (d.clk + n) % 2 ^ 64
  { d with
    clk := clk
    caches := d.caches.map (fun c => (c.1, c.2.filter (fun l => decide ((clk + 2 ^ 64 - l.filled) % 2 ^ 64 < 65536)))) }

/-- A fragment after n clk: it ages while it is ready (R52). -/
def Frag.pass (n : Nat) (fr : Frag) : Frag := if fr.wait = .none then { fr with age := fr.age + n } else fr

/-- A group after n clk: its streams age and its SLEEP runs down (R52, R148); the lane run of a stopped group does not age. -/
def Group.pass (n : Nat) (g : Group) : Group :=
  { g with
    st := g.st.pass n
    run := if g.st.stopped then g.run else { g.run with frags := g.run.frags.map (Frag.pass n) } }

/-- The gangs that hold cores now: placed ones of launches that are in. -/
def State.holders (s : State) : List Gang :=
  (s.gangs.filter (fun g => g.2.placed && s.launchIn g.2.launch)).map (fun g => g.2)

/-- The core-clk that n clk add to each cluster of a die where gangs hold cores (R475). -/
def Die.hold (gs : List Gang) (n : Nat) (d : Die) : Die :=
  { d with clusters := gs.foldl (fun t g => Tab.alter t g.cluster .off (fun c => { c with held := c.held + n * g.cores })) d.clusters }

/-- The core-clk that n clk add to an instance's shares (R475). -/
def Inst.hold (gs : List Gang) (n : Nat) (i : Inst) : Inst :=
  { i with shares := gs.foldl (fun t g =>
      Tab.alter t (16 * g.die + g.cluster) (0, 0, 0) (fun x => (x.1, x.2.1, x.2.2 + n * g.cores))) i.shares }

/-- The machine after n clk (R4): the die counters run, cores are held, streams age, sleeps run down. A turn of 0 clk changes
nothing (DEDUCED, log 10). -/
def State.pass (s : State) (n : Nat) : State :=
  if n = 0 then s
  else
    { s with
      dies := s.dies.map (fun d => (d.1, (d.2.pass n).hold (s.holders.filter (fun g => g.die == d.1)) n))
      insts := s.insts.map (fun i => (i.1, i.2.hold (s.holders.filter (fun g => g.inst == i.1)) n))
      groups := s.groups.map (fun g => (g.1, g.2.pass n))
      ctxs := s.ctxs.map (fun c => (c.1, { c.2 with st := c.2.st.pass n })) }

/-- The meters of a die after readings of its clusters; USED wraps (R474, R475). -/
def Die.metered (d : Die) (cl nj : Nat) : Die :=
  { d with
    energy := { d.energy with used := (d.energy.used + nj) % 2 ^ 64 }
    clusters := if cl < 16 then Tab.alter d.clusters cl .off (fun c => { c with meter := c.meter + nj }) else d.clusters }

/-- The machine after a reading of the energy meters: die, cluster and nJ. -/
def State.metered (s : State) (x : Nat × Nat × Nat) : State :=
  match Tab.find s.dies x.1 with
  | none => s
  | some d => s.setDie x.1 (d.metered x.2.1 x.2.2)

/-- Whether the running energy period of a die has ended (R475). -/
def Die.periodOver (d : Die) : Bool := decide (d.energy.length ≤ (d.clk + 2 ^ 64 - d.energy.began) % 2 ^ 64)

/-- Whether an event takes place while the package is frozen: only thaw and reset do; readings of a frozen part change
nothing (R288). -/
def thaws (a : TurnAct) : Bool :=
  match a with
  | .event i => i == .thaw || i == .thawCommand || (match i with | .resetAll _ => true | _ => false)
  | _ => false

/-- Whether an actor waits for the period boundary of a die, which comes first (R475). -/
def State.boundaryFirst (s : State) (a : TurnAct) : Bool :=
  match a with
  | .event (.periodBoundary die) => !(s.die die).periodOver
  | _ => !thaws a && s.dies.any (fun d => d.2.periodOver)

/-! ## Decoding for a unit -/

/-- Whether a control core executes a scalar word's major and function (Tables 3-2 and 3-3, R74, R230). -/
def ctlRuns (w : Nat) : Bool :=
  let m := fld w 26 6
  let fn := fld w 4 7
  if m = 0x02 then !(fn == 4 || fn == 8 || fn == 9)
  else if m = 0x30 then !(fn == 2)
  else if m = 0x31 then fn == 0 || (8 ≤ fn && fn ≤ 11)
  else m ≤ 0x11 || m == 0x14 || (0x16 ≤ m && m ≤ 0x18) || (0x20 ≤ m && m ≤ 0x23) || m == 0x3C

/-- Decodes a scalar word for the fetching unit; a word the unit does not execute is undefined there (R74, R93). -/
def decodeFor (ctl : Bool) (w : Nat) : Except DecErr Instr :=
  if ctl && !ctlRuns w then .error .undefinedEncoding
  else if !ctl && fld w 26 6 == 0x3C then .error .undefinedEncoding
  else decodeScalar w

/-! ## Fetching -/

/-- Fetches n aligned 4-byte words from a virtual address on, as one number; the first cause with its address. -/
def fetchWords (p : Port) : Nat → Nat → Act (Except (Nat × Nat) Nat)
  | 0, _ => pure (.ok 0)
  | n + 1, va => do
    match ← locate p va .fetch with
    | .error c => return .error (c, va)
    | .ok pl =>
      match ← readPlace p fresh pl 4 with
      | .error c => return .error (c, va)
      | .ok x =>
        match ← fetchWords p n (va + 4) with
        | .error e => return .error e
        | .ok y => return .ok (x + y * 2 ^ 32)

/-- The address of lane word n of a group's node (R78). -/
def State.laneAddr (s : State) (u : Who) (n : Int) : Nat :=
  match s.gangOf u with
  | none => 0
  | some g => addr64 (fld (s.nodeRec g) 64 48) (12 * n)

/-- Takes the lowest cause that is due at a boundary; queue halts that are not the lowest stay due (R34, R35). -/
def takeDue (u : Who) (st : Stream) : Act Bool := do
  match lowestCause st.dueNow with
  | none => return false
  | some c =>
    let rest := (dropCode c.code st.due).filter (fun d => d.kind == 2)
    upd (fun s => s.setStream u { st with due := rest })
    raiseUnit u c
    return true

/-- Lookahead windows at the issue of a scalar word: ended ones are written first, the others count down (R89). -/
def Stream.tick (st : Stream) : Stream :=
  let st1 := (st.pend.filter (fun p => p.left == 0)).foldl Stream.result st
  { st1 with pend := (st.pend.filter (fun p => !(p.left == 0))).map (fun p => { p with left := p.left - 1 }) }

/-- Whether a breakpoint of the unit's partition matches its next word (R286) (DEDUCED, log 60). -/
def State.broken (s : State) (u : Who) (pc : Nat) : Bool :=
  let g := s.debugOf u
  (upFrom 0 4).any (fun i => bit g.bpen i && decide (Tab.getD g.bpa i 0 = pc))

/-- Brings a scalar stream to its next word: the instruction to run, or none when the turn ends here (DEDUCED, log 56). -/
def issueScalar (u : Who) : Act (Option Instr) := do
  let s ← now
  match s.stream u with
  | none => halt .dead
  | some st =>
    if st.ended || st.stopped || st.held.isSome then return none
    else if ← takeDue u st then return none
    else
      let fresh := st.wait == .none
      if fresh then upd (fun s => s.setStream u st.tick)
      if fresh && s.broken u st.pc then
        upd (fun s => s.raise u (Cause.atWord 0xF1 st.pc 0))
        return none
      else if st.pc % 4 ≠ 0 then
        upd (fun s => s.raise u (Cause.atWord 0x12 st.pc st.pc))
        return none
      else
        match ← (if fresh then fetchWords (s.portOf u) 1 st.pc else pure (.ok st.word)) with
        | .error (c, a) =>
          upd (fun s => s.raise u (Cause.atWord c st.pc a))
          return none
        | .ok w =>
          upd (fun s => match s.stream u with
            | none => s
            | some x => s.setStream u { x with word := w })
          match decodeFor (match u with | .ctx _ => true | .group _ => false) w with
          | .ok i => return some i
          | .error e =>
            let tret := fld w 26 6 == 0x30 && fld w 4 7 == 0 && e == .outOfRange
            upd (fun s => s.raise u (Cause.atWord (if tret && !st.tmode then 0x03 else e.code) st.pc 0))
            return none

/-- Windows of a fragment at the issue of a lane word (R89): none while an ended window's result is still to come. -/
def Group.tickFrag (g : Group) (fi : Nat) : Option Group :=
  match g.run.frags[fi]? with
  | none => none
  | some fr =>
    let closed := (fr.wins.filter (fun w => w.2 == 0)).map (fun w => w.1)
    if closed.any g.coming then none
    else
      let g1 := g.writeTags closed
      some { g1 with run := { g1.run with frags := match g1.run.frags[fi]? with
        | none => g1.run.frags
        | some f => setNth g1.run.frags fi { f with wins := f.wins.map (fun w => (w.1, w.2 - 1)) } } }

/-! ## Arbitration -/

/-- The effective priority of a stream that has been ready for w clk (R52). -/
def effPrio (p w : Nat) : Nat := min 63 (p + w / 4096)

/-- Whether a group's scalar stream may issue its next word: it waits on nothing, and no cause holds it. -/
def Group.readyScalar (g : Group) : Bool :=
  g.st.wait == .none && !g.st.ended && !g.st.stopped && g.st.held.isNone && g.st.dueNow.isEmpty

/-- The ages of the lane streams of a group that may issue: not one with an ended window whose result is still to come. -/
def Group.readyLanes (g : Group) : List Nat :=
  if g.run.active && !g.st.stopped && g.st.held.isNone && !g.st.tmode && g.st.dueNow.isEmpty then
    (upFrom 0 g.run.frags.length).filterMap (fun i => match g.run.frags[i]? with
      | some f => if f.wait = .none && (g.tickFrag i).isSome then some f.age else none
      | none => none)
  else []

/-- Whether a ready stream of priority p and age w goes before one of priority p2 and age w2: by effective priority, then by
the longer wait. A stream that has issued in this clk has age 0 and goes before none (R52). -/
def goesBefore (p w p2 w2 : Nat) : Bool :=
  decide (0 < w) && (decide (effPrio p2 w2 < effPrio p w) || (decide (effPrio p2 w2 = effPrio p w) && decide (w2 < w)))

/-- The die, cluster, core and quadrant whose scheduler issues a group (R47). -/
def State.quadrant (s : State) (k : Nat) (g : Group) : Nat × Nat × Nat × Nat :=
  match s.gangOf (.group k) with
  | none => (0, 0, 0, 0)
  | some ga => (ga.die, ga.cluster, ga.core0 + g.id.pos, g.id.lane / 16)

/-- The other groups of a group's quadrant. -/
def State.rivalsOf (s : State) (k : Nat) (g : Group) : List Group :=
  (s.groups.filter (fun x => !(x.1 == k) && s.quadrant x.1 x.2 == s.quadrant k g)).map (fun x => x.2)

/-- Whether the quadrant scheduler issues another ready group before a stream of this one (R52) (DEDUCED, log 10). -/
def State.outranked (s : State) (a : TurnAct) : Bool :=
  match a with
  | .scalar k =>
    match Tab.find s.groups k with
    | none => false
    | some g => (s.rivalsOf k g).any (fun h => h.readyScalar && goesBefore h.prio h.st.age g.prio g.st.age)
  | .lane k f =>
    match Tab.find s.groups k with
    | none => false
    | some g =>
      let w := ((g.run.frags[f]?).map (fun fr => fr.age)).getD 0
      (s.rivalsOf k g).any (fun h => h.readyLanes.any (fun v => goesBefore h.prio v g.prio w))
  | .control _ | .event _ => false

/-! ## Lane words -/

/-- Brings a fragment to its next lane word: the instruction to run, or none when the turn ends here. -/
def issueLane (k fi : Nat) : Act (Option Instr) := do
  let s ← now
  match Tab.find s.groups k with
  | none => halt .dead
  | some g =>
    let st := g.st
    if st.stopped || st.held.isSome || st.tmode || !g.run.active then return none
    else if ← takeDue (.group k) st then return none
    else
      match g.run.frags[fi]? with
      | none => return none
      | some fr =>
        let held := match fr.wait with
          | .xchg _ _ _ _ _ | .tracing _ | .meeting _ _ => true
          | _ => false
        if held then return none
        else
          match (if fr.wait = .none then g.tickFrag fi else some g) with
          | none => return none
          | some g1 =>
            let fresh := decide (fr.wait = .none)
            putGroup k g1
            let at_ := fun (c : Nat) (a : Nat) => raiseUnit (.group k) (Cause.atLane c fr.pc (leastOf 0 (bitsOf 32 fr.mask.toNat)) a)
            let port := { s.portOf (.group k) with core := none }
            match ← (if fresh then fetchWords port 3 (s.laneAddr (.group k) fr.pc) else pure (.ok fr.word)) with
            | .error (c, a) =>
              at_ c a
              return none
            | .ok w =>
              modGroup k (fun x => { x with run := { x.run with frags := match x.run.frags[fi]? with
                | none => x.run.frags
                | some f => setNth x.run.frags fi { f with word := w, age := 0 } } })
              match decodeLane w with
              | .ok i => return some i
              | .error e =>
                at_ e.code 0
                return none

/-- The instruction a turn's actor issues. -/
def issueOf (a : TurnAct) : Act (Option Instr) :=
  match a with
  | .scalar g => issueScalar (.group g)
  | .control c => issueScalar (.ctx c)
  | .lane g f => issueLane g f
  | .event i => pure (some i)

/-- Runs a turn's issue: the machine then, and the instruction that is to run, if any. A stream that another outranks does not
issue, and a period boundary comes first (R52, R475). -/
def State.issue (s : State) (a : TurnAct) : Except (Host.Outcome State Fault Refusal) (State × Instr) :=
  if s.outranked a || s.boundaryFirst a then .error (.next s)
  else
  match issueOf a ⟨s, []⟩ with
  | .ok (some i, w) => .ok (w.cur.setMem (storeAll s.mem w.stores), i)
  | .ok (none, w) => .error (.next (w.cur.setMem (storeAll s.mem w.stores)))
  | .error e =>
    match s.stop e with
    | some t => .error (.next t)
    | none => .error (.fault .noStream)

/-- The actor of a turn. -/
def TurnAct.actor : TurnAct → Actor
  | .scalar g => .scalar g
  | .control c => .control c
  | .lane g f => .lane g f
  | .event _ => .event

end Sys2Proof.Machine
end

