-- ==== Sys2Proof/Machine/Spans.lean ====
section
/-! DEFINITION. What an engine entry reaches, as far as it is known before the entry performs: the addresses it reads and writes
(R265), and the shape records of copies that give them (R290 to R297). -/

set_option linter.unusedVariables false

namespace Sys2Proof.Machine

open Sys2Proof

/-! ## Shape records (Tables 10-1 and 10-2) -/

/-- Dimension entry i: extent, source stride, destination stride. -/
def shapeDim (r i : Nat) : Nat × Int × Int :=
  (fld r (320 + 160 * i) 32, sext 64 (fld r (352 + 160 * i) 64), sext 64 (fld r (416 + 160 * i) 64))

/-- NDIM -/
def shapeNdim (r : Nat) : Nat := fld r 128 4
/-- Bytes of an element. -/
def shapeElem (r : Nat) : Nat := 2 ^ fld r 132 3
/-- The dimension entries. -/
def shapeDims (r : Nat) : List (Nat × Int × Int) := (upFrom 0 (shapeNdim r)).map (shapeDim r)
/-- The extents. -/
def shapeExts (r : Nat) : List Nat := (shapeDims r).map (fun d => d.1)

/-- GCOPY's packed destination strides (R297). -/
def packedStrides : Nat → List Nat → List Int
  | _, [] => []
  | n, e :: es => (n : Int) :: packedStrides (n * e) es

/-- The source strides. -/
def shapeSrc (r : Nat) : List Int := (shapeDims r).map (fun d => d.2.1)
/-- The destination strides of a copy. -/
def shapeDst (kind : CopyKind) (r : Nat) : List Int :=
  match kind with
  | .gather => packedStrides (shapeElem r) (shapeExts r)
  | _ => (shapeDims r).map (fun d => d.2.2)

/-- The counter vectors in element order (R293). -/
def counters : List Nat → List (List Nat)
  | [] => [[]]
  | e :: es => (counters es).flatMap (fun t => (upFrom 0 e).map (fun c => c :: t))

/-- A counter vector times strides. -/
def dotInt : List Nat → List Int → Int
  | c :: cs, x :: xs => (c : Int) * x + dotInt cs xs
  | _, _ => 0

/-- One element: source address, destination address, whether it is written as zero (R293, R297). -/
structure CopyEl where
  src : Nat
  dst : Nat
  zero : Bool
  deriving DecidableEq, Repr

/-- An index of a gather and whether its rows are zero, from the entry's buffer: 5 bytes each. -/
def gatherIdx (buf : List Byte) (i : Nat) : Nat × Bool :=
  (ofBytes ((buf.drop (5 * i)).take 4), !(nth buf (5 * i + 4) 0 == 0))

/-- The elements of a copy in element order. -/
def copyEls (kind : CopyKind) (r : Nat) (buf : List Byte) : List CopyEl :=
  (counters (shapeExts r)).map (fun c =>
    let (ix, z) := match kind with
      | .gather => gatherIdx buf (nth c 1 0)
      | _ => (nth c 1 0, false)
    let cs := match kind with
      | .gather => setNth c 1 ix
      | _ => c
    ⟨((fld r 0 64 : Int) + dotInt cs (shapeSrc r)).toNat, ((fld r 64 64 : Int) + dotInt c (shapeDst kind r)).toNat, z⟩)

/-! ## What an entry reaches -/

/-- Bytes that an entry reaches: in scratchpad or virtual space, from an address on, to read or to write (R265). -/
structure Touch where
  spad : Bool
  addr : Nat
  size : Nat
  write : Bool
  deriving DecidableEq, Repr

/-- The 32-byte sectors of some addresses as touches of one space. -/
def touchSectors (spad write : Bool) (addrs : List Nat) : List Touch :=
  ((addrs.map (fun a => a / 32)).eraseDups).map (fun z => ⟨spad, 32 * z, 32, write⟩)

/-- What the elements of a copy reach: source sectors, and destination sectors at each position of a multicast (R293, R298). -/
def copyTouches (kind : CopyKind) (r : Nat) (buf : List Byte) : List Touch :=
  let els := copyEls kind r buf
  let dst := els.map (fun e => e.dst)
  touchSectors (bit r 136) false ((els.filter (fun e => !e.zero)).map (fun e => e.src)) ++
  (match kind with
    | .multi m => (bitsOf 8 m).flatMap (fun pos => touchSectors true true (dst.map (fun a => a + pos * 2 ^ 20)))
    | _ => touchSectors (bit r 138) true dst)

/-- What an entry reaches, where that is known: not for an entry that takes addresses from data still to be read, nor for a
copy that is to publish (R265) (DEDUCED, log 75). -/
def Ent.touches (e : Ent) : Option (List Touch) :=
  match e.op with
  | .range fn a n => if fn = 5 then some [] else some [⟨false, a, n, decide (fn = 2)⟩]
  | .copy kind r _ =>
    let unread := match kind with | .gather => !e.started | _ => false
    if unread || bit r 146 then none else some (copyTouches kind r e.buf)
  | .fill image _ _ _ _ => some [⟨false, image, 16384, false⟩]
  | _ => none

end Sys2Proof.Machine
end

