-- ==== Sys2Proof/Machine/Queues.lean ====
section
/-! DEFINITION. Engine queues (R17 to R22, R30 to R35, R265 to R268): issuing an entry, which entry may perform, halting a
queue, and completing an entry with its status, barrier arrival and lane results. -/

set_option linter.unusedVariables false

namespace Sys2Proof.Machine

open Sys2Proof

/-! ## The non-idempotent rule -/

/-- No lane run. -/
def Run.idle : Run := ⟨false, [], [], none, none, 8⟩

/-- A queue before any entry (R30, R31). -/
def Queue.empty : Queue := ⟨0, 0xFFFF, [], none⟩

/-- A queue of a group. -/
def Group.queue (g : Group) (q : Nat) : Queue := Tab.getD g.queues q Queue.empty

/-! ## Committing (R265) -/

/-- The cluster's or the walk's translation of a page that an entry reaches, to be held from its commit on, or the cause that the
access meets (R265). -/
def holdPage (p : Port) (va : Nat) (n : Need) : Act (Except Nat Tlb) := do
  match ← locate p va n with
  | .error c => return .error c
  | .ok pl =>
    match pl.target with
    | .scratch d off => if ((← now).scratchKey d off).isNone then return .error 0x15
    | _ => pure ()
    match (← now).translate p va with
    | .leaf pte lg _ => return .ok ⟨p.root, va / 2 ^ lg, lg, pte, 2 ^ 45⟩
    | .cause c => return .error c
    | .need b => halt (.read p.die b)

/-- The translations of every page that n bytes at an address reach, or the first cause with its address. -/
def holdPages (p : Port) (need : Need) : Nat → Nat → Nat → Act (Except (Nat × Nat) (List Tlb))
  | 0, _, _ => pure (.ok [])
  | k + 1, va, n => do
    if n = 0 then return .ok []
    let here := min n (4096 - va % 4096)
    match ← holdPage p va need with
    | .error c => return .error (c, va)
    | .ok t =>
      match ← holdPages p need k (va + here) (n - here) with
      | .error e => return .error e
      | .ok l => return .ok (t :: l)

/-- The translations of the pages of a run of bytes, or the first cause with its address. -/
def holdRun (p : Port) (need : Need) (va n : Nat) : Act (Except (Nat × Nat) (List Tlb)) := holdPages p need (n / 4096 + 2) va n

/-- What an entry needs to hold for what it reaches: translations, with every scratchpad holding in its mode (R265). -/
def holdTouches (gang : Nat) (p : Port) : List Touch → Act (Option (List Tlb))
  | [] => pure (some [])
  | t :: rest => do
    let mine ← (if t.spad then do
        let g ← getGang gang
        match spadAt g t.addr t.size with
        | none => return none
        | some (pos, off) => return (if spadMode g pos off t.size then some [] else none)
      else do
        match ← holdRun p (if t.write then .write else .read) t.addr t.size with
        | .error _ => return none
        | .ok l => return some l)
    match mine, ← holdTouches gang p rest with
    | some a, some b => return some (a ++ b)
    | _, _ => return none

/-- An entry after an attempt to commit it (R265). -/
def commitEnt (gang : Nat) (p : Port) (e : Ent) : Act Ent := do
  if e.committed then return e
  else
    match e.touches with
    | none => return e
    | some l =>
      match ← holdTouches gang p l with
      | none => return e
      | some ts => return { e with committed := true, xlat := ts }

/-- The queues of a group after every entry of one that is not halted that can commit has (R265). -/
def commitQueues (gang : Nat) (p : Port) : Tab Queue → Act (Tab Queue)
  | [] => pure []
  | (q, x) :: t => do
    let es ← if x.halt.isSome then pure x.ents else x.ents.mapM (commitEnt gang p)
    return (q, { x with ents := es }) :: (← commitQueues gang p t)

/-- The entries a group has issued commit as far as they can (R265). -/
def commitAll (k : Nat) : Act Unit := do
  let g ← getGroup k
  let p := { (← now).portOf (.group k) with core := none }
  let qs ← commitQueues (k / 65536) p g.queues
  putGroup k { g with queues := qs }

/-- Whether every entry the group has issued can no longer raise a cause (R265); the entries of a halted queue wait for
replay and count no more (DEDUCED, log 70). -/
def Group.committed (g : Group) : Bool := g.queues.all (fun q => q.2.halt.isSome || q.2.ents.all (fun e => e.committed))

/-- Whether an ALD of the group still has reads to perform. -/
def Group.aldPending (g : Group) : Bool :=
  g.opq.any (fun q => q.2.ents.any (fun e => match e.job with | some j => !j.failed | none => false))

/-- Whether a non-idempotent operation of the group may perform (R268). -/
def Group.settled (g : Group) : Bool := g.committed && g.laccs.isEmpty && !g.aldPending

/-- Whether every entry the group has issued has committed, once those that can commit have (R265). -/
def commits (k : Nat) : Act Bool := do
  if (← getGroup k).committed then return true
  else
    commitAll k
    return (← getGroup k).committed

/-- A non-idempotent scalar operation waits for the group's earlier entries and accesses; a context has no regions
(R263, R268). -/
def waitSettled : Act Unit := do
  match ← me with
  | .ctx _ => pure ()
  | .group k =>
    let g ← getGroup k
    if !(g.laccs.isEmpty && !g.aldPending) then halt (.wait .engine)
    if !(← commits k) then halt (.wait .engine)

/-- A non-idempotent lane operation waits in its turn (R268): the lane then, with the entries that have committed. -/
def settledLane (l : Lane) : Act Lane := do
  guardA (l.g.laccs.isEmpty && !l.g.aldPending)
  if l.g.committed then return l
  else
    guardA (← commits l.k)
    return { l with g := { l.g with queues := (← getGroup l.k).queues } }

/-- An access of a group to a page of type device waits for the group's earlier entries and lane accesses (R268); its callers
wait for the earlier ALDs. -/
def waitDevice (u : Who) (p : Port) (va : Nat) (n : Need) : Act Unit := do
  match u, ← locate p va n with
  | .group k, .ok pl => if pl.ty = 2 then do
      guardA (← getGroup k).laccs.isEmpty
      guardA (← commits k)
  | _, _ => pure ()

/-- Reads n bytes for a stream. -/
def streamRead (u : Who) (p : Port) (m : ReadMode) (va n : Nat) : Act (Except Nat Nat) := do
  waitDevice u p va .read
  readVA p m va n

/-- Writes n bytes for a stream. -/
def streamWrite (u : Who) (p : Port) (va n v : Nat) : Act (Except Nat (Option (Nat × Nat))) := do
  waitDevice u p va .write
  writeVA p va n v

/-! ## Issuing -/

/-- The pool a queue draws on: 0 per core, 1 per cluster, 2 per die, and its size (R21). Each queue letter has a pool of its
own: the manual gives the sizes, and not whether the letters of one kind share one (DESIGN CHOICE, log 71). -/
def poolOf (q : Nat) : Nat × Nat :=
  if q = 0 ∨ q = 2 ∨ q = 7 then (0, 128) else if q = 9 then (2, 1024) else (1, 512)

/-- Where a group's pool lies: die, cluster and core, as far as the pool's kind distinguishes them. The entries of a gang that
is parked or switched out are in no pool (R277, R282, R306). -/
def State.poolPlace (s : State) (kind k : Nat) (g : Group) : Option (Nat × Nat × Nat) :=
  match s.gangOf (.group k) with
  | none => none
  | some ga =>
    if !ga.placed || !s.launchIn ga.launch then none
    else if kind = 0 then some (ga.die, ga.cluster, ga.core0 + g.id.pos)
    else if kind = 1 then some (ga.die, ga.cluster, 0)
    else some (ga.die, 0, 0)

/-- Whether a group may issue one more entry into a queue: a reserved entry is left, or the pool has room (R21). -/
def State.roomFor (s : State) (k q : Nat) : Bool :=
  match Tab.find s.groups k with
  | none => false
  | some g =>
    if (g.queue q).ents.length < 2 then true
    else
      let (kind, size) := poolOf q
      let here := s.poolPlace kind k g
      let used := (s.groups.filter (fun x => s.poolPlace kind x.1 x.2 == here)).map (fun x => (x.2.queue q).ents.length - 2)
      decide (used.foldl (fun a b => a + b) 0 < size)

/-- Whether an entry of this kind can still raise a cause after its issue (R265). -/
def EOp.canHalt : EOp → Bool
  | .mfeed _ _ _ => false
  | .mscale _ => false
  | .mzero _ _ _ => false
  | .gread _ _ _ _ _ => false
  | .gwrite _ _ _ _ _ => false
  | .ktwin _ => false
  | .krst _ _ => false
  | .klaunch _ _ _ _ _ => false
  | .kcapt _ _ _ _ => false
  | .deposit _ => false
  | .qretw _ => false
  | .qretm _ => false
  | .range _ _ _ | .copy _ _ _ | .mloadb _ _ _ | .mma _ _ _ _ _ | .mdrain _ _ _ _ _ _ _ | .dice _ _ _ _ _ _
  | .fill _ _ _ _ _ | .spill _ _ _ | .sflush _ _ _ _ _ | .sgrid _ _ _ _ _ _ | .sresolve _ _ _ _ _ | .scover _ _ _ _ _ _ _
  | .sread _ _ _ _ | .swrite _ _ _ _ | .trace _ _ _ _ _ _ | .hitget _ _ _ _ _ | .rclook _ _ _ _ | .rcins _ _ _
  | .rcfade _ _ _ | .tex _ _ _ _ _ _ | .texq _ _ _ _ _ | .colour _ _ _ _ _ | .pack _ _ _ _ | .unpack _ _ _ _ _ _
  | .xraw _ _ _ _ _ _ | .xfclr _ _ _ | .xdelta _ _ _ _ | .xdcmp _ _ | .kpeal _ _ _ => true

/-- The barrier an entry of this kind arrives at. -/
def EOp.bar : EOp → BarRef
  | .copy _ r _ => if fld r 192 32 = 0xFFFFFFFF then none else some (fld r 192 32)
  | .mdrain _ _ _ _ _ _ b => b
  | .dice _ _ _ _ _ b => b
  | .fill _ _ _ _ b => b
  | .spill _ _ b => b
  | .sflush _ _ _ _ b => b
  | .sgrid _ _ _ _ _ b => b
  | .sresolve _ _ _ _ b => b
  | .rcfade _ _ b => b
  | .tex _ _ _ _ b _ => b
  | .texq _ _ _ b _ => b
  | .kpeal _ _ b => b
  | .klaunch _ _ _ _ b => b
  | .range _ _ _ | .mloadb _ _ _ | .mma _ _ _ _ _ | .mzero _ _ _ | .mfeed _ _ _ | .mscale _ | .gread _ _ _ _ _
  | .gwrite _ _ _ _ _ | .scover _ _ _ _ _ _ _ | .sread _ _ _ _ | .swrite _ _ _ _ | .trace _ _ _ _ _ _ | .hitget _ _ _ _ _
  | .rclook _ _ _ _ | .rcins _ _ _ | .colour _ _ _ _ _ | .pack _ _ _ _ | .unpack _ _ _ _ _ _ | .xraw _ _ _ _ _ _
  | .xfclr _ _ _ | .xdelta _ _ _ _ | .xdcmp _ _ | .ktwin _ | .krst _ _ | .kcapt _ _ _ _ | .deposit _ | .qretw _
  | .qretm _ => none

/-- The ALDs of a group with reads to perform, by their places in the order of ALDs. -/
def Group.aldsOut (g : Group) : List Nat :=
  g.opq.flatMap (fun q => q.2.ents.filterMap (fun e => match e.job with
    | some j => if j.failed then none else some j.born
    | none => none))

/-- The last entry issued so far of each queue that holds any. -/
def Group.lastEnts (g : Group) : List (Nat × W16) :=
  (g.queues.filter (fun x => !x.2.ents.isEmpty)).map (fun x => (x.1, x.2.next - 1))

/-- Whether the entries up to those listed have committed (R268). -/
def Group.committedTo (g : Group) (after : List (Nat × W16)) : Bool :=
  after.all (fun a => (g.queue a.1).ents.all (fun x => x.committed || decide ((x.seq - a.2 - 1).toNat < 32768)))

/-- A new entry (R17, R30, R268). -/
def Group.entry (g : Group) (q : Nat) (op : EOp) (born : Nat) : Ent :=
  { seq := (g.queue q).next, born := born, op := op, started := false, pos := 0, wrote := 0, status := 0, committed := !op.canHalt,
    batch := if q = 1 then g.batches.opened else 0, report := none, buf := [], merge := [], sent := []
    after := g.lastEnts
    accs := g.laccs.map (fun a => a.tag), alds := g.aldsOut, xlat := [] }

/-- A group with a new entry in its queue. -/
def Group.issued (g : Group) (q : Nat) (op : EOp) (born : Nat) : Group :=
  let x := g.queue q
  { g with queues := Tab.set g.queues q { x with next := x.next + 1, ents := x.ents ++ [g.entry q op born] } }

/-- Issues an entry into a queue of a group; its sequence number. The issue stalls only under R21. -/
def issueEntry (k q : Nat) (op : EOp) : Act Nat := do
  guardA ((← now).roomFor k q)
  let g ← getGroup k
  putGroup k (g.issued q op (← now).tick)
  upd State.tickOn
  return (g.queue q).next.toNat

/-! ## Which entry may perform -/

/-- Whether a started entry of this kind runs on to its end while its partition or instance stops (R282). -/
def EOp.finishes : EOp → Bool
  | .copy _ r _ => fld r 138 2 == 1
  | .mdrain _ spad _ _ _ _ _ => spad
  | .mfeed _ _ _ => true
  | .mscale _ => true
  | .ktwin _ => true
  | .kpeal _ _ _ => true
  | .krst _ _ => true
  | .klaunch _ _ _ _ _ => true
  | .kcapt _ _ _ _ => true
  | .deposit _ => true
  | .qretw _ => true
  | .qretm _ => true
  | _ => false

/-- Whether an instance's engines work: its partitions are in and it is neither parked nor aborted (R277, R282). -/
def State.instRuns (s : State) (inst : Nat) : Bool :=
  match Tab.find s.insts inst with
  | none => false
  | some i =>
    !(i.phase == .parked || i.phase == .aborted || i.phase == .retired) &&
      !(((Tab.find s.launches i.launch).map (fun l => l.out || !(l.state == 1))).getD true)

/-- Whether an entry that a lane instruction waits for was issued after this one and waits for it to commit (R268). -/
def Group.neededBy (g : Group) (q : Nat) (e : Ent) : Bool :=
  g.queues.any (fun x => x.2.ents.any (fun y => y.op.tag.isSome && y.op.bar.isSome && !y.started &&
    y.after.any (fun a => a.1 == q && decide ((a.2 - e.seq).toNat < 32768))))

/-- The slot that an entry names (R340). -/
def EOp.slot : EOp → Option Nat
  | .dice _ _ s _ _ _ => some s
  | .fill _ s _ _ _ => some s
  | .spill s _ _ => some s
  | .gread s _ _ _ _ => some s
  | .gwrite s _ _ _ _ => some s
  | .sgrid _ _ _ s _ _ => some s
  | .scover _ _ _ s _ _ _ => some s
  | _ => none

/-- Whether an entry fills a slot. -/
def EOp.fills (op : EOp) (key : Nat) : Bool :=
  match op with
  | .dice _ _ k _ _ _ => k == key
  | .fill _ k _ _ _ => k == key
  | _ => false

/-- Whether a lane instruction that has issued waits for the grid that an entry brings into a slot (R92, R360, R378). -/
def State.gridAwaited (s : State) (op : EOp) : Bool :=
  s.groups.any (fun g => g.2.queues.any (fun q => q.2.ents.any (fun e => e.op.tag.isSome &&
    ((e.op.slot.map op.fills).getD false))))

/-- Whether the head of a queue may perform: its queue is not halted, its instance runs, and while its group is being
stopped only what R92 and R282 let finish. -/
def State.mayPerform (s : State) (k : Nat) (g : Group) (qu : Queue) (e : Ent) : Bool :=
  qu.halt.isNone && s.instRuns (s.instOf (.group k)) &&
    (!g.st.stopped || (e.started && e.op.finishes) || qu.ents.any (fun x => x.op.tag.isSome || s.gridAwaited x.op))

/-- Whether the group's entries issued before this one have committed and its accesses performed (R268). -/
def Group.clearFor (g : Group) (e : Ent) : Bool :=
  g.committedTo e.after &&
  !g.laccs.any (fun a => e.accs.contains a.tag) && !g.aldsOut.any (fun b => e.alds.contains b)

/-- Whether a waiting QFENCE of the group's stream holds this entry of a queue back: it was issued after the QFENCE into a
queue that the QFENCE names (R20, R256). -/
def Group.fenced (g : Group) (q : Nat) (e : Ent) : Bool :=
  match g.st.wait with
  | .qfence ts => ts.any (fun t => t.1 == q && decide ((e.seq - t.2).toNat < 32768))
  | _ => false

/-- The head of a group's queue, if it may perform now: the group, the queue and the entry. An entry that arrives at a barrier
waits until what was issued before it can no longer raise a cause (R268). -/
def headOf (k q : Nat) : Act (Group × Queue × Ent) := do
  let s ← now
  let g ← getGroup k
  let qu := g.queue q
  let e ← need qu.ents.head?
  guardA (s.mayPerform k g qu e || (qu.halt.isNone && s.instRuns (s.instOf (.group k)) && g.neededBy q e))
  guardA (e.started || !g.fenced q e)
  if e.started || e.op.bar.isNone || g.clearFor e then return (g, qu, e)
  else
    commitAll k
    let g1 ← getGroup k
    guardA (g1.clearFor e)
    return (g1, g1.queue q, (g1.queue q).ents.headD e)

/-- The port of an engine that works for a group: no cache ways (R249). -/
def enginePort (k : Nat) : Act Port := do return { (← now).portOf (.group k) with core := none }

/-- The port of an engine for the head of a group's queue: with the translations it holds, and off device pages until what was
issued before it has committed and performed (R265, R268). -/
def headPort (k q : Nat) : Act Port := do
  let g ← getGroup k
  let p ← enginePort k
  match (g.queue q).ents with
  | [] => return p
  | e :: _ => return { p with held := e.xlat, clear := g.clearFor e }

/-- Changes the head of a queue. -/
def setHead (k q : Nat) (f : Ent → Ent) : Act Unit :=
  modGroup k (fun g =>
    let qu := g.queue q
    match qu.ents with
    | [] => g
    | e :: t => { g with queues := Tab.set g.queues q { qu with ents := f e :: t } })

/-- Records progress of the head: units done so far, sectors written, status gathered, messages sent. -/
def progress (k q done wrote status : Nat) (sent : Tab Nat) : Act Unit :=
  setHead k q (fun e => { e with
    started := true, pos := done, wrote := e.wrote + wrote, status := BitVec.ofNat 32 status
    sent := sent.foldl (fun t x => Tab.set t x.1 (max x.2 (Tab.getD t x.1 0))) e.sent })

/-- The status code of higher rank; the earlier one at equal rank (R25). -/
def worse (a b : Nat) : Nat := if statusRank b > statusRank a then b else a

/-- A status record after a report (R302). -/
def Sts.report (x : Sts) (word : Nat) : Sts :=
  let c := word / 2 ^ 24
  if c = 0 then x else ⟨x.sticky ||| 2 ^ c, BitVec.ofNat 32 word⟩

/-- Whether the homes have applied what the entry wrote across dies (R249). -/
def State.reached (s : State) (die : Nat) (sent : Tab Nat) : Bool :=
  sent.all (fun x => decide (x.2 ≤ Tab.getD (s.clockOf x.1) die 0))

/-- The sealed batches that still have entries (R300). -/
def Group.sealedLeft (g : Group) : List Nat :=
  g.batches.sealed.filter (fun b => (g.queue 1).ents.any (fun e => e.batch == b))

/-- Takes the head off a queue: the mark moves to it, and past the entries withdrawn behind it (R31, R273). -/
def popHead (k q : Nat) : Act Unit :=
  modGroup k (fun g =>
    let qu := g.queue q
    match qu.ents with
    | [] => g
    | e :: t =>
      let g1 := { g with queues := Tab.set g.queues q { qu with mark := ((t.head?.map Ent.seq).getD qu.next) - 1, ents := t } }
      { g1 with batches := { g1.batches with sealed := g1.sealedLeft } })

/-- Completes the head of a queue, once the homes have applied its writes: status record, barrier arrival, mark (R17, R24,
R249). The status word. -/
def complete (k q code aux : Nat) : Act Nat := do
  let (g, qu, e) ← headOf k q
  let s ← now
  let ga ← getGang (k / 65536)
  guardA (s.reached ga.die e.sent)
  let word := statusWord code q aux e.seq.toNat
  popHead k q
  modGroup k (fun g =>
    if q = 1 then { g with csts := g.csts.report word }
    else if q = 7 then { g with xsts := g.xsts.report word }
    else if q = 8 then { g with kvec := { g.kvec with sts := g.kvec.sts.report word } }
    else if q = 9 then { g with bsts := g.bsts.report word }
    else g)
  arriveAt (k / 65536) e.op.bar word
  return word

/-- Whether the head's writes have reached their homes. -/
def headReached (k q : Nat) : Act Bool := do
  let g ← getGroup k
  let ga ← getGang (k / 65536)
  return (← now).reached ga.die (((g.queue q).ents.head?.map (fun e => e.sent)).getD [])

/-- A queue of a group that has exited has halted: its fault record is updated, and the instance parks (R280). -/
def exitedHalt (k : Nat) (c : Cause) : Act Unit := do
  let g ← getGroup k
  let old := g.st.frec
  let frec : FaultRec :=
    ⟨true, { c with xpc := old.cause.xpc, xlpc := old.cause.xlpc }, g.epc, g.regnc, g.base, old.second⟩
  putGroup k { g with st := { g.st with frec := frec } }
  upd (fun s => s.park (s.instOf (.group k)) 5 c (s.whoWord (.group k)) frec)

/-- A queue of a group halts at its head: the cause is raised at the next boundary, and the instance of a group that has
exited parks (R35, R280). -/
def haltHead (k q code addr : Nat) : Act Unit := do
  let g ← getGroup k
  let qu := g.queue q
  let e ← need qu.ents.head?
  let c := Cause.ofHalt code q e.seq.toNat e.wrote addr
  putGroup k { g with queues := Tab.set g.queues q { qu with halt := some c } }
  if g.exited then exitedHalt k c
  else upd (fun s => s.later (.group k) c)

/-! ## Records read at issue -/

/-- The die whose memory a virtual address names. -/
def homeAt (p : Port) (va : Nat) : Act Nat := do
  match ← locate p va .read with
  | .ok pl => return homeOf pl.target
  | .error _ => return p.die

/-- Raises a memory cause at the issuing scalar word, counting an uncorrectable error at its die (R222). -/
def raiseMem {α : Type} (p : Port) (c a : Nat) : Act α := do
  if c = 0x13 then
    let d ← homeAt p a
    halt (.raiseBad (Cause.atWord c (← myStream).pc a) d)
  else raiseAt c a

/-- A read of n bytes waits, where a page it reaches is of type device, for the group's earlier entries and accesses (R268). -/
def waitDevices (u : Who) (p : Port) : Nat → Nat → Nat → Act Unit
  | 0, _, _ => pure ()
  | k + 1, va, n => do
    if n = 0 then pure ()
    else
      match u, ← locate p va .read with
      | .group g, .ok pl => if pl.ty = 2 then do
          guardA (!(← getGroup g).aldPending)
          waitDevice u p va .read
      | _, _ => pure ()
      let here := min n (4096 - va % 4096)
      waitDevices u p k (va + here) (n - here)

/-- Reads n bytes of a record for the issuing scalar stream, or the memory cause with its address (R35, R268). -/
def tryRec (p : Port) (va n : Nat) : Act (Except (Nat × Nat) Nat) := do
  waitDevices (← me) p (n / 4096 + 2) va n
  readRange p ⟨true, 0⟩ va n

/-- Reads n bytes of a record for the issuing scalar stream; a fault gives its memory cause, precisely (R35). -/
def readRec (va n : Nat) : Act Nat := do
  let p ← myPort
  match ← tryRec p va n with
  | .ok x => return x
  | .error (c, a) => raiseMem p c a

/-- A barrier operand: none, or the address if it names a barrier object of the gang (R234). -/
def barOf (g : Gang) (w : Nat) : Option BarRef :=
  if w = 0xFFFFFFFF then some none else if isBarrier g w then some (some w) else none

end Sys2Proof.Machine
end

