-- ==== Sys2Proof/Machine/Publish.lean ====
section
/-! DEFINITION. Regions, publication and readiness (R40, R41, R466 to R471, R526, R527), and the creation of instances
(R39). -/

set_option linter.unusedVariables false

namespace Sys2Proof.Machine

open Sys2Proof

/-! ## Node and region records -/

/-- Operand slot i of a node record (Table 2-1). -/
def slotOf (node i : Nat) : Nat := fld node (384 + 32 * i) 32

/-- The region of a slot, none when it is unused (Table 2-2). -/
def slotRegion (slot : Nat) : Option Nat := if fld slot 0 16 = 0xFFFF then none else some (fld slot 0 16)

/-- MAP of a slot: 0 WHOLE, 1 SAME, 2 HALO (Table 2-2). -/
def slotMap (slot : Nat) : Nat := fld slot 16 2

/-- TX of a region record (Table 18-1). -/
def regionTx (r : Nat) : Nat := fld r 0 16
/-- TY -/
def regionTy (r : Nat) : Nat := fld r 16 16
/-- NPUB -/
def regionNpub (r : Nat) : Nat := fld r 32 16
/-- CNT -/
def regionCnt (r : Nat) : Nat := fld r 64 48
/-- The number of tiles of a region. -/
def regionTiles (r : Nat) : Nat := regionTx r * regionTy r

/-- Tile i and its neighbours within the grid (R469). -/
def haloTiles (r i : Nat) : List Nat :=
  let tx := regionTx r
  let x := i % tx
  let y := i / tx
  (upFrom (y - 1) 3).flatMap (fun yy => (upFrom (x - 1) 3).filterMap (fun xx =>
    if yy ≤ y + 1 ∧ yy < regionTy r ∧ xx ≤ x + 1 ∧ xx < tx then some (yy * tx + xx) else none))

/-- The tiles that an output slot covers for instance index i (R468). -/
def outTiles (map r i : Nat) : List Nat :=
  if map = 0 then upFrom 0 (regionTiles r) else if i < regionTiles r then [i] else []

/-- The tiles that an input slot names for instance index i (R469). -/
def inTiles (map r i : Nat) : List Nat :=
  if map = 0 then upFrom 0 (regionTiles r)
  else if i < regionTiles r then (if map = 1 then [i] else haloTiles r i) else []

/-- Whether some node of a launch names a region as output; other regions are complete from the start (R40, R467). -/
def Launch.written (l : Launch) (region : Nat) : Bool :=
  l.nodes.any (fun n => (upFrom 8 4).any (fun i => slotRegion (slotOf n i) == some region))

/-- The pairs of region and tile that an instance of a node waits for, each once (R469). -/
def Launch.inputs (l : Launch) (node index : Nat) : List (Nat × Nat) :=
  ((upFrom 0 8).flatMap (fun i =>
    let slot := slotOf (nth l.nodes node 0) i
    match slotRegion slot with
    | none => []
    | some r => if l.written r then (inTiles (slotMap slot) (nth l.regions r 0) index).map (fun t => (r, t)) else [])).eraseDups

/-- The pairs of output slot and tile that an instance covers, in slot and tile order (R468). -/
def Launch.outputs (l : Launch) (node index : Nat) : List (Nat × Nat) :=
  (upFrom 8 4).flatMap (fun i =>
    let slot := slotOf (nth l.nodes node 0) i
    match slotRegion slot with
    | none => []
    | some r => (outTiles (slotMap slot) (nth l.regions r 0) index).map (fun t => (i, t)))

/-! ## Counters -/

/-- The port of a die's scheduler for a launch: no cluster's translation cache, no core's cache ways. -/
def State.schedPort (s : State) (launch die : Nat) : Port := ⟨die, 16, none, fld (s.launchRec launch) 192 48, [], true⟩

/-- Reads n bytes at their home, at .sys (R527): the read completes once the reading die has applied all that the home's clock
covers (R253). -/
def readHome (p : Port) (va n : Nat) : Act (Except Nat Nat) := do
  match ← locate p va .read with
  | .error c => return .error c
  | .ok pl =>
    let home := homeOf pl.target
    if home ≠ 4 ∧ home ≠ p.die then reach p.die home
    let s ← now
    match pl.target with
    | .device d off => return .ok (s.regRead d off n)
    | .host => return .ok (Mem.read s.mem pl.pa n)
    | .gddr d => readKey d pl.pa n
    | .scratch d off =>
      match s.scratchKey d off with
      | none => return .error 0x15
      | some k => readKey d k n

/-- Reads a tile's counter for an instance: whether it is complete, or that the read met a cause (R467, R527). -/
def tileState (die : Nat) (l : Launch) (launch region tile : Nat) : Act (Option Bool) := do
  let r := nth l.regions region 0
  match ← readHome ((← now).schedPort launch die) (regionCnt r + 4 * tile) 4 with
  | .error _ =>
    sendEvent die 7 l.index
    return none
  | .ok n => return some (decide (regionNpub r ≤ n))

/-- Reads again the counters of a list that a test selects: those not complete remain (R527). -/
def observe (die : Nat) (l : Launch) (launch : Nat) (f : Nat × Nat × Bool → Bool) :
    List (Nat × Nat × Bool) → Act (List (Nat × Nat × Bool))
  | [] => pure []
  | w :: t => do
    let keep ← (if f w then do
        match ← tileState die l launch w.1 w.2.1 with
        | some true => pure []
        | some false => pure [(w.1, w.2.1, false)]
        | none => pure [(w.1, w.2.1, true)]
      else pure [w])
    return keep ++ (← observe die l launch f t)

/-- Observes an instance that waits in the pool: with no tile left it becomes ready (R469, R471). -/
def observeInst (key : Nat) (f : Nat × Nat × Bool → Bool) : Act Unit := do
  let i ← getInst key
  if i.phase = .pool then
    let l ← getLaunch i.launch
    let ws ← observe i.die l i.launch f i.wants
    let clk := ((← now).die i.die).clk
    putInst key { i with wants := ws, phase := if ws.isEmpty then .ready clk else .pool }

/-- Observes the instances of a list that satisfy a test. -/
def observeAll (g : Inst → Bool) (f : Nat × Nat × Bool → Bool) : List (Nat × Inst) → Act Unit
  | [] => pure ()
  | (k, i) :: t => do
    if g i then observeInst k f
    observeAll g f t

/-- After a publication of a tile, the instances that name it read its counter, and those of the region whose reads had
met a cause (R527). -/
def noticePub (launch region tile : Nat) : Act Unit := do
  observeAll (fun i => i.launch == launch && i.phase == .pool && i.wants.any (fun w => w.1 == region))
    (fun w => w.1 == region && (w.2.1 == tile || w.2.2)) (← now).insts

/-- Publishes a tile of an output slot for an instance, once; the cause of the counter's atomic with its address (R467) (DEDUCED, log 49). -/
def publish (p : Port) (key slot tile : Nat) : Act (Option (Nat × Nat)) := do
  let i ← getInst key
  if i.published.contains (slot, tile) then return none
  let l ← getLaunch i.launch
  match slotRegion (slotOf (nth l.nodes i.node 0) slot) with
  | none => return none
  | some region =>
    let va := regionCnt (nth l.regions region 0) + 4 * tile
    match ← locate p va .atomic with
    | .error c => return some (c, va)
    | .ok pl =>
      match ← rmwPlace p pl 4 (fun n => (n + 1) % 2 ^ 32) with
      | .error c => return some (c, va)
      | .ok _ =>
        putInst key { i with published := (slot, tile) :: i.published }
        noticePub i.launch region tile
        return none

/-- Publishes a list of pairs in order; stops at the first cause (R526). -/
def publishAll (p : Port) (key : Nat) : List (Nat × Nat) → Act (Option (Nat × Nat))
  | [] => pure none
  | (s, t) :: r => do
    match ← publish p key s t with
    | some c => return some c
    | none => publishAll p key r

/-! ## Creating instances -/

/-- The key of an instance: its launch and its number (R39) (DESIGN CHOICE, log 6). -/
def instKey (launch number : Nat) : Nat := launch * 2 ^ 32 + number

/-- A Tether agent at the start of a launch on its die (R480). -/
def Tether.fresh (clk : Nat) : Tether := ⟨[], 0, 0, false, [], 0, clk, 0, clk⟩

/-- The Tether agent of a die for a launch. -/
def Launch.tether (l : Launch) (die : Nat) : Tether := Tab.getD l.tethers die (Tether.fresh 0)

/-- Changes the Tether agent of a die for a launch. -/
def Launch.setTether (l : Launch) (die : Nat) (f : Tether → Tether) : Launch :=
  { l with tethers := Tab.set l.tethers die (f (l.tether die)) }

/-- The gang coordinates of a node's grid, x fastest (R42). -/
def gridOf (node : Nat) : List (Nat × Nat × Nat) :=
  (upFrom 0 (fld node 224 16)).flatMap (fun z =>
    (upFrom 0 (fld node 208 16)).flatMap (fun y => (upFrom 0 (fld node 192 16)).map (fun x => (x, y, z))))

/-- The instances of a launch in a die's pool (R471). -/
def State.poolOf (s : State) (launch die : Nat) : Nat :=
  (s.insts.filter (fun i => i.2.launch == launch && i.2.die == die && !i.2.bucket &&
    !(i.2.phase == .retired || i.2.phase == .aborted))).length

/-- Creates an instance of a node on a die; `maker` is the die that numbers it. Its number (R39, R471). -/
def createInst (launch node index maker die : Nat) (wgt : W64) (bucket : Bool) : Act Nat := do
  let l ← getLaunch launch
  let number := (maker + 4 * (l.tether maker).created) % 2 ^ 32
  putLaunch launch (l.setTether maker (fun t => { t with created := t.created + 1 }))
  let key := instKey launch number
  putInst key {
    launch := launch, number := number, node := node, index := index, die := die
    phase := if bucket then .deque else .pool
    wgt := wgt, published := [], admitted := false, debit := 0, unstarted := gridOf (nth l.nodes node 0), park := none
    bucket := bucket, wants := (l.inputs node index).map (fun x => (x.1, x.2, false)) }
  if !bucket then observeInst key (fun _ => true)
  return number

end Sys2Proof.Machine
end

