-- ==== Sys2Proof/Machine/Flags.lean ====
section
/-! DEFINITION. The four outcomes of a scalar comparison and the conditions that read them (R134, R71, R76). -/

set_option linter.unusedVariables false

namespace Sys2Proof.Machine

open Sys2Proof

/-- CMP's outcomes for a with b (Table 5-1). -/
def cmpFlag (a b : W64) : Flag :=
  { eq := a == b
    lt := decide (a.toInt < b.toInt)
    ltn := decide (a.toNat < b.toNat)
    ovf := decide (a.toInt - b.toInt < -(2 ^ 63 : Int)) || decide (a.toInt - b.toInt > (2 ^ 63 : Int) - 1) }

/-- TST's outcomes for a with b (Table 5-1). -/
def tstFlag (a b : W64) : Flag := { eq := (a &&& b) == 0, lt := (a &&& b).msb, ltn := false, ovf := false }

/-- The outcome a COND code selects: 0 EQ, 1 LT, 2 LTN, 3 OVF (R71). -/
def Flag.outcome (f : Flag) (cond : Nat) : Bool :=
  if cond = 0 then f.eq else if cond = 1 then f.lt else if cond = 2 then f.ltn else f.ovf

/-- A three-bit condition: bits 2:1 the outcome, bit 0 inverts it (R76). -/
def Flag.cond (f : Flag) (c : Nat) : Bool := xor (f.outcome (c / 2)) (c % 2 == 1)

/-- Reads flag n. -/
def Stream.flag (st : Stream) (n : Nat) : Flag := Tab.getD st.flags n Flag.zero

/-- Writes flag n. -/
def Stream.setFlag (st : Stream) (n : Nat) (f : Flag) : Stream := { st with flags := Tab.set st.flags n f }

end Sys2Proof.Machine
end

