-- ==== Sys2Proof/Machine/Scalar.lean ====
section
/-! DEFINITION. Scalar integer instructions, constants, comparisons, branches, calls and loops (R133 to R148). They need
only their own stream, in a group and on the control core alike. -/

set_option linter.unusedVariables false

namespace Sys2Proof.Machine

open Sys2Proof

/-- s_D := f(s_A, s_B) (R138). -/
def alu (d a b : BitVec 5) (f : W64 → W64 → W64) (s : State) : Host.Outcome State Fault Refusal :=
  onStream (fun st => .next (st.put d.toNat (f (st.get a.toNat) (st.get b.toNat)))) s

/-- s_D := f(s_A, imm) (R138). -/
def aluImm (d a : BitVec 5) (imm : W64) (f : W64 → W64 → W64) (s : State) : Host.Outcome State Fault Refusal :=
  onStream (fun st => .next (st.put d.toNat (f (st.get a.toNat) imm))) s

/-- Shift by an immediate of 0–63, else 0x04 (R139). -/
def shiftImm (d a : BitVec 5) (i : BitVec 16) (f : W64 → Nat → W64) (s : State) : Host.Outcome State Fault Refusal :=
  onStream (fun st => if 64 ≤ i.toNat then .raise 0x04 else .next (st.put d.toNat (f (st.get a.toNat) i.toNat))) s

/-- IMM16 sign-extended (Table 5-4). -/
def immS (i : BitVec 16) : W64 := i.signExtend 64
/-- IMM16 zero-extended (Table 5-4). -/
def immZ (i : BitVec 16) : W64 := i.zeroExtend 64

/-- The high half of a signed product. -/
def mulhS (a b : W64) : W64 := BitVec.ofInt 64 (a.toInt * b.toInt / 2 ^ 64)
/-- The high half of an unsigned product. -/
def mulhU (a b : W64) : W64 := BitVec.ofNat 64 (a.toNat * b.toNat / 2 ^ 64)

/-- ADD (R138). -/
def execAdd (d a b : BitVec 5) (s : State) : Host.Outcome State Fault Refusal := alu d a b (fun x y => x + y) s
/-- SUB (R138). -/
def execSub (d a b : BitVec 5) (s : State) : Host.Outcome State Fault Refusal := alu d a b (fun x y => x - y) s
/-- MUL (R138). -/
def execMul (d a b : BitVec 5) (s : State) : Host.Outcome State Fault Refusal := alu d a b (fun x y => x * y) s
/-- MULH.i64 (R138). -/
def execMulhI64 (d a b : BitVec 5) (s : State) : Host.Outcome State Fault Refusal := alu d a b mulhS s
/-- MULH.n64 (R138). -/
def execMulhN64 (d a b : BitVec 5) (s : State) : Host.Outcome State Fault Refusal := alu d a b mulhU s
/-- AND (R138). -/
def execAndS (d a b : BitVec 5) (s : State) : Host.Outcome State Fault Refusal := alu d a b (fun x y => x &&& y) s
/-- OR (R138). -/
def execOrS (d a b : BitVec 5) (s : State) : Host.Outcome State Fault Refusal := alu d a b (fun x y => x ||| y) s
/-- XOR (R138). -/
def execXorS (d a b : BitVec 5) (s : State) : Host.Outcome State Fault Refusal := alu d a b (fun x y => x ^^^ y) s
/-- SHL by s_B, 0 from 64 on (R139). -/
def execShl (d a b : BitVec 5) (s : State) : Host.Outcome State Fault Refusal := alu d a b (fun x y => x <<< y.toNat) s
/-- SHR by s_B, 0 from 64 on (R139). -/
def execShr (d a b : BitVec 5) (s : State) : Host.Outcome State Fault Refusal := alu d a b (fun x y => x >>> y.toNat) s
/-- SRA by s_B, 0 or −1 from 64 on (R139). -/
def execSra (d a b : BitVec 5) (s : State) : Host.Outcome State Fault Refusal := alu d a b (fun x y => x.sshiftRight y.toNat) s
/-- MIN.i64 (R138). -/
def execMinI64 (d a b : BitVec 5) (s : State) : Host.Outcome State Fault Refusal :=
  alu d a b (fun x y => if x.toInt ≤ y.toInt then x else y) s
/-- MIN.n64 (R138). -/
def execMinN64 (d a b : BitVec 5) (s : State) : Host.Outcome State Fault Refusal :=
  alu d a b (fun x y => if x.toNat ≤ y.toNat then x else y) s
/-- MAX.i64 (R138). -/
def execMaxI64 (d a b : BitVec 5) (s : State) : Host.Outcome State Fault Refusal :=
  alu d a b (fun x y => if x.toInt ≤ y.toInt then y else x) s
/-- MAX.n64 (R138). -/
def execMaxN64 (d a b : BitVec 5) (s : State) : Host.Outcome State Fault Refusal :=
  alu d a b (fun x y => if x.toNat ≤ y.toNat then y else x) s
/-- LEA: a + b × 2^sh (R138). -/
def execLea (d a b : BitVec 5) (sh : BitVec 3) (s : State) : Host.Outcome State Fault Refusal :=
  alu d a b (fun x y => x + (y <<< sh.toNat)) s

/-- ADD immediate (R138). -/
def execAddImm (d a : BitVec 5) (i : BitVec 16) (s : State) : Host.Outcome State Fault Refusal :=
  aluImm d a (immS i) (fun x y => x + y) s
/-- AND immediate (R138). -/
def execAndImm (d a : BitVec 5) (i : BitVec 16) (s : State) : Host.Outcome State Fault Refusal :=
  aluImm d a (immZ i) (fun x y => x &&& y) s
/-- OR immediate (R138). -/
def execOrImm (d a : BitVec 5) (i : BitVec 16) (s : State) : Host.Outcome State Fault Refusal :=
  aluImm d a (immZ i) (fun x y => x ||| y) s
/-- XOR immediate (R138). -/
def execXorImm (d a : BitVec 5) (i : BitVec 16) (s : State) : Host.Outcome State Fault Refusal :=
  aluImm d a (immZ i) (fun x y => x ^^^ y) s
/-- SHL immediate (R139). -/
def execShlImm (d a : BitVec 5) (i : BitVec 16) (s : State) : Host.Outcome State Fault Refusal :=
  shiftImm d a i (fun x n => x <<< n) s
/-- SHR immediate (R139). -/
def execShrImm (d a : BitVec 5) (i : BitVec 16) (s : State) : Host.Outcome State Fault Refusal :=
  shiftImm d a i (fun x n => x >>> n) s
/-- SRA immediate (R139). -/
def execSraImm (d a : BitVec 5) (i : BitVec 16) (s : State) : Host.Outcome State Fault Refusal :=
  shiftImm d a i (fun x n => x.sshiftRight n) s
/-- MUL immediate (R138). -/
def execMulImm (d a : BitVec 5) (i : BitVec 16) (s : State) : Host.Outcome State Fault Refusal :=
  aluImm d a (immS i) (fun x y => x * y) s

/-- MOVI: s_D := sext(IMM16, 16) (R140). -/
def execMovi (d : BitVec 5) (i : BitVec 16) (s : State) : Host.Outcome State Fault Refusal :=
  onStream (fun st => .next (st.put d.toNat (immS i))) s

/-- MOVHI: replaces half h of s_D; A bits 4:2 are reserved (R140). -/
def execMovhi (d : BitVec 5) (h : BitVec 2) (i : BitVec 16) (s : State) : Host.Outcome State Fault Refusal :=
  onStream (fun st =>
    .next (st.put d.toNat (BitVec.ofNat 64 (setFld (st.get d.toNat).toNat (16 * h.toNat) 16 i.toNat)))) s

/-- Writes the outcomes of a comparison to flag f_D; a D of 4–31 is 0x04 (R141). -/
def compare (f : BitVec 5) (g : Stream → Flag) (s : State) : Host.Outcome State Fault Refusal :=
  onStream (fun st => if 4 ≤ f.toNat then .raise 0x04 else .next (st.setFlag f.toNat (g st))) s

/-- CMP (R141). -/
def execCmp (f a b : BitVec 5) (s : State) : Host.Outcome State Fault Refusal :=
  compare f (fun st => cmpFlag (st.get a.toNat) (st.get b.toNat)) s
/-- TST (R141). -/
def execTst (f a b : BitVec 5) (s : State) : Host.Outcome State Fault Refusal :=
  compare f (fun st => tstFlag (st.get a.toNat) (st.get b.toNat)) s
/-- CMP immediate (R141). -/
def execCmpImm (f a : BitVec 5) (i : BitVec 16) (s : State) : Host.Outcome State Fault Refusal :=
  compare f (fun st => cmpFlag (st.get a.toNat) (immS i)) s

/-- SEL: s_A when the condition holds on f_F, else s_B (R142). -/
def execSel (d a b : BitVec 5) (f : BitVec 2) (c : BitVec 3) (s : State) : Host.Outcome State Fault Refusal :=
  onStream (fun st =>
    .next (st.put d.toNat (if (st.flag f.toNat).cond c.toNat then st.get a.toNat else st.get b.toNat))) s

/-- The S-B target: the word's address plus 4 × OFF22, signed (R71). -/
def branchTarget (pc : Nat) (off : BitVec 22) : Nat := addr64 pc (4 * off.toInt)

/-- BR taken when the outcome is as given (R143). -/
def branch (f : BitVec 2) (c : BitVec 2) (off : BitVec 22) (want : Bool) (s : State) : Host.Outcome State Fault Refusal :=
  onStream (fun st =>
    if (st.flag f.toNat).outcome c.toNat = want then .jump st (branchTarget st.pc off) else .next st) s

/-- BR, taken when the outcome is set (R143). -/
def execBrSet (f : BitVec 2) (c : BitVec 2) (off : BitVec 22) (s : State) : Host.Outcome State Fault Refusal :=
  branch f c off true s
/-- BR, taken when the outcome is clear (R143). -/
def execBrClear (f : BitVec 2) (c : BitVec 2) (off : BitVec 22) (s : State) : Host.Outcome State Fault Refusal :=
  branch f c off false s
/-- JMP (R143). -/
def execJmp (off : BitVec 22) (s : State) : Host.Outcome State Fault Refusal :=
  onStream (fun st => .jump st (branchTarget st.pc off)) s
/-- CALL: pushes the next word's address; 0x06 when 8 entries stand (R144). It closes windows (R90). -/
def execCall (off : BitVec 22) (s : State) : Host.Outcome State Fault Refusal :=
  onStream (fun st =>
    if 8 ≤ st.rstack.length then .raise 0x06
    else .jump { st.flush with rstack := addr64 st.pc 4 :: st.rstack } (branchTarget st.pc off)) s
/-- JMPR: to s_A, which must be 4-aligned (0x12) (R144). It closes windows (R90). -/
def execJmpr (a : BitVec 5) (s : State) : Host.Outcome State Fault Refusal :=
  onStream (fun st0 =>
    let st := st0.flush
    if (st.get a.toNat).toNat % 4 ≠ 0 then .raise 0x12 else .jump st (st.get a.toNat).toNat) s
/-- RET: pops the return stack; 0x04 when it is empty (R144). It closes windows (R90). -/
def execRet (s : State) : Host.Outcome State Fault Refusal :=
  onStream (fun st0 =>
    let st := st0.flush
    match st.rstack with
    | [] => .raise 0x04
    | r :: t => .jump { st with rstack := t } r) s

/-- LOOP with a count (R145). -/
def loopWord (st : Stream) (fin n : Nat) : Flow :=
  if fin = 0 then .raise 0x04
  else if 2 ^ 32 ≤ n then .raise 0x04
  else if n = 0 then .jump st (addr64 st.pc (4 * fin + 4))
  else if 4 ≤ st.loops.length then .raise 0x05
  else
    .jump { st with
      loops := ⟨addr64 st.pc 4, addr64 st.pc (4 * fin), n⟩ :: st.loops
      lc := Tab.set st.lc st.loops.length 0 } (addr64 st.pc 4)

/-- LOOP with an immediate count (R145). -/
def execLoopImm (fin : BitVec 10) (n : BitVec 10) (s : State) : Host.Outcome State Fault Refusal :=
  onStream (fun st => loopWord st fin.toNat n.toNat) s
/-- LOOP with a register count (R145). -/
def execLoopSreg (a : BitVec 5) (fin : BitVec 10) (s : State) : Host.Outcome State Fault Refusal :=
  onStream (fun st => loopWord st fin.toNat (st.get a.toNat).toNat) s
/-- LEXIT: leaves the innermost loop; 0x04 at depth 0 (R147). -/
def execLexit (s : State) : Host.Outcome State Fault Refusal :=
  onStream (fun st =>
    match st.loops with
    | [] => .raise 0x04
    | e :: t => .jump { st with loops := t } (addr64 e.fin 4)) s

/-- NOP (R148). -/
def execNop (s : State) : Host.Outcome State Fault Refusal := onStream (fun st => .next st) s
/-- YIELD: the wait time w returns to zero (R148). -/
def execYield (s : State) : Host.Outcome State Fault Refusal := onStream (fun st => .next { st with age := 0 }) s

end Sys2Proof.Machine
end

