-- ==== Sys2Proof/Machine/Sequencer.lean ====
section
/-! DEFINITION. The rest of the group sequencer: special registers, SLEEP, starting and joining lane runs, scalar memory
access, operand queues and register trading (R135, R148 to R164). -/

set_option linter.unusedVariables false

namespace Sys2Proof.Machine

open Sys2Proof

/-- Raises a cause at the issuing scalar word while keeping what the meaning has counted so far. -/
def raiseSoft (code addr : Nat) : Act Unit := do
  let u ← me
  let st ← myStream
  upd (fun s => s.raise u (Cause.atWord code st.pc addr))

/-- Completes the word a unit waits at: for the events that end a wait. -/
def finishOf (u : Who) (f : Stream → Stream) : Act Unit := do
  match (← now).stream u with
  | none => stall
  | some st => upd (fun s => s.setStream u (s.stepped u st.pc (f st).complete))

/-! ## Special registers -/

/-- QFILL: five bits per queue (Table 5-2). -/
def Group.qfill (g : Group) : Nat :=
  let ps := g.present
  ((upFrom 0 4).map (fun k => (Tab.getD g.opq k OpQ.empty).fill ps * 2 ^ (5 * k))).foldl (fun a b => a + b) 0

/-- A status register's word: STICKY in bits 10:1 and LAST in 63:32 (Tables 16-2 and 19-7). -/
def Sts.word (x : Sts) : Nat := fld x.sticky 1 10 * 2 + x.last.toNat * 2 ^ 32

/-- The special registers that depend on the stream, its gang and its launch alone, for groups and contexts (Table 5-2,
Table 9-1, Table 11-4). -/
def State.commonReg (s : State) (st : Stream) (g : Gang) (n : Nat) : Option Nat :=
  let r := s.launchRec g.launch
  match n with
  | 0x0000 => some st.pc
  | 0x0004 => some g.gx
  | 0x0005 => some g.gy
  | 0x0006 => some g.gz
  | 0x0008 => some (fld (s.nodeRec g) 244 3)
  | 0x0009 => some (s.instIndex g)
  | 0x000A => some g.die
  | 0x000B => some g.cluster
  | 0x0010 => some ((s.die g.die).clk % 2 ^ 64)
  | 0x0011 => some (fld r 256 64)
  | 0x0012 => some (fld r 128 64)
  | 0x0013 => some (addr64 (fld r 0 64) (96 * g.node))
  | 0x0015 => some st.rstack.length
  | 0x0016 => some st.loops.length
  | 0x0020 => some (Tab.getD st.lc 0 0)
  | 0x0021 => some (Tab.getD st.lc 1 0)
  | 0x0022 => some (Tab.getD st.lc 2 0)
  | 0x0023 => some (Tab.getD st.lc 3 0)
  | 0x0110 => some (b2n st.tmode)
  | 0x0111 => some st.hmask.toNat
  | 0x0112 => some ((st.cause.map (fun c => c.xpc)).getD 0)
  | _ => none

/-- CAUSE: the cause held or being handled (Table 5-2) (DEDUCED, log 14). -/
def Stream.causeReg (st : Stream) : Nat :=
  (st.cause.map (fun c => c.code)).getD 0

/-- The special registers of a group beyond the common ones (Table 5-2, Tables 9-1, 16-2 and 19-7). -/
def State.groupReg (s : State) (x : Group) (g : Gang) (n : Nat) : Option Nat :=
  match n with
  | 0x0001 => some x.id.lane
  | 0x0002 => some x.id.gslot
  | 0x0003 => some x.id.gidx
  | 0x0007 => some x.id.role
  | 0x000C => some (g.core0 + x.id.pos)
  | 0x0014 => some x.regcnt
  | 0x0017 => some (b2n x.run.active)
  | 0x0018 => some x.qfill
  | 0x0030 => some (wrap 64 x.astr.toInt)
  | 0x0031 => some x.amask.toNat
  | 0x0100 => some x.wgt.toNat
  | 0x0101 => some (s.twin g)
  | 0x0102 => some x.st.causeReg
  | 0x0103 => some x.epc
  | 0x0104 => some x.regnc
  | 0x0105 => some x.prio
  | 0x0113 => some ((x.st.cause.map (fun c => c.xlpc)).getD 0)
  | 0x0130 => some x.xsts.word
  | 0x0140 => some x.attach.toNat
  | 0x0141 => some x.bsts.word
  | _ => s.commonReg x.st g n

/-- The special registers of a context beyond the common ones (Table 11-4). -/
def State.ctxReg (s : State) (c : Ctx) (g : Gang) (n : Nat) : Option Nat :=
  match n with
  | 0x0120 => some c.ctxno
  | 0x0121 => some c.mrb.toNat
  | 0x0122 => some g.core0
  | _ => s.commonReg c.st g n

/-- GETS (R135, R161). -/
def execGets (d : BitVec 5) (n : BitVec 16) (s : State) : Host.Outcome State Fault Refusal :=
  perform (do
    let (_, g) ← myGang
    let v ← match ← me with
      | .group k => do pure ((← now).groupReg (← getGroup k) g n.toNat)
      | .ctx c => do pure ((← now).ctxReg (← getCtx c) g n.toNat)
    match v with
    | none => raise 0x04
    | some x => finishWith d.toNat x) s

/-- SETS: ASTR and AMASK are written, XSTS and BSTS cleared; every other number, and every number on the control core,
raises 0x04 (R135, R162, Tables 11-4, 16-2 and 19-7). -/
def execSets (a : BitVec 5) (n : BitVec 16) (s : State) : Host.Outcome State Fault Refusal :=
  perform (do
    let v ← sreg a.toNat
    match ← me with
    | .ctx _ => raise 0x04
    | .group k =>
      let x ← getGroup k
      if n = 0x0030 then putGroup k { x with astr := BitVec.ofNat 32 v }
      else if n = 0x0031 then putGroup k { x with amask := BitVec.ofNat 32 v }
      else if n = 0x0130 then putGroup k { x with xsts := ⟨0, 0⟩ }
      else if n = 0x0141 then putGroup k { x with bsts := ⟨0, 0⟩ }
      else raise 0x04
      finish) s

/-! ## Stream control -/

/-- SLEEP: holds the scalar stream for s_A clk; 0 gives no wait, 2^32 or more is 0x04 (R148). -/
def execSleep (a : BitVec 5) (s : State) : Host.Outcome State Fault Refusal :=
  perform (do
    let st ← myStream
    match st.wait with
    | .sleep _ => stall
    | _ =>
      let n ← sreg a.toNat
      if 2 ^ 32 ≤ n then raise 0x04
      else if n = 0 then finish
      else halt (.wait (.sleep n))) s

/-- SLEEP_EXPIRE: a SLEEP whose time has run out completes (R148). -/
def execSleepExpire (unit who : Nat) (s : State) : Host.Outcome State Fault Refusal :=
  perform (do
    match (← now).stream (whoOf unit who) with
    | none => stall
    | some st =>
      guardA (st.wait == .sleep 0 && !st.stopped && !st.held.isSome)
      finishOf (whoOf unit who) (fun x => x)) s

/-! ## Lane runs -/

/-- Starts a lane run at an index: broadcast copy, default classes, one fragment of every thread (R150, R151). -/
def Group.startRun (g : Group) (index : Nat) : Group :=
  { g with
    threads := g.threads.map (fun t => (t.1, { t.2 with cls := .normal, fin := false }))
    run := { active := true, bcast := g.st.regs, frags := [Frag.at 0xFFFFFFFF index], root := none, gmap := none } }

/-- LRUN at a lane index (R73, R90, R150, R259). -/
def startLanes (index : Nat) : Act Unit := do
  let k ← myGroup
  let st ← myStream
  check [(st.tmode, 0x03), (decide (2 ^ 20 ≤ index), 0x04)]
  waitRun k true
  closeWindows
  modGroup k (fun g => g.startRun index)
  finish

/-- LRUN with an immediate index (R150). -/
def execLrunImm (l : BitVec 20) (s : State) : Host.Outcome State Fault Refusal := perform (startLanes l.toNat) s
/-- LRUN at s_A + LIDX20 (R73, R150). -/
def execLrunSreg (a : BitVec 5) (l : BitVec 20) (s : State) : Host.Outcome State Fault Refusal :=
  perform (do
    let st := (← myStream).flush
    startLanes ((st.get a.toNat).toNat + l.toNat)) s

/-- LSYNC: waits until no run is active (R152, R259). -/
def execLsync (s : State) : Host.Outcome State Fault Refusal :=
  perform (do
    let k ← myGroup
    noTrapMode
    waitRun k true
    closeWindows
    finish) s

/-! ## Scalar loads and stores -/

/-- Bytes of a SIZE field (R72). -/
def sizeBytes (sz : BitVec 2) : Nat := 2 ^ sz.toNat

/-- The S-M address (R72, R154). -/
def smAddr (base : Nat) (o : BitVec 10) (n : Nat) : Nat := addr64 base (o.toInt * n)

/-- The causes an address meets at issue: 0x10 outside 48 bits, 0x12 misaligned (R201, R209). -/
def checkAddr (a n : Nat) : Act Unit :=
  if a ≥ 2 ^ 48 then raiseAt 0x10 a else if a % n ≠ 0 then raiseAt 0x12 a else pure ()

/-- Waits for the issuing group's ALD reads (R155). -/
def waitAld : Act Unit := do
  match ← me with
  | .group k => if (← getGroup k).aldPending then halt (.wait .engine)
  | .ctx _ => pure ()

/-- SLD (R89, R154, R155). -/
def execSld (d b : BitVec 5) (l : BitVec 4) (z : BitVec 2) (o : BitVec 10) (s : State) : Host.Outcome State Fault Refusal :=
  perform (do
    let n := sizeBytes z
    let a := smAddr (← sreg b.toNat) o n
    checkAddr a n
    waitAld
    match ← streamRead (← me) (← myPort) ⟨true, 0⟩ a n with
    | .error c => raiseSoft c a
    | .ok x =>
      if l = 0 then finishWith d.toNat x
      else
        let st ← myStream
        putStream { st with pend := st.pend ++ [⟨d.toNat, BitVec.ofNat 64 x, l.toNat, st.tmode⟩] }
        finish) s

/-- SST (R154, R155) (DEDUCED, log 66). -/
def execSst (d b : BitVec 5) (z : BitVec 2) (o : BitVec 10) (s : State) : Host.Outcome State Fault Refusal :=
  perform (do
    let n := sizeBytes z
    let a := smAddr (← sreg b.toNat) o n
    checkAddr a n
    waitAld
    match ← streamWrite (← me) (← myPort) a n ((← sreg d.toNat) % 2 ^ (8 * n)) with
    | .error c => raiseSoft c a
    | .ok _ => finish) s

/-- The address of element i of an ALD or AST (R157, R160). -/
def elemAddr (base : Nat) (stride : Int) (n i : Nat) : Nat := addr64 base (stride * i * n)

/-- The elements AMASK lets take part. -/
def elems (mask : W32) : List Nat := bitsOf 32 mask.toNat

/-- The causes the elements of an ALD or AST meet at issue; the lowest, at the first element that meets it (R34, R157,
R209). -/
def checkElems (base : Nat) (stride : Int) (n : Nat) (mask : W32) : Act Unit := do
  let as := (elems mask).map (elemAddr base stride n)
  match as.find? (fun a => decide (a ≥ 2 ^ 48)) with
  | some a => raiseAt 0x10 a
  | none =>
    match as.find? (fun a => decide (a % n ≠ 0)) with
    | some a => raiseAt 0x12 a
    | none => pure ()

/-- ALD (R155 to R158). -/
def execAld (x : BitVec 1) (k : BitVec 2) (b : BitVec 5) (z : BitVec 2) (o : BitVec 10) (s : State) :
    Host.Outcome State Fault Refusal :=
  perform (do
    let gk ← myGroup
    if z = 3 ∨ (x = 1 ∧ z = 2) then raise 0x04
    let n := sizeBytes z
    let base := smAddr (← sreg b.toNat) o n
    let g ← getGroup gk
    let stride := g.astr.toInt
    let q := Tab.getD g.opq k.toNat OpQ.empty
    let full := decide (q.fill g.present ≥ 16)
    if full && !g.run.active then raise 0x04
    checkElems base stride n g.amask
    if full then halt (.wait .aldFull)
    let q2 : OpQ := { q with ents := q.ents ++ [⟨[], some ⟨base, stride, n, x == 1, g.amask, false, (← now).tick⟩⟩] }
    putGroup gk { g with opq := Tab.set g.opq k.toNat q2 }
    upd State.tickOn
    finish) s

/-- Whether an earlier ALD of a group has reads to perform: they come first (R155). -/
def Group.aldBefore (g : Group) (born : Nat) : Bool :=
  g.opq.any (fun q => q.2.ents.any (fun e => match e.job with | some j => !j.failed && decide (j.born < born) | none => false))

/-- An entry of an operand queue with one more word: present once it has all 32 (R156, R157). -/
def QEnt.add (e : QEnt) (x : W32) : QEnt := ⟨e.words ++ [x], if e.words.length + 1 < 32 then e.job else none⟩

/-- Reads one element of an ALD: its word, or the cause with its address; an element that AMASK leaves out is 0 and makes no
read (R157). -/
def aldWord (gk : Nat) (p : Port) (j : AldJob) (i : Nat) : Act (Except (Nat × Nat) W32) := do
  if bit j.mask.toNat i then
    let a := elemAddr j.base j.stride j.size i
    match ← streamRead (.group gk) p ⟨true, 0⟩ a j.size with
    | .error c => return .error (c, a)
    | .ok x => return .ok (BitVec.ofNat 32 (if j.sx then wrap 32 (sext (8 * j.size) x) else x))
  else return .ok 0

/-- ALD_READS_PERFORM: the next element of the k-th entry of queue q is read, in ALD order; the elements perform one after
another (R155, R157, R240). A cause leaves the entry not present and is raised at the group's next boundary. -/
def execAldReadsPerform (gk q k : Nat) (s : State) : Host.Outcome State Fault Refusal :=
  perform (do
    let g ← getGroup gk
    let oq ← need (Tab.find g.opq q)
    let e ← need (oq.ents[k]?)
    let j ← need e.job
    guardA (!j.failed && !g.aldBefore j.born)
    let set := fun (e2 : QEnt) =>
      modGroup gk (fun g => { g with opq := Tab.set g.opq q { oq with ents := setNth oq.ents k e2 } })
    match ← aldWord gk ((← now).portOf (.group gk)) j e.words.length with
    | .ok x => set (e.add x)
    | .error (c, a) =>
      set { e with job := some { j with failed := true } }
      upd (fun s => s.later (.group gk) (Cause.ofThread c e.words.length a))) s

/-- AST (R153, R155, R160, R259): the elements are stored one after another, one in a turn. -/
def execAst (v b : BitVec 5) (z : BitVec 2) (o : BitVec 10) (s : State) : Host.Outcome State Fault Refusal :=
  perform (do
    let gk ← myGroup
    noTrapMode
    if z = 3 then raise 0x04
    waitRun gk true
    waitAld
    let n := sizeBytes z
    let base := smAddr (← sreg b.toNat) o n
    let g ← getGroup gk
    let stride := g.astr.toInt
    checkElems base stride n g.amask
    let from_ := match g.st.wait with
      | .ast i => i
      | _ => 0
    match (elems g.amask).filter (fun i => decide (from_ ≤ i)) with
    | [] => finish
    | i :: rest =>
      let x := if v.toNat < g.regcnt then (Tab.getD (g.thread i).v v.toNat 0).toNat else 0
      let a := elemAddr base stride n i
      match ← streamWrite (.group gk) (← myPort) a n (x % 2 ^ (8 * n)) with
      | .error c =>
        let u ← me
        upd (fun s => s.raise u (Cause.ofThread c i a))
      | .ok _ => if rest.isEmpty then finish else putStream { (← myStream) with wait := .ast (i + 1) }) s

/-! ## Register trading -/

/-- The key of the registers a group shares with the groups of its gang on its lane: 64 × core position + lane position, which
no placement changes (R49, R51). -/
def Gang.laneKey (x : Gang) (g : Group) : Nat := 64 * g.id.pos + g.id.gidx % x.gpc % min 64 x.gpc

/-- A thread with only the registers below n. -/
def Thread.cut (t : Thread) (n : Nat) : Thread := { t with v := t.v.filter (fun r => decide (r.1 < n)) }

/-- REGGIVE (R51, R163, R259). -/
def execReggive (d a : BitVec 5) (s : State) : Host.Outcome State Fault Refusal :=
  perform (do
    let gk ← myGroup
    noTrapMode
    waitRun gk true
    waitSettled
    let n ← sreg a.toNat
    let g ← getGroup gk
    if n % 8 ≠ 0 ∨ g.regcnt < n + 8 then raise 0x04
    let left := g.regcnt - n
    let x ← getGang (gk / 65536)
    putGroup gk { g with regcnt := left, threads := g.threads.map (fun t => (t.1, t.2.cut left)) }
    putGang (gk / 65536) { x with free := Tab.set x.free (x.laneKey g) (Tab.getD x.free (x.laneKey g) 0 + 32 * n) }
    finishWith d.toNat left) s

/-- REGCLAIM (R51, R164, R259). -/
def execRegclaim (d a : BitVec 5) (s : State) : Host.Outcome State Fault Refusal :=
  perform (do
    let gk ← myGroup
    noTrapMode
    waitRun gk true
    waitSettled
    let n ← sreg a.toNat
    let g ← getGroup gk
    if n % 8 ≠ 0 ∨ 64 < g.regcnt + n then raise 0x04
    let x ← getGang (gk / 65536)
    let fr := Tab.getD x.free (x.laneKey g) 0
    let m := min n (fr / 256 * 8)
    putGroup gk { g with regcnt := g.regcnt + m }
    putGang (gk / 65536) { x with free := Tab.set x.free (x.laneKey g) (fr - 32 * m) }
    finishWith d.toNat m) s

/-! ## Lookahead -/

/-- LONG_LATENCY_RESULT_WRITE: the k-th pending result of a scalar stream (unit 0 a group, 1 a context), or of a group's
lane stream (unit 2), whose window has ended is written (R89). -/
def execLongLatencyResultWrite (unit who k : Nat) (s : State) : Host.Outcome State Fault Refusal :=
  perform (do
    if unit = 2 then
      let g ← getGroup who
      let p ← need (g.lpend[k]?)
      guardA (p.ready && g.run.frags.all (fun f => f.wins.all (fun w => !(w.1 == p.tag) || w.2 == 0)))
      putGroup who (g.writeTags [p.tag])
    else
      let u := whoOf unit who
      match (← now).stream u with
      | none => stall
      | some st =>
        let p ← need (st.pend[k]?)
        guardA (p.left == 0)
        upd (fun s => s.setStream u { st.result p with pend := dropNth st.pend k })) s

end Sys2Proof.Machine
end

