-- ==== Sys2Proof/Machine/ScalarMem.lean ====
section
/-! DEFINITION. Scalar instructions of the load-store engine and fences, with the steps of the memory system that go with
them: sector waits, bank modes, range maintenance, the L2 way mask, barriers, FENCE and QFENCE (R206, R207, R213 to R221,
R230 to R237, R247, R255 to R257). -/

set_option linter.unusedVariables false

namespace Sys2Proof.Machine

open Sys2Proof

/-! ## MWAIT -/

/-- The word at an MWAIT's address as an acquire at die scope, and the sector it lies in: or a cause (R230). -/
def watchRead (u : Who) (a : Nat) : Act (Except Nat (Nat × Nat)) := do
  let p := (← now).portOf u
  upd (fun s => s.dropCore p)
  match ← locate p a .watch with
  | .error c => return .error c
  | .ok pl =>
    match ← readPlace p fresh pl 8 with
    | .error c => return .error c
    | .ok x => return .ok (x, pl.pa / 32)

/-- MWAIT (R230). -/
def execMwait (d a b : BitVec 5) (s : State) : Host.Outcome State Fault Refusal :=
  perform (do
    let st ← myStream
    match st.wait with
    | .mwait _ _ => stall
    | _ =>
      let va ← sreg a.toNat
      checkAddr va 8
      match ← watchRead (← me) va with
      | .error c => raiseSoft c va
      | .ok (x, sector) =>
        if !(x == (← sreg b.toNat)) then finishWith d.toNat x
        else putStream { (← myStream) with wait := .mwait sector false }) s

/-- MWAIT_WAKE: a watcher whose sector has been written reads it again and goes on (R66, R230). The word it waits in gives
the registers. -/
def execMwaitWake (unit who : Nat) (s : State) : Host.Outcome State Fault Refusal :=
  perform (do
    let u := whoOf unit who
    match (← now).stream u with
    | none => stall
    | some st =>
      guardA (!st.stopped && !st.held.isSome)
      match st.wait with
      | .mwait _ true =>
        match decodeScalar st.word with
        | .ok (.mwait d a _) =>
          let va := (st.get a.toNat).toNat
          match ← watchRead u va with
          | .error c => upd (fun s => s.raise u (Cause.atWord c st.pc va))
          | .ok (x, _) => finishOf u (fun t => t.put d.toNat (BitVec.ofNat 64 x))
        | _ => stall
      | _ => stall) s

/-! ## Bank modes -/

/-- Whether bytes of scratchpad lie in a holding of a gang core position. -/
def inHolding (addr n pos h : Nat) : Bool :=
  decide (fld addr 20 3 = pos) && decide (8192 * h < fld addr 0 20 + n) && decide (fld addr 0 20 < 8192 * h + 8192)

/-- Whether a committed entry of the gang's groups reaches a holding: it is pinned in its mode until the entry has performed
(R215, R265). -/
def State.pinned (s : State) (gang pos h : Nat) : Bool :=
  (s.groups.filter (fun g => g.1 / 65536 == gang)).any (fun g => g.2.queues.any (fun q => q.2.halt.isNone && q.2.ents.any (fun e =>
    e.committed && (e.touches.getD []).any (fun t => t.spad && inHolding t.addr t.size pos h))))

/-- BANKCFG (R213 to R215, R231, R259). It waits while the holding is pinned. A mode change loses the holding's contents;
scratchpad reads zero after it, and a bank that leaves cache-way mode loses its lines. -/
def execBankcfg (d a b : BitVec 5) (s : State) : Host.Outcome State Fault Refusal :=
  perform (do
    let k ← myGroup
    noTrapMode
    waitRun k false
    waitSettled
    let (n, ga) ← myGang
    let x ← sreg a.toNat
    let mode ← sreg b.toNat
    let pos := fld x 0 3
    let h := fld x 3 6
    let hs := Tab.getD ga.hold pos []
    if x ≥ 2 ^ 9 ∨ pos ≥ ga.cores ∨ h ≥ hs.length ∨ mode > 2 ∨ (pos = 0 ∧ 8192 * h < 16 * ga.nbar) then raise 0x04
    let old := nth hs h 0
    if mode ≠ old then
      if (← now).pinned n pos h then halt (.wait .engine)
      poke (spadKey n pos + 8192 * h) 8192 0
      putGang n { ga with
        hold := Tab.set ga.hold pos (setNth hs h mode)
        fifos := Tab.set ga.fifos (512 * pos + h) [] }
      if old = 0 then upd (fun s => s.loseBank ga.die ga.cluster (ga.core0 + pos))
    finishWith d.toNat old) s

/-! ## Range maintenance -/

/-- DISCARD, FLUSH, INVAL and PREF issue an entry into the L queue (R232). -/
def rangeOp (fn : Nat) (a b : BitVec 5) : Act Unit := do
  let k ← myGroup
  let x ← sreg a.toNat
  let n ← sreg b.toNat
  check [(decide (x % 32 ≠ 0 ∨ n % 32 ≠ 0), 0x12), (decide (n > 2 ^ 32), 0x04)]
  discard (issueEntry k 0 (.range fn x n))
  finish

/-- DISCARD -/
def execDiscard (a b : BitVec 5) (s : State) : Host.Outcome State Fault Refusal := perform (rangeOp 2 a b) s
/-- FLUSH -/
def execFlush (a b : BitVec 5) (s : State) : Host.Outcome State Fault Refusal := perform (rangeOp 3 a b) s
/-- INVAL -/
def execInval (a b : BitVec 5) (s : State) : Host.Outcome State Fault Refusal := perform (rangeOp 4 a b) s
/-- PREF -/
def execPref (a b : BitVec 5) (s : State) : Host.Outcome State Fault Refusal := perform (rangeOp 5 a b) s

/-- Waits for a block of another die as a read of it does, but keeps what the entry has done: true once the die's L2 holds it. -/
def blockHere (die block : Nat) : Act Bool := do
  if ((← now).copyOf die block).isSome then return true
  else
    upd (fun s => s.sendRead die block)
    return false

/-- Drops every die's clean copy of a block, and the issuing core's line of it. -/
def dropEverywhere (p : Port) (block : Nat) : Act Unit :=
  upd (fun s => (s.dies.foldl (fun s d => s.dropCopy d.1 block) s).dropLine p block)

/-- The effect of range maintenance on one normal sector (Table 7-10, R221): false where a PREF has still to wait for the
block. `kept` says that the write-back of its dirty data had already been queued before a DISCARD (DEDUCED, log 57). -/
def rangeSector (p : Port) (fn : Nat) (pa d : Nat) (kept : Bool) : Act Bool := do
  let block := pa / 256
  if fn = 5 then
    if d = p.die then return true else blockHere p.die block
  else
    if d ≠ p.die then together p.die d
    match Tab.find ((← now).die d).dirty (pa / 32) with
    | none => pure ()
    | some old =>
      if fn = 2 ∧ !kept then poke (pa / 32 * 32) 32 old
      else toController d (pa / 32 * 32) 32
      modDie d (fun x => { x with dirty := Tab.del x.dirty (pa / 32) })
    if fn ≠ 3 then dropEverywhere p block
    return true

/-- One sector of a range: whether the entry may go on to the next, or a cause with its address (R232). -/
def rangeOne (p : Port) (fn : Nat) (keep : List Nat) (va : Nat) : Act (Except (Nat × Nat) Bool) := do
  match ← locate p va (if fn = 2 then .write else .read) with
  | .error c => if fn = 5 then return .ok true else return .error (c, va)
  | .ok pl =>
    match pl.target with
    | .gddr d => if pl.ty = 0 then return .ok (← rangeSector p fn pl.pa d (keep.contains (pl.pa / 32))) else return .ok true
    | _ => return .ok true

/-- The sectors of a range one after another, n of them at most; true when all are done (R232). -/
def rangeRun (k : Nat) (p : Port) (fn : Nat) (keep : List Nat) (a last : Nat) : Nat → Nat → Act Bool
  | 0, i => pure (decide (last ≤ i))
  | n + 1, i => do
    if last ≤ i then return true
    else
      match ← rangeOne p fn keep (a + 32 * i) with
      | .error (c, va) =>
        haltHead k 0 c va
        return false
      | .ok false => return false
      | .ok true =>
        progress k 0 (i + 1) 0 0 []
        rangeRun k p fn keep a last n (i + 1)

/-- RANGE_MAINTENANCE_PERFORM: the next n sectors of the head of a group's L queue. `keep` lists the physical sectors whose
write-back was already queued when DISCARD dropped them (R221, R232). -/
def execRangeMaintenancePerform (part : Part) (keep : List Nat) (s : State) : Host.Outcome State Fault Refusal :=
  perform (do
    let (g, qu, e) ← headOf part.g 0
    match e.op with
    | .range fn a size =>
      let p := { (← headPort part.g 0) with core := ((← now).portOf (.group part.g)).core }
      if ← rangeRun part.g p fn keep a (size / 32) part.n e.pos then discard (complete part.g 0 0 0)
    | _ => stall) s

/-! ## L2 way mask -/

/-- Whether a unit's launch is privileged (R259). -/
def State.privileged (s : State) (u : Who) : Bool := bit (s.launchRec (((s.gangOf u).map (fun g => g.launch)).getD 0)) 742

/-- The L2 lines of the ways that leave the cache: dirty sectors of such a block go to the memory controller, and remote blocks'
copies are dropped (R217). The number drawn is the counter's. -/
def dropWays (die : Nat) : Act Unit := do
  let s ← now
  let t := s.tick
  let x := s.die die
  let gone := (x.dirty.map (fun d => d.1)).filter (fun sec => Config.blockInWay t (sec / 8))
  gone.forM (fun sec => toController die (32 * sec) 32)
  modDie die (fun x => { x with
    dirty := x.dirty.filter (fun d => !gone.contains d.1)
    copies := x.copies.filter (fun l => !Config.blockInWay t l.block) })
  upd State.tickOn

/-- L2CFG (R216, R217, R233). Ways that change mode lose their contents; a new scratch way is zero. -/
def execL2cfg (d a : BitVec 5) (s : State) : Host.Outcome State Fault Refusal :=
  perform (do
    let u ← me
    discard myGroup
    let m ← sreg a.toNat
    check [(!(← now).privileged u, 0x03), (decide (m ≥ 2 ^ 16) || decide (popcount 16 m > 12), 0x04)]
    waitSettled
    let (_, ga) ← myGang
    let old := ((← now).die ga.die).wmask
    if m &&& old ≠ m then dropWays ga.die
    (bitsOf 16 (old ^^^ m)).forM (fun w => poke (2 ^ 48 + ga.die * 2 ^ 40 + w * 2 ^ 22) (2 ^ 22) 0)
    modDie ga.die (fun x => { x with wmask := m })
    finishWith d.toNat old) s

/-! ## Barriers -/

/-- The barrier address of s_A: 0x12 unless 16-aligned, 0x04 outside the barrier area (R234) or if bad, what s_B must not
be; of two, the lower (R34). -/
def barAddr (a : BitVec 5) (bad : Bool) : Act (Nat × Nat) := do
  let x ← sreg a.toNat
  let (n, ga) ← myGang
  check [(decide (x % 16 ≠ 0), 0x12), (decide (x ≥ 16 * ga.nbar) || bad, 0x04)]
  return (n, x)

/-- Reads a barrier object for the issuing word: an uncorrectable one raises 0x13 (R222). -/
def barWord (gang addr : Nat) : Act Nat := do
  let ga ← getGang gang
  match ← readKey ga.die (barKey gang addr) 16 with
  | .ok v => return v
  | .error c => halt (.raiseBad (Cause.atWord c (← myStream).pc addr) ga.die)

/-- BAR.INIT (R235). -/
def execBarInit (a b : BitVec 5) (s : State) : Host.Outcome State Fault Refusal :=
  perform (do
    let e ← sreg b.toNat
    let (n, x) ← barAddr a (decide (e = 0 ∨ e > 65535))
    waitSettled
    if fld (← barWord n x) 112 16 ≠ 0 then raise 0x04
    writeBar n x (e + 0xFFFF * 2 ^ 96)
    modGang n (fun g => { g with barPend := Tab.set g.barPend x 0 })
    finish) s

/-- BAR.ARRIVE (R24, R25, R236). -/
def execBarArrive (d a b : BitVec 5) (s : State) : Host.Outcome State Fault Refusal :=
  perform (do
    let v ← sreg b.toNat
    let (n, x) ← barAddr a (decide (fld v 0 16 = 0 ∨ fld v 16 8 > 0x0A ∨ fld v 28 4 ≠ 0 ∨ fld v 48 16 ≠ 0))
    waitSettled
    let phase := fld (← barWord n x) 31 1
    arrive n x (fld v 0 16) (statusWord (fld v 16 8) 0xF (fld v 24 4) (fld v 32 16))
    finishWith d.toNat phase) s

/-- An acquire at cluster scope by the issuing unit (Table 8-3). -/
def acquireHere : Act Unit := do
  let p ← myPort
  upd (fun s => s.dropCore p)

/-- BAR.WAIT: sleeps until the phase differs, counted in WAITERS (R237). A completion wakes it with the STATUS of that phase
(R24); a plain store that changes PHASE (R26) wakes it at its next turn. -/
def execBarWait (d a b : BitVec 5) (s : State) : Host.Outcome State Fault Refusal :=
  perform (do
    let st ← myStream
    let e ← sreg b.toNat
    let (n, x) ← barAddr a (decide (e > 1))
    let v ← barWord n x
    let wake := fun (status : Nat) => do
      acquireHere
      finishWith d.toNat status
    match st.wait with
    | .barWait _ (some status) => wake status.toNat
    | .barWait _ none =>
      if fld v 31 1 = e then stall
      writeBar n x (setFld v 112 16 (fld v 112 16 - 1))
      wake (fld v 64 32)
    | _ =>
      if fld v 31 1 ≠ e then wake (fld v 64 32)
      else
        writeBar n x (setFld v 112 16 (fld v 112 16 + 1))
        putStream { st with wait := .barWait x none }) s

/-- BAR.TEST (R237). -/
def execBarTest (d a b : BitVec 5) (s : State) : Host.Outcome State Fault Refusal :=
  perform (do
    let e ← sreg b.toNat
    let (n, x) ← barAddr a (decide (e > 1))
    let v ← barWord n x
    if fld v 31 1 ≠ e then
      acquireHere
      finishWith d.toNat (2 ^ 63 + fld v 64 32)
    else finishWith d.toNat 0) s

/-! ## Fences -/

/-- Waits until the stream's earlier accesses, and those of ended runs, have performed (R153, R255). -/
def waitEarlier : Act Unit := do
  match ← me with
  | .ctx _ => pure ()
  | .group k =>
    let g ← getGroup k
    if (!g.run.active && !g.laccs.isEmpty) || g.aldPending then stall

/-- FENCE (R255). At .sys it waits until every message the die had sent has been applied on every die and at the host. -/
def execFence (sc : BitVec 3) (s : State) : Host.Outcome State Fault Refusal :=
  perform (do
    if sc.toNat > 5 then raise 0x02
    let st ← myStream
    waitEarlier
    let p ← myPort
    let s ← now
    let acquire := do
      if 2 ≤ sc.toNat then acquireHere
      finish
    if sc.toNat < 5 then acquire
    else
      let n := match st.wait with
        | .fence m => m
        | _ => Tab.getD (s.clockOf p.die) p.die 0
      if (s.others p.die).all (fun o => decide (n ≤ Tab.getD (s.clockOf o) p.die 0)) then acquire
      else putStream { st with wait := .fence n }) s

/-- The queues a mask names, of the issuing unit, each with the number of its next entry: every entry below is earlier, every
later one waits (R20, R256). -/
def qfenceTargets (mask : Nat) : Act (List (Nat × W16)) := do
  match ← me with
  | .ctx c => return [(2, (← getCtx c).queue.next)]
  | .group k =>
    let g ← getGroup k
    return (bitsOf 10 mask).map (fun q => (q, (g.queue q).next))

/-- Whether a queue still has an entry to perform from before a number. -/
def Queue.before (x : Queue) (n : W16) : Bool := x.ents.any (fun e => decide ((n - e.seq - 1).toNat < 32768))

/-- Whether entries that a QFENCE waits for are still to perform. -/
def pendingEntry (t : Nat × W16) : Act Bool := do
  match ← me with
  | .ctx c => return (← getCtx c).queue.before t.2
  | .group k => return ((← getGroup k).queue t.1).before t.2

/-- QFENCE (R20, R256, R257). -/
def execQfence (m : BitVec 10) (s : State) : Host.Outcome State Fault Refusal :=
  perform (do
    let st ← myStream
    let u ← me
    let ctl := match u with | .ctx _ => true | .group _ => false
    if ctl && !(m &&& 0x3FB == 0) then raise 0x04
    if m = 0 then finish
    else
      let targets ← match st.wait with
        | .qfence l => pure l
        | _ => qfenceTargets m.toNat
      let left ← targets.filterM pendingEntry
      let s ← now
      let busy := match u with
        | .ctx _ => false
        | .group k => ((Tab.find s.groups k).map (fun g => (!g.run.active && !g.laccs.isEmpty) || g.aldPending)).getD false
      if left.isEmpty && !busy then
        acquireHere
        finish
      else putStream { st with wait := .qfence targets }) s

/-! ## Steps of the memory system -/

/-- TRANSLATION_WALK: a cluster of a die walks a table for a page and keeps the leaf, in place of the translation numbered
`victim` when it is full. `alt` names the entry of a 64 KiB block whose translation is taken (R206, R207). -/
def execTranslationWalk (die cl root va alt victim : Nat) (s : State) : Host.Outcome State Fault Refusal :=
  perform (do
    let s ← now
    guardA (decide (va < 2 ^ 48))
    upd (fun s => s.walked ⟨die, 16, none, root, [], true⟩ va)
    match s.walkFrom die va (some alt) 3 root with
    | .cause _ => stall
    | .need b => halt (.read die b)
    | .leaf pte lg _ =>
      modDie die (fun d =>
        let c := Tab.getD d.clusters cl .off
        let kept := if c.tlb.length ≥ 2048 then dropNth c.tlb victim else c.tlb
        let kept := kept.filter (fun t => !(t.root == root && t.lg == lg && t.va == va / 2 ^ lg))
        { d with clusters := Tab.set d.clusters cl { c with tlb := (⟨root, va / 2 ^ lg, lg, pte, d.host.hmlim⟩ :: kept).take 2048 } })) s

/-- CACHE_LINE_EXPIRE: a core drops a clean line (R247). -/
def execCacheLineExpire (die cl core block : Nat) (s : State) : Host.Outcome State Fault Refusal :=
  perform (upd (fun s => s.dropLine ⟨die, cl, some core, 0, [], true⟩ block)) s

/-- WRITE_COMBINE_TIMEOUT: a block that has waited WCWAIT clk in a die's write-combining buffer is completed by reading the
stored block, merging and coding again; where the buffer holds no such block, the L2 writes those of the block's dirty sectors
back that bits 7:0 of `secs` name, and they reach the controller together (R219, R220, Table 7-7) (DESIGN CHOICE, log 72). -/
def execWriteCombineTimeout (die block secs : Nat) (s : State) : Host.Outcome State Fault Refusal :=
  perform (do
    let d ← getDie die
    let data := Mem.read (← now).mem (256 * block) 256
    match d.combs.find? (fun c => c.block == block && d.combOver c) with
    | some c => putDie die (d.mergeStored c data)
    | none =>
      let held := (upFrom (8 * block) 8).filter (fun x => bit secs (x % 8) && (Tab.find d.dirty x).isSome)
      guardA (!held.isEmpty)
      let bytes := held.foldl (fun b x => b + (2 ^ 32 - 1) * 2 ^ (32 * (x % 8))) 0
      putDie die { (d.combine block bytes data) with dirty := d.dirty.filter (fun x => !held.contains x.1) }) s

end Sys2Proof.Machine
end

