-- ==== Sys2Proof/Machine/Copy.lean ====
section
/-! DEFINITION. The copy engine: COPY, GCOPY and MCOPY, their entries performing, batches, CWAIT and CSTAT (R289 to R302). -/

set_option linter.unusedVariables false

namespace Sys2Proof.Machine

open Sys2Proof

/-! ## The checks of a shape record (Table 10-3) -/

/-- Whether an integer is a multiple of n. -/
def multipleOf (n : Nat) (x : Int) : Bool := x % (n : Int) == 0

/-- Whether a shape record is valid (Table 10-3, R297, R298) (DEDUCED, log 51). -/
def shapeOk (kind : CopyKind) (node : Nat) (g : Gang) (r : Nat) : Bool :=
  let n := shapeElem r
  let nd := shapeNdim r
  let ssp := fld r 136 2
  let dsp := fld r 138 2
  let pub := bit r 146
  let gather := match kind with | .gather => true | _ => false
  decide (fld r 147 13 = 0) && decide (1 ≤ nd) && decide (nd ≤ 14) && decide (fld r 132 3 ≤ 5) && decide (ssp ≤ 1) && decide (dsp ≤ 1) &&
  !(ssp == 1 && !(fld r 32 32 == 0)) && !(dsp == 1 && !(fld r 96 32 == 0)) &&
  !(ssp == 1 && !(fld r 140 2 == 0)) && !(dsp == 1 && !(fld r 142 2 == 0)) &&
  decide (fld r 0 64 % n = 0) && decide (fld r 64 64 % n = 0) &&
  (shapeDims r).all (fun d => multipleOf n d.2.1 && multipleOf n d.2.2) &&
  decide ((shapeExts r).foldl (fun a b => a * b) 1 * n ≤ 2 ^ 32) &&
  (pub || (decide (fld r 144 2 = 0) && decide (fld r 160 32 = 0))) &&
  (!pub || (slotRegion (slotOf node (8 + fld r 144 2))).isSome) &&
  (barOf g (fld r 192 32)).isSome &&
  (gather || (!bit r 135 && decide (fld r 224 32 = 0) && decide (fld r 256 64 = 0))) &&
  (!gather || (decide (2 ≤ nd) && dsp == 1 && decide (fld r 256 64 % 4 = 0) && (shapeDims r).all (fun d => d.2.2 == 0))) &&
  (match kind with | .multi _ => dsp == 1 && decide (fld r 84 3 = 0) | _ => true)

/-- The lowest and highest byte that elements touch on one side: base, element size, and per dimension the greatest
counter and its stride (R296). -/
def touched (base n : Nat) (dims : List (Nat × Int)) : Int × Int :=
  let step := fun (neg : Bool) => (dims.map (fun d =>
    let x := (d.1 : Int) * d.2
    if neg == decide (x < 0) then x else 0)).foldl (fun a b => a + b) 0
  ((base : Int) + step true, (base : Int) + step false + n - 1)

/-- The greatest counters of a side; a gather's source takes IBOUND − 1 in dimension 1 (R297). With IBOUND 0 the index range is
empty, and the check is made as for index 0 (DESIGN CHOICE, log 76). -/
def topCounters (gather : Bool) (r : Nat) : List Nat :=
  let tops := (shapeExts r).map (fun e => e - 1)
  if gather then setNth tops 1 (fld r 224 32 - 1) else tops

/-- The cause of a side's range check, 0 for none (R296). `positions` lists the positions of a multicast. -/
def rangeCause (g : Gang) (spad : Bool) (base n : Nat) (dims : List (Nat × Int)) (positions : List Nat) : Nat :=
  let (lo, hi) := touched base n dims
  if spad then
    if base ≥ 2 ^ 23 then 0x14
    else
      let off := (fld base 20 3 : Int) * 2 ^ 20
      let ok := fun (pos : Nat) => decide (pos < g.cores) && decide (off ≤ lo) &&
        decide (hi - off < 8192 * ((Tab.getD g.hold pos []).length : Int))
      if positions.all ok then 0 else 0x14
  else if lo < 0 ∨ hi ≥ 2 ^ 48 then 0x10 else 0

/-- COPY, GCOPY and MCOPY: the checks at issue and the entry (R291, R292, R296 to R298). -/
def copyOp (kind : CopyKind) (d a : BitVec 5) : Act Unit := do
  let k ← myGroup
  let (_, ga) ← myGang
  let va ← sreg a.toNat
  checkAddr va 8
  let h ← readRec va 40
  let r ← (if 1 ≤ fld h 128 4 ∧ fld h 128 4 ≤ 14 then readRec va (40 + 20 * fld h 128 4) else pure h)
  if !shapeOk kind ((← now).nodeRec ga) ga r then raise 0x20
  let n := shapeElem r
  let gather := match kind with | .gather => true | _ => false
  let dstPos := match kind with | .multi m => bitsOf 8 m | _ => [fld r 84 3]
  if !(shapeExts r).contains 0 then
    let src := rangeCause ga (bit r 136) (fld r 0 64) n ((topCounters gather r).zip (shapeSrc r)) [fld r 20 3]
    let dst := rangeCause ga (bit r 138) (fld r 64 64) n ((topCounters false r).zip (shapeDst kind r)) dstPos
    check [(!(src == 0), src), (!(dst == 0), dst)]
  let seq ← issueEntry k 1 (.copy kind r (shapeNdim r))
  finishWith d.toNat seq

/-- COPY -/
def execCopy (d a : BitVec 5) (s : State) : Host.Outcome State Fault Refusal := perform (copyOp .plain d a) s
/-- GCOPY -/
def execGcopy (d a : BitVec 5) (s : State) : Host.Outcome State Fault Refusal := perform (copyOp .gather d a) s
/-- MCOPY -/
def execMcopy (d a b : BitVec 5) (s : State) : Host.Outcome State Fault Refusal :=
  perform (do
    let (_, ga) ← myGang
    let m ← sreg b.toNat
    let va ← sreg a.toNat
    discard myGroup
    check [(decide (m / 2 ^ ga.cores ≠ 0), 0x0A), (decide (m = 0), 0x04), (decide (va ≥ 2 ^ 48), 0x10), (decide (va % 8 ≠ 0), 0x12)]
    copyOp (.multi m) d a) s

/-! ## Elements and sectors -/

/-- The destination sectors of a copy, ascending (R243, R293). -/
def copySectors (els : List CopyEl) : List Nat := (sortBy (fun x => x) ((els.map (fun e => e.dst / 32)).eraseDups))

/-- Reads a 32-byte source sector for an engine; the address given names the access in a halt. -/
def readSector (gang : Nat) (p : Port) (spad : Bool) (pol z : Nat) : Act (Except Nat Nat) :=
  if spad then readSpad gang (32 * z) 32 else readVA p ⟨false, pol⟩ (32 * z) 32

/-- The source sectors of a destination sector, each read once: its value, or none where it is uncorrectable (R294). -/
def readSources (gang : Nat) (p : Port) (spad : Bool) (pol : Nat) : List CopyEl → Tab (Option Nat) →
    Act (Except (Nat × Nat) (Tab (Option Nat)))
  | [], t => pure (.ok t)
  | e :: es, t => do
    if e.zero ∨ (Tab.find t (e.src / 32)).isSome then readSources gang p spad pol es t
    else
      match ← readSector gang p spad pol (e.src / 32) with
      | .ok v => readSources gang p spad pol es (Tab.set t (e.src / 32) (some v))
      | .error c =>
        if c = 0x13 then readSources gang p spad pol es (Tab.set t (e.src / 32) none)
        else return .error (c, e.src)

/-- The bytes of an element. -/
def elemValue (n : Nat) (t : Tab (Option Nat)) (e : CopyEl) : Nat :=
  if e.zero then 0
  else match Tab.getD t (e.src / 32) none with
    | none => 0
    | some v => fld v (8 * (e.src % 32)) (8 * n)

/-- The elements merged into a sector, a later one over an earlier one (R293). -/
def mergeEls (n : Nat) (t : Tab (Option Nat)) (w : Nat) (es : List CopyEl) : Nat :=
  es.foldl (fun w e => setFld w (8 * (e.dst % 32)) (8 * n) (elemValue n t e)) w

/-- Whether elements cover every byte of their sector. -/
def coverAll (n : Nat) (es : List CopyEl) : Bool :=
  (upFrom 0 32).all (fun b => es.any (fun e => decide (e.dst % 32 ≤ b) && decide (b < e.dst % 32 + n)))

/-- What a destination sector holds before a merge; uncorrectable reads as zeros and is reported (R294). The merge read needs
only the permission of the write (DESIGN CHOICE, log 77). -/
def readDest (gang : Nat) (p : Port) (spad : Bool) (z : Nat) : Act (Except Nat (Nat × Bool)) := do
  let x ← (if spad then readSpad gang (32 * z) 32
    else do
      match ← locate p (32 * z) .write with
      | .error c => return .error c
      | .ok pl => readPlace p fresh pl 32)
  match x with
  | .ok v => return .ok (v, false)
  | .error c => if c = 0x13 then return .ok (0, true) else return .error c

/-- Writes a destination sector. -/
def writeDest (gang : Nat) (p : Port) (spad : Bool) (z v : Nat) : Act (Except Nat (Option (Nat × Nat))) := do
  if spad then
    match ← writeSpad gang (32 * z) 32 v with
    | .error c => return .error c
    | .ok _ => return .ok none
  else writeVA p (32 * z) 32 v

/-- A status code and AUX as one number, the worse of two first. -/
def worseSts (x y : Nat) : Nat := if statusRank (y / 16) > statusRank (x / 16) then y else x

/-- The head of a queue. -/
def headEnt (k q : Nat) : Act Ent := do need ((← getGroup k).queue q).ents.head?

/-- The head of a queue gathers a status, and its sectors and messages so far. -/
def note (k q st : Nat) (sent : Option (Nat × Nat)) (wrote : Nat) : Act Unit := do
  let e ← headEnt k q
  progress k q e.pos wrote (worseSts e.status.toNat st) (match sent with
    | none => []
    | some (h, c) => [(h, c)])

/-- Reads a destination sector that an entry covers only in part, merges, and keeps the merged sector for its write (R244). The
cause, if any; `aux` names an uncorrectable sector, and a correction is reported (R222, R294). -/
def mergeSector (k q aux : Nat) (p : Port) (spad : Bool) (z : Nat) (f : Nat → Nat) : Act (Option Nat) := do
  let before := (← now).corrections
  match ← readDest (k / 65536) p spad z with
  | .error c => return some c
  | .ok (w, bad) =>
    let fixed := !((← now).corrections == before)
    note k q (if bad then 0x30 + aux else if fixed then 0x20 else 0) none 0
    setHead k q (fun e => { e with merge := Tab.set e.merge z (f w) })
    return none

/-- Writes a whole sector for an entry. The cause, if any. -/
def writeSector (k q : Nat) (p : Port) (spad : Bool) (z v : Nat) : Act (Option Nat) := do
  match ← writeDest (k / 65536) p spad z v with
  | .error c => return some c
  | .ok sent =>
    note k q 0 sent 1
    setHead k q (fun e => { e with merge := Tab.del e.merge z })
    return none

/-- One destination sector of an engine's entry, from what the entry puts over the sector's old bits: true once it is written.
Unless the entry covers it in full, it is read and merged in one turn and written in the next (R243, R244); `aux` names an
uncorrectable sector in the status. Or the cause (DEDUCED, log 52). -/
def putOver (k q aux : Nat) (p : Port) (spad : Bool) (z : Nat) (full : Bool) (put : Nat → Nat) : Act (Except Nat Bool) := do
  let e ← headEnt k q
  if full || (Tab.find e.merge z).isSome then
    match ← writeSector k q p spad z (Tab.getD e.merge z (put 0)) with
    | some c => return .error c
    | none => return .ok true
  else
    match ← mergeSector k q aux p spad z put with
    | some c => return .error c
    | none => return .ok false

/-- One destination sector of an engine's entry from bytes at addresses in it, a later byte over an earlier one, as `putOver`. -/
def putSector (k q aux : Nat) (p : Port) (spad : Bool) (z : Nat) (bytes : List (Nat × Nat)) : Act (Except Nat Bool) :=
  putOver k q aux p spad z ((upFrom (32 * z) 32).all (fun a => bytes.any (fun b => b.1 == a)))
    (fun w => bytes.foldl (fun w b => setFld w (8 * (b.1 % 32)) 8 b.2) w)

/-- The destination sector at each of a multicast's positions, ascending: read and merged (R298). -/
def copyMerges (k : Nat) (p : Port) (spad : Bool) (z : Nat) (f : Nat → Nat) : List Nat → Act (Option (Nat × Nat))
  | [] => pure none
  | pos :: rest => do
    match ← mergeSector k 1 2 p spad (z + pos * 2 ^ 15) f with
    | some c => return some (c, 32 * (z + pos * 2 ^ 15))
    | none => copyMerges k p spad z f rest

/-- The destination sector at each of a multicast's positions, ascending: written whole, as merged before or as given. -/
def copyPuts (k : Nat) (p : Port) (spad : Bool) (z v : Nat) (merged : Tab Nat) : List Nat → Act (Option (Nat × Nat))
  | [] => pure none
  | pos :: rest => do
    let at_ := z + pos * 2 ^ 15
    match ← writeSector k 1 p spad at_ (Tab.getD merged at_ v) with
    | some c => return some (c, 32 * at_)
    | none => copyPuts k p spad z v merged rest

/-- The sources of a destination sector are read, at die scope, and their errors noted (R293, R294): the cause with its address,
or what was read. -/
def copySources (k : Nat) (p : Port) (r : Nat) (es : List CopyEl) : Act (Except (Nat × Nat) (Tab (Option Nat))) := do
  let before := (← now).corrections
  match ← readSources (k / 65536) p (bit r 136) (fld r 140 2) es [] with
  | .error e => return .error e
  | .ok t =>
    let fixed := !((← now).corrections == before)
    note k 1 (worseSts (if fixed then 0x20 else 0) (if t.any (fun x => x.2.isNone) then 0x30 else 0)) none 0
    return .ok t

/-- The head of a C queue halts, or goes on to its next sector. -/
def copyNext (k : Nat) (pos : Nat) (x : Option (Nat × Nat)) : Act Bool := do
  match x with
  | some (c, a) =>
    haltHead k 1 c a
    return false
  | none =>
    setHead k 1 (fun x => { x with pos := pos + 1 })
    return true

/-- One destination sector of the head of a C queue (R293, R294): read and written, or, where the copy covers only a part of it,
read and merged in one turn and written in the next (R244). True while the entry goes on in this turn. -/
def copySector (k : Nat) (p : Port) (kind : CopyKind) (r z : Nat) (els : List CopyEl) : Act Bool := do
  let es := els.filter (fun e => e.dst / 32 == z)
  let n := shapeElem r
  let positions := match kind with | .multi m => bitsOf 8 m | _ => [0]
  let e ← headEnt k 1
  if !e.merge.isEmpty then copyNext k e.pos (← copyPuts k p (bit r 138) z 0 e.merge positions)
  else
    match ← copySources k p r es with
    | .error (c, a) => copyNext k e.pos (some (c, a))
    | .ok t =>
      if coverAll n es then copyNext k e.pos (← copyPuts k p (bit r 138) z (mergeEls n t 0 es) [] positions)
      else
        match ← copyMerges k p (bit r 138) z (fun w => mergeEls n t w es) positions with
        | some x => copyNext k e.pos (some x)
        | none => return false

/-- The sectors of a list one after another, n of them at most. -/
def copyRun (k : Nat) (p : Port) (kind : CopyKind) (r : Nat) (els : List CopyEl) : Nat → List Nat → Act Bool
  | 0, zs => pure zs.isEmpty
  | _, [] => pure true
  | n + 1, z :: zs => do
    if ← copySector k p kind r z els then copyRun k p kind r els n zs
    else return false

/-! ## Gathering -/

/-- Reads an index list: five bytes for each index, the last 1 where it is out of range and 2 where its sector is
uncorrectable. The first memory cause met with its address (R294, R297). -/
def readIndexes (p : Port) (bound : Nat) : Nat → Nat → Act (Except (Nat × Nat) (List Byte))
  | 0, _ => pure (.ok [])
  | n + 1, va => do
    let here ← (do
      match ← readVA p fresh va 4 with
      | .error c => if c = 0x13 then return .ok (toBytes 4 0 ++ [2]) else return .error (c, va)
      | .ok x => return .ok (toBytes 4 x ++ [if x < bound then 0 else 1]) : Act (Except (Nat × Nat) (List Byte)))
    match here with
    | .error e => return .error e
    | .ok b =>
      match ← readIndexes p bound n (va + 4) with
      | .error e => return .error e
      | .ok bs => return .ok (b ++ bs)

/-- The number of the first index of a buffer that is out of range. -/
def firstOut : List Byte → Nat → Option Nat
  | _ :: _ :: _ :: _ :: f :: t, i => if f = 1 then some i else firstOut t (i + 1)
  | _, _ => none

/-- The start of a GCOPY entry: the whole index list is read and checked, and the entry commits (R265, R297). True when the entry
goes on. -/
def gatherStart (k : Nat) (p : Port) (r : Nat) : Act Bool := do
  let before := (← now).corrections
  match ← readIndexes p (fld r 224 32) (shapeDim r 1).1 (fld r 256 64) with
  | .error (c, a) =>
    haltHead k 1 c a
    return false
  | .ok buf =>
    match firstOut buf 0, bit r 135 with
    | some i, false =>
      haltHead k 1 0x21 (fld r 256 64 + 4 * i)
      return false
    | out, _ =>
      let bad := (upFrom 0 (buf.length / 5)).any (fun i => nth buf (5 * i + 4) 0 == 2)
      let fixed := !((← now).corrections == before)
      let st := worseSts (worseSts (if fixed then 0x20 else 0) (if out.isSome then 0x80 else 0)) (if bad then 0x31 else 0)
      setHead k 1 (fun e => { e with started := true, buf := buf, status := BitVec.ofNat 32 st })
      commitAll k
      return true

/-- The copy entries in progress in the cluster of a group (R289). -/
def State.copiesBegun (s : State) (k : Nat) : Nat :=
  let place := fun (x : Nat) => (s.gangOf (.group x)).map (fun g => (g.die, g.cluster, g.placed))
  (s.groups.filter (fun g => place g.1 == place k && (((g.2.queue 1).ents.head?.map (fun e => e.started)).getD false) &&
    (g.2.queue 1).halt.isNone)).length

/-- COPY_ENTRY_PERFORM: the next n destination sectors of the head of a group's C queue, one of at most 16 entries in progress in
the cluster; after the last it arrives and publishes (R289, R293, R295). A publication that meets a cause halts the queue with
the arrival made. -/
def execCopyEntryPerform (gk n : Nat) (s : State) : Host.Outcome State Fault Refusal :=
  perform (do
    let (g, qu, e) ← headOf gk 1
    match e.op with
    | .copy kind r _ =>
      let s ← now
      guardA (e.started || decide (s.copiesBegun gk < 16))
      let p ← headPort gk 1
      let gather := match kind with | .gather => true | _ => false
      let go ← (if gather && !e.started then gatherStart gk p r else pure true)
      if go then
        let e ← need ((← getGroup gk).queue 1).ents.head?
        let els := copyEls kind r e.buf
        setHead gk 1 (fun x => { x with started := true })
        if ← copyRun gk p kind r els n ((copySectors els).drop e.pos) then
          if ← headReached gk 1 then
            let inst := (← now).instOf (.group gk)
            let e ← headEnt gk 1
            match ← (if bit r 146 then publish p inst (8 + fld r 144 2) (fld r 160 32) else pure none) with
            | some (c, a) =>
              arriveAt (gk / 65536) e.op.bar (statusWord (e.status.toNat / 16) 1 (e.status.toNat % 16) e.seq.toNat)
              haltHead gk 1 c a
            | none => discard (complete gk 1 (e.status.toNat / 16) (e.status.toNat % 16))
    | _ => stall) s

/-! ## Batches -/

/-- CSEAL (R300). -/
def execCseal (d : BitVec 5) (s : State) : Host.Outcome State Fault Refusal :=
  perform (do
    let k ← myGroup
    waitSettled
    let g ← getGroup k
    if g.sealedLeft.length ≥ 64 then halt (.wait .engine)
    let g1 := { g with batches := ⟨(g.batches.opened + 1) % 65536, g.batches.sealed ++ [g.batches.opened]⟩ }
    putGroup k { g1 with batches := { g1.batches with sealed := g1.sealedLeft } }
    finishWith d.toNat g.batches.opened) s

/-- A CWAIT that has nothing left to wait for is an acquire and completes; a halt of the C queue is raised at it (R301). -/
def cwaitEnd (k : Nat) (done : Bool) : Act Unit := do
  if done then
    acquireHere
    finish
  else halt (.wait .engine)

/-- CWAIT.upto (R301). -/
def execCwaitUpto (a : BitVec 5) (s : State) : Host.Outcome State Fault Refusal :=
  perform (do
    let k ← myGroup
    let b ← sreg a.toNat
    let g ← getGroup k
    let back := (g.batches.opened + 65536 - b % 65536) % 65536
    if b ≥ 65536 ∨ back = 0 ∨ back > 32768 then raise 0x04
    cwaitEnd k (g.sealedLeft.all (fun x => decide ((g.batches.opened + 65536 - x) % 65536 < back)))) s

/-- CWAIT.left (R301). -/
def execCwaitLeft (a : BitVec 5) (s : State) : Host.Outcome State Fault Refusal :=
  perform (do
    let k ← myGroup
    let n ← sreg a.toNat
    if n ≥ 2 ^ 32 then raise 0x04
    let g ← getGroup k
    cwaitEnd k (decide (g.sealedLeft.length ≤ n))) s

/-- CSTAT (R302). -/
def execCstat (d a : BitVec 5) (s : State) : Host.Outcome State Fault Refusal :=
  perform (do
    let k ← myGroup
    let n ← sreg a.toNat
    let g ← getGroup k
    let q := g.queue 1
    let sticky := fld g.csts.sticky 1 10 * 2
    match n with
    | 0 => finishWith d.toNat (q.mark.toNat + q.next.toNat * 2 ^ 16 + g.batches.opened * 2 ^ 32 +
        (g.sealedLeft.head?.getD g.batches.opened) * 2 ^ 48)
    | 1 => finishWith d.toNat sticky
    | 2 => finishWith d.toNat g.csts.last.toNat
    | 3 =>
      putGroup k { g with csts := ⟨0, 0⟩ }
      finishWith d.toNat sticky
    | _ => raise 0x04) s

end Sys2Proof.Machine
end

