-- ==== Sys2Proof/Machine/LaneAlu.lean ====
section
/-! DEFINITION. Lane arithmetic: integer instructions, moves and predicates, FP32 and pair arithmetic, conversion
(R166 to R180). -/

set_option linter.unusedVariables false

namespace Sys2Proof.Machine

open Sys2Proof

/-! ## Typed values -/

/-- The width of an integer type (Table 3-7). -/
def tyBits (t : Nat) : Nat :=
  if t = 1 ∨ t = 5 then 8 else if t = 2 ∨ t = 6 then 16 else if t = 4 ∨ t = 8 then 64 else 32

/-- Whether an integer type is signed. -/
def tySigned (t : Nat) : Bool := 1 ≤ t && t ≤ 4

/-- A slot's bits read as an integer type (R108). -/
def tyRead (t x : Nat) : Int := if tySigned t then sext (tyBits t) x else ((x % 2 ^ tyBits t : Nat) : Int)

/-- The least value of an integer type. -/
def tyMin (t : Nat) : Int := if tySigned t then -(2 ^ (tyBits t - 1) : Int) else 0

/-- The greatest value of an integer type. -/
def tyMax (t : Nat) : Int := if tySigned t then (2 ^ (tyBits t - 1) : Int) - 1 else (2 ^ tyBits t : Int) - 1

/-- An exact result wrapped or saturated to an integer type, filling its register or pair (R108, R109). -/
def tyPut (t : Nat) (sat : Bool) (x : Int) : Nat :=
  wrap (max 32 (tyBits t)) (if sat then max (tyMin t) (min (tyMax t) x) else tyRead t (wrap (tyBits t) x))

/-- The SAT modifier. -/
def satOf (w : LaneW) : Bool := w.mod.getLsbD 3
/-- The rounding mode (Table 3-8). -/
def rmOf (w : LaneW) : Nat := w.mod.toNat / 2 % 4

/-- One result a thread from the slots named, for every thread that takes part (R167). -/
def lanes (w : LaneW) (wide : Bool) (rs : List SlotReq) (f : List Nat → Nat) : Act Unit := do
  let l ← myLane
  checkD w wide
  let xs ← readOps w (l.part w) rs
  laneResult w wide (xs.map (fun x => (x.1, f x.2)))

/-- As `lanes`, for a long-latency instruction (R168). -/
def lanesLong (w : LaneW) (rs : List SlotReq) (f : List Nat → Nat) : Act Unit := do
  let l ← myLane
  checkD w false
  let xs ← readOps w (l.part w) rs
  laneLong w (xs.map (fun x => (x.1, f x.2)))

/-- Value of slot i among those read. -/
def arg (xs : List Nat) (i : Nat) : Nat := nth xs i 0

/-! ## Integer instructions (Table 6-1) -/

/-- A two-operand integer instruction of type T with result type `out`. -/
def int2 (w : LaneW) (out : Nat) (f : Int → Int → Int) (s : State) : Host.Outcome State Fault Refusal :=
  perform (lanes w (wide64 out) [slotT w.pty w.a, slotT w.pty w.b]
    (fun xs => tyPut out (satOf w) (f (tyRead w.pty (arg xs 0)) (tyRead w.pty (arg xs 1))))) s

/-- A one-operand integer instruction. -/
def int1 (w : LaneW) (out : Nat) (f : Int → Int) (s : State) : Host.Outcome State Fault Refusal :=
  perform (lanes w (wide64 out) [slotT w.pty w.a] (fun xs => tyPut out (satOf w) (f (tyRead w.pty (arg xs 0))))) s

/-- The 64-bit type of a type's signedness. -/
def tyWide (t : Nat) : Nat := if tySigned t then 4 else 8

/-- The result type under W (R170). -/
def outTy (w : LaneW) : Nat := if w.mod.getLsbD 0 then tyWide w.pty else w.pty

/-- IADD -/
def execIadd (w : LaneW) (s : State) : Host.Outcome State Fault Refusal := int2 w w.pty (fun a b => a + b) s
/-- ISUB -/
def execIsub (w : LaneW) (s : State) : Host.Outcome State Fault Refusal := int2 w w.pty (fun a b => a - b) s
/-- IMUL, with W a pair (R170) -/
def execImul (w : LaneW) (s : State) : Host.Outcome State Fault Refusal := int2 w (outTy w) (fun a b => a * b) s
/-- IMAD: a × b + c, with W the addend and the result pairs (R170) -/
def execImad (w : LaneW) (s : State) : Host.Outcome State Fault Refusal :=
  perform (lanes w (wide64 (outTy w)) [slotT w.pty w.a, slotT w.pty w.b, slotT (outTy w) w.c]
    (fun xs => tyPut (outTy w) (satOf w)
      (tyRead w.pty (arg xs 0) * tyRead w.pty (arg xs 1) + tyRead (outTy w) (arg xs 2)))) s
/-- IMULH: floor of the product over 2^32 -/
def execImulh (w : LaneW) (s : State) : Host.Outcome State Fault Refusal := int2 w w.pty (fun a b => a * b / 2 ^ 32) s
/-- IABS -/
def execIabs (w : LaneW) (s : State) : Host.Outcome State Fault Refusal := int1 w w.pty (fun a => (a.natAbs : Int)) s
/-- IMIN -/
def execImin (w : LaneW) (s : State) : Host.Outcome State Fault Refusal := int2 w w.pty (fun a b => min a b) s
/-- IMAX -/
def execImax (w : LaneW) (s : State) : Host.Outcome State Fault Refusal := int2 w w.pty (fun a b => max a b) s
/-- AND -/
def execLaneAnd (w : LaneW) (s : State) : Host.Outcome State Fault Refusal :=
  int2 w w.pty (fun a b => ((a.toNat &&& b.toNat : Nat) : Int)) s
/-- OR -/
def execLaneOr (w : LaneW) (s : State) : Host.Outcome State Fault Refusal :=
  int2 w w.pty (fun a b => ((a.toNat ||| b.toNat : Nat) : Int)) s
/-- XOR -/
def execLaneXor (w : LaneW) (s : State) : Host.Outcome State Fault Refusal :=
  int2 w w.pty (fun a b => ((a.toNat ^^^ b.toNat : Nat) : Int)) s
/-- NOT -/
def execNotL (w : LaneW) (s : State) : Host.Outcome State Fault Refusal := int1 w w.pty (fun a => -a - 1) s

/-- A shift: the count slot is 32 bits, and f is given a count below the width or the width (R171). -/
def shiftLane (w : LaneW) (f : Int → Nat → Int) (s : State) : Host.Outcome State Fault Refusal :=
  perform (lanes w (wide64 w.pty) [slotT w.pty w.a, slot32 w.b]
    (fun xs => tyPut w.pty false (f (tyRead w.pty (arg xs 0)) (min (arg xs 1) (tyBits w.pty))))) s

/-- SHL (R171) -/
def execLaneShl (w : LaneW) (s : State) : Host.Outcome State Fault Refusal := shiftLane w (fun a n => a * 2 ^ n) s
/-- SHR (R171) -/
def execLaneShr (w : LaneW) (s : State) : Host.Outcome State Fault Refusal := shiftLane w (fun a n => a / 2 ^ n) s
/-- SRA (R171) -/
def execLaneSra (w : LaneW) (s : State) : Host.Outcome State Fault Refusal := shiftLane w (fun a n => a / 2 ^ n) s

/-- BFE of a by control word k (R171). -/
def bfeBits (signed : Bool) (a k : Nat) : Nat :=
  let o := k % 256
  let l := min (k / 256 % 256) (32 - o)
  if l = 0 then 0 else if signed then wrap 32 (sext l (fld a o l)) else fld a o l

/-- BFI of a into b by control word k (R171). -/
def bfiBits (a b k : Nat) : Nat :=
  let o := k % 256
  let l := min (k / 256 % 256) (32 - o)
  if l = 0 then b else setFld b o l a

/-- BFE (R171) -/
def execBfe (w : LaneW) (s : State) : Host.Outcome State Fault Refusal :=
  perform (lanes w false [slot32 w.a, slot32 w.b] (fun xs => bfeBits (tySigned w.pty) (arg xs 0) (arg xs 1))) s
/-- BFI (R171) -/
def execBfi (w : LaneW) (s : State) : Host.Outcome State Fault Refusal :=
  perform (lanes w false [slot32 w.a, slot32 w.b, slot32 w.c] (fun xs => bfiBits (arg xs 0) (arg xs 1) (arg xs 2))) s
/-- POPC; a single register even for .n64 (R170) -/
def execPopc (w : LaneW) (s : State) : Host.Outcome State Fault Refusal :=
  perform (lanes w false [slotT w.pty w.a] (fun xs => popcount (tyBits w.pty) (arg xs 0))) s
/-- CLZ; a single register even for .n64 (R170) -/
def execClz (w : LaneW) (s : State) : Host.Outcome State Fault Refusal :=
  perform (lanes w false [slotT w.pty w.a] (fun xs => clzN (tyBits w.pty) (arg xs 0))) s

/-- An ordered comparison by its sub-code: 0 EQ, 1 NE, 2 LT, 3 LE, 4 GT, 5 GE (R172, R177). -/
def condOf (c : Nat) (eq lt : Bool) : Bool :=
  match c with
  | 0 => eq
  | 1 => !eq
  | 2 => lt
  | 3 => lt || eq
  | 4 => !(lt || eq)
  | _ => !lt

/-- ISETP (R172) -/
def execIsetp (w : LaneW) (s : State) : Host.Outcome State Fault Refusal :=
  perform (lanes w false [slotT w.pty w.a, slotT w.pty w.b]
    (fun xs =>
      let a := tyRead w.pty (arg xs 0)
      let b := tyRead w.pty (arg xs 1)
      b2n (condOf w.c.toNat (a == b) (decide (a < b))))) s

/-! ## Moves and predicates -/

/-- MOV: a register, a pair, or the truth of a non-zero value to a predicate (R173). -/
def execMov (w : LaneW) (s : State) : Host.Outcome State Fault Refusal :=
  perform (lanes w (wide64 w.pty) [slotT w.pty w.a] (fun xs => arg xs 0)) s

/-- SEL: every active thread reads both slots, and its guard chooses (R174). -/
def execLaneSel (w : LaneW) (s : State) : Host.Outcome State Fault Refusal :=
  perform (do
    let l ← myLane
    checkD w (wide64 w.pty)
    let xs ← readOps w l.active [slotT w.pty w.a, slotT w.pty w.b]
    laneResult w (wide64 w.pty) (xs.map (fun x => (x.1, if l.guard w x.1 then arg x.2 0 else arg x.2 1)))) s

/-- PLOP (R175) -/
def execPlop (w : LaneW) (s : State) : Host.Outcome State Fault Refusal :=
  perform (do
    let l ← myLane
    let n := w.imm.toNat
    laneResult w false ((l.part w).map (fun t =>
      let th := l.g.thread t
      (t, b2n (bit (fld n 16 8)
        (4 * b2n (th.pred (fld n 0 3)) + 2 * b2n (th.pred (fld n 4 3)) + b2n (th.pred (fld n 8 3)))))))) s

/-! ## FP32 (Table 6-2) -/

/-- Absolute value then negation of an encoding (R115). -/
def modF (f : Fmt) (ab neg : Bool) (x : Nat) : Nat :=
  let m := 2 ^ (f.ebits + f.fbits)
  let y := if ab then x % m else x
  if neg then y ^^^ m else y

/-- Operand A under AA and NA. -/
def opA (w : LaneW) (x : Nat) : Nat := modF fmt32 (w.mod.getLsbD 5) (w.mod.getLsbD 7) x
/-- Operand B under AB and NB. -/
def opB (w : LaneW) (x : Nat) : Nat := modF fmt32 (w.mod.getLsbD 4) (w.mod.getLsbD 6) x

/-- A result rounded under RM and saturated under SAT (R118, R176). -/
def roundW (w : LaneW) (f : Fmt) (x : FV) : Nat :=
  let r := encodeF f (rmOf w) x
  if (satOf w) then satF f r else r

/-- A two-operand FP32 instruction on modified encodings. -/
def fp2 (w : LaneW) (f : Nat → Nat → Nat) (s : State) : Host.Outcome State Fault Refusal :=
  perform (lanes w false [slot32 w.a, slot32 w.b] (fun xs => f (opA w (arg xs 0)) (opB w (arg xs 1)))) s

/-- A long-latency one-operand FP32 instruction. -/
def fp1 (w : LaneW) (f : Nat → Nat) (s : State) : Host.Outcome State Fault Refusal :=
  perform (lanesLong w [slot32 w.a] (fun xs => f (opA w (arg xs 0)))) s

/-- FADD -/
def execFadd (w : LaneW) (s : State) : Host.Outcome State Fault Refusal :=
  fp2 w (fun a b => roundW w fmt32 (addF (rmOf w) (decodeF fmt32 a) (decodeF fmt32 b))) s
/-- FSUB -/
def execFsub (w : LaneW) (s : State) : Host.Outcome State Fault Refusal :=
  fp2 w (fun a b => roundW w fmt32 (addF (rmOf w) (decodeF fmt32 a) (decodeF fmt32 b).neg)) s
/-- FMUL -/
def execFmul (w : LaneW) (s : State) : Host.Outcome State Fault Refusal :=
  fp2 w (fun a b => roundW w fmt32 (mulF (decodeF fmt32 a) (decodeF fmt32 b))) s
/-- FFMA: one rounding; C takes no modifier (R118, R176) -/
def execFfma (w : LaneW) (s : State) : Host.Outcome State Fault Refusal :=
  perform (lanes w false [slot32 w.a, slot32 w.b, slot32 w.c] (fun xs =>
    roundW w fmt32 (addF (rmOf w) (mulF (decodeF fmt32 (opA w (arg xs 0))) (decodeF fmt32 (opB w (arg xs 1))))
      (decodeF fmt32 (arg xs 2))))) s
/-- FMIN -/
def execFmin (w : LaneW) (s : State) : Host.Outcome State Fault Refusal := fp2 w (minF fmt32 false) s
/-- FMAX -/
def execFmax (w : LaneW) (s : State) : Host.Outcome State Fault Refusal := fp2 w (minF fmt32 true) s

/-- FSETP's comparison (R177). -/
def fsetp (c a b : Nat) : Bool :=
  let un := fnan32 a || fnan32 b
  if c = 6 then !un
  else if c = 7 then un
  else if un then c == 1
  else condOf c (feq32 a b) (flt32 a b)

/-- FSETP (R177) -/
def execFsetp (w : LaneW) (s : State) : Host.Outcome State Fault Refusal := fp2 w (fun a b => b2n (fsetp w.c.toNat a b)) s

/-- FRND's result (R178). -/
def frnd (rm x : Nat) : Nat :=
  match decodeF fmt32 x with
  | .nan => fmt32.qnan
  | .inf n => fmt32.sign n + fmt32.inf
  | .fin n m e => encodeF fmt32 0 (.fin n (intRound rm n m e) 0)

/-- FRND (R178) -/
def execFrnd (w : LaneW) (s : State) : Host.Outcome State Fault Refusal :=
  perform (lanes w false [slot32 w.a] (fun xs => frnd (rmOf w) (opA w (arg xs 0)))) s

/-- FRCP (R121) -/
def execFrcp (w : LaneW) (s : State) : Host.Outcome State Fault Refusal := fp1 w frcp s
/-- FRSQ (R121) -/
def execFrsq (w : LaneW) (s : State) : Host.Outcome State Fault Refusal := fp1 w frsq s
/-- FSQRT (R118, R176) -/
def execFsqrt (w : LaneW) (s : State) : Host.Outcome State Fault Refusal :=
  fp1 w (fun a => roundW w fmt32 (sqrtF (decodeF fmt32 a))) s
/-- FEXP2 (R121) -/
def execFexp2 (w : LaneW) (s : State) : Host.Outcome State Fault Refusal := fp1 w fexp2 s
/-- FLOG2 (R121) -/
def execFlog2 (w : LaneW) (s : State) : Host.Outcome State Fault Refusal := fp1 w flog2 s
/-- FSIN (R122) -/
def execFsin (w : LaneW) (s : State) : Host.Outcome State Fault Refusal := fp1 w fsin s
/-- FCOS (R122) -/
def execFcos (w : LaneW) (s : State) : Host.Outcome State Fault Refusal := fp1 w fcos s

/-! ## Pairs (R179) -/

/-- The element format of a pair type. -/
def pairFmt (t : Nat) : Fmt := if t = 14 then fmt16 else fmtB16

/-- An operation on the two elements of each operand (R111). -/
def pairs (w : LaneW) (f : FV → FV → FV → FV) (xs : List Nat) : Nat :=
  let t := pairFmt w.pty
  let el := fun (i : Nat) =>
    roundW w t (f (decodeF t (modF t false (w.mod.getLsbD 7) (fld (arg xs 0) i 16)))
      (decodeF t (modF t false (w.mod.getLsbD 6) (fld (arg xs 1) i 16))) (decodeF t (fld (arg xs 2) i 16)))
  el 0 + el 16 * 2 ^ 16

/-- HADD2 -/
def execHadd2 (w : LaneW) (s : State) : Host.Outcome State Fault Refusal :=
  perform (lanes w false [slot32 w.a, slot32 w.b] (pairs w (fun a b _ => addF (rmOf w) a b))) s
/-- HMUL2 -/
def execHmul2 (w : LaneW) (s : State) : Host.Outcome State Fault Refusal :=
  perform (lanes w false [slot32 w.a, slot32 w.b] (pairs w (fun a b _ => mulF a b))) s
/-- HFMA2 -/
def execHfma2 (w : LaneW) (s : State) : Host.Outcome State Fault Refusal :=
  perform (lanes w false [slot32 w.a, slot32 w.b, slot32 w.c] (pairs w (fun a b c => addF (rmOf w) (mulF a b) c))) s

/-! ## Conversion (R120, R180) -/

/-- The floating format of a type code. -/
def fltFmt (t : Nat) : Fmt :=
  if t = 10 ∨ t = 14 then fmt16 else if t = 11 ∨ t = 15 then fmtB16 else if t = 12 then fmtE4M3 else fmt32

/-- Whether a type code is an integer type. -/
def isInt (t : Nat) : Bool := 1 ≤ t && t ≤ 8

/-- The value of a non-integer source. -/
def fltRead (t x : Nat) : FV := if t = 13 then decodeL6 x else decodeF (fltFmt t) x

/-- One conversion from type `src` to type `dst` (Table 4-4). -/
def convert (dst src rm : Nat) (sat : Bool) (x : Nat) : Nat :=
  if isInt dst then
    if isInt src then tyPut dst sat (tyRead src x)
    else tyPut dst true (toInt rm (tyMin dst) (tyMax dst) (fltRead src x))
  else
    let v := if isInt src then FV.ofInt (tyRead src x) else fltRead src x
    if dst = 13 then encodeL6 v
    else
      let r := encodeF (fltFmt dst) rm v
      if sat then satF (fltFmt dst) r else r

/-- CVT (R180) -/
def execCvt (w : LaneW) (s : State) : Host.Outcome State Fault Refusal :=
  perform (
    if w.pty = 14 ∨ w.pty = 15 then
      lanes w false [slot32 w.a, slot32 w.b] (fun xs =>
        convert w.pty 9 (rmOf w) (satOf w) (arg xs 0) + convert w.pty 9 (rmOf w) (satOf w) (arg xs 1) * 2 ^ 16)
    else
      lanes w (wide64 w.pty) [slotT w.sty w.a] (fun xs => convert w.pty w.sty (rmOf w) (satOf w) (arg xs 0))) s

end Sys2Proof.Machine
end

