-- ==== Sys2Proof/Machine/Ballast.lean ====
section
/-! DEFINITION. The Ballast: weight words, roots, takes and borrows, returns and quiescence, its instructions, entries and
messages (19_ballast.md). -/

set_option linter.unusedVariables false

namespace Sys2Proof.Machine

open Sys2Proof

/-! ## Weight words (Table 19-1) -/

/-- AMT of a weight word. -/
def amtOf (w : Nat) : Nat := fld w 0 48
/-- TAG -/
def tagOf (w : Nat) : Nat := fld w 48 6
/-- ROOT: 4 × IDX + DIE -/
def rootOf (w : Nat) : Nat := fld w 54 10
/-- A weight word of a root and tag; with no units it is zero (R491). -/
def weightWord (root tag amt : Nat) : Nat := if amt = 0 then 0 else root * 2 ^ 54 + tag * 2 ^ 48 + amt
/-- The die that holds a root. -/
def rootDie (root : Nat) : Nat := root % 4
/-- The greatest amount of a holder (R494). -/
def maxAmt : Nat := 2 ^ 48 - 1
/-- Whether two words name the same root (R491). -/
def sameRoot (a b : Nat) : Bool := a / 2 ^ 48 == b / 2 ^ 48

/-- Weight w added to a holder that has h: none where R494 raises 0xA0. -/
def joinWeight (h w : Nat) : Option Nat :=
  if w = 0 then some h
  else if h = 0 then some w
  else if sameRoot h w && decide (amtOf h + amtOf w ≤ maxAmt) then some (h + amtOf w)
  else none

/-- Weight of a holder without an amount. -/
def lessWeight (h a : Nat) : Nat := weightWord (rootOf h) (tagOf h) (amtOf h - a)

/-! ## Roots -/

/-- A root's record, none before its first QROOT. -/
def State.root (s : State) (root : Nat) : Option Root := Tab.find (s.die (rootDie root)).roots (root / 4)

/-- Whether a word's TAG differs from its root's GEN: it is stale (R491). -/
def State.stale (s : State) (w : Nat) : Bool :=
  match s.root (rootOf w) with
  | none => true
  | some r => !(r.gen % 64 == tagOf w)

/-- Changes a root. -/
def modRoot (root : Nat) (f : Root → Root) : Act Unit :=
  modDie (rootDie root) (fun d => match Tab.find d.roots (root / 4) with
    | none => d
    | some r => { d with roots := Tab.set d.roots (root / 4) (f r) })

/-- Wakes the groups on a die that sleep in QWAIT on a root of a generation (R507). -/
def State.wakeRoot (s : State) (die root gen issued : Nat) : State :=
  let wake := fun (w : Wait) =>
    match w with
    | .qwait r n none => if r = root ∧ n = gen then .qwait r n (some (BitVec.ofNat 64 issued)) else .qwait r n none
    | x => x
  let there := fun (k : Nat) => ((s.gangOf (.group k)).map (fun x => x.die == die)).getD false
  { s with
    groups := s.groups.map (fun (g : Nat × Group) => if there g.1 then (g.1, { g.2 with st := g.2.st.onWait wake }) else g) }

/-- The die a group is on. -/
def State.dieOf (s : State) (group : Nat) : Nat := ((s.gangOf (.group group)).map (fun x => x.die)).getD 0

/-- A root that has had back all it issued wakes its waiters and becomes FREE (R499, R507). -/
def settleRoot (root : Nat) : Act Unit := do
  let s ← now
  match s.root root with
  | none => pure ()
  | some r =>
    if r.live && r.returned == r.issued then
      let home := rootDie root
      let dies := ((r.waiters.map s.dieOf).eraseDups).filter (fun d => !(d == home))
      upd (fun s => s.wakeRoot home root r.gen r.issued)
      let wakes := dies.map (fun d => (⟨home, d, (s.die home).vclock, .wake root r.gen r.issued⟩ : Msg))
      upd (fun s => { s with msgs := s.msgs ++ wakes })
      modRoot root (fun r => { r with live := false, waiters := [] })

/-- Units come back to a root at its die; void weight is discarded (R497). -/
def returnHere (root tag amt : Nat) : Act Unit := do
  match (← now).root root with
  | none => pure ()
  | some r =>
    if r.live && r.gen % 64 == tag then
      modRoot root (fun r => { r with returned := r.returned + amt })
      settleRoot root

/-- Sends an accumulator's sum to its root's die (R497). -/
def forward (die : Nat) (a : Accum) : Act Unit := do
  modDie die (fun d => { d with accums := d.accums.filter (fun x => !(x == a)) })
  post ⟨die, rootDie a.root, ((← now).die die).vclock, .ret a.root a.tag a.sum⟩

/-- The accumulator whose oldest part is oldest. -/
def oldestAccum (clk : Nat) : List Accum → Option Accum
  | [] => none
  | a :: t =>
    match oldestAccum clk t with
    | none => some a
    | some b => if (clk + 2 ^ 64 - b.since) % 2 ^ 64 > (clk + 2 ^ 64 - a.since) % 2 ^ 64 then some b else some a

/-- A return of a weight word's units from a die (R497). -/
def returnWeight (die w : Nat) : Act Unit := do
  let root := rootOf w
  let tag := tagOf w
  if amtOf w = 0 then pure ()
  else if rootDie root = die then returnHere root tag (amtOf w)
  else
    let d ← getDie die
    if d.accums.any (fun a => a.root == root && a.tag == tag) then
      putDie die { d with accums := d.accums.map (fun a =>
        if a.root == root && a.tag == tag then { a with sum := a.sum + amtOf w } else a) }
    else
      if d.accums.length ≥ 16 then
        match oldestAccum d.clk d.accums with
        | none => pure ()
        | some a => forward die a
      modDie die (fun d => { d with accums := d.accums ++ [⟨root, tag, amtOf w, d.clk⟩] })

/-! ## Taking and borrowing -/

/-- What the root does with a borrow: whether it is granted (R496). -/
def borrowAt (root tag launch : Nat) : Act Bool := do
  match (← now).root root with
  | none => return false
  | some r =>
    if r.live && r.gen % 64 == tag && r.launch == launch && decide (r.issued + 2 ^ 24 ≤ 2 ^ 63) then
      modRoot root (fun r => { r with issued := r.issued + 2 ^ 24 })
      return true
    else return false

/-- Adds a grant's units to a group's WGT; units that WGT cannot take in, because it has come to hold another root's weight or
is full, or because the group is gone, return to the root (R493, R496) (DEDUCED, log 81). -/
def grantTo (k root tag : Nat) : Act Unit := do
  let s ← now
  let x := weightWord root tag (2 ^ 24)
  match Tab.find s.groups k with
  | none => returnHere root tag (2 ^ 24)
  | some g =>
    match joinWeight g.wgt.toNat x with
    | some v => putGroup k { g with wgt := BitVec.ofNat 64 v }
    | none => returnWeight (s.dieOf k) x

/-- The launch of a group. -/
def State.launchOf (s : State) (k : Nat) : Nat := ((s.gangOf (.group k)).map (fun g => g.launch)).getD 0

/-- Asks the root of a group's WGT for a grant: its answer, or none while a request to another die is under way (R496).
`who` names the asking stream. -/
def askRoot (k who : Nat) : Act (Option Bool) := do
  let g ← getGroup k
  let s ← now
  let w := g.wgt.toNat
  if rootDie (rootOf w) = s.dieOf k then
    let ok ← borrowAt (rootOf w) (tagOf w) (s.launchOf k)
    if ok then grantTo k (rootOf w) (tagOf w)
    return some ok
  else
    post ⟨s.dieOf k, rootDie (rootOf w), (s.die (s.dieOf k)).vclock, .borrow (rootOf w) (tagOf w) (s.launchOf k) who⟩
    return none

/-- The cause take meets before any borrow, 0 for none (R495). -/
def takeCause (wgt a : Nat) : Nat :=
  if wgt = 0 then 0xA1
  else if a > 2 ^ 32 then 0x04
  else if a > 0 ∧ a ≥ amtOf wgt + 2 ^ 24 then 0x04
  else 0

/-- Whether take must borrow (R495). -/
def takeShort (wgt a : Nat) : Bool := if a = 0 then decide (amtOf wgt < 2) else decide (amtOf wgt < a + 1)

/-- The amount take gives (R495). -/
def takeAmount (wgt a : Nat) : Nat := if a = 0 then amtOf wgt / 2 else a

/-- Takes an amount from WGT without borrowing: the weight word taken. -/
def takeNow (k a : Nat) : Act Nat := do
  let g ← getGroup k
  let w := g.wgt.toNat
  let n := takeAmount w a
  putGroup k { g with wgt := BitVec.ofNat 64 (lessWeight w n) }
  return weightWord (rootOf w) (tagOf w) n

/-- take(a) of the issuing scalar stream, borrowing at need: the weight word, or none while it waits for an answer
(R495, R496). -/
def takeScalar (k a : Nat) : Act (Option Nat) := do
  let g ← getGroup k
  let w := g.wgt.toNat
  let c := takeCause w a
  if c ≠ 0 then raise c
  if !takeShort w a then return some (← takeNow k a)
  else
    match g.st.wait with
    | .borrow none _ => stall
    | .borrow (some false) _ => raise 0xA2
    | _ =>
      match ← askRoot k (2 * k) with
      | some true => return some (← takeNow k a)
      | some false => raise 0xA2
      | none =>
        putStream { (← myStream) with wait := .borrow none 0 }
        return none

/-- Whether the issuing stream waits for the answer of a borrow. -/
def Wait.isBorrow : Wait → Bool
  | .borrow _ _ => true
  | _ => false

/-- As waitSettled, once: a stream that waits for a borrow has already waited. -/
def waitSettledOnce : Act Unit := do if !(← myStream).wait.isBorrow then waitSettled

/-! ## Words in memory -/

/-- The cause a weight word's address meets, 0 for none, and its place; a misaligned one is not translated (R209, R502) (DEDUCED, log 61). -/
def wordPlace (p : Port) (va : Nat) : Act (Nat × Option Place) := do
  let s ← now
  if va ≥ 2 ^ 48 then return (0x10, none)
  else
    if va % 8 ≠ 0 then return (0x12, none)
    match s.translate p va with
    | .need b => halt (.read p.die b)
    | .cause c => return (c, none)
    | .leaf pte lg pa =>
      match s.target pa with
      | none => return (0x10, none)
      | some t =>
        let gone := match t with
          | .scratch d off => (s.scratchKey d off).isNone
          | _ => false
        let c := if !(pageType t pte == 0) || !bit pte 2 || !bit pte 3 then 0x11
          else if gone then 0x15
          else if !bit pte 5 then 0x16
          else 0
        return (c, some ⟨t, pa, pageType t pte⟩)

/-- The physical address of a weight word that a scalar word names, checked precisely (R502). -/
def checkWord (va : Nat) : Act Nat := do
  match ← wordPlace (← myPort) va with
  | (0, some pl) => return pl.pa
  | (c, _) => raiseAt c va

/-- The place of a weight word's physical address. -/
def State.wordAt (s : State) (pa : Nat) : Place := ⟨(s.target pa).getD .host, pa, 0⟩

/-- The port of a die's Ballast. -/
def ballastPort (die : Nat) : Port := ⟨die, 16, none, 0, [], true⟩

/-- An exchange of a weight word at its home by a die: the word f gives, with its status code and AUX, and the word before
(R502, Table 19-8). An uncorrectable word is left as it is. -/
def wordStep (die pa : Nat) (f : Nat → Nat × Nat) : Act (Nat × Nat) := do
  let before := (← now).corrections
  let pl := (← now).wordAt pa
  match ← readKeyAt pl with
  | .error _ => return (0x33, 0)
  | .ok old =>
    let corrected := !((← now).corrections == before)
    let (new, st) := f old
    if st = 0 ∧ new ≠ old then
      match ← rmwPlace (ballastPort die) pl 8 (fun _ => new) with
      | .error _ => return (0x33, 0)
      | .ok _ => return (if corrected then 0x20 else 0, old)
    else return (if st ≠ 0 then st else if corrected then 0x20 else 0, old)
where
  /-- The word as its home holds it. -/
  readKeyAt (pl : Place) : Act (Except Nat Nat) := do
    let s ← now
    match pl.target with
    | .scratch d off =>
      match s.scratchKey d off with
      | none => return .error 0x15
      | some k => readKey d k 8
    | t => readKey (homeOf t) pl.pa 8

/-- A deposit of weight into a word at its home (R504, Table 19-8): its status. -/
def deposit (pa w : Nat) : Act Nat := do
  let s ← now
  let home := homeOf (s.wordAt pa).target
  let f := fun (old : Nat) =>
    if old = 0 then (w, 0)
    else if s.stale old then (old, 0x41)
    else
      match joinWeight old w with
      | none => (old, 0x41)
      | some x => (x, 0)
  let (st, _) ← wordStep home pa f
  if st = 0x41 ∨ st = 0x33 then returnWeight home w
  return st

/-! ## Instructions -/

/-- QROOT (R503). -/
def execQroot (d : BitVec 5) (s : State) : Host.Outcome State Fault Refusal :=
  perform (do
    let k ← myGroup
    let g ← getGroup k
    let die := (← now).dieOf k
    let x ← getDie die
    let free := (upFrom 0 256).find? (fun i => !((Tab.find x.roots i).map (fun r => r.live)).getD false)
    check [(!(g.wgt == 0), 0xA0), (free.isNone, 0x04)]
    waitSettled
    let i ← need free
    let gen := ((((Tab.find x.roots i).map (fun r => r.gen)).getD 0) + 1) % 2 ^ 32
    putDie die { x with roots := Tab.set x.roots i ⟨true, (← now).launchOf k, gen, 2 ^ 32, 0, []⟩ }
    putGroup k { g with wgt := BitVec.ofNat 64 (weightWord (4 * i + die) (gen % 64) (2 ^ 32)) }
    finishWith d.toNat (4 * i + die + gen * 2 ^ 32)) s

/-- QSPLIT (R504). -/
def execQsplit (d a b : BitVec 5) (s : State) : Host.Outcome State Fault Refusal :=
  perform (do
    let k ← myGroup
    let pa ← checkWord (← sreg a.toNat)
    waitSettledOnce
    guardA ((← now).roomFor k 9)
    match ← takeScalar k (← sreg b.toNat) with
    | none => pure ()
    | some w =>
      discard (issueEntry k 9 (.deposit [(pa, BitVec.ofNat 64 w)]))
      finishWith d.toNat (amtOf w)) s

/-- QRET.w (R505). -/
def execQretW (d a : BitVec 5) (s : State) : Host.Outcome State Fault Refusal :=
  perform (do
    let k ← myGroup
    let n ← sreg a.toNat
    let g ← getGroup k
    let w := g.wgt.toNat
    if w = 0 ∨ n > amtOf w then raise 0xA1
    waitSettled
    let amt := if n = 0 then amtOf w else n
    putGroup k { g with wgt := BitVec.ofNat 64 (lessWeight w amt) }
    discard (issueEntry k 9 (.qretw (BitVec.ofNat 64 (weightWord (rootOf w) (tagOf w) amt))))
    finishWith d.toNat amt) s

/-- QRET.m (R505). -/
def execQretM (d a : BitVec 5) (s : State) : Host.Outcome State Fault Refusal :=
  perform (do
    let k ← myGroup
    let pa ← checkWord (← sreg a.toNat)
    waitSettled
    finishWith d.toNat (← issueEntry k 9 (.qretm pa))) s

/-- QBORROW (R506). -/
def execQborrow (d : BitVec 5) (s : State) : Host.Outcome State Fault Refusal :=
  perform (do
    let k ← myGroup
    let g ← getGroup k
    match g.st.wait with
    | .borrow none _ => stall
    | .borrow (some false) _ => raise 0xA2
    | .borrow (some true) _ => finishWith d.toNat (amtOf g.wgt.toNat)
    | _ =>
      if g.wgt = 0 then raise 0xA1
      if amtOf g.wgt.toNat + 2 ^ 24 > maxAmt then raise 0xA0
      waitSettled
      match ← askRoot k (2 * k) with
      | some true => finishWith d.toNat (amtOf (← getGroup k).wgt.toNat)
      | some false => raise 0xA2
      | none => putStream { (← myStream) with wait := .borrow none 0 }) s

/-- The root a handle names, checked as QWAIT does (R507): its number and record. -/
def rootOfHandle (k h : Nat) : Act (Nat × Root) := do
  let s ← now
  match s.root (fld h 0 10) with
  | none => raise 0x04
  | some r =>
    if fld h 10 22 ≠ 0 ∨ r.launch ≠ s.launchOf k ∨ r.gen ≠ fld h 32 32 then raise 0x04
    return (fld h 0 10, r)

/-- An acquire at .sys of what a root's die has applied (R499). -/
def acquireRoot (k root : Nat) : Act Unit := do
  let s ← now
  guardA (covers (s.clockOf (s.dieOf k)) (s.clockOf (rootDie root)))
  acquireHere

/-- QWAIT (R507). -/
def execQwait (d a : BitVec 5) (s : State) : Host.Outcome State Fault Refusal :=
  perform (do
    let k ← myGroup
    match (← myStream).wait with
    | .qwait _ _ none => stall
    | .qwait root _ (some issued) =>
      acquireHere
      finishWith d.toNat issued.toNat
    | _ =>
      let (root, r) ← rootOfHandle k (← sreg a.toNat)
      waitSettled
      if !r.live then
        acquireRoot k root
        finishWith d.toNat r.issued
      else
        let g ← getGroup k
        if !(g.queue 9).ents.isEmpty then halt (.wait .engine)
        let w := g.wgt.toNat
        putStream { g.st with wait := .qwait root r.gen none }
        modRoot root (fun r => { r with waiters := r.waiters ++ [k] })
        if w ≠ 0 ∧ rootOf w = root ∧ tagOf w = r.gen % 64 then
          modGroup k (fun g => { g with wgt := 0 })
          returnWeight ((← now).dieOf k) w) s

/-- QPOLL (R508). -/
def execQpoll (d a : BitVec 5) (s : State) : Host.Outcome State Fault Refusal :=
  perform (do
    let k ← myGroup
    let (root, r) ← rootOfHandle k (← sreg a.toNat)
    if r.live then
      if !((← getGroup k).queue 9).ents.isEmpty then halt (.wait .engine)
      if r.issued = r.returned then acquireRoot k root
      finishWith d.toNat (r.issued - r.returned)
    else
      acquireRoot k root
      finishWith d.toNat 0) s

/-- QSEND, scalar (R509). -/
def execQsend (d a : BitVec 5) (s : State) : Host.Outcome State Fault Refusal :=
  perform (do
    let k ← myGroup
    let g ← getGroup k
    let at_ := g.attach.toNat
    let n ← sreg a.toNat
    if at_ ≠ 0 ∧ g.wgt ≠ 0 ∧ !sameRoot at_ g.wgt.toNat then raise (if takeCause g.wgt.toNat n = 0x04 then 0x04 else 0xA0)
    waitSettledOnce
    match ← takeScalar k n with
    | none => pure ()
    | some w =>
      match joinWeight at_ w with
      | none => raise 0xA0
      | some x =>
        modGroup k (fun g => { g with attach := BitVec.ofNat 64 x })
        finishWith d.toNat (amtOf w)) s

/-! ## Lane takes -/

/-- The issuing fragment begins to wait for a borrow, with what its threads have so far. -/
def laneBorrow (l : Lane) (served : List (Nat × Nat)) : Act Unit :=
  modGroup l.k (fun g => { g with run := { g.run with frags := match g.run.frags[l.fi]? with
    | none => g.run.frags
    | some f => setNth g.run.frags l.fi { f with wait := .borrow served none } } })

/-- How a thread's take ends. -/
inductive Took where
  | weight (w : Nat)
  | cause (c : Nat)
  | waits

/-- take(a) of a stream of a group, which `who` names (R495); `answer` is what it has of a borrow. -/
def takeWith (k who : Nat) (answer : Option Bool) (a : Nat) : Act Took := do
  let w := (← getGroup k).wgt.toNat
  let c := takeCause w a
  if c ≠ 0 then return .cause c
  else if !takeShort w a then return .weight (← takeNow k a)
  else if answer = some false then return .cause 0xA2
  else
    match ← askRoot k who with
    | some true => return .weight (← takeNow k a)
    | some false => return .cause 0xA2
    | none => return .waits

/-- take(a) of one thread. -/
def takeLane (l : Lane) (answer : Option Bool) (a : Nat) : Act Took := takeWith l.k (2 * l.k + 1) answer a

/-- The threads of an instruction take one after another: what each makes of its weight is kept. The results, and the
thread and cause that ended them; none while a borrow is under way (R484, R510). -/
def takeEach (l : Lane) (make : Nat → List Nat → Nat → Act Nat) :
    Option Bool → List (Nat × List Nat) → List (Nat × Nat) → Act (Option (List (Nat × Nat) × Option (Nat × Nat)))
  | _, [], got => pure (some (got, none))
  | ans, x :: xs, got => do
    match ← takeLane l ans (arg x.2 1) with
    | .waits =>
      laneBorrow l got
      return none
    | .cause c => return some (got, some (x.1, c))
    | .weight w =>
      let r ← make x.1 x.2 w
      takeEach l make none xs (got ++ [(x.1, r)])

/-- The threads already served by an instruction that waits for a borrow, and the answer: none at its first issue. -/
def Lane.served (l : Lane) : List (Nat × Nat) × Option Bool :=
  match l.fr.wait with
  | .borrow got ans => (got, ans)
  | _ => ([], none)

/-- Whether a fragment still waits for the answer of a borrow. -/
def Lane.unanswered (l : Lane) : Bool :=
  match l.fr.wait with
  | .borrow _ none => true
  | _ => false

/-- QSEND, lane (R510). -/
def execQsendLane (w : LaneW) (s : State) : Host.Outcome State Fault Refusal :=
  perform (do
    checkD w false
    let l ← myLane
    if l.unanswered then stall
    let (got, ans) := l.served
    let l ← if ans.isNone then settledLane l else pure l
    let xs ← readOps w (l.part w) [slot64 w.a, slot32 w.b]
    let helper := fun (x : Nat × List Nat) => (l.g.thread x.1).cls == .helper
    let ys := xs.filter (fun x => !helper x)
    let p ← myPort
    let places ← ys.mapM (fun x => wordPlace { p with core := none } (arg x.2 0))
    let causes := (places.zip ys).filter (fun c => !(c.1.1 == 0))
    match causes with
    | [] => pure ()
    | c :: _ =>
      let code := leastOf c.1.1 (causes.map (fun x => x.1.1))
      raiseLane l code (((causes.find? (fun x => x.1.1 == code)).map (fun x => arg x.2.2 0)).getD 0)
    guardA ((← now).roomFor l.k 9)
    let pa := fun (t : Nat) => (((places.zip ys).find? (fun x => x.2.1 == t)).bind (fun x => x.1.2)).map (fun x => x.pa)
    let todo := ys.filter (fun x => !got.any (fun y => y.1 == x.1))
    match ← takeEach l (fun _ _ w => pure w) ans todo got with
    | none => pure ()
    | some (ws, fault) =>
      let zeros := (xs.filter helper).map (fun x => (x.1, 0))
      if !ws.isEmpty then
        discard (issueEntry l.k 9 (.deposit (ws.map (fun x => ((pa x.1).getD 0, BitVec.ofNat 64 x.2)))))
      let rs := ws.map (fun x => (x.1, amtOf x.2))
      match fault with
      | none => laneLong w (rs ++ zeros)
      | some (t, c) =>
        laneLong w (rs ++ zeros.filter (fun x => decide (x.1 < t)))
        upd (fun s => s.later (.group l.k) (Cause.ofThread c t 0))) s

/-! ## Entries performing -/

/-- A deposit of the head of a B queue has performed: its status joins. -/
def deposited (k st : Nat) : Act Unit :=
  setHead k 9 (fun e => { e with
    pos := e.pos + 1, wrote := e.pos + 1, started := true, status := BitVec.ofNat 32 (worseSts e.status.toNat st) })

/-- The deposits of the head of a B queue from the next on: those homed on the group's die perform, one homed elsewhere is
sent there (R500, R504). True when all have performed. -/
def depositRun (k die : Nat) : List (Nat × W64) → Act Bool
  | [] => pure true
  | (pa, w) :: t => do
    let s ← now
    let home := homeOf (s.wordAt pa).target
    if home = die then
      deposited k (← deposit pa w.toNat)
      depositRun k die t
    else
      post ⟨die, home, (s.die die).vclock, .deposit k pa w⟩
      setHead k 9 (fun e => { e with started := true, wrote := e.pos + 1 })
      return false

/-- BALLAST_DEPOSIT_PERFORM (R504, R510). -/
def execBallastDepositPerform (gk : Nat) (s : State) : Host.Outcome State Fault Refusal :=
  perform (do
    let (g, qu, e) ← headOf gk 9
    match e.op with
    | .deposit adds =>
      guardA (e.wrote == e.pos)
      if ← depositRun gk ((← now).dieOf gk) (adds.drop e.pos) then
        let e ← need ((← getGroup gk).queue 9).ents.head?
        discard (complete gk 9 (e.status.toNat / 16) (e.status.toNat % 16))
    | _ => stall) s

/-- QRET_ENTRY_PERFORM (R505). -/
def execQretEntryPerform (gk : Nat) (s : State) : Host.Outcome State Fault Refusal :=
  perform (do
    let (g, qu, e) ← headOf gk 9
    let s ← now
    let die := s.dieOf gk
    match e.op with
    | .qretw w =>
      returnWeight die w.toNat
      discard (complete gk 9 0 0)
    | .qretm pa =>
      let home := homeOf (s.wordAt pa).target
      if home ≠ die ∧ home ≠ 4 then together die home
      let ok := fun (old : Nat) => match s.root (rootOf old) with
        | none => false
        | some r => r.live && r.launch == s.launchOf gk && r.gen % 64 == tagOf old
      let (st, old) ← wordStep die pa (fun old => if old = 0 then (0, 0) else if ok old then (0, 0) else (old, 0x42))
      if st ≠ 0x42 ∧ st ≠ 0x33 then returnWeight home old
      discard (complete gk 9 (st / 16) (st % 16))
    | _ => stall) s

/-- ACCUMULATOR_FORWARD: a die's k-th accumulator whose oldest part is 256 clk old forwards its sum (R497). -/
def execAccumulatorForward (die k : Nat) (s : State) : Host.Outcome State Fault Refusal :=
  perform (do
    let d ← getDie die
    let a ← need d.accums[k]?
    guardA (decide ((d.clk + 2 ^ 64 - a.since) % 2 ^ 64 ≥ 256))
    forward die a) s

/-! ## Messages (Table 19-5) -/

/-- Whether the link that joins two sites carries flits: a link that has gone down holds them in its retry buffers
(R513, R515). Link 0 of a die goes to the host, link k to the die whose number differs by k (R14). -/
def State.linkUp (s : State) (a b : Nat) : Bool :=
  let up := fun (d k : Nat) => ((s.die d).link k).downAt.isNone
  if a = 4 then up b 0 else if b = 4 then up a 0 else up a (a ^^^ b) && up b (a ^^^ b)

/-- The first message of a link in one direction, taken off the link once the receiver's clock covers it (R253, R513). -/
def arriveMsg (src dst : Nat) (want : MsgBody → Bool) : Act Msg := do
  let s ← now
  guardA (s.linkUp src dst)
  match takeFirst (fun m => m.src == src && m.dst == dst) s.msgs with
  | none => stall
  | some (m, rest) =>
    guardA (want m.body && covers (s.clockOf dst) m.clock)
    upd (fun s => { s with msgs := rest })
    return m

/-- RETURN arrives at its root's die (R497). -/
def execReturnMsg (src dst : Nat) (s : State) : Host.Outcome State Fault Refusal :=
  perform (do
    let m ← arriveMsg src dst (fun b => match b with | .ret _ _ _ => true | _ => false)
    match m.body with
    | .ret root tag amt => returnHere root tag amt
    | _ => stall) s

/-- BORROW arrives at its root's die, which answers (R496). -/
def execBorrowMsg (src dst : Nat) (s : State) : Host.Outcome State Fault Refusal :=
  perform (do
    let m ← arriveMsg src dst (fun b => match b with | .borrow _ _ _ _ => true | _ => false)
    match m.body with
    | .borrow root tag launch who =>
      let ok ← borrowAt root tag launch
      post ⟨dst, src, ((← now).die dst).vclock, if ok then .grant root tag who else .refuse who⟩
    | _ => stall) s

/-- Answers the first of a list of fragments that waits for a borrow. -/
def answerFrags (ok : Bool) : List Frag → List Frag
  | [] => []
  | f :: t =>
    match f.wait with
    | .borrow got none => { f with wait := .borrow got (some ok) } :: t
    | _ => f :: answerFrags ok t

/-- Gives the stream of a group that asked its answer: `who` is twice the group's number, and one more for its lane run. -/
def answer (who : Nat) (ok : Bool) : Act Unit :=
  modGroup (who / 2) (fun g =>
    if who % 2 = 0 then
      { g with st := g.st.onWait (fun w => match w with | .borrow none n => .borrow (some ok) n | x => x) }
    else { g with run := { g.run with frags := answerFrags ok g.run.frags } })

/-- GRANT arrives at the borrower's die: the units land in WGT (R496). -/
def execGrantMsg (src dst : Nat) (s : State) : Host.Outcome State Fault Refusal :=
  perform (do
    let m ← arriveMsg src dst (fun b => match b with | .grant _ _ _ => true | _ => false)
    match m.body with
    | .grant root tag who =>
      grantTo (who / 2) root tag
      answer who true
    | _ => stall) s

/-- REFUSE arrives at the borrower's die (R496). -/
def execRefuseMsg (src dst : Nat) (s : State) : Host.Outcome State Fault Refusal :=
  perform (do
    let m ← arriveMsg src dst (fun b => match b with | .refuse _ => true | _ => false)
    match m.body with
    | .refuse who => answer who false
    | _ => stall) s

/-- DEPOSIT arrives at the home of its word, and performs there (R500, R504). -/
def execDepositMsg (src dst : Nat) (s : State) : Host.Outcome State Fault Refusal :=
  perform (do
    let m ← arriveMsg src dst (fun b => match b with | .deposit _ _ _ => true | _ => false)
    match m.body with
    | .deposit k pa w =>
      let st ← deposit pa w.toNat
      let awaited := match Tab.find (← now).groups k with
        | none => false
        | some g => match (g.queue 9).ents with
          | [] => false
          | e :: _ => (match e.op with | .deposit _ => true | _ => false) && e.wrote == e.pos + 1
      if awaited then deposited k st
    | _ => stall) s

/-- WAKE arrives at a die that holds waiters (R507). -/
def execWakeMsg (src dst : Nat) (s : State) : Host.Outcome State Fault Refusal :=
  perform (do
    let m ← arriveMsg src dst (fun b => match b with | .wake _ _ _ => true | _ => false)
    match m.body with
    | .wake root gen issued => upd (fun s => s.wakeRoot dst root gen issued)
    | _ => stall) s

end Sys2Proof.Machine
end

