-- ==== Sys2Proof/Machine/LaneGroup.lean ====
section
/-! DEFINITION. Group operations of the lane engine: shuffles, votes, reductions, scans, grid differences and the
exchange between groups (R181 to R187). -/

set_option linter.unusedVariables false

namespace Sys2Proof.Machine

open Sys2Proof

/-- SHFL's source position (R182). -/
def shflFrom (mode : Nat) (t b : Nat) : Int :=
  if mode = 0 then ((b % 32 : Nat) : Int)
  else if mode = 1 then (t : Int) - b
  else if mode = 2 then (t : Int) + b
  else ((t ^^^ (b % 32) : Nat) : Int)

/-- SHFL (R182) -/
def execShfl (w : LaneW) (s : State) : Host.Outcome State Fault Refusal :=
  perform (do
    let l ← myLane
    checkD w false
    let xs ← readOps w (l.part w) [slot32 w.a, slot32 w.b]
    let value := fun (t : Nat) => (xs.find? (fun x => x.1 == t)).map (fun x => arg x.2 0)
    laneResult w false (xs.map (fun x =>
      let j := shflFrom w.c.toNat x.1 (arg x.2 1)
      (x.1, if 0 ≤ j then (value j.toNat).getD (arg x.2 0) else arg x.2 0)))) s

/-- VOTE (R183) -/
def execVote (w : LaneW) (s : State) : Host.Outcome State Fault Refusal :=
  perform (do
    let l ← myLane
    checkD w false
    let ts := l.part w
    let n := w.imm.toNat
    let yes := ts.filter (fun t => xor ((l.g.thread t).pred (n % 8)) (bit n 3))
    let r := if w.c = 0 then b2n (yes.length == ts.length) else if w.c = 1 then b2n (!yes.isEmpty) else maskOf yes
    laneResult w false (ts.map (fun t => (t, r)))) s

/-- One step of a reduction: 0 add, 1 min, 2 max, 3 and, 4 or, 5 xor (R184). -/
def reduceStep (ty op rm : Nat) (p x : Nat) : Nat :=
  if op = 0 then
    (if ty = 9 then encodeF fmt32 rm (addF rm (decodeF fmt32 p) (decodeF fmt32 x)) else (p + x) % 2 ^ 32)
  else if op = 1 then
    (if ty = 9 then minF fmt32 false p x else if tyRead ty x < tyRead ty p then x else p)
  else if op = 2 then
    (if ty = 9 then minF fmt32 true p x else if tyRead ty p < tyRead ty x then x else p)
  else if op = 3 then p &&& x
  else if op = 4 then p ||| x
  else p ^^^ x

/-- The identity of a reduction (R184). -/
def reduceId (ty op : Nat) : Nat :=
  if op = 0 then (if ty = 9 then 0x80000000 else 0)
  else if op = 1 then (if ty = 9 then 0x7F800000 else wrap 32 (tyMax ty))
  else if op = 2 then (if ty = 9 then 0xFF800000 else wrap 32 (tyMin ty))
  else if op = 3 then 0xFFFFFFFF
  else 0

/-- The running values of a reduction from a first value on (R184). -/
def running (ty op rm : Nat) (p : Nat) : List Nat → List Nat
  | [] => [p]
  | x :: xs => p :: running ty op rm (reduceStep ty op rm p x) xs

/-- The running values P_0 … P_(k−1) of a list. -/
def runningOf (ty op rm : Nat) : List Nat → List Nat
  | [] => []
  | x :: xs => running ty op rm x xs

/-- GRED (R184) -/
def execGred (w : LaneW) (s : State) : Host.Outcome State Fault Refusal :=
  perform (do
    let l ← myLane
    checkD w false
    let xs ← readOps w (l.part w) [slot32 w.a]
    let ps := runningOf w.pty w.c.toNat (rmOf w) (xs.map (fun x => arg x.2 0))
    laneResult w false (xs.map (fun x => (x.1, nth ps (ps.length - 1) 0)))) s

/-- GSCAN (R184) -/
def execGscan (w : LaneW) (s : State) : Host.Outcome State Fault Refusal :=
  perform (do
    let l ← myLane
    checkD w false
    let xs ← readOps w (l.part w) [slot32 w.a]
    let op := w.c.toNat % 8
    let ps := runningOf w.pty op (rmOf w) (xs.map (fun x => arg x.2 0))
    let out := if w.c.toNat < 8 then ps else reduceId w.pty op :: ps
    laneResult w false ((upFrom 0 xs.length).map (fun i => ((nth xs i (0, [])).1, nth out i 0)))) s

/-! ## Grid differences -/

/-- The row width of a run's links: 8, or what GREAD set (R185, R360). -/
def Group.linkWidth (g : Group) : Nat := g.run.linkWd

/-- The next and previous threads of a thread along x or along y (R185, R360). -/
def links (wd : Nat) (y : Bool) (t : Nat) : Option Nat × Option Nat :=
  if y then (if t + wd ≤ 31 then some (t + wd) else none, if wd ≤ t then some (t - wd) else none)
  else (if t % wd = wd - 1 ∨ t = 31 then none else some (t + 1), if t % wd = 0 then none else some (t - 1))

/-- The pair of values a thread's difference is taken of, minuend first; none when no linked thread takes part (R185). -/
def diffPair (wd : Nat) (y : Bool) (value : Nat → Option Nat) (t own : Nat) : Option (Nat × Nat) :=
  match (links wd y t).1.bind value with
  | some x => some (x, own)
  | none => ((links wd y t).2.bind value).map (fun x => (own, x))

/-- GDX and GDY (R185). -/
def gridDiff (y : Bool) (w : LaneW) : Act Unit := do
  let l ← myLane
  checkD w false
  let xs ← readOps w (l.part w) [slot32 w.a]
  let value := fun (t : Nat) => (xs.find? (fun x => x.1 == t)).map (fun x => arg x.2 0)
  let diff := fun (a b : Nat) =>
    if w.pty = 9 then encodeF fmt32 (rmOf w) (addF (rmOf w) (decodeF fmt32 a) (decodeF fmt32 b).neg)
    else wrap 32 (sext 32 a - sext 32 b)
  laneResult w false (xs.map (fun x =>
    (x.1, ((diffPair l.g.linkWidth y value x.1 (arg x.2 0)).map (fun p => diff p.1 p.2)).getD 0)))

/-- GDX (R185) -/
def execGdx (w : LaneW) (s : State) : Host.Outcome State Fault Refusal := perform (gridDiff false w) s
/-- GDY (R185) -/
def execGdy (w : LaneW) (s : State) : Host.Outcome State Fault Refusal := perform (gridDiff true w) s

/-! ## Exchange between groups -/

/-- The group of an instance that a partner word names, once its gang has started (R186). -/
def State.partner (s : State) (inst word : Nat) : Option Nat :=
  (s.gangs.find? (fun g => g.2.inst == inst && g.2.gx == fld word 0 16 && g.2.gy == fld word 16 16 &&
    g.2.gz == fld word 32 16)).map (fun g => groupKey g.1 (fld word 48 16))

/-- Whether a partner word is inside the gang grid and the gang (R186). -/
def partnerOk (node : Nat) (gpc word : Nat) : Bool :=
  decide (fld word 0 16 < fld node 192 16) && decide (fld word 16 16 < fld node 208 16) &&
  decide (fld word 32 16 < fld node 224 16) && decide (fld word 48 16 < fld node 240 4 * gpc)

/-- XCHG: reads its operands and waits for its match (R186, R187). -/
def execXchg (w : LaneW) (s : State) : Host.Outcome State Fault Refusal :=
  perform (do
    let l ← myLane
    let u := Who.group l.k
    checkD w false
    let s ← now
    let (_, ga) ← myGang
    let word := l.plain s 0 ⟨w.b.toNat, true, false⟩ 0
    if !partnerOk (s.nodeRec ga) ga.gpc word || word == s.whoWord u then raiseLane l 0x04 0
    let l ← settledLane l
    let xs ← readOps w (l.part w) [slot32 w.a]
    let gone := ((s.partner ga.inst word).bind (fun k => Tab.find s.groups k)).map (fun g => g.exited)
    if gone == some true then raiseLane l 0x0B 0
    let tag := w.imm.toNat % 65536
    let key := word * 65536 + tag
    let n := Tab.getD l.g.xchgs key 0
    let wait := FWait.xchg word tag n w.d.toNat (xs.map (fun x => (x.1, BitVec.ofNat 32 (arg x.2 0))))
    modGroup l.k (fun g => { g with
      xchgs := Tab.set g.xchgs key (n + 1)
      run := { g.run with frags := setNth g.run.frags l.fi { l.fr with wait := wait } } })) s

/-- The fragment of a group that waits in XCHG with this partner, tag and count: its index, D and values. -/
def Group.waiting (g : Group) (word tag n : Nat) : Option (Nat × Nat × Tab W32) :=
  ((upFrom 0 g.run.frags.length).filterMap (fun i =>
    match g.run.frags[i]? with
    | some f =>
      match f.wait with
      | .xchg p t c d vals => if p = word ∧ t = tag ∧ c = n then some (i, d, vals) else none
      | _ => none
    | none => none)).head?

/-- The exchanges a group waits in, as pairs of tag and count, for a partner word. -/
def Group.exchanges (g : Group) (word : Nat) : List (Nat × Nat) :=
  g.run.frags.filterMap (fun f =>
    match f.wait with
    | .xchg p t c _ _ => if p = word then some (t, c) else none
    | _ => none)

/-- A side of a match: each thread that took part gets its partner's value, or its own (R187). -/
def Group.swapIn (g : Group) (fi d : Nat) (own other : Tab W32) : Group :=
  let vals := own.map (fun x => (x.1, ((Tab.find other x.1).getD x.2).toNat))
  (g.writeD d false vals).laneNext fi

/-- XCHG_MATCH: two groups of one instance that name each other with the same tag and count exchange (R64, R187). -/
def execXchgMatch (gk hk : Nat) (s : State) : Host.Outcome State Fault Refusal :=
  perform (do
    let s ← now
    let g ← getGroup gk
    let h ← getGroup hk
    let runs := fun (x : Group) => !x.st.stopped && !x.st.held.isSome && !x.st.tmode
    guardA (!(gk == hk) && s.instOf (.group gk) == s.instOf (.group hk) && runs g && runs h)
    let hw := s.whoWord (.group hk)
    let gw := s.whoWord (.group gk)
    let (tag, n) ← need ((g.exchanges hw).filter (fun x => (h.exchanges gw).contains x)).head?
    let (gi, gd, gv) ← need (g.waiting hw tag n)
    let (hi, hd, hv) ← need (h.waiting gw tag n)
    putGroup gk (g.swapIn gi gd gv hv)
    putGroup hk (h.swapIn hi hd hv gv)) s

/-- A group's waits in XCHG for a partner end without a match: its fragments issue the words again, and those exchanges count no
more (R187). -/
def Group.unexchange (g : Group) (word : Nat) : Group :=
  let mine := g.exchanges word
  { g with
    xchgs := mine.foldl (fun t x => Tab.set t (word * 65536 + x.1) (min x.2 (Tab.getD t (word * 65536 + x.1) 0))) g.xchgs
    run := { g.run with frags := g.run.frags.map (fun f => match f.wait with
      | .xchg p _ _ _ _ => if p = word then { f with wait := .none } else f
      | _ => f) } }

/-- Groups that wait in XCHG for a partner that exits take cause 0x0B (R187). -/
def partnerGone (k : Nat) : Act Unit := do
  let s ← now
  let word := s.whoWord (.group k)
  let inst := s.instOf (.group k)
  let hit := fun (f : Frag) => match f.wait with
    | .xchg p _ _ _ _ => p == word
    | _ => false
  let left := s.groups.filter (fun x => s.instOf (.group x.1) == inst && x.2.run.frags.any hit)
  left.forM (fun x =>
    match x.2.run.frags.find? hit with
    | none => pure ()
    | some f => do
      modGroup x.1 (fun g => g.unexchange word)
      raiseUnit (.group x.1) (Cause.atLane 0x0B f.pc (leastOf 0 (bitsOf 32 f.mask.toNat)) 0))

end Sys2Proof.Machine
end

