-- ==== Sys2Proof/Machine/LaneControl.lean ====
section
/-! DEFINITION. Lane control: branches, the multiway branch, reconvergence, lane loops and the end of a run
(R188 to R197). -/

set_option linter.unusedVariables false

namespace Sys2Proof.Machine

open Sys2Proof

/-- Whether a divergence of the fragment is topmost (R188). -/
def topmost (l : Lane) : Bool := l.g.run.frags.length == 1 && l.fr.stack.isEmpty && l.g.run.root.isNone

/-- The set of TNUMs as a mask. -/
def maskW (ts : List Nat) : W32 := BitVec.ofNat 32 (maskOf ts)

/-- Raises the lowest of the causes that arise together at the issuing lane word (R34). -/
def checkLane (l : Lane) (cs : List (Bool × Nat)) : Act Unit :=
  match (cs.filter (fun x => x.1)).map (fun x => x.2) with
  | [] => pure ()
  | c :: t => raiseLane l (leastOf c (c :: t)) 0

/-- Moves the issuing fragment to a lane PC: a transfer (R194). -/
def laneJump (l : Lane) (pc : Int) : Act Unit :=
  modGroup l.k (fun g => { g with run := { g.run with
    frags := setNth g.run.frags l.fi { l.fr with pc := pc, wait := .none } } })

/-- A split of the issuing fragment into arms, each a mask and a start, lowest first (R190, R191). Topmost, the first two
run at once and the rest become root PEND entries; otherwise a JOIN and a PEND for every arm but the first are pushed. -/
def splitLane (l : Lane) (arms : List (W32 × Int)) : Act Unit :=
  match arms with
  | [] => pure ()
  | first :: rest =>
    if topmost l then
      modGroup l.k (fun g => { g with run := { g.run with
        root := some { parked := 0, rc := none, pends := rest.drop 1 }
        frags := (first :: rest.take 1).map (fun (a : W32 × Int) => { l.fr with mask := a.1, pc := a.2, stack := [], wait := .none }) } })
    else do
      checkLane l [(decide (l.g.run.depth + 1 + rest.length > 16), 0x05)]
      modGroup l.k (fun g => { g with run := { g.run with
        frags := setNth g.run.frags l.fi { l.fr with
          mask := first.1, pc := first.2, wait := .none
          stack := rest.map (fun a => SEnt.pend a.1 a.2) ++ SEnt.join l.fr.mask none :: l.fr.stack } } })

/-- BRL (R190, R197). -/
def execBrl (w : LaneW) (s : State) : Host.Outcome State Fault Refusal :=
  perform (do
    closeLane
    let l ← myLane
    let yes := l.part w
    let no := l.active.filter (fun t => !l.guard w t)
    let goal := l.fr.pc + w.imm.toInt
    checkLane l [(w.u == 1 && !yes.isEmpty && !no.isEmpty, 0x07)]
    if no.isEmpty then laneJump l goal
    else if yes.isEmpty then laneDone
    else splitLane l [(maskW yes, goal), (maskW no, l.fr.pc + 1)]) s

/-- Reads SWITCH's records: pairs of value and displacement, or the cause of each with its address (R191) (DEDUCED, log 54). -/
def readRecords (l : Lane) (p : Port) (first : Int) : List Nat → Act (List (Except (Nat × Nat) (Nat × Int)))
  | [] => pure []
  | i :: is => do
    let a := (← now).laneAddr (.group l.k) (first + i)
    let r := match ← readRange p ⟨true, 0⟩ a 12 with
      | .error e => .error e
      | .ok x => if fld x 64 32 ≠ 0 then .error (0x04, 0) else .ok (fld x 0 32, sext 32 (fld x 32 32))
    return r :: (← readRecords l p first is)

/-- Raises a memory cause at the issuing lane word, counting an uncorrectable error at its die (R222). -/
def raiseLaneMem {α : Type} (l : Lane) (p : Port) (c a : Nat) : Act α := do
  if c = 0x13 then
    let d ← homeAt p a
    halt (.raiseBad (Cause.atLane c l.fr.pc (leastOf 0 l.active) a) d)
  else raiseLane l c a

/-- SWITCH's records; of the causes that reading them meets, the lowest is raised (R34, R191). -/
def readTable (l : Lane) (p : Port) (first : Int) (is : List Nat) : Act (List (Nat × Int)) := do
  let rs ← readRecords l p first is
  let causes := rs.filterMap (fun r => match r with | .error e => some e | .ok _ => none)
  match causes with
  | [] => return rs.filterMap (fun r => match r with | .error _ => none | .ok x => some x)
  | c :: _ =>
    let code := leastOf c.1 (causes.map (fun x => x.1))
    raiseLaneMem l p code (((causes.find? (fun x => x.1 == code)).map (fun x => x.2)).getD 0)

/-- The fragment a value falls into: the first record that holds it, or 8 (R191). -/
def switchArm (v : Nat) : List (Nat × Int) → Nat → Nat
  | [], _ => 8
  | r :: rs, i => if r.1 = v then i else switchArm v rs (i + 1)

/-- SWITCH (R191, R197). With the threads in fragment 8 only, it moves none, and the loop rule applies as after any word
(DEDUCED, log 79). -/
def execSwitchL (w : LaneW) (s : State) : Host.Outcome State Fault Refusal :=
  perform (do
    closeLane
    let l ← myLane
    let x := l.fr.pc
    checkSrc [slot32 w.a]
    let recs ← readTable l ((← now).portOf (.group l.k)) (x + w.imm.toInt) (upFrom 0 w.c.toNat)
    let vals ← readOps w (l.part w) [slot32 w.a]
    let l2 ← myLane
    let arm := fun (t : Nat) =>
      match vals.find? (fun v => v.1 == t) with
      | none => 8
      | some v => switchArm (arg v.2 0) recs 0
    let arms := ((upFrom 0 9).filterMap (fun i =>
      let ts := l2.active.filter (fun t => arm t == i)
      if ts.isEmpty then none else some (i, maskW ts, if i < 8 then x + (nth recs i (0, 0)).2 else x + 1)))
    checkLane l2 [(w.u == 1 && decide (arms.length > 1), 0x07)]
    match arms with
    | [a] => if a.1 = 8 then laneDone else laneJump l2 a.2.2
    | _ => splitLane l2 (arms.map (fun a => (a.2.1, a.2.2)))) s

/-- The nearest JOIN of a stack takes a lane index if it is lower (R192). -/
def joinAt (x : Int) : List SEnt → List SEnt
  | [] => []
  | .join m rc :: t => .join m (some (match rc with | none => x | some r => min r x)) :: t
  | e :: t => e :: joinAt x t

/-- RECONV (R192). -/
def execReconv (w : LaneW) (s : State) : Host.Outcome State Fault Refusal :=
  perform (do
    closeLane
    let l ← myLane
    let x := l.fr.pc
    match l.fr.stack with
    | .loop _ _ _ _ _ _ :: _ => laneJump l (x + 1)
    | [] =>
      match l.g.run.root with
      | none => laneJump l (x + 1)
      | some r =>
        let r1 := { r with rc := some (match r.rc with | none => x | some y => min y x) }
        putGroup l.k ({ l.g with run := { l.g.run with root := some r1 } }.resume l.fi l.fr.mask)
    | _ :: _ =>
      let fr1 := { l.fr with stack := joinAt x l.fr.stack }
      putGroup l.k ({ l.g with run := { l.g.run with frags := setNth l.g.run.frags l.fi fr1 } }.resume l.fi 0)) s

/-- Loop entries of a stack. -/
def loopCount (st : List SEnt) : Nat := (st.filter (fun e => match e with | .loop _ _ _ _ _ _ => true | _ => false)).length

/-- LLOOP (R193, R197). -/
def execLloop (w : LaneW) (s : State) : Host.Outcome State Fault Refusal :=
  perform (do
    checkD w false
    let l0 ← myLane
    let xs ← readOps w (l0.part w) [slot32 w.a]
    let l ← myLane
    let fin := l.fr.pc + w.imm.toInt
    let cnt : Tab Nat := l.active.map (fun t => (t, ((xs.find? (fun v => v.1 == t)).map (fun v => arg v.2 0)).getD 0))
    let go := (cnt.filter (fun c => !(c.2 == 0))).map (fun c => c.1)
    let differ := cnt.any (fun c => cnt.any (fun e => !(c.2 == e.2)))
    checkLane l [(w.u == 1 && differ, 0x07)]
    checkLane l [(!go.isEmpty && (decide (l.g.run.depth + 1 > 16) || decide (loopCount l.fr.stack ≥ 4)), 0x05)]
    if go.isEmpty then laneJump l (fin + 1)
    else
      let m := maskW go
      let fr1 := { l.fr with
        mask := m, pc := l.fr.pc + 1, wait := .none
        stack := SEnt.loop (l.fr.pc + 1) fin w.d.toNat (l.fr.mask &&& ~~~m) cnt (l.active.map (fun t => (t, 0))) :: l.fr.stack }
      putGroup l.k { l.g.writeD w.d.toNat false (go.map (fun t => (t, 0))) with
        run := { l.g.run with frags := setNth l.g.run.frags l.fi fr1 } }) s

/-- Takes threads out of the innermost LOOP of a stack: they leave the entries above it and are done there (R195). -/
def leaveLoop (x : W32) : List SEnt → List SEnt
  | [] => []
  | .loop st fin d done c i :: t => .loop st fin d (done ||| x) c i :: t
  | e :: t => e.without x :: leaveLoop x t

/-- LLEXIT (R195, R197). -/
def execLlexit (w : LaneW) (s : State) : Host.Outcome State Fault Refusal :=
  perform (do
    let l ← myLane
    let yes := l.part w
    checkLane l [(loopCount l.fr.stack == 0, 0x04), (w.u == 1 && !yes.isEmpty && !(yes.length == l.active.length), 0x07)]
    let x := maskW yes
    let left := l.fr.mask &&& ~~~x
    let fr1 := { l.fr with mask := left, pc := l.fr.pc + 1, wait := .none, stack := leaveLoop x l.fr.stack }
    let g1 := { l.g with run := { l.g.run with frags := setNth l.g.run.frags l.fi fr1 } }
    putGroup l.k (if left = 0 then g1.resume l.fi 0 else g1)) s

/-- LSTOP (R189, R196). -/
def execLstop (w : LaneW) (s : State) : Host.Outcome State Fault Refusal :=
  perform (do
    closeLane
    let l ← myLane
    let ts := l.active
    let g1 := { l.g with
      threads := l.g.threads.map (fun (t : Nat × Thread) => if ts.contains t.1 then (t.1, { t.2 with fin := true }) else t)
      run := l.g.run.without l.fr.mask }
    putGroup l.k (g1.resume l.fi 0)) s

end Sys2Proof.Machine
end

