-- ==== Sys2Proof/Machine/Start.lean ====
section
/-! DEFINITION. How groups, contexts and gangs start (R45, R305, R311). -/

set_option linter.unusedVariables false

namespace Sys2Proof.Machine

open Sys2Proof

/-- A status record of zeros. -/
def Sts.zero : Sts := ⟨0, 0⟩

/-- A thread at gang start: registers and predicates zero, TID from its number and its group's GIDX (R45, Table 2-4). -/
def Thread.start (gidx t : Nat) : Thread := ⟨[], 0, t + gidx * 32, .normal, false⟩

/-- The region checkpoint of region 0: the state at the group's first word (R266). -/
def Ckpt.start (first : Nat) (regs : Tab W64) (wgt : W64) : Ckpt :=
  { regs := regs, flags := [], rstack := [], loops := [], lc := [], astr := 1, amask := 0xFFFFFFFF, wgt := wgt,
    heads := [], tails := [], first := first }

/-- A group at its start (R45); `regs` holds what a continuation presets (R305). -/
def Group.start (id : GroupId) (pc regcnt prio : Nat) (wgt : W64) (regs : Tab W64) : Group :=
  { id := id, st := { Stream.start pc with regs := regs }, regcnt := regcnt, astr := 1, amask := 0xFFFFFFFF,
    threads := (upFrom 0 32).map (fun t => (t, Thread.start id.gidx t)), run := Run.idle, tags := 0, lpend := [],
    laccs := [], opq := [], queues := [], epc := 0, regnc := 0, base := [], ckpt := Ckpt.start pc regs wgt, wgt := wgt,
    attach := 0, prio := prio, batches := ⟨0, []⟩, csts := Sts.zero, xsts := Sts.zero, bsts := Sts.zero,
    kvec := ⟨[], [], Sts.zero⟩, p0 := 0, p1 := 0, poison := false, raster := none, adopted := none, fmts := [], sorts := 0,
    xchgs := [], exited := false, awaits := false }

/-- A context at its start (R311, Table 11-10). -/
def Ctx.start (gang ctxno pc : Nat) : Ctx :=
  { gang := gang, ctxno := ctxno, st := Stream.start pc, slots := [], mrb := 0xFFFFFFFF, sts := Sts.zero, queue := Queue.empty,
    view := [] }

/-- A core's matrix engine at gang start: no tile, no accumulator, both banks free (R307). -/
def Matrix.empty : Matrix := ⟨[], [], ⟨[], []⟩, ⟨[], []⟩, 0, false⟩

end Sys2Proof.Machine
end

