-- ==== Sys2Proof/Machine/Matrix.lean ====
section
/-! DEFINITION. The matrix engine and the control core's matrix words (R123 to R132, R307 to R332). -/

set_option linter.unusedVariables false

namespace Sys2Proof.Machine

open Sys2Proof

/-! ## The shape record (Table 11-2), as a slot holds it -/

/-- BBASE -/
def shBbase (r : Nat) : Nat := fld r 0 64
/-- ABASE -/
def shAbase (r : Nat) : Nat := fld r 64 48
/-- BRS -/
def shBrs (r : Nat) : Int := sext 32 (fld r 128 32)
/-- ARS -/
def shArs (r : Nat) : Int := sext 32 (fld r 160 32)
/-- RRS -/
def shRrs (r : Nat) : Int := sext 32 (fld r 192 32)
/-- M -/
def shM (r : Nat) : Nat := fld r 224 8
/-- N -/
def shN (r : Nat) : Nat := fld r 232 8
/-- K -/
def shK (r : Nat) : Nat := fld r 240 8
/-- AFMT -/
def shAfmt (r : Nat) : Nat := fld r 248 4
/-- BFMT -/
def shBfmt (r : Nat) : Nat := fld r 252 4
/-- CFMT -/
def shCfmt (r : Nat) : Nat := fld r 256 4
/-- RFMT -/
def shRfmt (r : Nat) : Nat := fld r 260 4
/-- AES -/
def shAes (r : Nat) : Nat := fld r 264 6
/-- BES -/
def shBes (r : Nat) : Nat := fld r 270 6
/-- RES -/
def shRes (r : Nat) : Nat := fld r 276 6
/-- AOFF -/
def shAoff (r : Nat) : Nat := fld r 282 7
/-- NEGA -/
def shNega (r : Nat) : Bool := bit r 289
/-- ACCDIS -/
def shAccdis (r : Nat) : Bool := bit r 290
/-- ASRC -/
def shAsrc (r : Nat) : Bool := bit r 291
/-- CMASK -/
def shCmask (r : Nat) : Nat := fld r 296 8
/-- ACSA -/
def shAcsa (r : Nat) : Nat := fld r 320 48
/-- BRSA -/
def shBrsa (r : Nat) : Nat := fld r 368 48
/-- BCSA -/
def shBcsa (r : Nat) : Nat := fld r 416 48
/-- ARSA -/
def shArsa (r : Nat) : Nat := fld r 464 48

/-- Bytes of a matrix element (R314). -/
def matSize (t : Nat) : Nat := if t = 9 ∨ t = 3 then 4 else if t = 10 ∨ t = 11 then 2 else 1

/-- The accumulator format of a format pair, none outside Table 4-8. -/
def pairAcc (a b : Nat) : Option Nat :=
  if 10 ≤ a ∧ a ≤ 12 ∧ 10 ≤ b ∧ b ≤ 12 then some 9
  else if a = 13 ∧ b = 13 then some 9
  else if a = 1 ∧ b = 1 then some 3
  else none

/-- The A window of a format (Table 4-8). -/
def aWindow (a : Nat) : Nat := if a = 10 then 16 else if a = 11 then 12 else 8

/-- Whether a record whose bases have been added is valid (Table 11-5). -/
def matOk (r : Nat) : Bool :=
  let sa := matSize (shAfmt r)
  let sb := matSize (shBfmt r)
  let m := fun (n : Nat) (x : Int) => multipleOf n x
  decide (fld r 112 16 = 0) && decide (fld r 292 4 = 0) && decide (fld r 304 16 = 0) &&
  decide (1 ≤ shM r ∧ shM r ≤ 128 ∧ 1 ≤ shN r ∧ shN r ≤ 128 ∧ 1 ≤ shK r ∧ shK r ≤ 128) &&
  decide (shAes r ≠ 0 ∧ shBes r ≠ 0 ∧ shRes r ≠ 0) &&
  (pairAcc (shAfmt r) (shBfmt r) == some (shCfmt r)) &&
  (if shCfmt r = 9 then decide (9 ≤ shRfmt r ∧ shRfmt r ≤ 12) else decide (shRfmt r = 3 ∨ shRfmt r = 1)) &&
  decide (shK r * max sa sb ≤ 128) &&
  (shAsrc r || decide ((shAoff r + (shK r - 1) * shAes r + 1) * sa ≤ 128)) &&
  decide (shCmask r ≠ 0) &&
  (!(shAfmt r == 1) || decide (shAcsa r = 0 ∧ shBrsa r = 0 ∧ shBcsa r = 0 ∧ shArsa r = 0)) &&
  (shAsrc r || decide (shAbase r = 0 ∧ shArs r = 0 ∧ shArsa r = 0)) &&
  m sb (shBbase r) && m sa (shAbase r) && m sb (shBrs r) && m sa (shArs r) && m (matSize (shRfmt r)) (shRrs r) &&
  decide (shBbase r < 2 ^ 48)

/-- Adds the base register to the addresses of a record; none when an address passes bit 47 (R315, R317). -/
def addBase (r b : Nat) : Option Nat :=
  let put := fun (x : Option Nat) (lo : Nat) (on : Bool) =>
    x.bind (fun r =>
      if on then
        let a := (fld r lo 48 + b) % 2 ^ 64
        if a < 2 ^ 48 then some (setFld r lo 48 a) else none
      else some r)
  let r1 := setFld r 0 64 (fld r 0 64 + b)
  put (put (put (put (put (some r1) 64 (shAsrc r)) 320 (!(shAcsa r == 0))) 368 (!(shBrsa r == 0))) 416 (!(shBcsa r == 0)))
    464 (!(shArsa r == 0))

/-- The named cores of a slot, ascending, with their index j (R316). -/
def namedCores (r : Nat) : List (Nat × Nat) := (upFrom 0 8).zip (bitsOf 8 (shCmask r))

/-- The windows that an accumulator of M × N spans (R308). -/
def spanOf (m n : Nat) : Nat := ceilDiv (4 * m * n) 16384

/-! ## Matrix sums -/

/-- The value of an E8 scale's exponent (R127). -/
def se (s : Nat) : Int := (s : Int) - 127

/-- The format of an aligned operand. -/
def matFmt (t : Nat) : Fmt := if t = 10 then fmt16 else if t = 11 then fmtB16 else fmtE4M3

/-- An operand element as sign, magnitude and exponent; none for NaN and infinity. -/
def matElem (t x : Nat) : Option (Bool × Nat × Int) :=
  match decodeF (matFmt t) x with
  | .fin n m e => some (n, m, e)
  | _ => none

/-- The exponent of the leading bit: E of R129. -/
def topExp (x : Bool × Nat × Int) : Int := (Nat.log2 x.2.1 : Int) + x.2.2

/-- trunc(x × 2^q), signed. -/
def truncAt (x : Bool × Nat × Int) (q : Int) : Int :=
  let e := x.2.2 + q
  let m : Nat := if 0 ≤ e then x.2.1 * 2 ^ e.toNat else x.2.1 / 2 ^ (-e).toNat
  if x.1 then -(m : Int) else m

/-- The greatest exponent of the non-zero elements of a list. -/
def maxExp (l : List (Bool × Nat × Int)) : Option Int :=
  (l.filter (fun x => !(x.2.1 == 0))).foldl (fun a x =>
    match a with
    | none => some (topExp x)
    | some b => some (max b (topExp x))) none

/-- The dot product of two lists of integers. -/
def dotI : List Int → List Int → Int
  | a :: as, b :: bs => a * b + dotI as bs
  | _, _ => 0

/-- The exact value S × 2^e; a zero sum counts as +0 (R129). -/
def exactFV (x : Int) (e : Int) : FV := if x = 0 then .fin false 0 0 else .fin (x < 0) x.natAbs e

/-- The y of an aligned sum, none where the result is qnan (R129). -/
def alignedSum (ta tb w : Nat) (nega : Bool) (a b : List Nat) (acol brow : List Nat) (arow bcol : Nat) : Option FV :=
  if arow = 255 ∨ bcol = 255 ∨ acol.contains 255 ∨ brow.contains 255 then none
  else
    match (a.map (matElem ta)).foldr (fun x t => match x, t with | some x, some t => some (x :: t) | _, _ => none) (some []),
      (b.map (matElem tb)).foldr (fun x t => match x, t with | some x, some t => some (x :: t) | _, _ => none) (some []) with
    | some xs, some ys =>
      let xa := (xs.zip acol).map (fun p => (p.1.1, p.1.2.1, p.1.2.2 + se p.2))
      let xb := (ys.zip brow).map (fun p => (p.1.1, p.1.2.1, p.1.2.2 + se p.2))
      match maxExp xa, maxExp xb with
      | some ea, some eb =>
        let as_ := xa.map (fun x => let v := truncAt x ((w : Int) - 1 - ea); if nega then -v else v)
        let bs_ := xb.map (fun x => truncAt x (23 - eb))
        some (exactFV (dotI as_ bs_) (ea - w + 1 + eb - 23 + se arow + se bcol))
      | _, _ => some (.fin false 0 0)
    | _, _ => none

/-- The LNS6 fraction table (Table 4-7). -/
def l6Table (f : Nat) : Nat := nth [32768, 38968, 46341, 55109] f 0

/-- The kept terms of a logarithmic sum: j, f and the sign (R130). -/
def l6Terms (nega : Bool) : List Nat → List Nat → List Nat → List Nat → List (Int × Nat × Bool)
  | a :: as, b :: bs, c :: cs, d :: ds =>
    let rest := l6Terms nega as bs cs ds
    if a % 32 ≠ 16 ∧ b % 32 ≠ 16 then
      let l := sext 5 a + sext 5 b
      (l / 4 + se c + se d, (l % 4).toNat, xor (xor (bit a 5) (bit b 5)) nega) :: rest
    else rest
  | _, _, _, _ => []

/-- The y of a logarithmic sum, none where the result is qnan (R130). -/
def logSum (nega : Bool) (a b : List Nat) (acol brow : List Nat) (arow bcol : Nat) : Option FV :=
  if arow = 255 ∨ bcol = 255 ∨ acol.contains 255 ∨ brow.contains 255 then none
  else
    match l6Terms nega a b acol brow with
    | [] => some (.fin false 0 0)
    | t :: ts =>
      let j := (t :: ts).foldl (fun m x => max m x.1) t.1
      let s := ((t :: ts).map (fun x =>
        let e := x.1 - j + 47
        let v : Nat := if 0 ≤ e then l6Table x.2.1 * 2 ^ e.toNat else l6Table x.2.1 / 2 ^ (-e).toNat
        if x.2.2 then -(v : Int) else (v : Int))).foldl (fun a b => a + b) 0
      some (exactFV s (j - 62 + se arow + se bcol))

/-- One result element with its status code (R129 to R131): `c` is the accumulator's element, 0 under ACCDIS. -/
def matSum (r : Nat) (a b acol brow : List Nat) (arow bcol : Nat) (c : Nat) : Nat × Nat :=
  if shAfmt r = 1 then
    let as_ := a.map (fun x => if shNega r then -(sext 8 x) else sext 8 x)
    let s := sext 32 c + dotI as_ (b.map (sext 8))
    (wrap 32 (satS 32 s), if satS 32 s = s then 0 else 5)
  else
    let y := if shAfmt r = 13 then logSum (shNega r) a b acol brow arow bcol
      else alignedSum (shAfmt r) (shBfmt r) (aWindow (shAfmt r)) (shNega r) a b acol brow arow bcol
    match y with
    | none => (fmt32.qnan, 6)
    | some y =>
      let v := encodeF fmt32 0 (addF 0 (decodeF fmt32 c) y)
      (v, if (decodeF fmt32 v).isNan then 6 else 0)

/-! ## Control-core issue -/

/-- The issuing context: its gang's number, the context and the gang. -/
def myCtx : Act (Nat × Ctx × Gang) := do
  match ← me with
  | .ctx c => return (c, ← getCtx c, ← getGang c)
  | .group _ => raise 0x01

/-- The shape slot of a context, none when no record is loaded. -/
def Ctx.slot (c : Ctx) (i : Nat) : Option Nat := Tab.find c.slots i

/-- The slot a word names; above 3 it raises 0x04, and unloaded 0x30 (R318). -/
def loadedSlot (c : Ctx) (i : Nat) : Act Nat := do
  if i > 3 then raise 0x04
  match c.slot i with
  | none => raise 0x30
  | some r => return r

/-- The view of a core. -/
def Ctx.viewOf (c : Ctx) (pos : Nat) : View := Tab.getD c.view pos ⟨[], []⟩

/-- Changes the view of every named core of a slot; the core's index j is given (R313). -/
def Ctx.setViews (c : Ctx) (r : Nat) (f : Nat → View → View) : Ctx :=
  { c with view := (namedCores r).foldl (fun v x => Tab.set v x.2 (f x.1 (Tab.getD v x.2 ⟨[], []⟩))) c.view }

/-- Whether a context may issue one more entry (R21, R312). -/
def State.ctxRoom (s : State) (n : Nat) (c : Ctx) (g : Gang) : Bool :=
  decide (c.queue.ents.length < 2) ||
    decide (((s.ctxs.filter (fun x => ((Tab.find s.gangs x.1).map (fun h =>
        h.placed && s.launchIn h.launch && h.die == g.die && h.cluster == g.cluster)).getD false)).map
      (fun x => x.2.queue.ents.length - 2)).foldl (fun a b => a + b) 0 < 128)

/-- A context with one more entry in its M queue (R30, R324). -/
def Ctx.issued (c : Ctx) (op : EOp) : Ctx :=
  let bar := if c.mrb = 0xFFFFFFFF then none else some c.mrb.toNat
  let e : Ent :=
    { seq := c.queue.next, born := 0, op := op, started := false, pos := 0, wrote := 0, status := 0, committed := false,
      batch := 0, report := bar, buf := [], merge := [], sent := [], after := [], accs := [], alds := [], xlat := [] }
  { c with queue := { c.queue with next := c.queue.next + 1, ents := c.queue.ents ++ [e] } }

/-- Changes the matrix engine of a gang core. -/
def modMatrix (n pos : Nat) (f : Matrix → Matrix) : Act Unit :=
  modGang n (fun g => { g with matrix := Tab.set g.matrix pos (f (Tab.getD g.matrix pos Matrix.empty)) })

/-- The matrix engine of a gang core. -/
def Gang.matrixOf (g : Gang) (pos : Nat) : Matrix := Tab.getD g.matrix pos Matrix.empty

/-! ## Row banks -/

/-- No rows and no scales. -/
def Bank.cleared : Bank := ⟨[], []⟩

/-- The filling bank. -/
def Matrix.fill (m : Matrix) : Bank := if m.filling = 0 then m.bank0 else m.bank1
/-- The other bank. -/
def Matrix.other (m : Matrix) : Bank := if m.filling = 0 then m.bank1 else m.bank0
/-- Puts the filling bank. -/
def Matrix.setFill (m : Matrix) (b : Bank) : Matrix := if m.filling = 0 then { m with bank0 := b } else { m with bank1 := b }

/-- Whether a core can feed an entry of M rows now (R309). -/
def Matrix.canFeed (m : Matrix) (rows : Nat) : Bool :=
  m.kept || (upFrom 0 rows).all (fun i => (Tab.find m.fill.rows i).isSome)

/-- The engine as an entry takes its bank: a kept bank as it stands; else the filling one, and the other becomes the filling
bank, cleared (R309). The bank taken is the other one then. -/
def Matrix.take (m : Matrix) : Matrix := if m.kept then m else { m with filling := 1 - m.filling }.setFill Bank.cleared

/-- The core that feeds a named core for an entry (R320). -/
def feeder (bcast : Bool) (r j pos : Nat) : Nat :=
  if bcast then (((namedCores r).find? (fun x => x.1 == j / 4 * 4)).map (fun x => x.2)).getD pos else pos

/-- Whether a word of SRAM belongs to an accumulator of a gang core. -/
def Sram.ofAcc (gang pos k : Nat) : Sram → Bool
  | .acc g p a _ => g == gang && p == pos && a == k
  | _ => false

/-- Whether a word of SRAM belongs to a tile of a gang core. -/
def Sram.ofTile (gang pos t : Nat) : Sram → Bool
  | .tile g p a _ => g == gang && p == pos && a == t
  | _ => false

/-- Whether a word of SRAM belongs to a row bank of a gang core. -/
def Sram.ofBank (gang pos bank : Nat) : Sram → Bool
  | .row g p b _ => g == gang && p == pos && b == bank
  | .scale g p b _ => g == gang && p == pos && b == bank
  | _ => false

/-- The feeding cores of an entry: none under ASRC 1 (R320). -/
def feedersOf (bcast : Bool) (r : Nat) : List Nat :=
  if shAsrc r then [] else ((namedCores r).map (fun x => feeder bcast r x.1 x.2)).eraseDups

/-- The MMA or MMAC at the head of a context's queue takes the bank of every feeding core that it has not taken yet and that
is kept or has rows 0 to M − 1 marked (R309, R330) (DEDUCED, log 87). -/
def takeBanks (gang : Nat) : Act Unit := do
  match Tab.find (← now).ctxs gang with
  | none => pure ()
  | some c =>
    match c.queue.ents with
    | [] => pure ()
    | e :: rest =>
      match e.op with
      | .mma bcast k r tile keep =>
        let g ← getGang gang
        let ready := (feedersOf bcast r).filter (fun f => !(Tab.find e.reads f).isSome && (g.matrixOf f).canFeed (shM r))
        ready.forM (fun f => do
          let m := (← getGang gang).matrixOf f
          if !m.kept then upd (fun s => s.rewrite (Sram.ofBank gang f (1 - m.filling)))
          modMatrix gang f Matrix.take)
        modCtx gang (fun c => { c with queue := { c.queue with
          ents := { e with reads := ready.foldl (fun t f => Tab.set t f 1) e.reads } :: rest } })
      | _ => pure ()

/-! ## Issue of context entries -/

/-- Issues an entry of the issuing context with its change of the view. -/
def issueCtx (op : EOp) (f : Ctx → Ctx) : Act Unit := do
  let (n, c, g) ← myCtx
  guardA ((← now).ctxRoom n c g)
  putCtx n ((f c).issued op)
  takeBanks n
  finish

/-- MSHAPE (R317). -/
def execMshape (sl a b : BitVec 5) (s : State) : Host.Outcome State Fault Refusal :=
  perform (do
    let (n, c, g) ← myCtx
    let va ← sreg a.toNat
    let base ← sreg b.toNat
    check [(decide (sl.toNat > 3), 0x04), (decide (va ≥ 2 ^ 48), 0x10), (decide (va % 8 ≠ 0), 0x12)]
    let r ← readRec va 64
    let mask := (shCmask r / 2 ^ g.cores) ≠ 0
    match addBase r base with
    | none => check [(true, 0x30), (decide mask, 0x0A)]
    | some r1 =>
      check [(!matOk r1, 0x30), (decide mask, 0x0A)]
      putCtx n { c with slots := Tab.set c.slots sl.toNat r1 }
    finish) s

/-- MLOADB (R318). -/
def execMloadb (t sl b : BitVec 5) (s : State) : Host.Outcome State Fault Refusal :=
  perform (do
    let (n, c, g) ← myCtx
    let off ← sreg b.toNat
    if t.toNat > 3 then raise 0x04
    let r ← loadedSlot c sl.toNat
    let base := (shBbase r + off) % 2 ^ 64
    if base % matSize (shBfmt r) ≠ 0 then raise 0x12
    issueCtx (.mloadb t.toNat r off) (fun c =>
      c.setViews r (fun _ v => { v with tiles := Tab.set v.tiles t.toNat (shK r, shN r, shBfmt r) }))) s

/-- A live accumulator as a slot makes it on the core of index j (R316, R319). -/
def accOf (r j : Nat) : Acc :=
  { m := shM r, n := shN r, cfmt := shCfmt r, rfmt := shRfmt r, res := shRes r, rrs := shRrs r, rb := j / 4, cb := j % 4
    elems := [] }

/-- The causes of making an accumulator live in a core's view (R319). -/
def spanChecks (v : View) (k r : Nat) : List (Bool × Nat) :=
  let w := spanOf (shM r) (shN r)
  [(decide (k + w > 8), 0x30),
   (v.accs.any (fun x => !(x.1 == k) && decide (x.1 < k + w) && decide (k < x.1 + spanOf x.2.m x.2.n)), 0x31)]

/-- The causes of adding into an accumulator of a core's view (R319). -/
def chainChecks (v : View) (k r : Nat) : List (Bool × Nat) :=
  match Tab.find v.accs k with
  | none => [(true, 0x30)]
  | some a => [(decide (a.m ≠ shM r ∨ a.n ≠ shN r ∨ a.cfmt ≠ shCfmt r), 0x30)]

/-- MMA and MMAC (R319). -/
def multiply (bcast : Bool) (k sl b : BitVec 5) : Act Unit := do
  let (n, c, g) ← myCtx
  let x ← sreg b.toNat
  check [(decide (k.toNat > 7 ∨ x / 8 ≠ 0), 0x04)]
  let r ← loadedSlot c sl.toNat
  let tile := x % 4
  let want := (shK r, shN r, shBfmt r)
  check ((namedCores r).flatMap (fun y =>
    let v := c.viewOf y.2
    (!(Tab.find v.tiles tile == some want), 0x30) :: (if shAccdis r then spanChecks v k.toNat r else chainChecks v k.toNat r)))
  issueCtx (.mma bcast k.toNat r tile (bit x 2)) (fun c =>
    if shAccdis r then c.setViews r (fun j v => { v with accs := Tab.set v.accs k.toNat (accOf r j) }) else c)

/-- MMA -/
def execMma (k sl b : BitVec 5) (s : State) : Host.Outcome State Fault Refusal := perform (multiply false k sl b) s
/-- MMAC -/
def execMmac (k sl b : BitVec 5) (s : State) : Host.Outcome State Fault Refusal := perform (multiply true k sl b) s

/-- MZERO (R322). -/
def execMzero (k sl b : BitVec 5) (s : State) : Host.Outcome State Fault Refusal :=
  perform (do
    let (n, c, g) ← myCtx
    let x ← sreg b.toNat
    check [(decide (k.toNat > 7 ∨ x / 2 ≠ 0), 0x04)]
    let r ← loadedSlot c sl.toNat
    let free := bit x 0
    if !free then check ((namedCores r).flatMap (fun y => spanChecks (c.viewOf y.2) k.toNat r))
    issueCtx (.mzero k.toNat r free) (fun c => c.setViews r (fun j v =>
      { v with accs := if free then Tab.del v.accs k.toNat else Tab.set v.accs k.toNat (accOf r j) }))) s

/-- MSTAT (R323). -/
def execMstat (d a b : BitVec 5) (s : State) : Host.Outcome State Fault Refusal :=
  perform (do
    let (n, c, g) ← myCtx
    let sel ← sreg b.toNat
    let x ← sreg a.toNat
    let sticky := fld c.sts.sticky 1 10 * 2
    match sel with
    | 0 => finishWith d.toNat (c.queue.mark.toNat + c.queue.next.toNat * 2 ^ 16)
    | 1 => finishWith d.toNat sticky
    | 2 => finishWith d.toNat c.sts.last.toNat
    | 3 =>
      putCtx n { c with sts := ⟨0, 0⟩ }
      finishWith d.toNat sticky
    | 4 =>
      let none_ := x = 0xFFFFFFFF
      check [(decide (x ≥ 2 ^ 32), 0x04), (decide (¬none_ ∧ x ≥ 16 * g.nbar), 0x04), (decide (¬none_ ∧ x % 16 ≠ 0), 0x12)]
      putCtx n { c with mrb := BitVec.ofNat 32 x }
      finishWith d.toNat c.mrb.toNat
    | _ => raise 0x04) s

/-! ## Context entries performing -/

/-- The head of a context's M queue, if it may perform now. -/
def ctxHead (n : Nat) : Act (Ctx × Gang × Ent) := do
  let s ← now
  let c ← getCtx n
  let g ← getGang n
  let e ← need c.queue.ents.head?
  guardA (c.queue.halt.isNone && s.instRuns g.inst && !c.st.stopped)
  return (c, g, e)

/-- Completes the head of a context's M queue (R302, R324). -/
def ctxComplete (n code aux : Nat) : Act Unit := do
  let (c, g, e) ← ctxHead n
  let word := statusWord code 2 aux e.seq.toNat
  putCtx n { c with sts := c.sts.report word, queue := { c.queue with mark := e.seq, ents := c.queue.ents.drop 1 } }
  arriveAt n e.report word

/-- A context's M queue halts: the instance parks with REASON 6 (R35, R263). -/
def ctxHalt (n code addr : Nat) : Act Unit := do
  let c ← getCtx n
  let e ← need c.queue.ents.head?
  let cause := Cause.ofHalt code 2 e.seq.toNat 0 addr
  putCtx n { c with queue := { c.queue with halt := some cause } }
  if c.st.ended then
    let frec : FaultRec := ⟨true, cause, 0, 0, [], 0⟩
    modCtx n (fun c => { c with st := { c.st with frec := frec } })
    upd (fun s => s.park (s.instOf (.ctx n)) 6 cause (s.whoWord (.ctx n)) frec)
  else upd (fun s => s.later (.ctx n) cause)

/-- Reads operand bytes for an engine: an uncorrectable sector gives zero and a mark; another cause ends the list, with its
address (R294, R318, R320). -/
def readElems (p : Port) (n : Nat) : List Nat → Act (Except (Nat × Nat) (List Nat × Bool))
  | [] => pure (.ok ([], false))
  | a :: as => do
    let x ← (do
      match ← readVA p fresh a n with
      | .ok v => return .ok (v, false)
      | .error c => if c = 0x13 then return .ok (0, true) else return .error (c, a) : Act (Except (Nat × Nat) (Nat × Bool)))
    match x with
    | .error e => return .error e
    | .ok (v, bad) =>
      match ← readElems p n as with
      | .error e => return .error e
      | .ok (vs, b) => return .ok (v :: vs, bad || b)

/-- Reads a scale vector of n bytes: all 0x7F when its address is 0. -/
def readScales (p : Port) (a n : Nat) : Act (Except (Nat × Nat) (List Nat × Bool)) :=
  if a = 0 then pure (.ok (List.replicate n 0x7F, false)) else readElems p 1 (upFrom a n)

/-- A wrapped virtual address of an element. -/
def elemVA (base : Nat) (off : Int) : Nat := wrap 64 ((base : Int) + off)

/-- The tile that MLOADB loads on the core of index j, and its status (R318). -/
def loadTile (p : Port) (r off j : Nat) : Act (Except (Nat × Nat) (Tile × Nat)) := do
  let before := (← now).corrections
  let base := (shBbase r + off) % 2 ^ 64
  let sb := matSize (shBfmt r)
  let at_ := (upFrom 0 (shK r)).flatMap (fun (k : Nat) => (upFrom 0 (shN r)).map (fun n =>
    elemVA base ((k : Int) * shBrs r + (((j % 4) * shN r + n) * shBes r * sb : Nat))))
  match ← readElems p sb at_ with
  | .error e => return .error e
  | .ok (xs, b1) =>
    match ← readScales p (shBrsa r) (shK r) with
    | .error e => return .error e
    | .ok (rows, b2) =>
      match ← readScales p (if shBcsa r = 0 then 0 else shBcsa r + j % 4 * shN r) (shN r) with
      | .error e => return .error e
      | .ok (cols, b3) =>
        let fixed := !((← now).corrections == before)
        let l6 := shBfmt r == 13 && xs.any (fun x => decide (x ≥ 64))
        let st := worseSts (worseSts (if fixed then 0x20 else 0) (if l6 then 0x40 else 0)) (if b1 || b2 || b3 then 0x31 else 0)
        let tab := fun (l : List Nat) => (upFrom 0 l.length).zip l
        return .ok (⟨shK r, shN r, shBfmt r, tab xs, tab rows, tab cols⟩, st)

/-- Performs a matrix entry on each named core in turn: the worst status, with what `aux` makes of the core. -/
def onCores (f : Nat → Nat → Act (Except (Nat × Nat) Nat)) : List (Nat × Nat) → Nat → Act (Except (Nat × Nat) Nat)
  | [], st => pure (.ok st)
  | (j, pos) :: rest, st => do
    match ← f j pos with
    | .error e => return .error e
    | .ok x => onCores f rest (worseSts st x)

/-- The core of index j loads its tile of slot t: the status, or a memory cause (R318). -/
def loadCore (gang : Nat) (p : Port) (t r off j pos : Nat) : Act (Except (Nat × Nat) Nat) := do
  match ← loadTile p r off j with
  | .error e => return .error e
  | .ok (tile, st) =>
    modMatrix gang pos (fun m => { m with tiles := Tab.set m.tiles t tile })
    return .ok st

/-- MLOADB_ENTRY_PERFORM (R318). A fault leaves the tile unloaded. -/
def execMloadbEntryPerform (gang : Nat) (s : State) : Host.Outcome State Fault Refusal :=
  perform (do
    let (c, g, e) ← ctxHead gang
    match e.op with
    | .mloadb t r off =>
      let p := (← now).portOf (.ctx gang)
      (namedCores r).forM (fun x => modMatrix gang x.2 (fun m => { m with tiles := Tab.del m.tiles t }))
      match ← onCores (loadCore gang p t r off) (namedCores r) 0 with
      | .error (c, a) =>
        (namedCores r).forM (fun x => modMatrix gang x.2 (fun m => { m with tiles := Tab.del m.tiles t }))
        ctxHalt gang c a
      | .ok st =>
        upd (fun s => s.rewrite (fun w => (namedCores r).any (fun x => Sram.ofTile gang x.2 t w)))
        ctxComplete gang (st / 16) (st % 16)
        takeBanks gang
    | _ => stall) s

/-! ## Products -/

/-- Byte b of a row of a bank. -/
def Bank.byte (k : Bank) (row b : Nat) : Nat :=
  match Tab.find k.rows row with
  | none => 0
  | some x => fld (nth x.words (b / 4) 0).toNat (8 * (b % 4)) 8

/-- An element of a row of a bank at a byte. -/
def Bank.elem (k : Bank) (row b size : Nat) : Nat := if size = 2 then k.byte row b + k.byte row (b + 1) * 256 else k.byte row b

/-- The rows of A an entry consumes from a bank, with their row scales (R320). -/
def bankRows (k : Bank) (r : Nat) : List (List Nat × Nat) :=
  let sa := matSize (shAfmt r)
  (upFrom 0 (shM r)).map (fun m =>
    ((upFrom 0 (shK r)).map (fun i => k.elem m ((shAoff r + i * shAes r) * sa) sa), (Tab.getD k.scales m 0x7F).toNat))

/-- Whether a row of a bank was not voted as the slot's format (Table of R320). -/
def badVote (k : Bank) (r : Nat) : Bool :=
  (upFrom 0 (shM r)).any (fun m => !(((Tab.find k.rows m).bind (fun x => x.fmt)) == some (BitVec.ofNat 32 (shAfmt r))))

/-- The rows of A an entry reads from memory for block row rb: the rows, and whether a sector was uncorrectable (R320). -/
def memRows (p : Port) (r rb : Nat) : List Nat → Act (Except (Nat × Nat) (List (List Nat × Nat) × Bool))
  | [] => pure (.ok ([], false))
  | m :: ms => do
    let sa := matSize (shAfmt r)
    let row := elemVA (shAbase r) (((rb * shM r + m : Nat) : Int) * shArs r)
    match ← readElems p sa ((upFrom 0 (shK r)).map (fun i => elemVA row (((shAoff r + i * shAes r) * sa : Nat) : Int))) with
    | .error e => return .error e
    | .ok (xs, b1) =>
      match ← readScales p (if shArsa r = 0 then 0 else shArsa r + rb * shM r + m) 1 with
      | .error e => return .error e
      | .ok (sc, b2) =>
        match ← memRows p r rb ms with
        | .error e => return .error e
        | .ok (rest, b3) => return .ok ((xs, nth sc 0 0x7F) :: rest, b1 || b2 || b3)

/-- The new elements of an accumulator and the worst code (R320). -/
def productOf (r : Nat) (t : Tile) (acol : List Nat) (rows : List (List Nat × Nat)) (c : Tab W32) : Tab W32 × Nat :=
  let brow := t.brow.map (fun x => x.2)
  let cells := (upFrom 0 (shM r)).flatMap (fun m => (upFrom 0 (shN r)).map (fun n =>
    let (a, arow) := nth rows m ([], 0x7F)
    let b := (upFrom 0 (shK r)).map (fun k => Tab.getD t.elems (k * shN r + n) 0)
    let old := if shAccdis r then 0 else (Tab.getD c (m * shN r + n) 0).toNat
    (m * shN r + n, matSum r a b acol brow arow (Tab.getD t.bcol n 0x7F) old)))
  (cells.map (fun x => (x.1, BitVec.ofNat 32 x.2.1)), (cells.map (fun x => x.2.2)).foldl worse 0)

/-- The value an uncorrectable element of an accumulator gives (R320, R327). -/
def lostElem (cfmt : Nat) : Nat := if cfmt = 3 then 0 else fmt32.qnan

/-- The product of an entry on the core of index j: the accumulator written, with the code of what it met (R222, R320). `rows`
come from memory under ASRC 1; `bad` says that one of their sectors, or a scale's, was uncorrectable. -/
def multiplyOn (gang k r tile j pos : Nat) (bank : Option (Nat × Bank)) (rows : List (List Nat × Nat)) (acol : List Nat)
    (bad fixed : Bool) : Act Nat := do
  let g ← getGang gang
  let s ← now
  let m := g.matrixOf pos
  let t := Tab.getD m.tiles tile ⟨shK r, shN r, shBfmt r, [], [], []⟩
  let acc0 := Tab.getD m.accs k (accOf r j)
  let lost := if shAccdis r then [] else (upFrom 0 (shM r * shN r)).filter (fun i => s.sramBad.contains (.acc gang pos k i))
  let c1 ← readWords g.die (fun w => (!shAccdis r && Sram.ofAcc gang pos k w) || Sram.ofTile gang pos tile w)
  let c2 ← (match bank with
    | none => pure 0
    | some (f, b) => readWords g.die (fun w => Sram.ofBank gang f (1 - (g.matrixOf f).filling) w))
  let (elems, code) := productOf r t acol rows acc0.elems
  let l6 := shAfmt r == 13 && rows.any (fun x => x.1.any (fun y => decide (y ≥ 64)))
  let vote := (bank.map (fun b => badVote b.2 r)).getD false
  let acc := { (if shAccdis r then accOf r j else acc0) with
    elems := lost.foldl (fun t i => Tab.set t i (BitVec.ofNat 32 (lostElem (shCfmt r)))) elems }
  modMatrix gang pos (fun m => { m with accs := Tab.set m.accs k acc })
  upd (fun s => s.rewrite (Sram.ofAcc gang pos k))
  return [c1, c2, if l6 || vote then 4 else 0, if fixed then 2 else 0, if bad then 3 else 0].foldl worse code

/-- An entry's product on the core of index j: the rows from memory under ASRC 1, else from the bank that its feeder has given;
the status, or a memory cause (R320). `bad` and `fixed` tell of the errors that the column scales met. -/
def multiplyCore (gang : Nat) (p : Port) (bcast : Bool) (k r tile : Nat) (acol : List Nat) (bad fixed : Bool) (j pos : Nat) :
    Act (Except (Nat × Nat) Nat) := do
  let g ← getGang gang
  let before := (← now).corrections
  if shAsrc r then
    match ← memRows p r (j / 4) (upFrom 0 (shM r)) with
    | .error e => return .error e
    | .ok (rows, lost) =>
      let again := !((← now).corrections == before)
      let code ← multiplyOn gang k r tile j pos none rows acol (lost || bad) (fixed || again)
      return .ok (code * 16 + (if code = 0 then 0 else pos))
  else
    let f := feeder bcast r j pos
    let bank := (g.matrixOf f).other
    let code ← multiplyOn gang k r tile j pos (some (f, bank)) (bankRows bank r) acol bad fixed
    return .ok (code * 16 + (if code = 0 then 0 else pos))

/-- MMA_ENTRY_PERFORM: an MMA or MMAC entry that has taken its banks accumulates on each named core, all or nothing (R309,
R320). -/
def execMmaEntryPerform (gang : Nat) (s : State) : Host.Outcome State Fault Refusal :=
  perform (do
    discard (ctxHead gang)
    takeBanks gang
    let (c, g, e) ← ctxHead gang
    match e.op with
    | .mma bcast k r tile keep =>
      let p := (← now).portOf (.ctx gang)
      guardA ((feedersOf bcast r).all (fun f => (Tab.find e.reads f).isSome))
      let before := (← now).corrections
      match ← readScales p (shAcsa r) (shK r) with
      | .error (c, a) => ctxHalt gang c a
      | .ok (acol, bc) =>
        let fixed := !((← now).corrections == before)
        match ← onCores (multiplyCore gang p bcast k r tile acol bc fixed) (namedCores r) 0 with
        | .error (c, a) =>
          (namedCores r).forM (fun x => modMatrix gang x.2 (fun m => { m with accs := (g.matrixOf x.2).accs }))
          ctxHalt gang c a
        | .ok st =>
          (feedersOf bcast r).forM (fun f => modMatrix gang f (fun m => { m with kept := keep }))
          ctxComplete gang (st / 16) (st % 16)
          takeBanks gang
    | _ => stall) s

/-- MZERO_ENTRY_PERFORM: an error in the words it writes over is reported as 0x02, the only code R322 gives it (R222) (DESIGN
CHOICE, log 88). -/
def execMzeroEntryPerform (gang : Nat) (s : State) : Host.Outcome State Fault Refusal :=
  perform (do
    let (c, g, e) ← ctxHead gang
    match e.op with
    | .mzero k r free =>
      let code ← readWords g.die (fun w => (namedCores r).any (fun x => Sram.ofAcc gang x.2 k w))
      (namedCores r).forM (fun x => modMatrix gang x.2 (fun m =>
        { m with accs := if free then Tab.del m.accs k else Tab.set m.accs k (accOf r x.1) }))
      upd (fun s => s.rewrite (fun w => (namedCores r).any (fun x => Sram.ofAcc gang x.2 k w)))
      ctxComplete gang (if code = 0 then 0 else 2) 0
      takeBanks gang
    | _ => stall) s

/-! ## Lane instructions -/

/-- The gang of the issuing group, which must be a MATRIX gang (Table 11-8). -/
def matrixGang (l : Lane) (more : List (Bool × Nat)) : Act Gang := do
  let (_, ga) ← myGang
  checkLane l ((!bit ((← now).nodeRec ga) 247, 0x04) :: more)
  return ga

/-- MFEED (R325). -/
def execMfeed (w : LaneW) (s : State) : Host.Outcome State Fault Refusal :=
  perform (do
    let l ← myLane
    discard (matrixGang l [])
    let xs ← readOps w (l.part w) [slot32 w.a, slot32 w.b]
    let votes := xs.map (fun x => arg x.2 1)
    if votes.any (fun v => !(v == nth votes 0 0)) then raiseLane l 0x08 0
    let word := fun (t : Nat) => match xs.find? (fun x => x.1 == t) with
      | none => (0 : W32)
      | some x => if (l.g.thread t).cls == .helper then 0 else BitVec.ofNat 32 (arg x.2 0)
    let vote := votes.head?.map (fun v => (BitVec.ofNat 32 v : W32))
    discard (issueEntry l.k 2 (.mfeed (w.imm.toNat % 128) ((upFrom 0 32).map word) vote))
    laneDone) s

/-- MSCALE (R326). -/
def execMscale (w : LaneW) (s : State) : Host.Outcome State Fault Refusal :=
  perform (do
    let l ← myLane
    discard (matrixGang l [])
    let xs ← readOps w (l.part w) [slot32 w.a]
    let row := w.imm.toNat % 128
    let scales := (xs.filter (fun x => !((l.g.thread x.1).cls == .helper) && decide (row + x.1 ≤ 127))).map (fun x =>
      (row + x.1, (BitVec.ofNat 8 (arg x.2 0) : Byte)))
    discard (issueEntry l.k 2 (.mscale scales))
    laneDone) s

/-- MDRAIN (R327). -/
def execMdrain (w : LaneW) (s : State) : Host.Outcome State Fault Refusal :=
  perform (do
    let l ← myLane
    let x := w.imm.toNat
    let bar := fld x 8 8
    let ga ← matrixGang l []
    checkLane l [(decide (bar ≠ 0xFF ∧ bar ≥ ga.nbar), 0x04)]
    let base := l.plain (← now) x (slot64 w.a) 0
    if (l.part w).any (fun t => !((l.g.thread t).cls == .helper)) then
      let b : BarRef := if bar = 0xFF then none else some (16 * bar)
      discard (issueEntry l.k 2 (.mdrain (fld x 0 3) (bit x 3) (bit x 4) (satOf w) (rmOf w) base b))
    laneDone) s

/-- MFMT: the request goes to the control core (R328). -/
def execMfmt (w : LaneW) (s : State) : Host.Outcome State Fault Refusal :=
  perform (do
    checkD w false
    let l ← myLane
    discard (matrixGang l [])
    let ts := l.part w
    let tag ← laneLater w
    modGroup l.k (fun g => { g with fmts := g.fmts ++ [(tag, w.c.toNat, w.imm.toNat % 4, w.d.toNat, ts)] })) s

/-- A field of a shape slot that MFMT reads (R328). -/
def fmtField (r f : Nat) : Nat :=
  nth [shAfmt r, shBfmt r, shCfmt r, shM r, shN r, shK r, shCmask r] f 0

/-- MFMT_REQUEST: the request reaches the control core and the slot is read (R328). -/
def execMfmtRequest (gk tag : Nat) (s : State) : Host.Outcome State Fault Refusal :=
  perform (do
    let g ← getGroup gk
    let (t, f, sl, d, ts) ← need (g.fmts.find? (fun x => x.1 == tag))
    let c ← getCtx (gk / 65536)
    let v := ((c.slot sl).map (fun r => fmtField r f)).getD 0
    putGroup gk { g with fmts := g.fmts.filter (fun x => !(x.1 == tag)) }
    resultReady gk tag (resultWrites d false (ts.map (fun t => (t, v))))) s

/-! ## Group entries performing -/

/-- The gang position of a group. -/
def posOf (g : Group) : Nat := g.id.pos

/-- MFEED_ENTRY_PERFORM: the row is written when it is unmarked (R325, R330). -/
def execMfeedEntryPerform (gk : Nat) (s : State) : Host.Outcome State Fault Refusal :=
  perform (do
    let (g, qu, e) ← headOf gk 2
    match e.op with
    | .mfeed row words fmt =>
      let m := (← getGang (gk / 65536)).matrixOf (posOf g)
      guardA (Tab.find m.fill.rows row).isNone
      modMatrix (gk / 65536) (posOf g) (fun m => m.setFill { m.fill with rows := Tab.set m.fill.rows row ⟨words, fmt⟩ })
      takeBanks (gk / 65536)
      discard (complete gk 2 0 0)
    | _ => stall) s

/-- MSCALE_ENTRY_PERFORM (R326). -/
def execMscaleEntryPerform (gk : Nat) (s : State) : Host.Outcome State Fault Refusal :=
  perform (do
    let (g, qu, e) ← headOf gk 2
    match e.op with
    | .mscale scales =>
      let m := (← getGang (gk / 65536)).matrixOf (posOf g)
      guardA (scales.all (fun x => (Tab.find m.fill.rows x.1).isNone))
      modMatrix (gk / 65536) (posOf g) (fun m =>
        m.setFill { m.fill with scales := scales.foldl (fun t x => Tab.set t x.1 x.2) m.fill.scales })
      discard (complete gk 2 0 0)
    | _ => stall) s

/-- An accumulator element as MDRAIN writes it (R327). -/
def drainValue (a : Acc) (rm : Nat) (sat : Bool) (x : Nat) : Nat :=
  if a.cfmt = 3 then
    (if a.rfmt = 1 then (if sat then wrap 8 (satS 8 (sext 32 x)) else x % 256) else x)
  else
    let f := if a.rfmt = 9 then fmt32 else matFmt a.rfmt
    let y := encodeF f rm (decodeF fmt32 x)
    if sat then satF f y else y

/-- Whether a drained value is a NaN. -/
def drainNan (a : Acc) (y : Nat) : Bool := !(a.cfmt == 3) && (decodeF (if a.rfmt = 9 then fmt32 else matFmt a.rfmt) y).isNan

/-- The bytes an accumulator drains to, with the element each belongs to: address, element number, byte number (R327). -/
def drainBytes (a : Acc) (spad : Bool) (base : Nat) : List (Nat × Nat × Nat) :=
  let sr := matSize a.rfmt
  (upFrom 0 a.m).flatMap (fun m => (upFrom 0 a.n).flatMap (fun n =>
    let off : Int := ((a.rb * a.m + m : Nat) : Int) * a.rrs + (((a.cb * a.n + n) * a.res * sr : Nat) : Int)
    (upFrom 0 sr).map (fun (b : Nat) => (wrap (if spad then 32 else 64) ((base : Int) + off + (b : Int)), m * a.n + n, b))))

/-- The head of a group's queue gathers a status. -/
def joinStatus (k q st : Nat) : Act Unit :=
  setHead k q (fun e => { e with started := true, status := BitVec.ofNat 32 (worseSts e.status.toNat st) })

/-- A drain reads an element of its accumulator, unless it has read it: an uncorrectable one reads as a quiet NaN, or 0 for an
integer one, and the status says so (R222, R327, R329). -/
def drainTake (k acc : Nat) (a : Acc) (i : Nat) : Act Unit := do
  let e ← headEnt k 2
  if (Tab.find e.reads i).isSome then pure ()
  else
    let g ← getGroup k
    let ga ← getGang (k / 65536)
    let code ← readWords ga.die (fun w => w == .acc (k / 65536) (posOf g) acc i)
    joinStatus k 2 (16 * code)
    let v := if code = 3 then lostElem a.cfmt else (Tab.getD a.elems i 0).toNat
    setHead k 2 (fun e => { e with reads := Tab.set e.reads i v })

/-- One destination sector of a drain: its elements read and written, and those it completes become zero under ZERO (R327). -/
def drainSector (k : Nat) (p : Port) (acc : Nat) (spad zero sat : Bool) (rm base z : Nat) : Act Bool := do
  let g ← getGroup k
  let m := (← getGang (k / 65536)).matrixOf (posOf g)
  match Tab.find m.accs acc with
  | none => return false
  | some a =>
    let here := (drainBytes a spad base).filter (fun x => x.1 / 32 == z)
    ((here.map (fun x => x.2.1)).eraseDups).forM (drainTake k acc a)
    let e ← headEnt k 2
    let val := fun (i : Nat) => drainValue a rm sat (Tab.getD e.reads i 0)
    match ← putSector k 2 0 p spad z (here.map (fun x => (x.1, fld (val x.2.1) (8 * x.2.2) 8))) with
    | .error c =>
      haltHead k 2 c (32 * z)
      return false
    | .ok false => return false
    | .ok true =>
      if here.any (fun x => drainNan a (val x.2.1)) then joinStatus k 2 0x60
      if zero then
        let done := (here.filter (fun x => x.2.2 + 1 == matSize a.rfmt)).map (fun x => x.2.1)
        modMatrix (k / 65536) (posOf g) (fun m =>
          { m with accs := Tab.set m.accs acc { a with elems := done.foldl (fun t i => Tab.set t i 0) a.elems } })
        upd (fun s => s.rewrite (fun w => done.any (fun i => w == .acc (k / 65536) (posOf g) acc i)))
      setHead k 2 (fun e => { e with pos := e.pos + 1 })
      return true

/-- Up to n destination sectors of a drain; whether all are written. -/
def drainRun (k : Nat) (p : Port) (acc : Nat) (spad zero sat : Bool) (rm base : Nat) : Nat → List Nat → Act Bool
  | 0, zs => pure zs.isEmpty
  | _, [] => pure true
  | n + 1, z :: zs => do
    if ← drainSector k p acc spad zero sat rm base z then drainRun k p acc spad zero sat rm base n zs
    else return false

/-- MDRAIN_ENTRY_PERFORM: the drain reads the elements listed, each at its own time, and writes its next n destination sectors,
whose other elements it reads then (R327, R329). A drain to virtual memory that has started suspends at a sector, though R282 also says that
started matrix entries run to their end (DESIGN CHOICE, log 89). -/
def execMdrainEntryPerform (part : Part) (elems : List Nat) (s : State) : Host.Outcome State Fault Refusal :=
  perform (do
    let (g, qu, e) ← headOf part.g 2
    match e.op with
    | .mdrain acc spad zero sat rm base _ =>
      let m := (← getGang (part.g / 65536)).matrixOf (posOf g)
      let p ← headPort part.g 2
      let done := fun (_ : Unit) => (do
        if ← headReached part.g 2 then
          let e ← headEnt part.g 2
          discard (complete part.g 2 (e.status.toNat / 16) (e.status.toNat % 16)) : Act Unit)
      match Tab.find m.accs acc with
      | none =>
        joinStatus part.g 2 0x40
        done ()
      | some a =>
        setHead part.g 2 (fun e => { e with started := true })
        (elems.filter (fun i => decide (i < a.m * a.n))).forM (drainTake part.g acc a)
        let zs := sortBy (fun x => x) (((drainBytes a spad base).map (fun x => x.1 / 32)).eraseDups)
        if ← drainRun part.g p acc spad zero sat rm base part.n (zs.drop e.pos) then done ()
    | _ => stall) s

/-! ## Errors that strike (R222, R287) -/

/-- A row of a bank whose words are lost: free values. -/
def Row.lose (x : Row) (t : Nat) : Row := { x with words := (upFrom 0 x.words.length).map (fun i => Config.lostWord (t + i)) }

/-- A tile whose element i is lost: a free value of the element's size. -/
def Tile.lose (x : Tile) (t i : Nat) : Tile :=
  { x with elems := Tab.set x.elems i ((Config.lostWord t).toNat % 2 ^ (8 * matSize x.fmt)) }

/-- Changes bank n of a core's engine. -/
def Matrix.onBank (m : Matrix) (n : Nat) (f : Bank → Bank) : Matrix :=
  if n = 0 then { m with bank0 := f m.bank0 } else { m with bank1 := f m.bank1 }

/-- A core's engine after an uncorrectable error in a word of a tile or a bank: the word reads as a free value from then on
(log 88). -/
def Matrix.lose (m : Matrix) (t : Nat) (w : Sram) : Matrix :=
  match w with
  | .tile _ _ k i => { m with tiles := m.tiles.map (fun x => if x.1 = k then (k, x.2.lose t i) else x) }
  | .row _ _ n r => m.onBank n (fun b => { b with rows := b.rows.map (fun x => if x.1 = r then (r, x.2.lose t) else x) })
  | .scale _ _ n r => m.onBank n (fun b => { b with scales := Tab.set b.scales r (BitVec.ofNat 8 (Config.lostWord t).toNat) })
  | .acc _ _ _ _ | .peal _ _ _ _ | .lv _ _ | .cv _ _ | .groupState _ => m

/-- The gang and the position whose engine holds a word. -/
def Sram.core : Sram → Option (Nat × Nat)
  | .acc g p _ _ => some (g, p)
  | .tile g p _ _ => some (g, p)
  | .row g p _ _ => some (g, p)
  | .scale g p _ _ => some (g, p)
  | .peal _ _ _ _ | .lv _ _ | .cv _ _ | .groupState _ => none

/-- The machine once an uncorrectable error has taken a word's value. -/
def State.lose (s : State) (w : Sram) : State :=
  match w.core with
  | none => s
  | some (g, p) =>
    match Tab.find s.gangs g with
    | none => s
    | some ga => { s with gangs := Tab.set s.gangs g { ga with matrix := Tab.set ga.matrix p ((ga.matrixOf p).lose s.tick w) } }

/-- The machine after an error has struck, correctable or not: a sector or a word bears it until it is written anew. One in a
group's own state is counted at once where it is correctable; SOFT_ERROR is the step of one that is not (R222, R287). -/
def State.strike (s : State) (x : Upset × Bool) : State :=
  match x.1 with
  | .sector k =>
    if s.bad.contains k then s
    else if x.2 then { s with corr := k :: s.corr.filter (fun y => !(y == k)) }
    else { s with bad := k :: s.bad, corr := s.corr.filter (fun y => !(y == k)) }
  | .word (.groupState g) => if x.2 then s.countCorr (((s.gangOf (.group g)).map (fun ga => ga.die)).getD 0) else s
  | .word w =>
    if s.sramBad.contains w then s
    else if x.2 then { s with sramCorr := w :: s.sramCorr.filter (fun y => !(y == w)) }
    else { s.lose w with sramBad := w :: s.sramBad, sramCorr := s.sramCorr.filter (fun y => !(y == w)), tick := s.tick + 32 }

end Sys2Proof.Machine
end

