-- ==== Sys2Proof/Machine/Traps.lean ====
section
/-! DEFINITION. Instructions of the partition controller and the steps of taking a cause: TRAP, REGN, TRET, CAUSE, FREC,
SUSP, and soft errors (R259 to R276, R287). -/

set_option linter.unusedVariables false

namespace Sys2Proof.Machine

open Sys2Proof

/-- TRAP raises 0x0C with its immediate in USER (R271). -/
def execTrap (u : BitVec 16) (s : State) : Host.Outcome State Fault Refusal :=
  perform (do
    let st ← myStream
    halt (.raise { Cause.atWord 0x0C st.pc 0 with user := u.toNat })) s

/-! ## Regions -/

/-- An operand queue at a REGN: what every thread has passed is freed, and the rest is retained (R266). -/
def OpQ.retain (q : OpQ) (ts : List Nat) : OpQ :=
  let q1 := { q with keep := 0 }.trim ts
  { q1 with keep := q1.base + q1.ents.length }

/-- The group at a REGN word at pc (R266). -/
def Group.region (g : Group) (pc : Nat) : Group :=
  let ps := g.present
  let opq := g.opq.map (fun q => (q.1, q.2.retain ps))
  { g with
    opq := opq
    ckpt := {
      regs := g.st.regs, flags := g.st.flags, rstack := g.st.rstack, loops := g.st.loops, lc := g.st.lc, astr := g.astr
      amask := g.amask, wgt := g.wgt, heads := opq.map (fun q => (q.1, q.2.heads))
      tails := opq.map (fun q => (q.1, q.2.base + q.2.ents.length)), first := g.ckpt.first }
    base := g.queues.map (fun q => (q.1, q.2.next))
    regnc := (g.regnc + 1) % 2 ^ 64
    epc := pc }

/-- REGN (R264, R266, R272). It waits also for the group's pending ALD reads (DESIGN CHOICE, log 78). -/
def execRegn (s : State) : Host.Outcome State Fault Refusal :=
  perform (do
    let k ← myGroup
    noTrapMode
    waitRun k false
    waitAld
    if !(← commits k) then halt (.wait .engine)
    closeWindows
    let pc := (← myStream).pc
    modGroup k (fun g => g.region pc)
    finish) s

/-! ## Return from trap -/

/-- A queue with every entry from BASE on withdrawn and its halt cleared; the mark passes over them once no earlier entry is left
to perform (R31, R273). -/
def Queue.withdraw (x : Queue) (base : W16) : Queue :=
  let left := x.ents.filter (fun e => !decide ((e.seq - base).toNat < 32768))
  { x with
    ents := left
    mark := if left.isEmpty && !x.ents.isEmpty then x.next - 1 else x.mark
    halt := none }

/-- An operand queue back at its checkpoint: the heads and the tail as they stood, with the entries retained (R266). -/
def OpQ.restore (q : OpQ) (heads : Tab Nat) (tail : Nat) : OpQ :=
  { q with heads := heads, base := min q.base tail, ents := q.ents.take (tail - q.base) }

/-- Replay of the current region (R264, R266, R273): entries withdrawn, halts cleared, the run discarded, the checkpoint
restored. -/
def Group.replay (g : Group) : Group :=
  let c := g.ckpt
  let pc := if g.epc = 0 then c.first else addr64 g.epc 4
  let g1 := { g with queues := g.queues.map (fun (q : Nat × Queue) => (q.1, q.2.withdraw (Tab.getD g.base q.1 0))) }
  { g1 with
    st := { g.st with
      regs := c.regs, flags := c.flags, rstack := c.rstack, loops := c.loops, lc := c.lc, pc := pc, tmode := false
      held := none, cause := none, due := [], wait := .none, twait := .none, pend := [], age := 0 }
    astr := c.astr, amask := c.amask, wgt := c.wgt
    run := Run.idle, lpend := [], laccs := [], fmts := []
    opq := g.opq.map (fun (q : Nat × OpQ) => (q.1, q.2.restore (Tab.getD c.heads q.1 []) (Tab.getD c.tails q.1 0)))
    batches := { g1.batches with sealed := g1.sealedLeft } }

/-- A stream that leaves trap mode at an address (R273). -/
def Stream.leave (st : Stream) (pc : Nat) (w : Wait) : Stream :=
  { st with tmode := false, held := none, cause := none, pc := pc, wait := w, twait := .none, word := st.tword, age := 0 }

/-- The stream after TRET in mode again, if its record permits it: at XPC, or where it stood under a lane cause (R273). -/
def Stream.again (st : Stream) : Option Stream :=
  if st.frec.cause.kind = 0 then some (st.leave st.frec.cause.xpc .none)
  else if st.frec.cause.kind = 1 then some (st.leave st.tpc st.twait)
  else none

/-- The stream after TRET in mode next, if its record permits it (R273). -/
def Stream.pastTrap (st : Stream) : Option Stream :=
  if st.frec.cause.code = 0x0C then some (st.leave (addr64 st.frec.cause.xpc 4) .none) else none

/-- TRET outside trap mode raises 0x03 (R259). -/
def onlyTrapMode : Act Unit := do if (← myStream).tmode then pure () else raise 0x03

/-- The stream of a unit whose word at pc has completed elsewhere: single-step leaves its cause (R286). -/
def State.steppedOn (s : State) (u : Who) (pc : Nat) : State :=
  match s.stream u with
  | none => s
  | some st => s.setStream u (s.stepped u pc st)

/-- TRET region; a context has none, and raises 0x04, a double fault (R263, R273, R286). -/
def execTretRegion (s : State) : Host.Outcome State Fault Refusal :=
  perform (do
    onlyTrapMode
    let pc := (← myStream).pc
    match ← me with
    | .ctx _ => raise 0x04
    | .group k =>
      modGroup k Group.replay
      upd (fun s => s.steppedOn (.group k) pc)) s

/-- Leaves trap mode with a stream, or raises 0x04 where the record permits none (R273, R286). -/
def leaveTrap (f : Stream → Option Stream) : Act Unit := do
  onlyTrapMode
  let old ← myStream
  match f old with
  | none => raise 0x04
  | some st =>
    let u ← me
    upd (fun s => s.setStream u (s.stepped u old.pc st))

/-- TRET again: KIND 0 or 1, else 0x04, a double fault (R273). -/
def execTretAgain (s : State) : Host.Outcome State Fault Refusal :=
  perform (leaveTrap Stream.again) s

/-- TRET next: after a TRAP, else 0x04, a double fault (R273). -/
def execTretNext (s : State) : Host.Outcome State Fault Refusal :=
  perform (leaveTrap Stream.pastTrap) s

/-! ## Handler mask and fault record -/

/-- CAUSE (R260, R274). -/
def execCause (d a : BitVec 5) (s : State) : Host.Outcome State Fault Refusal :=
  perform (do
    let v ← sreg a.toNat
    if v ≥ 2 ^ 16 then raise 0x04
    let st ← myStream
    putStream { st with hmask := BitVec.ofNat 16 v }
    finishWith d.toNat st.hmask.toNat) s

/-- Four 16-bit fields of a table of queues, from queue q on (R269). -/
def queueWord (f : Nat → Nat) (q : Nat) : Nat := f q + f (q + 1) * 2 ^ 16 + f (q + 2) * 2 ^ 32 + f (q + 3) * 2 ^ 48

/-- Word n of a fault record (Table 9-2); `mark` gives the performed mark of a queue. Before any cause every word is 0. -/
def FaultRec.word (r : FaultRec) (mark : Nat → Nat) (n : Nat) : Nat :=
  let c := r.cause
  let cap := fun (f : Nat → Nat) (q : Nat) => if q < 10 then f q else 0
  if !r.taken then 0
  else
    match n with
    | 0 => c.code + c.kind * 2 ^ 8 + c.qbit * 2 ^ 10 + c.tnum * 2 ^ 14 + c.user * 2 ^ 32
    | 1 => c.xpc
    | 2 => c.xlpc
    | 3 => c.addr
    | 4 => r.epc
    | 5 => r.regnc
    | 6 => c.hseq + c.stops * 2 ^ 32
    | 7 => queueWord (cap (fun q => (Tab.getD r.base q 0).toNat)) 0
    | 8 => queueWord (cap (fun q => (Tab.getD r.base q 0).toNat)) 4
    | 9 => queueWord (cap (fun q => (Tab.getD r.base q 0).toNat)) 8
    | 10 => queueWord (cap mark) 0
    | 11 => queueWord (cap mark) 4
    | 12 => queueWord (cap mark) 8
    | 13 => r.second
    | _ => 0

/-- The performed mark of each queue of a unit; a context has only the M queue (R31). -/
def State.markOf (s : State) (u : Who) (q : Nat) : Nat :=
  match u with
  | .group k => ((Tab.find s.groups k).map (fun g => (g.queue q).mark.toNat)).getD 0xFFFF
  | .ctx c => if q = 2 then ((Tab.find s.ctxs c).map (fun x => x.queue.mark.toNat)).getD 0xFFFF else 0xFFFF

/-- FREC (R269, R275). -/
def execFrec (d a : BitVec 5) (s : State) : Host.Outcome State Fault Refusal :=
  perform (do
    let n ← sreg a.toNat
    if n ≥ 16 then raise 0x04
    let st ← myStream
    finishWith d.toNat (st.frec.word ((← now).markOf (← me)) n)) s

/-- The EPC, REGN counter and BASE a fault record of a unit takes (Table 9-2). -/
def State.regionOf (s : State) (u : Who) : Nat × Nat × Tab W16 :=
  match u with
  | .ctx _ => (0, 0, [])
  | .group k => ((Tab.find s.groups k).map (fun g => (g.epc, g.regnc, g.base))).getD (0, 0, [])

/-- The fault record at a SUSP (R276). -/
def Stream.suspRec (st : Stream) (user : Nat) (r : Nat × Nat × Tab W16) : FaultRec :=
  if st.tmode then { st.frec with cause := { st.frec.cause with user := user } }
  else ⟨true, { Cause.zero with xpc := st.pc, user := user }, r.1, r.2.1, r.2.2, 0⟩

/-- SUSP parks the instance with REASON 3 (R276). The stream stays at the SUSP word. -/
def execSusp (a : BitVec 5) (s : State) : Host.Outcome State Fault Refusal :=
  perform (do
    let v ← sreg a.toNat
    if v ≥ 2 ^ 16 then raise 0x04
    waitSettled
    let u ← me
    let st ← myStream
    let frec := st.suspRec v ((← now).regionOf u)
    putStream { st with frec := frec }
    upd (fun s => s.park (s.instOf u) 3 frec.cause (s.whoWord u) frec)) s

/-! ## Steps -/

/-- TAKE_CAUSE: a unit that holds a cause takes it once nothing it has issued is outstanding (R262). -/
def execTakeCause (unit who : Nat) (s : State) : Host.Outcome State Fault Refusal :=
  perform (do
    let u := whoOf unit who
    let s ← now
    guardA (((s.stream u).map (fun st => st.held.isSome && !st.stopped)).getD false && s.quiet u)
    upd (fun s => (s.settleLanes u).take u)) s

/-- SOFT_ERROR: an uncorrectable error in a unit's own state raises 0x13, and the instance parks (R287) (DEDUCED, log 38). -/
def execSoftError (unit who : Nat) (s : State) : Host.Outcome State Fault Refusal :=
  perform (do
    let u := whoOf unit who
    let s ← now
    guardA (((s.stream u).map (fun st => !st.held.isSome)).getD false)
    let die := ((s.gangOf u).map (fun g => g.die)).getD 0
    upd (fun s => { s.countBad die with tick := s.tick + 1 })
    raiseUnit u { Cause.zero with code := 0x13, kind := (Config.softKind s.tick).toNat }) s

end Sys2Proof.Machine
end

