-- ==== Sys2Proof/Machine/Scheduler.lean ====
section
/-! DEFINITION. The instructions of the task-graph scheduler and the end of a group: SPAWN to DIEQ, EXIT, CCONT and the
start of continuations (R149, R303 to R305, R482 to R490). -/

set_option linter.unusedVariables false

namespace Sys2Proof.Machine

open Sys2Proof

/-! ## Adopted instances and the end of a group -/

/-- Raises a memory cause of a publication at the issuing word (R485). -/
def raisePub (p : Port) (c va : Nat) : Act Unit := do
  if c = 0x13 then
    let d ← homeAt p va
    halt (.raiseBad (Cause.atWord c (← myStream).pc va) d)
  else raiseAt c va

/-- The launch of an instance publishes what the instance has not published yet (R468). -/
def publishRest (p : Port) (key : Nat) : Act (Option (Nat × Nat)) := do
  let i ← getInst key
  let l ← getLaunch i.launch
  publishAll p key (l.outputs i.node i.index)

/-- The group retires the instance it adopted before, if any (R490). -/
def retireAdopted (k : Nat) : Act Unit := do
  let g ← getGroup k
  match g.adopted with
  | none => pure ()
  | some key =>
    let p ← enginePort k
    match ← publishRest p key with
    | some (c, va) => raisePub p c va
    | none =>
      modInst key (fun i => { i with phase := .retired })
      modGroup k (fun g => { g with adopted := none })

/-- What EXIT and CCONT wait for: the lane stream idle, every ALD entry present, and every B entry performed (R149, R498) (DEDUCED, log 50). -/
def waitExit (k : Nat) : Act Unit := do
  waitRun k true
  waitAld
  if !((← getGroup k).queue 9).ents.isEmpty then halt (.wait .engine)

/-- Ends the issuing group: its operand queues empty, its weight returns, its adopted instance retires, and partners that
wait for it in XCHG take their cause. A queue of it that has halted parks the instance (R149, R187, R280, R498). -/
def endGroup (k : Nat) (awaits : Bool) : Act Unit := do
  retireAdopted k
  let g ← getGroup k
  let die := (← now).dieOf k
  modGroup k (fun g => { g with
    opq := [], wgt := 0, attach := 0, exited := true, awaits := awaits
    st := { g.st.flush with ended := true, wait := .none, due := [] } })
  returnWeight die g.wgt.toNat
  returnWeight die g.attach.toNat
  partnerGone k
  match lowestCause (g.st.due.filter (fun c => c.kind == 2)) with
  | some c => exitedHalt k c
  | none => pure ()

/-- EXIT: a context ends at once; a group when nothing of its streams is outstanding (R149, R311). -/
def execExit (s : State) : Host.Outcome State Fault Refusal :=
  perform (do
    match ← me with
    | .ctx c => modCtx c (fun x => { x with st := { x.st.flush with ended := true, wait := .none } })
    | .group k =>
      waitExit k
      endGroup k false) s

/-! ## Continuations -/

/-- The 128 bytes of a continuation record (Table 10-6). -/
def contRecord (pc wgt : Nat) (st : Stream) (gidx : Nat) : Nat :=
  pc + wgt * 2 ^ 64 + ((upFrom 1 8).map (fun i => (st.get i).toNat * 2 ^ (64 * i + 64))).foldl (fun a b => a + b) 0 + gidx * 2 ^ 640

/-- CCONT (R304). -/
def execCcont (d a b : BitVec 5) (s : State) : Host.Outcome State Fault Refusal :=
  perform (do
    let k ← myGroup
    let (n, ga) ← myGang
    let x ← sreg a.toNat
    let r ← sreg d.toNat
    let pc ← sreg b.toNat
    let bar := fld x 0 32
    check [
      (decide (x / 2 ^ 33 ≠ 0 ∨ r / 2 ^ 32 ≠ 0), 0x04), (decide (bar ≥ 16 * ga.nbar), 0x04),
      (decide (fld r 0 32 / 128 ≥ 0xFFFF), 0x04), (decide (pc ≥ 2 ^ 48), 0x10),
      (decide (bar % 16 ≠ 0 ∨ r % 128 ≠ 0 ∨ pc % 4 ≠ 0), 0x12),
      (decide (fld r 20 12 ≠ 0) || (spadAt ga (fld r 0 32) 128).isNone, 0x14)]
    waitExit k
    waitSettled
    let g ← getGroup k
    match ← writeSpad n r 128 (contRecord pc g.attach.toNat g.st g.id.gidx) with
    | .error c => raiseAt c r
    | .ok _ =>
      modGroup k (fun g => { g with attach := 0 })
      let v ← readBar n bar
      if fld v 96 16 ≠ 0xFFFF then raiseSoft 0x04 0
      else
        if fld v 31 1 ≠ fld x 32 1 then handOff n (r / 128)
        else writeBar n bar (setFld v 96 16 (r / 128))
        endGroup k true) s

/-- Whether new groups of an instance may start: it runs, and is neither being parked nor switched out (R277, R282). -/
def State.instGoes (s : State) (inst : Nat) : Bool :=
  s.instRuns inst && (match Tab.find s.insts inst with
    | none => false
    | some i => i.park.isNone && !((Tab.find s.launches i.launch).map (fun l => l.stopping)).getD true)

/-- CONTINUATION_START: the k-th record that was handed off starts its group in the slot it names (R305). That it waits until the
entries of the group that ended there have performed is the model's (DESIGN CHOICE, log 82). The exchanges the slot's groups
have issued go on being counted (R187). -/
def execContinuationStart (gang k : Nat) (s : State) : Host.Outcome State Fault Refusal :=
  perform (do
    let ga ← getGang gang
    guardA ((← now).instGoes ga.inst && ga.placed)
    let v ← need ga.handoffs[k]?
    let gk := groupKey gang (fld v 640 16)
    let old ← getGroup gk
    guardA (old.exited && old.awaits && old.queues.all (fun q => q.2.ents.isEmpty))
    let node := (← now).nodeRec ga
    let regs := (upFrom 1 8).map (fun i => (i, BitVec.ofNat 64 (fld v (64 * i + 64) 64)))
    let pc := fld v 0 64
    putGang gang { ga with handoffs := dropNth ga.handoffs k }
    putGroup gk { Group.start old.id pc old.regcnt (fld node 248 6) (BitVec.ofNat 64 (fld v 64 64)) regs with xchgs := old.xchgs }
    if fld v 656 368 ≠ 0 then upd (fun s => s.raise (.group gk) (Cause.atWord 0x20 pc 0))) s

/-! ## Node words -/

/-- The checks of a node word (R482): a list for check. -/
def nodeChecks (l : Launch) (w : Nat) : List (Bool × Nat) :=
  [(decide (fld w 16 16 ≠ 0), 0x04), (decide (fld w 0 16 ≥ l.nodes.length), 0xB0)]

/-- The launch of the issuing group: its number and record. -/
def myLaunch : Act (Nat × Launch) := do
  let (_, ga) ← myGang
  return (ga.launch, ← getLaunch ga.launch)

/-- SPAWN, scalar (R483). -/
def execSpawn (d a b : BitVec 5) (s : State) : Host.Outcome State Fault Refusal :=
  perform (do
    let k ← myGroup
    let (ln, l) ← myLaunch
    let w ← sreg a.toNat
    check (nodeChecks l w)
    waitSettledOnce
    let die := (← now).dieOf k
    if !(← myStream).wait.isBorrow && decide ((← now).poolOf ln die ≥ 65536) then halt (.wait .engine)
    match ← takeScalar k (← sreg b.toNat) with
    | none => pure ()
    | some x =>
      let n ← createInst ln (fld w 0 16) (fld w 32 32) die die (BitVec.ofNat 64 x) false
      finishWith d.toNat n) s

/-- SPAWN, lane (R484). -/
def execSpawnLane (w : LaneW) (s : State) : Host.Outcome State Fault Refusal :=
  perform (do
    checkD w false
    let l ← myLane
    if l.unanswered then stall
    let (ln, la) ← myLaunch
    let node := w.imm.toNat % 65536
    checkSrc [slot32 w.a, slot32 w.b]
    if node ≥ la.nodes.length then raiseLane l 0xB0 0
    let (got, ans) := l.served
    let l ← if ans.isNone then settledLane l else pure l
    let xs ← readOps w (l.part w) [slot32 w.a, slot32 w.b]
    let helper := fun (x : Nat × List Nat) => (l.g.thread x.1).cls == .helper
    let ys := xs.filter (fun x => !helper x)
    let die := (← now).dieOf l.k
    let todo := ys.filter (fun x => !got.any (fun y => y.1 == x.1))
    guardA (decide ((← now).poolOf ln die + todo.length ≤ 65536))
    let make := fun (t : Nat) (v : List Nat) (x : Nat) => createInst ln node (arg v 0) die die (BitVec.ofNat 64 x) false
    match ← takeEach l make ans todo got with
    | none => pure ()
    | some (rs, fault) =>
      let zeros := (xs.filter helper).map (fun x => (x.1, 0))
      match fault with
      | none => laneLong w (rs ++ zeros)
      | some (t, c) =>
        laneLong w (rs ++ zeros.filter (fun x => decide (x.1 < t)))
        upd (fun s => s.later (.group l.k) (Cause.ofThread c t 0))) s

/-- NDONE (R485). -/
def execNdone (a b : BitVec 5) (s : State) : Host.Outcome State Fault Refusal :=
  perform (do
    let k ← myGroup
    let x ← sreg a.toNat
    let which ← sreg b.toNat
    let g ← getGroup k
    let (ln, l) ← myLaunch
    let s ← now
    let key := if which = 0 then some (s.instOf (.group k)) else g.adopted
    if fld x 2 30 ≠ 0 ∨ which > 1 then raise 0x04
    match key with
    | none => raise 0x04
    | some key =>
      let i ← getInst key
      let pair := (8 + fld x 0 2, fld x 32 32)
      if !(l.outputs i.node i.index).contains pair then raise 0x04
      waitRun k false
      waitSettled
      let p ← enginePort k
      match ← publish p key pair.1 pair.2 with
      | some (c, va) => raisePub p c va
      | none => finish) s

/-- STEPB: waits for the boundary, which STEP_BOUNDARY releases (R55, R486). -/
def execStepb (d : BitVec 5) (s : State) : Host.Outcome State Fault Refusal :=
  perform (do
    let k ← myGroup
    match (← myStream).wait with
    | .stepb none => stall
    | .stepb (some v) => finishWith d.toNat v.toNat
    | _ =>
      noTrapMode
      closeWindows
      waitRun k false
      waitSettled
      putStream { (← myStream) with wait := .stepb none }) s

/-- PRIO (R487). -/
def execPrio (d a : BitVec 5) (s : State) : Host.Outcome State Fault Refusal :=
  perform (do
    let k ← myGroup
    let p ← sreg a.toNat
    let (_, ga) ← myGang
    let s ← now
    if p > 63 ∨ (!s.privileged (.group k) ∧ p > fld (s.nodeRec ga) 248 6) then raise 0x04
    let old := (← getGroup k).prio
    modGroup k (fun g => { g with prio := p })
    finishWith d.toNat old) s

/-- The virtual address of a node record's ESTIMATE (Table 2-1) (DEDUCED, log 24). -/
def State.estimateAt (s : State) (launch node : Nat) : Nat := addr64 (fld (s.launchRec launch) 0 64) (96 * node + 40)

/-- ERD (R488, Table 18-5). -/
def execErd (d a : BitVec 5) (s : State) : Host.Outcome State Fault Refusal :=
  perform (do
    let k ← myGroup
    let n ← sreg a.toNat
    let s ← now
    let (_, ga) ← myGang
    let x := s.die ga.die
    let e := x.energy
    match n with
    | 0 => finishWith d.toNat (wrap 64 e.bal)
    | 1 => finishWith d.toNat (wrap 64 ((e.began : Int) + e.length - x.clk))
    | 2 => finishWith d.toNat e.budget
    | 3 =>
      let p ← enginePort k
      let va := s.estimateAt ga.launch ga.node
      match ← readHome p va 4 with
      | .error c => raisePub p c va
      | .ok v => finishWith d.toNat v
    | 4 => finishWith d.toNat (((Tab.find s.insts ga.inst).map (fun i => i.debit)).getD 0)
    | _ => raise 0x04) s

/-- The dies of a launch's set, ascending. -/
def Launch.dieSet (l : Launch) : List Nat := sortBy (fun d => d) (l.dies.map (fun (d : Nat × List Nat) => d.1))

/-- DIEQ (R488, Table 18-5). -/
def execDieq (d a : BitVec 5) (s : State) : Host.Outcome State Fault Refusal :=
  perform (do
    let k ← myGroup
    let n ← sreg a.toNat
    let (ln, l) ← myLaunch
    let s ← now
    let die := s.dieOf k
    let t := l.tether die
    let depth := fun (x : Nat) =>
      if x = die then t.deque.length
      else if l.dieSet.contains x then (Tab.getD t.heard x (0, 0, 0)).1
      else 0
    if n = 0 then
      finishWith d.toNat (maskOf l.dieSet + l.dieSet.length * 2 ^ 8 + fld l.record 736 3 * 2 ^ 16 + fld l.record 739 3 * 2 ^ 24)
    else if n = 1 then finishWith d.toNat t.deque.length
    else if n ≤ 5 then finishWith d.toNat (depth (n - 2))
    else if n = 6 then
      finishWith d.toNat (s.insts.filter (fun i => i.2.launch == ln && i.2.die == die &&
        (match i.2.phase with | .ready _ => true | _ => false))).length
    else raise 0x04) s

/-! ## Bucket deque -/

/-- BQPUSH (R489). -/
def execBqpush (d a b : BitVec 5) (s : State) : Host.Outcome State Fault Refusal :=
  perform (do
    let k ← myGroup
    let (ln, l) ← myLaunch
    let va ← sreg a.toNat
    let w ← sreg b.toNat
    let die := (← now).dieOf k
    check ([(decide (va ≥ 2 ^ 48), 0x10), (decide (va % 64 ≠ 0), 0x12), (decide ((l.tether die).deque.length ≥ 4096), 0x04)]
      ++ nodeChecks l w)
    let xy ← readRec va 4
    waitSettledOnce
    match ← takeScalar k (← sreg d.toNat) with
    | none => pure ()
    | some x =>
      let n ← createInst ln (fld w 0 16) (fld w 32 32) die die 0 true
      modLaunch ln (fun l => l.setTether die (fun t => { t with
        deque := t.deque ++ [⟨fld w 0 16, fld w 32 32, n, fld xy 0 16, fld xy 16 16, va, BitVec.ofNat 64 x⟩] }))
      finish) s

/-- Whether every group of a launch that has not exited waits in BQPOP or STEPB, not yet released, every deque of it is empty, and
no steal is in flight (R490). `but` is the group that issues. -/
def State.popsEnd (s : State) (launch but : Nat) : Bool :=
  let l := Tab.find s.launches launch
  let quiet := match l with
    | none => true
    | some l => l.tethers.all (fun t => t.2.deque.isEmpty && !t.2.stealing)
  quiet && s.groups.all (fun g =>
    !(s.launchOf g.1 == launch) || g.2.exited || g.1 == but ||
    (match g.2.st.wait with | .bqpop false => true | .stepb none => true | _ => false))

/-- Releases every group of a launch that waits in BQPOP, when the wait ends empty (R490). -/
def State.releasePops (s : State) (launch : Nat) : State :=
  let f := fun (w : Wait) => match w with | .bqpop _ => .bqpop true | x => x
  { s with
    groups := s.groups.map (fun (g : Nat × Group) =>
      if s.launchOf g.1 = launch then (g.1, { g.2 with st := g.2.st.onWait f }) else g) }

/-- A BQPOP that ends empty writes two zeros (R490). -/
def popEmpty (d : BitVec 5) : Act Unit := do
  setSreg (d.toNat + 1) 0
  finishWith d.toNat 0

/-- BQPOP (R490). -/
def execBqpop (d a : BitVec 5) (s : State) : Host.Outcome State Fault Refusal :=
  perform (do
    let k ← myGroup
    let x ← sreg a.toNat
    if x > 1 ∨ d.toNat = 0 ∨ d.toNat = 31 then raise 0x04
    let (ln, l) ← myLaunch
    let die := (← now).dieOf k
    match (← myStream).wait with
    | .bqpop true => popEmpty d
    | w =>
      if !(match w with | .bqpop _ => true | _ => false) then
        waitSettled
        retireAdopted k
      match (l.tether die).deque.getLast? with
      | some e =>
        let g ← getGroup k
        match joinWeight g.wgt.toNat e.wgt.toNat with
        | none => raise 0xA0
        | some v =>
          modLaunch ln (fun l => l.setTether die (fun t => { t with deque := t.deque.dropLast, lastBx := e.bx, lastBy := e.bk }))
          let key := instKey ln e.inst
          modInst key (fun i => { i with phase := .running, die := die })
          modGroup k (fun g => { g with wgt := BitVec.ofNat 64 v, adopted := some key })
          acquireHere
          setSreg (d.toNat + 1) (e.index * 2 ^ 32 + e.node)
          finishWith d.toNat e.brec
      | none =>
        if x = 1 then popEmpty d
        else if (← now).popsEnd ln k then
          upd (fun s => s.releasePops ln)
          popEmpty d
        else putStream { (← myStream) with wait := .bqpop false }) s

end Sys2Proof.Machine
end

