-- ==== Sys2Proof/Machine/Placement.lean ====
section
/-! DEFINITION. Placing gangs: the resources of cores, two-phase admission, the start of a gang's groups and context, gang
retire, and cluster power (R45, R48 to R51, R213, R307, R311, R472, R474, R477). -/

set_option linter.unusedVariables false

namespace Sys2Proof.Machine

open Sys2Proof

/-! ## What a gang needs (R48, Table 2-1) -/

/-- GX, GY, GZ, CORES, MATRIX, PRIO, REGS, GPC of a node record. -/
def nodeCores (n : Nat) : Nat := fld n 240 4
/-- MATRIX -/
def nodeMatrix (n : Nat) : Bool := bit n 247
/-- PRIO -/
def nodePrio (n : Nat) : Nat := fld n 248 6
/-- REGS -/
def nodeRegs (n : Nat) : Nat := fld n 256 7
/-- GPC -/
def nodeGpc (n : Nat) : Nat := fld n 264 8 + 1
/-- SCRATCH, in 256-byte units -/
def nodeScratch (n : Nat) : Nat := fld n 272 16
/-- BARRIERS -/
def nodeBars (n : Nat) : Nat := fld n 288 8
/-- FIFOB -/
def nodeFifos (n : Nat) : Nat := fld n 296 6

/-- The holdings of a gang core at its start with their modes: scratchpad banks, then FIFO banks (R48, R203). -/
def holdingsOf (node pos : Nat) : List Nat :=
  List.replicate (ceilDiv (256 * nodeScratch node + (if pos = 0 then 16 * nodeBars node else 0)) 8192) 1 ++
    List.replicate (nodeFifos node) 2

/-- The lanes in the order admission takes them: 0, 16, 32, 48, 1, … (R49). -/
def laneOrder : List Nat := (upFrom 0 64).map (fun j => j % 4 * 16 + j / 4)

/-- What holds part of a core: banks, per lane the group slots taken and registers, and whether a MATRIX gang is on it. -/
structure CoreUse where
  banks : Nat
  slots : List (Nat × Nat)
  regs : List (Nat × Nat)
  matrix : Bool

/-- The groups of gang position pos by lane position: k mod W for each k below GPC (R49). -/
def groupsAt (gpc j : Nat) : Nat := ((upFrom 0 gpc).filter (fun k => k % min 64 gpc == j)).length

/-- The lanes for the groups of a gang core, in order of lane position, under a use: none when too few are left (R49). -/
def pickLanes (u : CoreUse) (regs : Nat) : List Nat → List Nat → Option (List Nat)
  | [], _ => some []
  | _ :: _, [] => none
  | n :: ns, l :: ls =>
    let slots := (u.slots.filter (fun x => x.1 == l)).length
    let used := ((u.regs.filter (fun x => x.1 == l)).map (fun x => x.2)).foldl (fun a b => a + b) 0
    if slots + n ≤ 4 ∧ used + n * (32 * regs) ≤ 2048 then (pickLanes u regs ns ls).map (fun t => l :: t)
    else pickLanes u regs (n :: ns) ls

/-- The lanes a core gives the groups of a gang position of a node, if it can meet R48. -/
def coreFits (u : CoreUse) (node pos : Nat) : Option (List Nat) :=
  if u.banks + (holdingsOf node pos).length > 48 ∨ (nodeMatrix node ∧ u.matrix) then none
  else pickLanes u (nodeRegs node) ((upFrom 0 (min 64 (nodeGpc node))).map (groupsAt (nodeGpc node))) laneOrder

/-- The gangs that hold cores of a cluster: those of a launch that is switched out hold none. -/
def State.gangsOn (s : State) (die cluster : Nat) : List (Nat × Gang) :=
  s.gangs.filter (fun g => g.2.placed && g.2.die == die && g.2.cluster == cluster && s.launchIn g.2.launch)

/-- What the gangs of a cluster hold on a core. -/
def State.coreUse (s : State) (die cluster core : Nat) : CoreUse :=
  let here := (s.gangsOn die cluster).filter (fun g => decide (g.2.core0 ≤ core) && decide (core < g.2.core0 + g.2.cores))
  let gs := here.flatMap (fun x => (s.groups.filter (fun g => g.1 / 65536 == x.1 && x.2.core0 + g.2.id.pos == core)).map
    (fun g => (g.2.id, x.2.regs)))
  { banks := (here.map (fun x => (Tab.getD x.2.hold (core - x.2.core0) []).length)).foldl (fun a b => a + b) 0
    slots := gs.map (fun g => (g.1.lane, g.1.gslot))
    regs := gs.map (fun g => (g.1.lane, 32 * g.2))
    matrix := here.any (fun x => nodeMatrix (s.nodeRec x.2)) }

/-- Adds to a use what a held reservation of a node will take, as it would be placed now. -/
def CoreUse.plus (u : CoreUse) (node pos : Nat) : CoreUse :=
  match coreFits u node pos with
  | none => u
  | some lanes =>
    let gs := (upFrom 0 (nodeGpc node)).map (fun k => nth lanes (k % min 64 (nodeGpc node)) 0)
    { banks := u.banks + (holdingsOf node pos).length, matrix := u.matrix || nodeMatrix node
      slots := u.slots ++ gs.map (fun l => (l, 4))
      regs := u.regs ++ gs.map (fun l => (l, 32 * nodeRegs node)) }

/-- The node record of an instance. -/
def State.instNode (s : State) (key : Nat) : Nat :=
  match Tab.find s.insts key with
  | none => 0
  | some i => ((Tab.find s.launches i.launch).map (fun l => nth l.nodes i.node 0)).getD 0

/-- A core's use with the reservations given added. -/
def State.useWith (s : State) (rs : List Resv) (die cluster core : Nat) : CoreUse :=
  rs.foldl (fun u r =>
    if r.held ∧ r.die = die ∧ r.cluster = cluster ∧ r.core0 ≤ core ∧ core < r.core0 + nodeCores (s.instNode r.inst) then
      u.plus (s.instNode r.inst) (core - r.core0)
    else u) (s.coreUse die cluster core)

/-- Whether a window of cores from core0 on meets R48 for a node, with some reservations counted. -/
def State.windowFits (s : State) (rs : List Resv) (node die cluster core0 : Nat) : Bool :=
  let ctx := ((s.gangsOn die cluster).filter (fun g => nodeMatrix (s.nodeRec g.2))).length +
    (rs.filter (fun r => r.held && r.die == die && r.cluster == cluster && nodeMatrix (s.instNode r.inst))).length
  decide (core0 + nodeCores node ≤ 8) && (!nodeMatrix node || decide (ctx < 8)) &&
    (upFrom 0 (nodeCores node)).all (fun p => (coreFits (s.useWith rs die cluster (core0 + p)) node p).isSome)

/-- The first window of a cluster that meets R48 for a node (R50). -/
def State.window (s : State) (node die cluster : Nat) : Option Nat :=
  (upFrom 0 8).find? (fun c => s.windowFits [] node die cluster c)

/-- The clusters of a die that hold gangs. -/
def State.busyClusters (s : State) (die : Nat) : List Nat :=
  ((s.gangs.filter (fun g => g.2.placed && g.2.die == die && s.launchIn g.2.launch)).map (fun g => g.2.cluster)).eraseDups

/-- Whether the energy cap allows a gang on a cluster (R477). -/
def State.capAllows (s : State) (die cluster : Nat) : Bool :=
  (s.busyClusters die).contains cluster || decide ((s.busyClusters die).length < (s.die die).energy.clmax)

/-- The clusters of a launch's partitions on a die, ascending. -/
def Launch.clusters (l : Launch) (die : Nat) : List Nat :=
  (sortBy (fun p => p) (Tab.getD l.dies die [])).flatMap (fun p => upFrom (4 * p) 4)

/-- The cluster and window that placement tries first for a node (R472, R477). -/
def State.placeFor (s : State) (l : Launch) (node die : Nat) : Option (Nat × Nat) :=
  ((l.clusters die).filterMap (fun c => if s.capAllows die c then (s.window node die c).map (fun w => (c, w)) else none)).head?

/-! ## Reservations (R50) -/

/-- Whether a gang of an instance waits for a place: not yet started, or to be admitted again after a park. -/
def State.wantsPlace (s : State) (key x y z : Nat) : Bool :=
  match Tab.find s.insts key with
  | none => false
  | some i =>
    let here := (match Tab.find s.launches i.launch with
      | none => false
      | some l => l.state == 1 && !l.out && !l.stopping)
    here && (match i.park with
      | none => i.admitted && !(i.phase == .retired) && i.unstarted.contains (x, y, z)
      | some p => p.resuming.isSome &&
          s.gangs.any (fun g => g.2.inst == key && !g.2.placed && !g.2.retired && g.2.gx == x && g.2.gy == y && g.2.gz == z))

/-- The reservation of a gang. -/
def State.resvOf (s : State) (key x y z : Nat) : Option Resv :=
  s.resvs.find? (fun r => r.inst == key && r.gx == x && r.gy == y && r.gz == z)

/-- Puts a gang's reservation. -/
def putResv (r : Resv) : Act Unit :=
  upd (fun s => { s with
    resvs := s.resvs.filter (fun q => !(q.inst == r.inst && q.gx == r.gx && q.gy == r.gy && q.gz == r.gz)) ++ [r] })

/-- A reservation that is released: it retries after 64 × 2^k clk (R50). -/
def Resv.release (r : Resv) (clk : Nat) : Resv :=
  { r with held := false, backoff := r.backoff + 1, retryAt := clk + 64 * 2 ^ min r.backoff 6 }

/-- Whether a reservation holds its cores now: the launch of its instance is not switched out (R68). -/
def State.holding (s : State) (q : Resv) : Bool := q.held && s.launchIn (q.inst / 2 ^ 32)

/-- Of the reservations with higher instance numbers, in ascending order, those that still fit beside the ones kept stay held;
the others release (R50). The reservations kept come first. -/
def State.keepFitting (s : State) : List Resv → List Resv → List Resv
  | kept, [] => kept
  | kept, q :: qs =>
    if s.windowFits kept (s.instNode q.inst) q.die q.cluster q.core0 then s.keepFitting (kept ++ [q]) qs
    else s.keepFitting kept qs

/-- The launch of an instance has its partitions in and is not stopping. -/
def State.placing (s : State) (n : Nat) : Bool :=
  match Tab.find s.launches n with
  | none => false
  | some l => l.state == 1 && !l.out && !l.stopping

/-- The clk at which an instance became ready, while it is not yet dispatched. -/
def Inst.readyAt (i : Inst) : Option Nat :=
  match i.phase with
  | .ready c => some c
  | _ => none

/-- Whether one ready instance comes before another in the dispatch order (R472) (DEDUCED, log 25). -/
def State.dispatchBefore (s : State) (a b : Nat × Inst) : Bool :=
  let la := nodePrio (s.instNode a.1)
  let lb := nodePrio (s.instNode b.1)
  let ca := (a.2.readyAt).getD 0
  let cb := (b.2.readyAt).getD 0
  decide (lb < la) || (la == lb && (decide (ca < cb) || (ca == cb && decide (a.2.number < b.2.number))))

/-- Whether a held reservation could commit now: its cluster has power and allows it, and its window fits (R50, R474, R477). -/
def State.canCommit (s : State) (r : Resv) : Bool :=
  s.holding r && (Tab.getD (s.die r.die).clusters r.cluster .off).powered &&
    s.windowFits [] (s.instNode r.inst) r.die r.cluster r.core0 && s.capAllows r.die r.cluster

/-- Whether placement could take a gang of an instance at a coordinate now: its reservation could commit, or it has none and
some window fits (R472). -/
def State.couldPlace (s : State) (key : Nat) (i : Inst) (c : Nat × Nat × Nat) : Bool :=
  match s.resvOf key c.1 c.2.1 c.2.2 with
  | some r => s.canCommit r
  | none => ((Tab.find s.launches i.launch).bind (fun l => s.placeFor l (s.instNode key) i.die)).isSome

/-- Whether an instance that is being dispatched must let another of its die go first: one before it in the order that is not
admitted, or that placement could take (R472). -/
def State.heldBack (s : State) (key : Nat) (i : Inst) : Bool :=
  i.readyAt.isSome && s.insts.any (fun j => j.2.die == i.die && j.2.readyAt.isSome && j.2.park.isNone && s.placing j.2.launch &&
    s.dispatchBefore j (key, i) && (!j.2.admitted || j.2.unstarted.any (s.couldPlace j.1 j.2)))

/-- Phase one for a gang: it reserves the first window that fits. Where another reservation holds what it needs, the lower
instance number keeps it and the other releases; of two of one instance, the one that holds it keeps it (R50, R472)
(DESIGN CHOICE, log 83). -/
def reserve (key x y z : Nat) (only : Option Nat) : Act Unit := do
  let s ← now
  let i ← getInst key
  guardA (s.wantsPlace key x y z && !s.heldBack key i)
  let l ← getLaunch i.launch
  let node := s.instNode key
  let clk := (s.die i.die).clk
  let old := s.resvOf key x y z
  guardA ((old.map (fun (r : Resv) => !r.held && decide (r.retryAt ≤ clk))).getD true)
  let (cl, w) ← need (s.placeFor l node i.die)
  guardA (only == none || only == some cl)
  let r : Resv := ⟨key, x, y, z, i.die, cl, w, true, (old.map (fun r => r.backoff)).getD 0, 0⟩
  let number : Resv → Nat := fun q => ((Tab.find s.insts q.inst).map (fun i => i.number)).getD 0
  let others := s.resvs.filter (fun q => s.holding q && !(q.inst == key && q.gx == x && q.gy == y && q.gz == z))
  let low := others.filter (fun q => decide (number q ≤ number r))
  if s.windowFits low node i.die cl w then
    let kept := s.keepFitting (low ++ [r]) (sortBy number (others.filter (fun q => decide (number r < number q))))
    upd (fun s => { s with resvs := s.resvs.map (fun q =>
      if others.contains q && !kept.contains q then q.release (s.die q.die).clk else q) })
    putResv r
  else putResv (r.release clk)

/-! ## Starting a gang -/

/-- The identities of the groups of a gang core under a use: lane by position, and the lowest free slot of each (R49). -/
def placeGroups (gang pos gpc : Nat) (lanes : List Nat) : List Nat → List (Nat × Nat) → List GroupId
  | [], _ => []
  | k :: ks, slots =>
    let w := min 64 gpc
    let lane := nth lanes (k % w) 0
    let slot := ((upFrom 0 4).find? (fun i => !slots.contains (lane, i))).getD 0
    ⟨gang, pos * gpc + k, pos, lane, slot, k / w⟩ :: placeGroups gang pos gpc lanes ks ((lane, slot) :: slots)

/-- The identities of all groups of a gang in a window (R42, R49). -/
def State.identities (s : State) (gang node die cluster core0 : Nat) : List GroupId :=
  (upFrom 0 (nodeCores node)).flatMap (fun p =>
    let u := s.coreUse die cluster (core0 + p)
    placeGroups gang p (nodeGpc node) ((coreFits u node p).getD []) (upFrom 0 (nodeGpc node)) u.slots)

/-- Cores of a cluster drop their lines. -/
def State.dropCores (s : State) (die cluster core0 cores : Nat) : State :=
  (upFrom core0 cores).foldl (fun s c => s.dropCore { die := die, cluster := cluster, core := some c, root := 0 }) s

/-- The first issue of a group acquires what its instance's input tiles were published with: the die has applied what the
homes of their counters had, and the cores of the gang drop their clean lines (R470). -/
def acquireInputs (i : Inst) (l : Launch) (cluster core0 cores : Nat) : Act Unit := do
  let s ← now
  let p := s.schedPort i.launch i.die
  let homes ← (l.inputs i.node i.index).mapM (fun x => homeAt p (regionCnt (nth l.regions x.1 0) + 4 * x.2))
  homes.forM (fun h => reach i.die h)
  upd (fun s => s.dropCores i.die cluster core0 cores)

/-- An instance that comes to a cluster notes the cluster's meter and core-clk (R475). -/
def meterFrom (key die cl : Nat) : Act Unit := do
  let i ← getInst key
  let c := Tab.getD ((← now).die die).clusters cl .off
  if (Tab.find i.shares (16 * die + cl)).isSome then pure ()
  else putInst key { i with shares := Tab.set i.shares (16 * die + cl) (c.meter, c.held, 0) }

/-- A new gang of an instance at a coordinate starts in a window (R42, R45, R307, R311). -/
def startGang (key x y z cl core0 : Nat) : Act Unit := do
  let s ← now
  let i ← getInst key
  let l ← getLaunch i.launch
  let node := s.instNode key
  let n := s.nextGang
  acquireInputs i l cl core0 (nodeCores node)
  let ids := s.identities n node i.die cl core0
  let first := fun (g : GroupId) => g.gidx == 0 && x == 0 && y == 0 && z == 0
  let entry := fld node 0 48
  putGang n {
    launch := i.launch, inst := key, node := i.node, gx := x, gy := y, gz := z, die := i.die, cluster := cl, core0 := core0
    cores := nodeCores node, gpc := nodeGpc node, regs := nodeRegs node, nbar := nodeBars node
    hold := (upFrom 0 (nodeCores node)).map (fun p => (p, holdingsOf node p)), barPend := [], fifos := [], free := []
    bucket := none, budget := 0, bvh := [], tex := [], matrix := [], handoffs := [], placed := true, retired := false }
  ids.forM (fun g => putGroup (groupKey n g.gidx)
    (Group.start g entry (nodeRegs node) (nodePrio node) (if first g then i.wgt else 0) []))
  if nodeMatrix node then
    let taken := ((s.gangsOn i.die cl).filterMap (fun g => (Tab.find s.ctxs g.1).map (fun c => c.ctxno)))
    putCtx n (Ctx.start n (((upFrom 0 8).find? (fun c => !taken.contains c)).getD 0) (fld node 128 48))
  upd (fun s => { s with nextGang := n + 1 })
  modInst key (fun i =>
    let left := i.unstarted.filter (fun c => !(c == (x, y, z)))
    { i with
      phase := if left.isEmpty then .running else i.phase
      unstarted := left
      wgt := if x = 0 ∧ y = 0 ∧ z = 0 then 0 else i.wgt })
  meterFrom key i.die cl

/-- A parked gang takes a place again: its groups get new lanes and slots, and the cores, whose banks leave cache-way
mode, hold no lines (R68, R214, R279). -/
def placeAgain (n : Nat) (g : Gang) (node cl core0 : Nat) : Act Unit := do
  let s ← now
  let ids := s.identities n node g.die cl core0
  putGang n { g with cluster := cl, core0 := core0, placed := true }
  ids.forM (fun i => modGroup (groupKey n i.gidx) (fun x => { x with id := { x.id with lane := i.lane, gslot := i.gslot } }))
  let taken := ((s.gangsOn g.die cl).filterMap (fun h => (Tab.find s.ctxs h.1).map (fun c => c.ctxno)))
  modCtx n (fun c => { c with ctxno := ((upFrom 0 8).find? (fun i => !taken.contains i)).getD 0 })
  upd (fun s => s.dropCores g.die cl core0 g.cores)
  meterFrom g.inst g.die cl

/-- Phase two: a held reservation commits in one step, on a cluster that has power (R50, R474). The gang's coordinate. -/
def commitGang (key x y z : Nat) : Act Unit := do
  let s ← now
  guardA (s.wantsPlace key x y z)
  let r ← need (s.resvOf key x y z)
  let node := s.instNode key
  let i ← getInst key
  guardA (s.canCommit r && !s.heldBack key i)
  upd (fun s => { s with resvs := s.resvs.filter (fun q => !(q == r)) })
  match s.gangs.find? (fun g => g.2.inst == key && !g.2.retired && g.2.gx == x && g.2.gy == y && g.2.gz == z) with
  | some (n, g) => placeAgain n g node r.cluster r.core0
  | none => startGang key x y z r.cluster r.core0

/-- CLUSTER_POWER_UP: a gated cluster has power 2 µs after placement asked for it (R474). -/
def execClusterPowerUp (die cl : Nat) (s : State) : Host.Outcome State Fault Refusal :=
  perform (do
    guardA (decide (cl < 16))
    modDie die (fun d => { d with clusters := Tab.alter d.clusters cl .off (fun c => { c with powered := true }) })) s

/-- ADMISSION_RETRY: a released reservation tries again when its back-off has passed (R50). -/
def execAdmissionRetry (inst x y z : Nat) (s : State) : Host.Outcome State Fault Refusal :=
  perform (do
    let s ← now
    let r ← need (s.resvOf inst x y z)
    guardA (!r.held && decide (r.retryAt ≤ (s.die r.die).clk))
    reserve inst x y z none) s

/-! ## Gang retire -/

/-- Whether a barrier object that was initialised holds a continuation (R305). One with EXPECTED 0 does not, whatever its CONT
bits read (DESIGN CHOICE, log 84). -/
def State.contHeld (s : State) (n : Nat) (g : Gang) : Bool :=
  (upFrom 0 g.nbar).any (fun b =>
    let v := Mem.read s.mem (barKey n (16 * b)) 16
    !(fld v 0 16 == 0) && !(fld v 96 16 == 0xFFFF))

/-- Whether every group and the context of a gang have ended and every entry of theirs has performed (R22, R311). -/
def State.gangDone (s : State) (n : Nat) : Bool :=
  s.groups.all (fun g => !(g.1 / 65536 == n) || (g.2.exited && g.2.queues.all (fun q => q.2.ents.isEmpty))) &&
    ((Tab.find s.ctxs n).map (fun c => c.st.ended && c.queue.ents.isEmpty)).getD true

/-- A cluster loses power when nothing holds it: no gang, and no grid slot in use (R474). -/
def State.gate (s : State) (die cluster : Nat) : State :=
  let slot := s.slots.any (fun x => !(x.2.state == .free) && x.1 / 2048 % 4 == die && s.launchIn (x.1 / 8192) &&
    s.clusterOf (x.1 / 8192) die (x.1 / 128 % 16) == some cluster)
  if (s.gangsOn die cluster).isEmpty && !slot then
    match Tab.find s.dies die with
    | none => s
    | some d =>
      (s.setDie die { d with
          clusters := Tab.alter d.clusters cluster .off (fun c => { c with powered := false }) })
  else s

end Sys2Proof.Machine
end

