-- ==== Sys2Proof/Machine/Geometry.lean ====
section
/-! DEFINITION. The geometry engine and the Cupola (R334 to R363, R524): patches, dicing and splitting, grid slots, the
split-or-spill rule, and the lane words over grids. -/

set_option linter.unusedVariables false

namespace Sys2Proof.Machine

open Sys2Proof

/-! ## Patch records (Table 12-3) -/

/-- KIND -/
def patchKind (r : Nat) : Nat := fld r 64 2
/-- INSTID -/
def patchInst (r : Nat) : Nat := fld r 66 7
/-- MPBASE -/
def patchBase (r : Nat) : Nat := fld r 80 25
/-- MPLOG -/
def patchLog (r : Nat) : Nat := fld r 105 5
/-- RATE -/
def patchRate (r : Nat) : Nat := fld r 128 32
/-- EXPAND -/
def patchExpand (r : Nat) : Nat := fld r 160 32
/-- UATTR of corner q, attribute e. -/
def patchUa (r q e : Nat) : Nat := fld r (192 + 96 * q + 32 * e) 32
/-- Coordinate c of control point p at shutter end t (R336). -/
def patchPoint (r t p c : Nat) : Nat := fld r (8 * (128 + 192 * t + 12 * p + 4 * c)) 32
/-- The used control points (R336). -/
def patchUsed (r : Nat) : List Nat := upFrom 0 (if patchKind r = 1 then 4 else 16)
/-- Coordinate c of every used point of P0 and P1. -/
def patchCoords (r c : Nat) : List Nat := (upFrom 0 2).flatMap (fun t => (patchUsed r).map (fun p => patchPoint r t p c))
/-- The control polygons along u or along v: the point numbers of each. -/
def patchLines (r : Nat) (v : Bool) : List (List Nat) :=
  if patchKind r = 1 then (if v then [[0, 2], [1, 3]] else [[0, 1], [2, 3]])
  else (upFrom 0 4).map (fun i => (upFrom 0 4).map (fun j => if v then 4 * j + i else 4 * i + j))

/-! ## Rectangle and estimate (R345, R346) -/

/-- The least of FP32 encodings by value, or the greatest. -/
def extremeF (mx : Bool) : List Nat → Nat
  | [] => 0
  | [a] => a
  | a :: t =>
    let b := extremeF mx t
    if (if mx then flt32 a b else flt32 b a) then b else a

/-- floor(x ÷ 32) of an FP32 encoding; an infinity lies beyond every bucket. -/
def bucketAt (x : Nat) : Int :=
  match decodeF fmt32 x with
  | .nan => 0
  | .inf n => if n then -2 ^ 200 else 2 ^ 200
  | .fin n m e => (FV.fin n m (e - 5)).floorInt

/-- First and last bucket along one coordinate of a screen of so many buckets. -/
def bucketRange (r c width : Nat) : Int × Int :=
  let xs := patchCoords r c
  (max 0 (bucketAt (fsub32 (extremeF false xs) (patchExpand r))),
    min ((width : Int) - 1) (bucketAt (fadd32 (extremeF true xs) (patchExpand r))))

/-- The rectangle of a patch: first column and row, last column and row; none when it is empty (R345). -/
def patchRect (r bw bh : Nat) : Option (Nat × Nat × Nat × Nat) :=
  let (x0, x1) := bucketRange r 0 bw
  let (y0, y1) := bucketRange r 1 bh
  if x0 > x1 ∨ y0 > y1 then none else some (x0.toNat, y0.toNat, x1.toNat, y1.toNat)

/-- len of two control points (R346). -/
def segLen (r t p q : Nat) : Nat :=
  let dx := fsub32 (patchPoint r t q 0) (patchPoint r t p 0)
  let dy := fsub32 (patchPoint r t q 1) (patchPoint r t p 1)
  fsqrt32 (ffma32 dx dx (fmul32 dy dy))

/-- The length of a control polygon, summed segment by segment. -/
def polyLen (r t : Nat) : List Nat → Nat → Bool → Nat
  | a :: b :: rest, acc, first => polyLen r t (b :: rest) (if first then segLen r t a b else fadd32 acc (segLen r t a b)) false
  | _, acc, _ => acc

/-- Lu, or Lv. -/
def patchLen (r : Nat) (v : Bool) : Nat :=
  extremeF true ((upFrom 0 2).flatMap (fun t => (patchLines r v).map (fun l => polyLen r t l 0 true)))

/-- The least n of at least 1 with n × RATE ≥ L; an infinite L has none, and counts as more than any grid. -/
def patchSteps (r len : Nat) : Nat :=
  match decodeF fmt32 len, decodeF fmt32 (patchRate r) with
  | .fin _ m e, .fin _ p g => max 1 (ceilDiv (m * 2 ^ (e - g).toNat) (p * 2 ^ (g - e).toNat))
  | _, _ => 2 ^ 300

/-- nu -/
def patchNu (r : Nat) : Nat := patchSteps r (patchLen r false)
/-- nv -/
def patchNv (r : Nat) : Nat := patchSteps r (patchLen r true)

/-- Whether a split is needed on a screen of so many buckets; the widths count even where the rectangle is empty (R346). -/
def splitNeeded (r bw bh : Nat) : Bool :=
  let (x0, x1) := bucketRange r 0 bw
  let (y0, y1) := bucketRange r 1 bh
  decide (patchNu r > 16) || decide (patchNv r > 16) || decide (x1 - x0 > 3) || decide (y1 - y0 > 3)

/-- Whether the split direction is v (R346). -/
def splitAlongV (r : Nat) : Bool :=
  if patchNu r > 16 ∨ patchNv r > 16 then decide (patchNu r < patchNv r) else flt32 (patchLen r false) (patchLen r true)

/-- Whether a patch record is valid (Table 12-4); `splits` says that a split is needed or asked for (DEDUCED, log 42). -/
def patchOk (r : Nat) (splits : Bool) : Bool :=
  decide (fld r 73 7 = 0) && decide (fld r 110 18 = 0) && decide (fld r 576 448 = 0) && decide (patchKind r < 2) &&
  decide (8 ≤ patchLog r ∧ patchLog r ≤ 25) && decide (patchBase r % 2 ^ patchLog r = 0) &&
  decide (patchBase r + 2 ^ patchLog r ≤ 2 ^ 25) &&
  ffin32 (patchRate r) && flt32 0 (patchRate r) && ffin32 (patchExpand r) && fle32 0 (patchExpand r) &&
  (upFrom 0 3).all (fun c => (patchCoords r c).all ffin32) &&
  (upFrom 0 4).all (fun q => (upFrom 0 3).all (fun e => ffin32 (patchUa r q e))) &&
  !(patchLog r == 8 && splits)

/-! ## Splitting (R348) -/

/-- mid(a, b) := RNE((a + b) ÷ 2). -/
def mid32 (a b : Nat) : Nat :=
  match addF 0 (decodeF fmt32 a) (decodeF fmt32 b) with
  | .fin n m e => encodeF fmt32 0 (.fin n m (e - 1))
  | x => encodeF fmt32 0 x

/-- A line of control values cut at the midpoint: its first or second half. -/
def halfLine (second : Bool) : List Nat → List Nat
  | [a0, a1, a2, a3] =>
    let b1 := mid32 a0 a1
    let m := mid32 a1 a2
    let c2 := mid32 a2 a3
    let b2 := mid32 b1 m
    let c1 := mid32 m c2
    let b3 := mid32 b2 c1
    if second then [b3, c1, c2, a3] else [a0, b1, b2, b3]
  | [a0, a1] => if second then [mid32 a0 a1, a1] else [a0, mid32 a0 a1]
  | l => l

/-- A half of a patch record. A bilinear patch's unused points are not read (R336): `open_` gives the word written there. -/
def halfPatch (r : Nat) (v second : Bool) (open_ : Nat → Nat) : Nat :=
  let at_ := fun (t p c : Nat) => 8 * (128 + 192 * t + 12 * p + 4 * c)
  let spots := (upFrom 0 2).flatMap (fun t => (upFrom 0 3).map (fun c => (t, c)))
  let pts := fun (x : Nat) => spots.foldl (fun (x : Nat) (tc : Nat × Nat) =>
    (patchLines r v).foldl (fun (x : Nat) (line : List Nat) =>
      (line.zip (halfLine second (line.map (fun p => patchPoint r tc.1 p tc.2)))).foldl
        (fun (x : Nat) (pv : Nat × Nat) => setFld x (at_ tc.1 pv.1 tc.2) 32 pv.2) x) x) x
  let rest := fun (x : Nat) => if patchKind r = 1 then
      (upFrom 0 72).foldl (fun (x : Nat) (i : Nat) => setFld x (at_ (i / 36) (4 + i % 36 / 3) (i % 3)) 32 (open_ i)) x
    else x
  let pairs := if v then [(0, 2), (1, 3)] else [(0, 1), (2, 3)]
  let ua := fun (x : Nat) => pairs.foldl (fun (x : Nat) (q : Nat × Nat) => (upFrom 0 3).foldl (fun (x : Nat) (e : Nat) =>
    setFld x (192 + 96 * (if second then q.1 else q.2) + 32 * e) 32 (mid32 (patchUa r q.1 e) (patchUa r q.2 e))) x) x
  let base := patchBase r + (if second then 2 ^ (patchLog r - 1) else 0)
  setFld (setFld (setFld (ua (rest (pts r))) 0 64 0) 80 25 base) 105 5 (patchLog r - 1)

/-! ## Dicing (R338, R347) -/

/-- One step of de Casteljau's scheme. -/
def castStep (w : Nat) : List Nat → List Nat
  | a :: b :: t => flerp32 a b w :: castStep w (b :: t)
  | _ => []

/-- A coordinate of the surface at (u, v) and shutter end t. -/
def surface (r t c u v : Nat) : Nat :=
  let p := fun (i : Nat) => patchPoint r t i c
  if patchKind r = 1 then flerp32 (flerp32 (p 0) (p 1) u) (flerp32 (p 2) (p 3) u) v
  else
    let one := fun (w : Nat) (l : List Nat) => nth (castStep w (castStep w (castStep w l))) 0 0
    one v ((upFrom 0 4).map (fun row => one u ((upFrom 0 4).map (fun col => p (4 * row + col)))))

/-- A user attribute at (u, v). -/
def surfaceUa (r e u v : Nat) : Nat :=
  flerp32 (flerp32 (patchUa r 0 e) (patchUa r 1 e) u) (flerp32 (patchUa r 2 e) (patchUa r 3 e) u) v

/-- RNE(i ÷ n). -/
def gridParam (i : Int) (n : Nat) : Nat := fdiv32 (fOfInt i) (fOfInt n)

/-- Words 32 bits each, lowest first. -/
def packWords (l : List Nat) : Nat := l.foldr (fun w acc => w + 2 ^ 32 * acc) 0

/-- The vertex record of vertex (i, j) (Table 12-6). -/
def vertexRec (r nu nv : Nat) (i j : Int) : Nat :=
  let u := gridParam i nu
  let v := gridParam j nv
  packWords ((upFrom 0 3).map (fun c => surface r 0 c u v) ++ (upFrom 0 3).map (fun c => surface r 1 c u v) ++ [0, 0, 0] ++
    (upFrom 0 3).map (fun e => surfaceUa r e u v))

/-- The apron record of vertex (i, j) (Table 12-6). -/
def apronRec (r nu nv : Nat) (i j : Int) : Nat :=
  let u := gridParam i nu
  let v := gridParam j nv
  packWords ((upFrom 0 3).map (fun c => surface r 0 c u v) ++ (upFrom 0 3).map (fun e => surfaceUa r e u v))

/-- The slot offset of interior vertex (i, j) (R338). -/
def vertexOff (nu i j : Nat) : Nat := 512 + 48 * (j * (nu + 1) + i)

/-- The slot offset of the apron vertex (i, j), both one higher than the manual's (R338). -/
def apronOff (nu nv i j : Nat) : Nat :=
  let n := if j = 0 then i
    else if j = nv + 2 then nu + 3 + 2 * (nv + 1) + i
    else nu + 3 + 2 * (j - 1) + (if i = 0 then 0 else 1)
  512 + 48 * ((nu + 1) * (nv + 1)) + 24 * n

/-- The records of a diced grid: slot offset, bytes, value. -/
def gridRecords (r nu nv : Nat) : List (Nat × Nat × Nat) :=
  (upFrom 0 (nv + 3)).flatMap (fun (j : Nat) => (upFrom 0 (nu + 3)).map (fun (i : Nat) =>
    let x : Int := (i : Int) - 1
    let y : Int := (j : Int) - 1
    if 1 ≤ i ∧ i ≤ nu + 1 ∧ 1 ≤ j ∧ j ≤ nv + 1 then (vertexOff nu (i - 1) (j - 1), 48, vertexRec r nu nv x y)
    else (apronOff nu nv i j, 24, apronRec r nu nv x y)))

/-! ## Grid headers (Table 12-5) -/

/-- PATCHA -/
def hdPatch (h : Nat) : Nat := fld h 0 64
/-- NU -/
def hdNu (h : Nat) : Nat := fld h 64 8
/-- NV -/
def hdNv (h : Nat) : Nat := fld h 72 8
/-- SAMPLED -/
def hdSampled (h : Nat) : Bool := bit h 116
/-- REMAIN -/
def hdRemain (h : Nat) : Nat := fld h 144 5

/-- The header of a freshly diced grid; `bucket` is the bound bucket's BX, BY, BW and BH. -/
def gridHeader (patch r bucket gen : Nat) : Nat :=
  let (x0, y0, x1, y1) := (patchRect r (fld bucket 32 16) (fld bucket 48 16)).getD (0, 0, 0, 0)
  let w := x1 - x0 + 1
  let h := y1 - y0 + 1
  patch + patchNu r * 2 ^ 64 + patchNv r * 2 ^ 72 + x0 * 2 ^ 80 + y0 * 2 ^ 96 + (w - 1) * 2 ^ 112 + (h - 1) * 2 ^ 114 +
    2 ^ 117 + w * h * 2 ^ 144 + patchBase r * 2 ^ 160 + patchInst r * 2 ^ 185 + gen * 2 ^ 192 +
    fld bucket 0 16 * 2 ^ 224 + fld bucket 16 16 * 2 ^ 240

/-! ## Slots -/

/-- A slot that nothing has allocated (Table 12-8) (DESIGN CHOICE, log 7). -/
def Slot.fresh : Slot :=
  { state := .free, gen := 0, owner := 0, holders := [], spillReq := false, image := none, nu := 0, nv := 0, oldGen := none
    failed := false }

/-- Launch, die and VCL of a slot's key. -/
def slotPlace (key : Nat) : Nat × Nat × Nat := (key / 8192, key / 2048 % 4, key / 128 % 16)

/-- The generation at which launches before left the slot of a cluster (R340). -/
def State.genBefore (s : State) (key : Nat) : Nat :=
  let (launch, die, vcl) := slotPlace key
  ((s.clusterOf launch die vcl).map (fun c => Tab.getD (s.die die).gens (128 * c + key % 128) 0)).getD 0

/-- A slot by key. -/
def State.slotAt (s : State) (key : Nat) : Slot :=
  match Tab.find s.slots key with
  | some sl => sl
  | none => { Slot.fresh with gen := s.genBefore key }

/-- A launch leaves the generations of its slots behind (R340). -/
def State.leaveGens (s : State) (launch : Nat) : State :=
  s.slots.foldl (fun s (x : Nat × Slot) =>
    let (l, die, vcl) := slotPlace x.1
    if l ≠ launch then s
    else
      match s.clusterOf l die vcl, Tab.find s.dies die with
      | some c, some d => s.setDie die { d with gens := Tab.set d.gens (128 * c + x.1 % 128) x.2.gen }
      | _, _ => s) s

/-- Changes a slot. -/
def modSlot (key : Nat) (f : Slot → Slot) : Act Unit :=
  upd (fun s => s.setSlot key (f (s.slotAt key)))

/-- The meaningful part of a slot's grid header. -/
def State.gridHead (s : State) (key : Nat) : Nat := Mem.read s.mem (cupolaKey key) 32

/-- Writes the meaningful part of a slot's grid header. -/
def putHead (key v : Nat) : Act Unit := poke (cupolaKey key) 32 v

/-- The key of slot 0 of a gang's Cupola. -/
def State.cupola (s : State) (g : Gang) : Nat := slotKey g.launch g.die (s.vcl g.launch g.die g.cluster) 0

/-- The slots a gang owns; a spilling slot still counts (R334). -/
def State.ownedBy (s : State) (gang : Nat) : List (Nat × Slot) :=
  s.slots.filter (fun x => !(x.2.state == .free) && x.2.owner == gang)

/-- How many issued entries that have not performed name a slot (R340). -/
def State.naming (s : State) (key : Nat) : Nat :=
  ((s.groups.map (fun (g : Nat × Group) => ((g.2.queues.map (fun (q : Nat × Queue) =>
    (q.2.ents.filter (fun e => e.op.slot == some key)).length)).foldl (fun a b => a + b) 0))).foldl (fun a b => a + b) 0)

/-- Whether an entry of some kind over a slot that was issued before a moment is still to perform. -/
def State.stillTo (s : State) (f : EOp → Bool) (before : Nat) : Bool :=
  s.groups.any (fun (g : Nat × Group) => g.2.queues.any (fun q => q.2.ents.any (fun e => f e.op && decide (e.born < before))))

/-- Whether a slot holds the grid that an entry issued at a moment names: none that fills it and was issued before is still to
perform. -/
def State.gridReadyFor (s : State) (key born : Nat) : Bool := !s.stillTo (fun op => op.fills key) born

/-- Whether a slot holds its grid for an instruction that issues now. -/
def State.gridReady (s : State) (key : Nat) : Bool := s.gridReadyFor key s.tick

/-- Whether a slot is in state SAMPLED, with what its header keeps while it spills (Table 12-9) (DEDUCED, log 41). -/
def State.shaded (s : State) (key : Nat) : Bool :=
  let sl := s.slotAt key
  sl.state == .sampled || (sl.state == .spilling && hdSampled (s.gridHead key))

/-- A slot becomes FREE; GEN keeps its count, and an empty cluster may lose its power (R340, R474). -/
def freeSlot (key : Nat) : Act Unit := do
  modSlot key (fun sl => { Slot.fresh with gen := sl.gen })
  let (launch, die, vcl) := slotPlace key
  match (← now).clusterOf launch die vcl with
  | none => pure ()
  | some c => upd (fun s => s.gate die c)

/-! ## Handles (Table 12-7) -/

/-- The KIND 1 handle of a slot. -/
def handleOf (key gen : Nat) : Nat := 2 ^ 62 + gen * 2 ^ 16 + key / 2048 % 4 * 2 ^ 11 + key / 128 % 16 * 2 ^ 7 + key % 128

/-- The slot of a gang's own Cupola that a KIND 1 handle names, whatever its state (R339). -/
def State.handleSlot (s : State) (g : Gang) (h : Nat) : Option Nat :=
  if fld h 62 2 = 1 ∧ fld h 11 2 = g.die ∧ fld h 7 4 = s.vcl g.launch g.die g.cluster then some (s.cupola g + fld h 0 7)
  else none

/-- The slot a handle operand names, by the check of GREAD: none where it raises 0x41 (R360). -/
def State.usableSlot (s : State) (g : Gang) (h : Nat) : Option Nat :=
  match s.handleSlot g h with
  | none => none
  | some k =>
    let sl := s.slotAt k
    if !(sl.state == .free) && sl.gen == fld h 16 32 then some k else none

/-- The result word of DICE, SPLIT and BFILL (Table 12-9). -/
def resultWord (h out : Nat) (sampled : Bool) : Nat :=
  setFld h 48 14 0 + out * 2 ^ 56 + b2n sampled * 2 ^ 59

/-! ## The bucket record (Table 12-1) -/

/-- PLIST -/
def bkList (b : Nat) : Nat := fld b 64 64
/-- PCAP − PTAIL -/
def bkLeft (b : Nat) : Nat := fld b 128 32 - fld b 160 32

/-- Reads the 64 bytes of a bucket record at their home: atomics must be permitted on its page (R335, R353). -/
def bucketAtHome (p : Port) (va : Nat) : Act (Except (Nat × Nat) Nat) := do
  match ← locate p va .atomic with
  | .error c => return .error (c, va)
  | .ok _ =>
    match ← readHome p va 64 with
    | .error c => return .error (c, va)
    | .ok v => return .ok v

/-- As `bucketAtHome`, for the issuing scalar word. -/
def bucketRec (p : Port) (va : Nat) : Act Nat := do
  match ← bucketAtHome p va with
  | .ok v => return v
  | .error (c, a) => raiseMem p c a

/-- An atomic step on n bytes at a virtual address: the old value or a cause. -/
def atomicVA (p : Port) (va n : Nat) (f : Nat → Nat) : Act (Except Nat Nat) := do
  match ← locate p va .atomic with
  | .error c => return .error c
  | .ok pl => rmwPlace p pl n f

/-- As `atomicVA`, for the issuing scalar word. -/
def atomicWord (p : Port) (va n : Nat) (f : Nat → Nat) : Act Nat := do
  match ← atomicVA p va n f with
  | .ok v => return v
  | .error c => raiseMem p c va

/-- Reads HANDLE as an acquire at .sys (R349). -/
def readHandle (p : Port) (va : Nat) : Act Nat := do
  match ← locate p va .atomic with
  | .error c => raiseAt c va
  | .ok pl =>
    reach p.die (homeOf pl.target)
    match ← readHome p va 8 with
    | .error c => raiseMem p c va
    | .ok h =>
      upd (fun s => s.dropCore p)
      return h

/-! ## Spilling (R342) -/

/-- How a spill ends: done with its status, or a memory cause with its address. -/
inductive Spilled where
  | done (status : Nat)
  | fault (code addr : Nat)

/-- Copies a slot's sectors from z on, n of them, to its image: how many were written with the messages sent and the status,
and the cause that stopped it (R243). -/
def spillSectors (p : Port) (die key image : Nat) : Nat → Nat → Nat → Tab Nat → Nat → Act (Nat × Tab Nat × Nat × Option (Nat × Nat))
  | 0, _, done, sent, st => pure (done, sent, st, none)
  | n + 1, z, done, sent, st => do
    let before := (← now).corrections
    let (v, bad) ← (do
      match ← readKey die (cupolaKey key + 32 * z) 32 with
      | .ok v => return (v, false)
      | .error _ => return (0, true) : Act (Nat × Bool))
    let after := (← now).corrections
    let st1 := worseSts st (if bad then 0x32 else if after == before then 0 else 0x20)
    match ← writeVA p (image + 32 * z) 32 v with
    | .error c => return (done, sent, st, some (c, image + 32 * z))
    | .ok m =>
      let sent1 := match m with
        | none => sent
        | some (h, c) => Tab.set sent h (max c (Tab.getD sent h 0))
      spillSectors p die key image n (z + 1) (done + 1) sent1 st1

/-- The next image of a gang's spill area; none when the area is full (R342). -/
def nextImage (p : Port) (gang : Nat) : Act (Except (Nat × Nat) (Option Nat)) := do
  match (Tab.find (← now).gangs gang).bind (fun g => g.bucket) with
  | none => return .ok none
  | some bva =>
    match ← bucketAtHome p bva with
    | .error e => return .error e
    | .ok b =>
      if fld b 416 32 ≥ fld b 384 32 then return .ok none
      else
        match ← atomicVA p (bva + 52) 4 (fun n => (n + 1) % 2 ^ 32) with
        | .error c => return .error (c, bva + 52)
        | .ok n => return .ok (some (fld b 320 64 + 16384 * n))

/-- The image of a slot's spill by its engine: allocated in its owner's spill area unless it has one; none when the area is
full. -/
def spillImage (p : Port) (key : Nat) : Act (Except (Nat × Nat) (Option Nat)) := do
  let sl := (← now).slotAt key
  match sl.image with
  | some a => return .ok (some a)
  | none =>
    match ← nextImage p sl.owner with
    | .ok (some a) =>
      modSlot key (fun sl => { sl with image := some a })
      return .ok (some a)
    | x => return x

/-- The last step of a spill: HANDLE is replaced, by a release at .sys, and the slot is freed, or its victim is gone
(R342, R349). -/
def spillEnd (p : Port) (key handle : Nat) : Act (Option (Nat × Nat)) := do
  let s ← now
  let patch := hdPatch (s.gridHead key)
  match ← atomicVA p patch 8 (fun _ => handle) with
  | .error c => return some (c, patch)
  | .ok _ =>
    if (s.slotAt key).oldGen.isSome then modSlot key (fun sl => { sl with oldGen := none, image := none })
    else freeSlot key
    return none

/-- Spills a whole slot: the image's sectors, then HANDLE; a full area drops the grid (R342). The sectors written, the
messages sent, and how it ended (DEDUCED, log 67). -/
def spillSlot (p : Port) (die key : Nat) : Act (Nat × Tab Nat × Spilled) := do
  let h := (← now).gridHead key
  putHead key (setFld h 118 1 1)
  match ← spillImage p key with
  | .error (c, a) => return (0, [], .fault c a)
  | .ok none =>
    match ← spillEnd p key 0 with
    | some (c, a) => return (0, [], .fault c a)
    | none => return (0, [], .done 0)
  | .ok (some image) =>
    let (n, sent, st, cause) ← spillSectors p die key image 512 0 0 [] 0
    match cause with
    | some (c, a) => return (n, sent, .fault c a)
    | none =>
      match ← spillEnd p key (2 ^ 63 + image % 2 ^ 48) with
      | some (c, a) => return (n, sent, .fault c a)
      | none => return (n, sent, .done st)

/-- The port of a Cupola's engine for a slot's owner. -/
def State.slotPort (s : State) (key : Nat) : Port :=
  let (launch, die, vcl) := slotPlace key
  { die := die, cluster := (s.clusterOf launch die vcl).getD 16, core := none, root := fld (s.launchRec launch) 192 48 }

/-- A spill or release that the engine made without an instruction met a cause: the owning instance parks (R524). -/
def slotFault (key stops c a : Nat) : Act Unit := do
  let s ← now
  let owner := (s.slotAt key).owner
  match Tab.find s.gangs owner with
  | none => pure ()
  | some g =>
    let cause := Cause.ofHalt c 3 0 stops a
    let frec : FaultRec := ⟨true, cause, 0, 0, [], 0⟩
    modSlot key (fun sl => { sl with failed := true })
    upd (fun s => s.park g.inst 7 cause (whoField g.gx g.gy g.gz 0xFFFE) frec)

/-- Whether the engine may work on a slot without an instruction: its partition is in, and no entry names it. -/
def State.slotIdle (s : State) (key : Nat) : Bool :=
  let (launch, die, vcl) := slotPlace key
  ((Tab.find s.launches launch).map (fun l => l.state == 1 && !l.out)).getD false && s.naming key == 0

/-- A SAMPLED slot at REMAIN 0 that no gang holds is released: HANDLE becomes KIND 2 with address 0 (R341). -/
def releaseSlot (key : Nat) : Act Unit := do
  let s ← now
  let sl := s.slotAt key
  if sl.state == .sampled && hdRemain (s.gridHead key) == 0 && sl.holders.isEmpty && s.naming key == 0 then
    let patch := hdPatch (s.gridHead key)
    match ← atomicVA (s.slotPort key) patch 8 (fun _ => 2 ^ 63) with
    | .error c => slotFault key 0 c patch
    | .ok _ => freeSlot key

/-- ENGINE_SPILL: the engine spills a slot without an instruction: a request of R343 has reached it, or a spill that the
engine began is to be made or made again (R343, R363, R524). A slot that is due its release is released. -/
def execEngineSpill (slot : Nat) (s : State) : Host.Outcome State Fault Refusal :=
  perform (do
    let s ← now
    let sl := s.slotAt slot
    let (launch, die, vcl) := slotPlace slot
    guardA (s.slotIdle slot && sl.holders.isEmpty && sl.oldGen.isNone)
    let parked := (((Tab.find s.gangs sl.owner).bind (fun g => Tab.find s.insts g.inst)).map (fun i => i.park.isSome)).getD false
    guardA (!(sl.failed && parked))
    if sl.state == .sampled && hdRemain (s.gridHead slot) == 0 then releaseSlot slot
    else
      guardA ((sl.state == .sampled && sl.spillReq) || sl.state == .spilling)
      modSlot slot (fun sl => { sl with state := .spilling })
      let (n, _, r) ← spillSlot (s.slotPort slot) die slot
      match r with
      | .done _ => pure ()
      | .fault c a => slotFault slot n c a) s

/-! ## PATCH -/

/-- PATCH (R354) -/
def execPatch (d a b : BitVec 5) (s : State) : Host.Outcome State Fault Refusal :=
  perform (do
    discard myGroup
    let (n, ga) ← myGang
    let va ← sreg a.toNat
    let bud ← sreg b.toNat
    let owned := ((← now).ownedBy n).length
    check [(decide (va % 64 ≠ 0), 0x12), (decide (bud = 0 ∨ bud > 128), 0x04),
      (decide (owned ≠ 0) && !(ga.bucket == some va) && ga.bucket.isSome, 0x04)]
    putGang n { ga with bucket := some va, budget := bud }
    finishWith d.toNat owned) s

/-! ## Reading at issue -/

/-- What the flags word says: the causes it raises with it (R353). -/
def flagCauses (ga : Gang) (fl : Nat) : List (Bool × Nat) :=
  [(decide (fld fl 2 30 ≠ 0), 0x04), (!bit fl 1 && decide (fl / 2 ^ 32 ≠ 0), 0x04),
    (bit fl 1 && decide (fl / 2 ^ 32 % 16 ≠ 0), 0x12), (bit fl 1 && decide (fl / 2 ^ 32 ≥ 16 * ga.nbar), 0x04)]

/-- The barrier that a flags word names. -/
def flagBar (fl : Nat) : BarRef := if bit fl 1 then some (fl / 2 ^ 32) else none

/-- The causes of a patch address (R209, R353). -/
def patchCauses (va : Nat) : List (Bool × Nat) := [(decide (va ≥ 2 ^ 48), 0x10), (decide (va % 64 ≠ 0), 0x12)]

/-- Reads a patch record for DICE, SPLIT, BFILL or GBOUND: the page must permit atomics (R336, R353). -/
def patchRecord (p : Port) (va : Nat) : Act Nat := do
  let r ← readRec va 512
  match ← locate p va .atomic with
  | .error c => raiseAt c va
  | .ok _ => return r

/-- A cause of the issuing scalar word that leaves what the word has done (R351). -/
def raiseDone (c a : Nat) : Act Unit := do
  let st ← myStream
  raiseUnit (← me) (Cause.atWord c st.pc a)

/-! ## Appending halves (R351) -/

/-- Appends halves i on of a pair to the bound bucket's list, each with weight taken from WGT, then completes with the
result word; a cause leaves what has been done, and a borrow makes the stream wait (DEDUCED, log 43). -/
def appendHalves (k d : Nat) (p : Port) (bva word pair : Nat) : Option Bool → List Nat → Act Unit
  | _, [] => finishWith d word
  | ans, i :: rest => do
    match ← bucketAtHome p bva with
    | .error (c, a) => raiseDone c a
    | .ok b =>
      let ent := bkList b + 16 * fld b 160 32
      match ← locate p ent .write with
      | .error c => raiseDone c ent
      | .ok _ =>
        match ← wordPlace p (ent + 8) with
        | (_, none) => raiseDone 0x10 (ent + 8)
        | (c, some pl) =>
          if c ≠ 0 then raiseDone c (ent + 8)
          else
            match ← takeWith k (2 * k) ans 0 with
            | .cause c => raiseDone c 0
            | .waits => putStream { (← myStream) with wait := .borrow none i }
            | .weight w =>
              match ← atomicVA p (bva + 20) 4 (fun n => (n + 1) % 2 ^ 32) with
              | .error c => raiseDone c (bva + 20)
              | .ok _ =>
                discard (writeVA p ent 8 (pair + 512 * i))
                if homeOf pl.target ≠ p.die then together p.die (homeOf pl.target)
                discard (deposit pl.pa w)
                appendHalves k d p bva word pair none rest

/-- The free word of a bilinear half's unused points: n-th draw. -/
def openWord (tick n : Nat) : Nat := ofBytes ((upFrom 0 4).map (fun i => Config.freeByte (tick + 4 * n + i)))

/-- The KIND 0 split: a pair is allocated, both halves are written, HANDLE names them, and both are appended (R349) (DEDUCED, log 39). -/
def splitPatch (k d : Nat) (p : Port) (bva b va r : Nat) (v : Bool) : Act Unit := do
  let used := fld b 288 32
  check [(decide (bkLeft b < 2), 0x04), (decide (used ≥ fld b 256 32), 0x04)]
  let pair := fld b 192 64 + 1024 * used
  discard (atomicWord p (bva + 36) 4 (fun n => (n + 1) % 2 ^ 32))
  let t := (← now).tick
  upd (fun s => { s with tick := s.tick + 576 })
  match ← writeRange p pair 1024 (halfPatch r v false (openWord t) + halfPatch r v true (openWord (t + 288)) * 2 ^ 4096) with
  | .error (c, a) => raiseMem p c a
  | .ok _ =>
    let h := 3 * 2 ^ 62 + pair % 2 ^ 48
    discard (atomicWord p va 8 (fun _ => h))
    appendHalves k d p bva (resultWord h 3 false) (pair % 2 ^ 48) none [0, 1]

/-- DICE or SPLIT goes on with the halves still to append, once a borrow has been answered. -/
def resumeHalves (k d : Nat) (p : Port) (bva va : Nat) (ok : Bool) (i : Nat) : Act Unit := do
  let h ← readHandle p va
  let b ← bucketRec p bva
  if fld h 62 2 = 3 then
    if i = 0 ∧ bkLeft b < 2 then raise 0x04
    appendHalves k d p bva (resultWord h 3 false) (fld h 0 48) (some ok) (if i = 0 then [0, 1] else [1])
  else finishWith d (resultWord h 3 false)

/-! ## DICE, BFILL and SPLIT -/

/-- takeslot (R349): a slot's key and whether it is a victim; none when there is none now (DEDUCED, log 40). -/
def State.takeSlot (s : State) (n : Nat) (g : Gang) : Option (Nat × Bool) :=
  let c := s.cupola g
  let keys := upFrom c 128
  let freeOne := if (s.ownedBy n).length < g.budget then keys.find? (fun k => (s.slotAt k).state == .free) else none
  match freeOne with
  | some k => some (k, false)
  | none =>
    (keys.find? (fun k =>
      let sl := s.slotAt k
      sl.state == .sampled && sl.owner == n && decide (hdRemain (s.gridHead k) > 0) && sl.holders.isEmpty)).map
        (fun k => (k, true))

/-- Allocates a slot: GEN rises, and a victim's old generation stays until the entry has spilled it (R340, R349). -/
def allocSlot (n key : Nat) (victim : Bool) (nu nv : Nat) : Act Nat := do
  let s ← now
  let old := s.slotAt key
  let gen := (old.gen + 1) % 2 ^ 32
  if victim then putHead key (setFld (s.gridHead key) 118 1 1)
  modSlot key (fun sl =>
    { Slot.fresh with state := .owned, gen := gen, owner := n, nu := nu, nv := nv, oldGen := if victim then some sl.gen else none })
  return gen

/-- Takes a slot for a patch at HANDLE h, sets HANDLE to it and issues the entry that fills it (R349). -/
def claimSlot (k d : Nat) (p : Port) (va nu nv out : Nat) (nowait sampled : Bool) (h : Nat) (op : Nat → Bool → EOp) : Act Unit := do
  let (n, ga) ← myGang
  match (← now).takeSlot n ga with
  | none => if nowait then finishWith d (resultWord h 5 false) else halt (.wait .slot)
  | some (key, victim) =>
    let gen ← allocSlot n key victim nu nv
    let h1 := handleOf key gen
    discard (atomicWord p va 8 (fun _ => h1))
    discard (issueEntry k 3 (op key victim))
    finishWith d (resultWord h1 out sampled)

/-- The slot of the launch that a KIND 1 handle names, while it holds the handle's grid. -/
def State.namedSlot (s : State) (launch h : Nat) : Option Nat :=
  let key := slotKey launch (fld h 11 2) (fld h 7 4) (fld h 0 7)
  if fld h 62 2 = 1 ∧ !((s.slotAt key).state == .free) ∧ (s.slotAt key).gen = fld h 16 32 then some key else none

/-- S for a handle: whether the slot it names is SAMPLED (Table 12-9). -/
def State.handleS (s : State) (launch h : Nat) : Bool := ((s.namedSlot launch h).map s.shaded).getD false

/-- The KIND 1 decision (R349). -/
def residentGrid (d : Nat) (p : Port) (va h : Nat) : Act Unit := do
  let (n, ga) ← myGang
  let s ← now
  match s.handleSlot ga h with
  | none =>
    discard (atomicWord p va 8 (fun x => x ||| 2 ^ 13))
    match s.namedSlot ga.launch h with
    | none => pure ()
    | some key => modSlot key (fun sl => { sl with spillReq := true })
    finishWith d (resultWord h 4 (s.handleS ga.launch h))
  | some key =>
    let sl := s.slotAt key
    let gen := fld h 16 32
    if sl.oldGen = some gen then
      finishWith d (resultWord h (if sl.owner = n then 0 else 4) true)
    else if sl.state == .free || !(sl.gen == gen) then raise 0x41
    else if sl.owner = n then finishWith d (resultWord h 0 (s.shaded key))
    else if !(sl.state == .sampled) then finishWith d (resultWord h 4 (s.shaded key))
    else
      modSlot key (fun sl => { sl with holders := if sl.holders.contains n then sl.holders else sl.holders ++ [n] })
      finishWith d (resultWord h 1 true)

/-- DICE and BFILL (R349 to R353, R359). What a FILL finds wrong with its image is the entry's to report (R353). -/
def diceOp (fill : Bool) (d a b : BitVec 5) : Act Unit := do
  let k ← myGroup
  let (n, ga) ← myGang
  let va ← sreg a.toNat
  let fl ← sreg b.toNat
  let p ← myPort
  let bva := ga.bucket.getD 0
  match (← myStream).wait with
  | .borrow none _ => stall
  | .borrow (some ok) i => resumeHalves k d.toNat p bva va ok i
  | _ =>
    check (flagCauses ga fl ++ [(ga.bucket.isNone, 0x04)] ++ patchCauses va)
    let r ← patchRecord p va
    let brec ← bucketRec p bva
    let rect := patchRect r (fld brec 32 16) (fld brec 48 16)
    let split := splitNeeded r (fld brec 32 16) (fld brec 48 16)
    if !patchOk r split then raise 0x40
    waitSettled
    let h ← readHandle p va
    let kind := fld h 62 2
    if fill ∧ (kind = 0 ∨ kind = 3) then finishWith d.toNat (resultWord h 7 false)
    else if kind = 0 then
      if rect.isNone then finishWith d.toNat (resultWord h 6 false)
      else if split then splitPatch k d.toNat p bva brec va r (splitAlongV r)
      else
        let op : Nat → Bool → EOp := fun key v => .dice va r key v (fld brec 0 64) (flagBar fl)
        claimSlot k d.toNat p va (patchNu r) (patchNv r) 0 (bit fl 0) false h op
    else if kind = 1 then residentGrid d.toNat p va h
    else if kind = 2 then
      if fld h 0 48 = 0 then finishWith d.toNat (resultWord h 6 false)
      else
        let hd ← (do
          match ← readVA { p with core := none } fresh (fld h 0 48) 32 with
          | .error _ => return 0
          | .ok hd => return hd : Act Nat)
        let op : Nat → Bool → EOp := fun key v => .fill (fld h 0 48) key v (fld brec 0 64) (flagBar fl)
        claimSlot k d.toNat p va (hdNu hd) (hdNv hd) 2 (bit fl 0) (hdSampled hd) h op
    else
      if bkLeft brec < 2 then raise 0x04
      appendHalves k d.toNat p bva (resultWord h 3 false) (fld h 0 48) none [0, 1]

/-- DICE (R355) -/
def execDice (d a b : BitVec 5) (s : State) : Host.Outcome State Fault Refusal := perform (diceOp false d a b) s
/-- BFILL (R359) -/
def execBfill (d a b : BitVec 5) (s : State) : Host.Outcome State Fault Refusal := perform (diceOp true d a b) s

/-- SPLIT (R356) -/
def execSplit (d a b : BitVec 5) (s : State) : Host.Outcome State Fault Refusal :=
  perform (do
    let k ← myGroup
    let (n, ga) ← myGang
    let va ← sreg a.toNat
    let dir ← sreg b.toNat
    let p ← myPort
    let bva := ga.bucket.getD 0
    match (← myStream).wait with
    | .borrow none _ => stall
    | .borrow (some ok) i => resumeHalves k d.toNat p bva va ok i
    | _ =>
      check ([(decide (dir > 2), 0x04), (ga.bucket.isNone, 0x04)] ++ patchCauses va)
      let r ← patchRecord p va
      let brec ← bucketRec p bva
      if !patchOk r true then raise 0x40
      waitSettled
      let h ← readHandle p va
      if h ≠ 0 then finishWith d.toNat (resultWord h 7 ((← now).handleS ga.launch h))
      else splitPatch k d.toNat p bva brec va r (if dir = 2 then splitAlongV r else dir == 1)) s

/-- GBOUND (R357) -/
def execGbound (d a b : BitVec 5) (s : State) : Host.Outcome State Fault Refusal :=
  perform (do
    discard myGroup
    let va ← sreg a.toNat
    let sz ← sreg b.toNat
    check ([(decide (fld sz 0 16 = 0 ∨ fld sz 16 16 = 0 ∨ sz / 2 ^ 32 ≠ 0), 0x04)] ++ patchCauses va)
    let r ← patchRecord (← myPort) va
    let rect := patchRect r (fld sz 0 16) (fld sz 16 16)
    if !patchOk r (splitNeeded r (fld sz 0 16) (fld sz 16 16)) then raise 0x40
    match rect with
    | none => finishWith d.toNat (2 ^ 64 - 1)
    | some (x0, y0, x1, y1) => finishWith d.toNat (x0 + y0 * 2 ^ 16 + x1 * 2 ^ 32 + y1 * 2 ^ 48)) s

/-- BSPILL (R358) -/
def execBspill (d a b : BitVec 5) (s : State) : Host.Outcome State Fault Refusal :=
  perform (do
    let k ← myGroup
    let (n, ga) ← myGang
    let h ← sreg a.toNat
    let fl ← sreg b.toNat
    let s ← now
    let own := (s.usableSlot ga h).filter (fun key => (s.slotAt key).owner == n)
    let busy := (own.map (fun key => (s.slotAt key).state == .spilling || !(s.slotAt key).holders.isEmpty)).getD false
    check (flagCauses ga fl ++ [(busy, 0x04), (own.isNone, 0x41)])
    waitSettled
    let key ← need own
    let p ← myPort
    guardA ((← now).roomFor k 3)
    match ← nextImage p n with
    | .error (c, a) => raiseMem p c a
    | .ok none => raise 0x04
    | .ok (some image) =>
      modSlot key (fun sl => { sl with state := .spilling })
      discard (issueEntry k 3 (.spill key image (flagBar fl)))
      finishWith d.toNat image) s

/-! ## Entries performing -/

/-- Records in the head of a G queue what a spill wrote. -/
def spillNote (k n : Nat) (sent : Tab Nat) (st : Nat) : Act Unit :=
  setHead k 3 (fun e => { e with
    started := true, wrote := e.wrote + n
    status := BitVec.ofNat 32 (worseSts e.status.toNat st)
    sent := sent.foldl (fun t x => Tab.set t x.1 (max x.2 (Tab.getD t x.1 0))) e.sent })

/-- The spill of a slot by the entry at the head of a G queue stops at a cause; false. -/
def spillHalt (k c a : Nat) : Act Bool := do
  haltHead k 3 c a
  return false

/-- The last step of a victim's spill: HANDLE is replaced, and the entry goes on (R342, R349). -/
def victimGone (k : Nat) (p : Port) (key handle : Nat) : Act Bool := do
  match ← spillEnd p key handle with
  | some (c, a) => spillHalt k c a
  | none =>
    setHead k 3 (fun e => { e with pos := 0 })
    return true

/-- The victim of a slot's entry is spilled first, once the entries issued before that name its grid have performed: its next n
sectors, then HANDLE. Whether the entry goes on in this turn (R340, R342, R349). A victim that every bucket has sampled by then
needs no image (R341). -/
def victimFirst (k key n : Nat) : Act Bool := do
  let s ← now
  if (s.slotAt key).oldGen.isNone then return true
  else
    let e ← headEnt k 3
    guardA (!s.stillTo (fun op => op.slot == some key) e.born)
    let p ← headPort k 3
    putHead key (setFld (s.gridHead key) 118 1 1)
    if hdRemain (s.gridHead key) = 0 then victimGone k p key (2 ^ 63)
    else
      match ← spillImage p key with
      | .error (c, a) => spillHalt k c a
      | .ok none => victimGone k p key 0
      | .ok (some image) =>
        let (m, sent, st, cause) ← spillSectors p p.die key image (min n (512 - e.pos)) e.pos 0 [] 0
        spillNote k m sent st
        setHead k 3 (fun x => { x with pos := e.pos + m })
        match cause with
        | some (c, a) => spillHalt k c a
        | none =>
          if e.pos + m = 512 then victimGone k p key (2 ^ 63 + image % 2 ^ 48)
          else return false

/-- Completes the head of a G queue once its writes have reached their homes. -/
def geoDone (k : Nat) : Act Unit := do
  setHead k 3 (fun e => { e with pos := 1024 })
  if ← headReached k 3 then
    let e ← headEnt k 3
    discard (complete k 3 (e.status.toNat / 16) (e.status.toNat % 16))

/-- DICE_ENTRY_PERFORM: the next n sectors of a victim's spill, then the dice (R347, R349, R355). -/
def execDiceEntryPerform (part : Part) (s : State) : Host.Outcome State Fault Refusal :=
  perform (do
    let (g, qu, e) ← headOf part.g 3
    match e.op with
    | .dice patch r key victim bucket bar =>
      if e.pos = 1024 then geoDone part.g
      else if ← victimFirst part.g key part.n then
        let sl := (← now).slotAt key
        poke (cupolaKey key) 512 (gridHeader patch r bucket sl.gen)
        (gridRecords r sl.nu sl.nv).forM (fun x => poke (cupolaKey key + x.1) x.2.1 x.2.2)
        modSlot key (fun sl => { sl with state := if sl.state == .spilling then .spilling else .ready })
        geoDone part.g
    | _ => stall) s

/-- Reads an image's sectors from z on into a slot; the first memory cause with its address (R349, R353). -/
def fillSectors (k : Nat) (p : Port) (key image : Nat) : Nat → Nat → Act (Option (Nat × Nat))
  | 0, _ => pure none
  | n + 1, z => do
    let before := (← now).corrections
    match ← readVA p fresh (image + 32 * z) 32 with
    | .ok v =>
      poke (cupolaKey key + 32 * z) 32 v
      spillNote k 1 [] (if (← now).corrections == before then 0 else 0x20)
      fillSectors k p key image n (z + 1)
    | .error c =>
      if c = 0x13 then
        poke (cupolaKey key + 32 * z) 32 0
        spillNote k 1 [] 0x31
        fillSectors k p key image n (z + 1)
      else return some (c, image + 32 * z)

/-- FILL_ENTRY_PERFORM: the next n sectors of a victim's spill, then the next n of the image; after the last, its SAMPLED, DONE
and REMAIN stand, and the new owner's bucket is written (R341, R349). -/
def execFillEntryPerform (part : Part) (s : State) : Host.Outcome State Fault Refusal :=
  perform (do
    let (g, qu, e) ← headOf part.g 3
    match e.op with
    | .fill image key victim bucket bar =>
      if e.pos = 1024 then geoDone part.g
      else if ← victimFirst part.g key part.n then
        let e ← headEnt part.g 3
        let m := min part.n (512 - e.pos)
        match ← fillSectors part.g (← headPort part.g 3) key image m e.pos with
        | some (c, a) => haltHead part.g 3 c a
        | none =>
          setHead part.g 3 (fun x => { x with pos := e.pos + m })
          if e.pos + m = 512 then
            let s ← now
            let h := s.gridHead key
            let h1 := setFld (setFld (setFld h 117 2 1) 192 32 (s.slotAt key).gen) 224 32 (fld bucket 0 32)
            putHead key h1
            modSlot key (fun sl => { sl with
              state := if sl.state == .spilling then .spilling else if hdSampled h1 then .sampled else .ready
              nu := hdNu h1, nv := hdNv h1 })
            geoDone part.g
    | _ => stall) s

/-- SPILL_ENTRY_PERFORM: the next n sectors of a BSPILL's image; after the last, HANDLE (R342, R358). -/
def execSpillEntryPerform (gk n : Nat) (s : State) : Host.Outcome State Fault Refusal :=
  perform (do
    let (g, qu, e) ← headOf gk 3
    match e.op with
    | .spill key image bar =>
      let s ← now
      if e.pos = 1024 then geoDone gk
      else
        let p ← headPort gk 3
        guardA (s.naming key == 1)
        putHead key (setFld (s.gridHead key) 118 1 1)
        let todo := min n (512 - e.pos)
        let (m, sent, st, cause) ← spillSectors p p.die key image todo e.pos 0 [] 0
        spillNote gk m sent st
        setHead gk 3 (fun x => { x with pos := e.pos + m })
        match cause with
        | some (c, a) => haltHead gk 3 c a
        | none =>
          if e.pos + m = 512 then
            match ← spillEnd p key (2 ^ 63 + image % 2 ^ 48) with
            | some (c, a) => haltHead gk 3 c a
            | none => geoDone gk
    | _ => stall) s

/-! ## GREAD, GWRITE and GNORM -/

/-- The vertex that a run's mapping gives a thread (R360). -/
def GMap.vertex (m : GMap) (t : Nat) : Int × Int := (m.col0 + (t % m.wd : Nat), m.row0 + (t / m.wd : Nat))

/-- The class GREAD gives a thread (R59, R360). -/
def GMap.cls (m : GMap) (nu nv : Nat) (apron : Bool) (t : Nat) : Cls :=
  let (i, j) := m.vertex t
  if 0 ≤ i ∧ i ≤ nu ∧ 0 ≤ j ∧ j ≤ nv then .normal
  else if apron ∧ -1 ≤ i ∧ i ≤ nu + 1 ∧ -1 ≤ j ∧ j ≤ nv + 1 then .helper
  else .void

/-- GREAD and GREAD.APRON at issue (R360) (DEDUCED, log 44). -/
def greadOp (apron : Bool) (w : LaneW) : Act Unit := do
  let l ← myLane
  let ga ← getGang (l.k / 65536)
  let imm := w.imm.toNat
  let s ← now
  let h := l.plain s 0 (slot64 w.a) 0
  let m : GMap := ⟨h, sext 6 imm, sext 6 (imm / 256), fld imm 16 5 + 1⟩
  let slot := s.usableSlot ga h
  let out := fun (x : Int) => decide (x < -1) || decide (x > 17)
  checkLane l [(l.g.lacks (w.d.toNat + 11), 0x04), (!(w.psel == 7) || w.pneg == 1, 0x04),
    (!(l.fr.mask.toNat == maskOf l.g.present), 0x04), (out m.col0 || out m.row0, 0x04), (l.g.run.gmap.isSome, 0x04),
    (slot.isNone, 0x41)]
  let key ← need slot
  guardA (s.roomFor l.k 3)
  let sl := s.slotAt key
  let cls := m.cls sl.nu sl.nv apron
  let threads := ((upFrom 0 32).filter (fun t => !(cls t == .void))).map (fun t => (t, cls t == .helper))
  let voids := BitVec.ofNat 32 (maskOf ((upFrom 0 32).filter (fun t => cls t == .void)))
  putGroup l.k { l.g with
    threads := l.g.threads.map (fun x => (x.1, { x.2 with cls := cls x.1 }))
    run := { l.g.run.without voids with gmap := some m, linkWd := m.wd } }
  let tag ← laneLater w
  discard (issueEntry l.k 3 (.gread key m w.d.toNat threads tag))
  modGroup l.k (fun g => g.resumeEmpty g.run.frags.length)

/-- GREAD -/
def execGread (w : LaneW) (s : State) : Host.Outcome State Fault Refusal := perform (greadOp false w) s
/-- GREAD.APRON -/
def execGreadApron (w : LaneW) (s : State) : Host.Outcome State Fault Refusal := perform (greadOp true w) s

/-- The words a thread receives from a grid: a vertex record, or an apron record spread over its words (R360). -/
def State.vertexWords (s : State) (key nu nv : Nat) (m : GMap) (t : Nat) (helper : Bool) : List Nat :=
  let (i, j) := m.vertex t
  let base := cupolaKey key
  if helper then
    let r := Mem.read s.mem (base + apronOff nu nv (i + 1).toNat (j + 1).toNat) 24
    (upFrom 0 12).map (fun w => if w < 3 then fld r (32 * w) 32 else if w < 9 then 0 else fld r (32 * (w - 6)) 32)
  else
    let r := Mem.read s.mem (base + vertexOff nu i.toNat j.toNat) 48
    (upFrom 0 12).map (fun w => fld r (32 * w) 32)

/-- GREAD_ENTRY_PERFORM: once the slot is READY the vertices reach the threads (R360). -/
def execGreadEntryPerform (gk : Nat) (s : State) : Host.Outcome State Fault Refusal :=
  perform (do
    let (g, qu, e) ← headOf gk 3
    match e.op with
    | .gread key m dst threads tag =>
      let s ← now
      guardA (s.gridReadyFor key e.born)
      let h := s.gridHead key
      let ws := threads.flatMap (fun (t : Nat × Bool) =>
        let words := s.vertexWords key (hdNu h) (hdNv h) m t.1 t.2
        (upFrom 0 12).map (fun w => (t.1, dst + w, BitVec.ofNat 32 (nth words w 0))))
      resultReady gk tag ws
      discard (complete gk 3 0 0)
      releaseSlot key
    | _ => stall) s

/-- GWRITE at issue (R361). The registers it reads are v(A) to the one of the highest set mask bit, v(A) alone for mask 0: by them
it meets REGCNT (DESIGN CHOICE, log 90). -/
def execGwrite (w : LaneW) (s : State) : Host.Outcome State Fault Refusal :=
  perform (do
    let l ← myLane
    let (n, ga) ← (do return (l.k / 65536, ← getGang (l.k / 65536)) : Act (Nat × Gang))
    let s ← now
    let h := l.plain s 0 (slot64 w.b) 0
    let words := bitsOf 12 w.imm.toNat
    let top := words.foldl (fun (a b : Nat) => max a b) 0
    let same := match l.g.run.gmap with
      | none => false
      | some m => fld h 16 32 == fld m.handle 16 32 && fld h 0 13 == fld m.handle 0 13
    let own := (l.g.run.gmap.bind (fun m => s.usableSlot ga m.handle)).filter (fun key => (s.slotAt key).owner == n)
    checkLane l [(l.g.lacks (w.a.toNat + top), 0x04), (!same, 0x04), (own.isNone, 0x41)]
    let key ← need own
    let m ← need l.g.run.gmap
    guardA (s.roomFor l.k 3)
    let ts := (l.part w).filter (fun t => (l.g.thread t).cls == .normal)
    let args := ts.map (fun t => (t, words.map (fun i => Tab.getD (l.g.thread t).v (w.a.toNat + i) 0)))
    discard (issueEntry l.k 3 (.gwrite key w.imm.toNat (s.slotAt key).nu args m))
    laneDone) s

/-- GWRITE_ENTRY_PERFORM (R361) -/
def execGwriteEntryPerform (gk : Nat) (s : State) : Host.Outcome State Fault Refusal :=
  perform (do
    let (g, qu, e) ← headOf gk 3
    match e.op with
    | .gwrite key mask nu args m =>
      args.forM (fun (t : Nat × List W32) => do
        let (i, j) := m.vertex t.1
        ((bitsOf 12 mask).zip t.2).forM (fun (x : Nat × W32) =>
          poke (cupolaKey key + vertexOff nu i.toNat j.toNat + 4 * x.1) 4 x.2.toNat))
      discard (complete gk 3 0 0)
      releaseSlot key
    | _ => stall) s

/-- The octahedral normal of two differences (R362). -/
def octNormal (du dv : Nat → Nat) : Nat :=
  let term := fun (a b c d : Nat) =>
    encodeF fmt32 0 (addF 0 (mulF (decodeF fmt32 a) (decodeF fmt32 b)) (decodeF fmt32 (fmul32 c d)).neg)
  let nx := term (du 1) (dv 2) (du 2) (dv 1)
  let ny := term (du 2) (dv 0) (du 0) (dv 2)
  let nz := term (du 0) (dv 1) (du 1) (dv 0)
  let sum := fadd32 (fadd32 (fabs32 nx) (fabs32 ny)) (fabs32 nz)
  if sum % 2 ^ 31 = 0 ∨ !ffin32 sum then 0
  else
    let ox := fdiv32 nx sum
    let oy := fdiv32 ny sum
    let fold := fun (a b : Nat) =>
      let y := fsub32 0x3F800000 (fabs32 b)
      if bit a 31 then fneg32 y else y
    let (px, py) := if flt32 nz 0 then (fold ox oy, fold oy ox) else (ox, oy)
    f16of32 py * 2 ^ 16 + f16of32 px

/-- GNORM (R362) -/
def execGnorm (w : LaneW) (s : State) : Host.Outcome State Fault Refusal :=
  perform (do
    let l ← myLane
    checkLane l [(l.g.lacks (w.a.toNat + 2), 0x04)]
    checkD w false
    let ts := l.part w
    let value := fun (c t : Nat) =>
      if ts.contains t then some (Tab.getD (l.g.thread t).v (w.a.toNat + c) 0).toNat else none
    let diff := fun (y : Bool) (t c : Nat) =>
      ((diffPair l.g.linkWidth y (value c) t ((value c t).getD 0)).map (fun p => fsub32 p.1 p.2)).getD 0
    laneLong w (ts.map (fun t => (t, octNormal (diff false t) (diff true t))))) s

/-! ## Gang retire and withdrawal (R363) -/

/-- A gang's holds as adopter end. -/
def endHolds (n : Nat) : Act Unit :=
  upd (fun s => { s with slots := s.slots.map (fun x => (x.1, { x.2 with holders := x.2.holders.filter (fun h => !(h == n)) })) })

/-- The slots a gang owns begin to spill at its retire, or are released (R363). -/
def retireSlots : List (Nat × Slot) → Act Unit
  | [] => pure ()
  | (key, sl) :: t => do
    let s ← now
    if sl.holders.isEmpty && s.naming key == 0 then
      if sl.state == .sampled && hdRemain (s.gridHead key) == 0 then releaseSlot key
      else if !(sl.state == .spilling) then modSlot key (fun x => { x with state := .spilling })
    retireSlots t

end Sys2Proof.Machine
end

