-- ==== Sys2Proof/Machine/Parking.lean ====
section
/-! DEFINITION. Stopping, parking and resuming instances, and switching partitions out and in (R68, R105, R277 to R285,
R363, R525, R530): the drain before a save, control blocks and the fault queue, and the return of a parked instance. -/

set_option linter.unusedVariables false

namespace Sys2Proof.Machine

open Sys2Proof

/-! ## A die's own accesses to physical addresses -/

/-- The port of a die's controllers. -/
def diePort (die : Nat) : Port := { die := die, cluster := 16, core := none, root := 0 }

/-- n bytes that the manual leaves open. -/
def openBytes (n : Nat) : Act Nat := do
  let t := (← now).tick
  upd (fun s => { s with tick := s.tick + n })
  return ofBytes ((upFrom 0 n).map (fun i => Config.freeByte (t + i)))

/-- Reads n bytes within a sector at a physical address, at their home; where nothing answers, the bytes are open. -/
def physSector (die pa n : Nat) : Act Nat := do
  match (← now).target pa with
  | none => openBytes n
  | some t =>
    match ← readPlace (diePort die) fresh ⟨t, pa, 1⟩ n with
    | .ok v => return v
    | .error _ => openBytes n

/-- Reads n bytes at a physical address, sector by sector. -/
def physSpan (die : Nat) : Nat → Nat → Nat → Act Nat
  | 0, _, _ => pure 0
  | k + 1, pa, n => do
    if n = 0 then return 0
    let here := min n (32 - pa % 32)
    let x ← physSector die pa here
    let y ← physSpan die k (pa + here) (n - here)
    return x + y * 2 ^ (8 * here)

/-- Reads n bytes at a physical address for a die's controller (R517, R530). -/
def physRead (die pa n : Nat) : Act Nat := physSpan die (n / 32 + 2) pa n

/-- Writes n bytes at a physical address, sector by sector; nothing is written where nothing answers. -/
def physPut (die : Nat) : Nat → Nat → Nat → Nat → Act Unit
  | 0, _, _, _ => pure ()
  | k + 1, pa, n, v => do
    if n = 0 then return ()
    let here := min n (32 - pa % 32)
    match (← now).target pa with
    | none => pure ()
    | some t => discard (writePlace (diePort die) ⟨t, pa, 0⟩ here (v % 2 ^ (8 * here)))
    physPut die k (pa + here) (n - here) (v / 2 ^ (8 * here))

/-- Writes n bytes at a physical address for a die's controller (R518, R525, R530). -/
def physWrite (die pa n v : Nat) : Act Unit := physPut die (n / 32 + 2) pa n v

/-- Sends an EVENT of a code for which the manual gives no argument (R520). -/
def notify (die code : Nat) : Act Unit := do
  let t := (← now).tick
  upd State.tickOn
  sendEvent die code (Config.eventArg t).toNat

/-! ## Before a save -/

/-- Whether a queue of a group holds no entry of a lane instruction, and no started one, that must finish before a save (R92, R282,
R404). -/
def Queue.atRest (x : Queue) : Bool :=
  x.halt.isSome || x.ents.all (fun e => !(e.started && e.op.finishes) && e.op.tag.isNone)

/-- Whether a stopped group is ready to be saved (R282): issued lane instructions and long-latency results, ALD entries,
and started entries that finish. -/
def Group.saveReady (g : Group) : Bool := g.drained && !g.aldPending && g.queues.all (fun q => q.2.atRest)

/-- Whether a stopped context is ready to be saved. -/
def Ctx.saveReady (c : Ctx) : Bool := c.queue.atRest

/-- Whether every group and context of the gangs listed is ready to be saved. -/
def State.saveReady (s : State) (gangs : List Nat) : Bool :=
  s.groups.all (fun g => !gangs.contains (g.1 / 65536) || g.2.saveReady) &&
    s.ctxs.all (fun c => !gangs.contains c.1 || c.2.saveReady)

/-- The groups and contexts of the gangs listed with the results that have arrived written (R92, R165, R282). -/
def State.settleAll (s : State) (gangs : List Nat) : State :=
  { s with
    groups := s.groups.map (fun (g : Nat × Group) =>
      if gangs.contains (g.1 / 65536) then (g.1, { g.2.flushLanes with st := g.2.st.flush }) else g)
    ctxs := s.ctxs.map (fun (c : Nat × Ctx) => if gangs.contains c.1 then (c.1, { c.2 with st := c.2.st.flush }) else c) }

/-! ## Live masks (R104, R105) -/

/-- The live mask that covers an offset of a section: the entry with the greatest OFFSET not above it, or every register. -/
def Launch.liveAt (l : Launch) (sect : Nat) (off : Int) : Nat :=
  ((l.live.filter (fun e => fld e 32 1 == sect && decide ((fld e 0 32 : Int) ≤ off))).getLast?.map (fun e => fld e 64 64)).getD (2 ^ 64 - 1)

/-- The lane index at which a stack entry resumes: a JOIN has one once a RECONV has been reached for it (R188). -/
def SEnt.resumeAt : SEnt → Option Int
  | .join _ rc => rc.map (fun x => x + 1)
  | .pend _ start => some start
  | .loop _ fin _ _ _ _ => some (fin + 1)

/-- The lane indexes whose masks a run needs (R105). -/
def Run.liveAt (r : Run) : List Int :=
  if !r.active then []
  else r.frags.flatMap (fun f => f.pc :: f.stack.filterMap SEnt.resumeAt) ++
    (match r.root with
      | none => []
      | some x => (x.rc.map (fun rc => rc + 1)).toList ++ x.pends.map (fun p => p.2))

/-- The registers that a group of a node saves (R105). -/
def Group.liveMask (g : Group) (l : Launch) (node : Nat) : Nat :=
  let base : Int := ((fld node 64 48 : Int) - (fld l.record 928 48 : Int)) / 12
  (g.run.liveAt.map (fun n => l.liveAt 1 (n + base))).foldl (fun a m => a ||| m)
    (l.liveAt 0 ((g.st.pc : Int) - (fld l.record 848 48 : Int)))

/-- A group whose lane registers outside a mask, and beyond its count, read zero (R105). -/
def Group.keepLive (g : Group) (mask : Nat) : Group :=
  { g with threads := g.threads.map (fun (t : Nat × Thread) =>
      (t.1, { t.2 with v := t.2.v.filter (fun r => bit mask r.1 && decide (r.1 < g.regcnt)) })) }

/-- The groups of the gangs listed as a context save of their launch leaves them (R105) (DEDUCED, log 13). -/
def State.maskAll (s : State) (l : Launch) (gangs : List Nat) : State :=
  { s with groups := s.groups.map (fun (g : Nat × Group) =>
      if gangs.contains (g.1 / 65536) then
        match Tab.find s.gangs (g.1 / 65536) with
        | none => g
        | some ga => (g.1, g.2.keepLive (g.2.liveMask l (nth l.nodes ga.node 0)))
      else g) }

/-! ## Parking (R277, R278, R525, R530) -/

/-- The bytes of park areas in use on any die: control blocks that have been written, as address and size. -/
def State.blocks (s : State) : List (Nat × Nat) :=
  s.insts.filterMap (fun i => i.2.park.bind (fun p => p.block.map (fun b => (b, 192 + p.isize))))

/-- The lowest 256-byte-aligned address of a park area at which a block of a size overlaps none in use (R525). -/
def placeBlock (base area size : Nat) (used : List (Nat × Nat)) : Option Nat :=
  let cands := base :: used.map (fun b => ceilDiv (b.1 + b.2) 256 * 256)
  let ok := fun (a : Nat) => decide (base ≤ a) && decide (a + size ≤ base + area) &&
    used.all (fun b => decide (a + size ≤ b.1) || decide (b.1 + b.2 ≤ a))
  (sortBy (fun a => a) (cands.filter ok)).head?

/-- The header of a control block (Table 9-4), with STATE and RESUME 0. -/
def blockHeader (i : Inst) (p : Park) (isize : Nat) : Nat :=
  i.number + i.node * 2 ^ 32 + p.cause.code * 2 ^ 48 + p.reason * 2 ^ 56 + p.who * 2 ^ 64 + isize * 2 ^ 128 + i.die * 2 ^ 168

/-- The unit that WHO of a parked instance names, none for REASON 7 and 8 (Table 9-4). -/
def State.whoUnit (s : State) (inst who : Nat) : Option Who :=
  match s.gangs.find? (fun g => g.2.inst == inst && whoField g.2.gx g.2.gy g.2.gz 0 == who % 2 ^ 48) with
  | none => none
  | some (n, _) =>
    if who / 2 ^ 48 = 0xFFFF then some (.ctx n)
    else if who / 2 ^ 48 = 0xFFFE then none
    else some (.group (groupKey n (who / 2 ^ 48)))

/-- The sixteen words of a parked instance's fault record (Table 9-2); no unit gives zero marks (R524, R526). -/
def State.parkWords (s : State) (inst : Nat) (p : Park) : Nat :=
  let mark := fun (q : Nat) => if p.reason ≥ 7 then 0 else ((s.whoUnit inst p.who).map (fun u => s.markOf u q)).getD 0
  (upFrom 0 16).foldl (fun x n => x + p.frec.word mark n * 2 ^ (64 * n)) 0

/-- A fault queue entry (Table 9-5). -/
def faultEntry (i : Inst) (p : Park) (block : Nat) : Nat :=
  block + i.number * 2 ^ 64 + p.cause.code * 2 ^ 96 + p.reason * 2 ^ 104 + i.die * 2 ^ 108

/-- Changes the host registers of a die. -/
def modHost (die : Nat) (f : HostRegs → HostRegs) : Act Unit := modDie die (fun d => { d with host := f d.host })

/-- The gangs listed give up their cores, banks and contexts, and empty clusters may lose power (R277, R474). -/
def vacate (gangs : List Nat) : Act Unit := do
  gangs.forM (fun n => modGang n (fun g => { g with placed := false }))
  gangs.forM (fun n => do
    match Tab.find (← now).gangs n with
    | none => pure ()
    | some g => upd (fun s => s.gate g.die g.cluster))

/-- PARK_BLOCK_WRITE: the control block of a stopped instance is written with its image, its resources become free, and its
entry goes to the fault queue, once there is room for both (R277, R278, R525, R530) (DESIGN CHOICE, log 2) (DEDUCED, log 15) (DEDUCED, log 16). -/
def execParkBlockWrite (inst : Nat) (img : List (BitVec 8)) (s : State) : Host.Outcome State Fault Refusal :=
  perform (do
    let s ← now
    let i ← getInst inst
    let p ← need i.park
    let l ← getLaunch i.launch
    let gangs := s.gangsOf inst
    guardA (p.block.isNone && !l.out && s.saveReady gangs)
    let size := if p.reason = 8 then 0 else img.length
    let d ← getDie i.die
    let h := d.host
    guardA (!h.fqwait)
    match placeBlock (fld l.record 448 64) (fld l.record 512 32) (192 + size) s.blocks with
    | none => modHost i.die (fun h => { h with parkfull := true })
    | some a =>
      let slot := h.fqbase + 16 * (h.fqtail % 2 ^ h.fqctl)
      if (h.fqtail + 2 ^ 32 - h.fqhead) % 2 ^ 32 ≥ 2 ^ h.fqctl then modHost i.die (fun h => { h with fqfull := true })
      else if (s.target slot).isNone then modHost i.die (fun h => { h with fqbad := true, fqwait := true })
      else
        upd (fun s => (s.settleAll gangs).maskAll l gangs)
        physWrite i.die a 64 (blockHeader i p size)
        physWrite i.die (a + 64) 128 ((← now).parkWords inst p)
        if p.reason ≠ 8 then physWrite i.die (a + 192) size (ofBytes img)
        physWrite i.die slot 16 (faultEntry i p a)
        modHost i.die (fun h => { h with fqtail := (h.fqtail + 1) % 2 ^ 32 })
        modInst inst (fun i => { i with phase := .parked, park := some { p with block := some a, isize := size } })
        upd (fun s => { s with resvs := s.resvs.map (fun r => if r.inst == inst then { r with held := false } else r) })
        vacate gangs
        notify i.die 2) s

/-! ## Resuming (R263, R279, R524, R526) -/

/-- Whether a RESUME byte names a mode that the parked instance permits (R263, R273, R279). -/
def Park.permits (p : Park) (mode : Nat) : Bool :=
  if 5 ≤ p.reason then mode == 3
  else
    let ctx := p.who / 2 ^ 48 == 0xFFFF
    (mode == 0 && !ctx) || (mode == 1 && decide (p.cause.kind ≤ 1)) ||
      (mode == 2 && (p.cause.code == 0x0C || p.cause.code == 0xF0 || p.cause.code == 0xF1 || p.reason == 3))

/-- The stream of a parked unit resumed in mode again: at XPC, or its held lane run (R273, R279). -/
def Stream.resumeAgain (st : Stream) : Stream :=
  if st.frec.cause.kind = 0 then st.leave st.frec.cause.xpc .none
  else if st.tmode then st.leave st.tpc st.twait
  else { st with held := none, cause := none }

/-- The stream of a parked unit resumed in mode next: after the word at XPC, or after the SUSP it stands at (R273, R276) (DEDUCED, log 17). -/
def Stream.resumeNext (st : Stream) (susp : Bool) : Stream :=
  if susp then { st.jump (addr64 st.pc 4) with held := none } else st.leave (addr64 st.frec.cause.xpc 4) .none

/-- A queue restarted at its halted entry, from its first sector; an MMA keeps the banks it has taken (R263, R280). -/
def Queue.restart (x : Queue) : Queue :=
  { x with
    halt := none
    ents := match x.ents with
      | [] => []
      | e :: t => { e with
        started := false, pos := 0, wrote := 0, status := 0, buf := [], merge := []
        reads := (match e.op with | .mma _ _ _ _ _ => e.reads | _ => []) } :: t }

/-- The faulting unit of a parked instance goes on in a mode (R263, R279). A SUSP that completes so is followed by a
single-step cause (R286). -/
def resumeUnit (p : Park) (mode : Nat) (u : Who) : Act Unit := do
  let pc := (((← now).stream u).map (fun st => st.pc)).getD 0
  (match u with
  | .group k =>
    modGroup k (fun g =>
      if mode = 0 then g.replay
      else if mode = 1 then { g with st := g.st.resumeAgain }
      else if mode = 2 then { g with st := g.st.resumeNext (p.reason == 3) }
      else { g with queues := Tab.set g.queues p.cause.qbit (g.queue p.cause.qbit).restart })
  | .ctx n =>
    modCtx n (fun c =>
      if mode = 1 then { c with st := c.st.resumeAgain }
      else if mode = 2 then { c with st := c.st.resumeNext (p.reason == 3) }
      else { c with queue := c.queue.restart, st := { c.st with cause := none } }))
  if mode = 2 ∧ p.reason = 3 then upd (fun s => s.steppedOn u pc)

/-- Writes STATE in a control block (Table 9-4). -/
def blockState (die block v : Nat) : Act Unit := physWrite die (block + 22) 1 v

/-- A command completes: BUSY clears and the host hears of it (R529). -/
def commandDone (die : Nat) : Act Unit := do
  modHost die (fun h => { h with hcmd := none })
  notify die 3

/-- A command that names nothing it can act on (R529). -/
def commandBad (die : Nat) : Act Unit := do
  modHost die (fun h => { h with cmdbad := true })
  commandDone die

/-- The exited groups of an instance with a queue still halted: their causes park it again (R277, R280). -/
def retakeExited (inst : Nat) : List (Nat × Group) → Act Unit
  | [] => pure ()
  | (k, g) :: t => do
    if g.exited && (← now).instOf (.group k) == inst then
      match lowestCause (g.queues.filterMap (fun q => q.2.halt)) with
      | none => pure ()
      | some c => exitedHalt k c
    retakeExited inst t

/-- The ended contexts of an instance whose queue is still halted: their causes park it again (R263, R277). -/
def retakeEnded (inst : Nat) : List (Nat × Ctx) → Act Unit
  | [] => pure ()
  | (n, c) :: t => do
    if c.st.ended && (← now).instOf (.ctx n) == inst then
      match c.queue.halt with
      | none => pure ()
      | some h => upd (fun s => s.park inst 6 h (s.whoWord (.ctx n)) ⟨true, h, 0, 0, [], 0⟩)
    retakeEnded inst t

/-- An instance all of whose gangs have their places again resumes in the mode its RESUME named (R279). -/
def finishResume (inst : Nat) : Act Unit := do
  let s ← now
  let i ← getInst inst
  match i.park with
  | none => pure ()
  | some p =>
    match p.resuming, p.block with
    | some mode, some b =>
      let gangs := s.gangsOf inst
      if gangs.all (fun n => ((Tab.find s.gangs n).map (fun g => g.placed)).getD true) then
        match s.whoUnit inst p.who with
        | none => pure ()
        | some u => if p.reason ≤ 6 then resumeUnit p mode u
        modInst inst (fun i => { i with phase := .running, park := none })
        upd (fun s => s.setStopped gangs false)
        upd (fun s => { s with slots := s.slots.map (fun (x : Nat × Slot) =>
          if gangs.contains x.2.owner then (x.1, { x.2 with failed := false }) else x) })
        blockState i.die b 2
        commandDone i.die
        let s2 ← now
        retakeExited inst s2.groups
        retakeEnded inst s2.ctxs
    | _, _ => pure ()

/-- GANG_ADMISSION: a gang reserves its window on a cluster, or its held reservation commits and the gang starts; the last
gang of a parked instance to take its place lets the instance resume (R50, R279). -/
def execGangAdmission (inst x y z cl : Nat) (commit : Bool) (s : State) : Host.Outcome State Fault Refusal :=
  perform (do
    if commit then
      guardA (((← now).resvOf inst x y z).map (fun r => r.cluster) == some cl)
      commitGang inst x y z
      finishResume inst
    else reserve inst x y z (some cl)) s

/-- HANDLE of a dropped grid becomes 0 (R342). -/
def dropHandle (key : Nat) : Act Unit := do
  let s ← now
  discard (atomicVA (s.slotPort key) (hdPatch (s.gridHead key)) 8 (fun _ => 0))

/-- The grids of an aborted instance whose spill had met a cause are dropped, as for a full spill area (R342, R524). -/
def dropFailed (gangs : List Nat) : List (Nat × Slot) → Act Unit
  | [] => pure ()
  | (key, sl) :: t => do
    if gangs.contains sl.owner && sl.failed then
      dropHandle key
      freeSlot key
    dropFailed gangs t

/-- The gangs of an aborted instance have nothing left to run. Their weight stays where it lies: in the groups, in entries of B
queues, in lane runs and in records handed off (R279, R493, R498) (DEDUCED, log 19). -/
def State.abandon (s : State) (gangs : List Nat) : State :=
  { s with
    groups := s.groups.map (fun (g : Nat × Group) =>
      if gangs.contains (g.1 / 65536) then
        (g.1, { g.2 with
          exited := true, queues := g.2.queues.filter (fun q => q.1 == 9)
          st := { g.2.st with ended := true, stopped := true, due := [], held := none } })
      else g)
    ctxs := s.ctxs.filter (fun c => !gangs.contains c.1)
    gangs := s.gangs.map (fun (g : Nat × Gang) => if gangs.contains g.1 then (g.1, { g.2 with retired := true }) else g) }

/-- The instance that a die parked with its control block at an address, and that is still parked. -/
def State.parkedAt (s : State) (die block : Nat) : Option (Nat × Inst) :=
  s.insts.find? (fun i => i.2.die == die && i.2.phase == .parked &&
    (match i.2.park with
      | some p => p.block == some block && p.resuming.isNone
      | none => false))

/-- RESUME (R279, R529): the host resumes the instance of a control block in the mode its RESUME byte names, or aborts it.
The command completes when the instance has its places again (DEDUCED, log 18). -/
def execResumeCmd (die : Nat) (s : State) : Host.Outcome State Fault Refusal :=
  perform (do
    let d ← getDie die
    match d.host.hcmd with
    | some (1, arg) =>
      let b := fld arg 0 40 * 256
      guardA (!(← now).insts.any (fun i => i.2.die == die &&
        (match i.2.park with | some p => p.resuming.isSome | none => false)))
      match (← now).parkedAt die b with
      | none => commandBad die
      | some (key, i) =>
        let p ← need i.park
        let mode ← physRead die (b + 20) 1
        if mode = 0xFF then
          let gangs := (← now).gangsOf key
          modInst key (fun i => { i with phase := .aborted, park := none, unstarted := [] })
          dropFailed gangs (← now).slots
          upd (fun s => s.abandon gangs)
          blockState die b 3
          commandDone die
        else if p.permits mode then
          let l ← getLaunch i.launch
          guardA (l.state == 1 && !l.out && !l.stopping)
          blockState die b 1
          modInst key (fun i => { i with park := some { p with resuming := some mode } })
          finishResume key
        else commandBad die
    | _ => stall) s

/-! ## Pre-emption (R68, R282, R283, R363) -/

/-- The gangs of a launch that have started and not retired. -/
def State.gangsIn (s : State) (launch : Nat) : List Nat :=
  (s.gangs.filter (fun g => g.2.launch == launch && !g.2.retired)).map (fun g => g.1)

/-- A switch of a launch is requested: its streams stop (R282, R473). -/
def requestSwitch (n : Nat) : Act Unit := do
  modLaunch n (fun l => { l with stopping := true })
  upd (fun s => s.setStopped (s.gangsIn n) true)

/-- The dies whose command in progress is a SWITCH of a launch. -/
def State.switchers (s : State) (l : Launch) : List Nat :=
  (s.dies.filter (fun d => (match d.2.host.hcmd with | some (3, arg) => fld arg 0 32 == l.index | _ => false) &&
    (Tab.find l.dies d.1).isSome)).map (fun d => d.1)

/-- The partitions of a launch become free on every die. -/
def State.freeParts (s : State) (launch : Nat) : State :=
  { s with dies := s.dies.map (fun (d : Nat × Die) => (d.1, { d.2 with parts := d.2.parts.filter (fun p => !(p.2 == launch)) })) }

/-- Empty clusters of the dies of a launch may lose power (R474). -/
def State.gateAll (s : State) (dies : Tab (List Nat)) : State :=
  dies.foldl (fun s d => (d.2.flatMap (fun p => upFrom (4 * p) 4)).foldl (fun s c => s.gate d.1 c) s) s

/-- PREEMPTION: every partition of a launch whose streams have stopped and whose work has drained is switched out (R65,
R282). Lane registers outside the live masks are lost; time out of the partition counts for no back-off (R68, R105). -/
def execPreemption (n : Nat) (s : State) : Host.Outcome State Fault Refusal :=
  perform (do
    let s ← now
    let l ← getLaunch n
    let gangs := s.gangsIn n
    guardA (l.state == 1 && l.stopping && !l.out && s.saveReady gangs)
    upd (fun s => (s.settleAll gangs).maskAll l gangs)
    modLaunch n (fun l => { l with out := true, stopping := false })
    upd (fun s => { s with resvs := s.resvs.map (fun r =>
      if r.inst / 2 ^ 32 = n then { r with retryAt := r.retryAt - (s.die r.die).clk } else r) })
    upd (fun s => (s.freeParts n).gateAll l.dies)
    (s.switchers l).forM commandDone) s

/-- Whether a choice of partitions serves a launch that is out: for each die of its set, PARTS distinct free ones. -/
def State.partsOk (s : State) (l : Launch) (parts : Tab (List Nat)) : Bool :=
  parts.map (fun p => p.1) == l.dieSet &&
    parts.all (fun p => p.2.length == fld l.record 747 3 && p.2.eraseDups == p.2 &&
      p.2.all (fun x => decide (x < 4) && (Tab.find (s.die p.1).parts x).isNone))

/-- The cluster with the same VCL in a launch's new partitions (R68, R339). -/
def State.newCluster (s : State) (n : Nat) (parts : Tab (List Nat)) (die cluster : Nat) : Nat :=
  let v := s.vcl n die cluster
  nth (sortBy (fun p => p) (Tab.getD parts die [])) (v / 4) 0 * 4 + v % 4

/-- The instances of a launch that are not being parked, as their gangs: these run when the partitions are in again. -/
def State.runnable (s : State) (n : Nat) : List Nat :=
  (s.gangsIn n).filter (fun k => match Tab.find s.gangs k with
    | none => false
    | some g => ((Tab.find s.insts g.inst).map (fun i => i.park.isNone && !(i.phase == .aborted))).getD false)

/-- A launch's partitions with power where gangs or slots are (R474). -/
def State.powerAll (s : State) (n die : Nat) : State :=
  let used := (s.gangs.filter (fun g => g.2.launch == n && g.2.die == die && g.2.placed)).map (fun g => g.2.cluster) ++
    (s.slots.filter (fun x => x.1 / 8192 == n && x.1 / 2048 % 4 == die && !(x.2.state == .free))).filterMap
      (fun x => s.clusterOf n die (x.1 / 128 % 16))
  match Tab.find s.dies die with
  | none => s
  | some d =>
    (s.setDie die { d with
        clusters := used.foldl (fun t c => Tab.alter t c .off (fun c => { c with powered := true })) d.clusters })

/-- PARTITION_RESUME: a launch that is out takes free partitions on every die of its set, and its groups resume in their
waits; each cluster's state goes to the cluster of the same VCL (R68, R283, R285, R363) (DEDUCED, log 26). -/
def execPartitionResume (n : Nat) (parts : List (Nat × List Nat)) (s : State) : Host.Outcome State Fault Refusal :=
  perform (do
    let s ← now
    let l ← getLaunch n
    guardA (l.state == 1 && l.out && s.partsOk l parts)
    let move := fun (die c : Nat) => s.newCluster n parts die c
    upd (fun s => { s with
      gangs := s.gangs.map (fun (g : Nat × Gang) =>
        if g.2.launch = n ∧ !g.2.retired then (g.1, { g.2 with cluster := move g.2.die g.2.cluster }) else g)
      resvs := s.resvs.map (fun r =>
        if r.inst / 2 ^ 32 = n then { r with cluster := move r.die r.cluster, retryAt := r.retryAt + (s.die r.die).clk } else r)
      dies := s.dies.map (fun (d : Nat × Die) =>
        (d.1, { d.2 with parts := (Tab.getD parts d.1 []).foldl (fun t p => Tab.set t p n) d.2.parts })) })
    modLaunch n (fun l => { l with out := false, dies := parts, since := (s.die l.home).clk })
    upd (fun s => parts.foldl (fun s d => s.powerAll n d.1) s)
    (← now).gangs.forM (fun g => do
      if g.2.launch = n ∧ g.2.placed then
        upd (fun s => s.dropCores g.2.die g.2.cluster g.2.core0 g.2.cores)
        meterFrom g.2.inst g.2.die g.2.cluster)
    upd (fun s => s.setStopped (s.runnable n) false)) s

/-- Whether a launch is on a die: one of its set, or the die that launched it while it waits to start. -/
def Launch.onDie (l : Launch) (die : Nat) : Bool :=
  (l.state == 1 && (Tab.find l.dies die).isSome) || (l.state == 0 && l.home == die)

/-- SWITCH: the host asks that a launch be switched out; the command completes when it is (R282, R529) (DEDUCED, log 21). -/
def execSwitchCmd (die : Nat) (s : State) : Host.Outcome State Fault Refusal :=
  perform (do
    let d ← getDie die
    match d.host.hcmd with
    | some (3, arg) =>
      match (← now).launches.find? (fun l => l.2.index == fld arg 0 32 && l.2.onDie die) with
      | none => commandBad die
      | some (n, l) =>
        if l.state = 0 ∨ l.out then commandDone die
        else
          guardA (!l.stopping)
          requestSwitch n
    | _ => stall) s

end Sys2Proof.Machine
end

