-- ==== Sys2Proof/Machine/Launches.lean ====
section
/-! DEFINITION. Launches: reading and checking launch records, start and end, dispatch against the energy account, retire,
step boundaries with migration, and the host's abort and withdrawal (R36 to R41, R54 to R56, R104 to R106, R466 to R478,
R517 to R519, R526). -/

set_option linter.unusedVariables false

namespace Sys2Proof.Machine

open Sys2Proof

/-! ## Validity of a launch record (R38, R106, R466, R519) -/

/-- Whether a node record is valid in a launch with so many regions (Table 2-3, R106). -/
def launchNodeOk (l n nreg : Nat) : Bool :=
  let entry := fld n 0 48
  let lcode := fld n 64 48
  let ccode := fld n 128 48
  let regs := nodeRegs n
  let lcbase := fld l 928 48
  let lcsize := fld l 976 32
  let scbase := fld l 848 48
  let slots := (upFrom 0 12).map (slotOf n)
  let reserved := fld n 48 16 + fld n 112 16 + fld n 176 16 + fld n 254 2 + fld n 263 1 + fld n 302 18 +
    (slots.map (fun x => fld x 18 14)).foldl (fun a b => a + b) 0
  decide (reserved = 0) && slots.all (fun x => !(slotMap x == 3)) &&
    slots.all (fun x => match slotRegion x with | none => true | some r => decide (r < nreg)) &&
    decide (0 < fld n 192 16) && decide (0 < fld n 208 16) && decide (0 < fld n 224 16) &&
    decide (1 ≤ nodeCores n) && decide (nodeCores n ≤ 8) &&
    decide (regs % 8 = 0) && decide (8 ≤ regs) && decide (regs ≤ 64) &&
    decide (nodeGpc n ≤ 64 * min 4 (2048 / (32 * regs))) && decide (nodeScratch n ≤ 1536) &&
    decide (ceilDiv (256 * nodeScratch n + 16 * nodeBars n) 8192 + nodeFifos n ≤ 48) &&
    (nodeMatrix n == !(ccode == 0)) &&
    decide (entry % 4 = 0) && decide (lcode % 16 = 0) && decide (ccode % 4 = 0) &&
    decide (scbase ≤ entry) && decide (entry + 4 ≤ scbase + fld l 896 32) &&
    (if lcsize = 0 then lcode == lcbase
     else decide (lcbase ≤ lcode) && decide ((lcode - lcbase) % 12 = 0) && decide (lcode - lcbase < lcsize))

/-- Whether a region table entry is valid (Table 18-1). -/
def regionOk (r : Nat) : Bool :=
  decide (0 < regionTx r) && decide (0 < regionTy r) && decide (0 < regionNpub r) && decide (fld r 48 16 = 0) &&
    decide (fld r 112 144 = 0) && decide (regionCnt r % 4 = 0)

/-- Whether a safe-point table is in order, with offsets inside the scalar section (R104, R106). -/
def safeOk (size : Nat) : List Nat → Bool
  | [] => true
  | e :: t => decide (fld e 32 32 = 0) && decide (fld e 0 32 < size) &&
    (match t with | [] => true | x :: _ => decide (fld e 0 32 < fld x 0 32)) && safeOk size t

/-- Whether a live-mask table is in order, with offsets inside their sections (R104, R106). -/
def liveOk (scsize lcsize : Nat) : List Nat → Bool
  | [] => true
  | e :: t => decide (fld e 33 31 = 0) &&
    (if fld e 32 1 = 0 then decide (fld e 0 32 < scsize) else decide (12 * fld e 0 32 < lcsize)) &&
    (match t with | [] => true | x :: _ => decide (fld e 0 33 < fld x 0 33)) && liveOk scsize lcsize t

/-- Whether a park area lies within the range of one target (R519, R525). -/
def State.areaOk (s : State) (base size : Nat) : Bool :=
  decide (size = 0) ||
    (match s.target base, s.target (base + size - 1) with
      | some (.gddr a), some (.gddr b) => a == b
      | some .host, some .host => true
      | some (.scratch a _), some (.scratch b _) => a == b
      | some (.device a _), some (.device b _) => a == b
      | _, _ => false)

/-- What a launch record shows of itself alone: reserved fields, counts, die set and alignments (R36, R519) (DEDUCED, log 22). -/
def State.recordOk (s : State) (r : Nat) : Bool :=
  let dmin := fld r 736 3
  let dmax := fld r 739 3
  let dset := bitsOf 4 (fld r 750 4)
  decide (fld r 754 14 = 0) && decide (fld r 800 32 = 0) && decide (fld r 1008 16 = 0) &&
    decide (1 ≤ dmin) && decide (dmin ≤ dmax) && decide (dmax ≤ 4) && (decide (dmin ≤ 1) || !(s.form == 0)) &&
    !dset.isEmpty && dset.all s.hasDie && decide (dmin ≤ dset.length) &&
    decide (1 ≤ fld r 747 3) && decide (fld r 747 3 ≤ 4) && decide (fld r 976 32 % 12 = 0) && decide (1 ≤ fld r 64 32) &&
    decide (fld r 64 32 ≤ 65535) &&
    decide (fld r 0 64 % 32 = 0) && decide (fld r 928 48 % 16 = 0) && decide (fld r 448 64 % 256 = 0) &&
    s.areaOk (fld r 448 64) (fld r 512 32)

/-- Whether every page of [va, va + n) is normal and gives an access. -/
def normalPages (p : Port) (need : Need) : Nat → Nat → Nat → Act Bool
  | 0, _, _ => pure true
  | k + 1, va, n => do
    if n = 0 then return true
    let here := min n (4096 - va % 4096)
    match ← locate p va need with
    | .error _ => return false
    | .ok pl => if pl.ty = 0 then normalPages p need k (va + here) (n - here) else return false

/-- The entries of a table of a launch, as many as it names of a size, none when its pages do not give the reads (R519). -/
def launchTable (p : Port) (va size : Nat) : Nat → Nat → Act (Option (List Nat))
  | 0, _ => pure (some [])
  | n + 1, i => do
    let a := va + i * size
    if !(← normalPages p .read (size / 4096 + 2) a size) then return none
    match ← readRange p fresh a size with
    | .error _ => return none
    | .ok x => return (← launchTable p va size n (i + 1)).map (fun t => x :: t)

/-- Whether the counter arrays of the regions that nodes name give their atomics (R466). -/
def countersOk (p : Port) (regions : List Nat) : List Nat → Act Bool
  | [] => pure true
  | r :: t => do
    let x := nth regions r 0
    let n := 4 * regionTiles x
    if ← normalPages p .atomic (n / 4096 + 2) (regionCnt x) n then countersOk p regions t else return false

/-- The checks of a launch record by the die that reads it: the launch, or none where it is refused (R519). -/
def readLaunch (die index addr r : Nat) : Act (Option Launch) := do
  let s ← now
  if !s.recordOk r then return none
  let p : Port := { diePort die with root := fld r 192 48 }
  let nreg := fld r 96 32
  match ← launchTable p (fld r 128 64) 32 nreg 0 with
  | none => return none
  | some regions =>
    match ← launchTable p (fld r 0 64) 96 (fld r 64 32) 0 with
    | none => return none
    | some nodes =>
      match ← launchTable p (fld r 544 64) 8 (fld r 608 32) 0 with
      | none => return none
      | some safe =>
        match ← launchTable p (fld r 640 64) 16 (fld r 704 32) 0 with
        | none => return none
        | some live =>
          let named := (nodes.flatMap (fun n => (upFrom 0 12).filterMap (fun i => slotRegion (slotOf n i)))).eraseDups
          if regions.all regionOk && nodes.all (fun n => launchNodeOk r n nreg) && safeOk (fld r 896 32) safe &&
              liveOk (fld r 896 32) (fld r 976 32) live then
            if ← countersOk p regions named then
              return some {
                record := r, index := index, addr := addr, home := die, state := 0, nodes := nodes, regions := regions
                safe := safe.map (fun e => fld e 0 32), live := live, dies := [], out := false, stopping := false, since := 0
                withdraw := [], tethers := [], carillons := [] }
            else return none
          else return none

/-- Writes STATE and CODE of a launch record, and tells the host (R518). -/
def writeState (die addr st code : Nat) : Act Unit := do
  physWrite die (addr + 104) 2 (st + code * 2 ^ 8)
  notify die 1

/-- LAUNCH_RECORD: a die reads the next record of its ring; the lowest die of DSET launches it or refuses it, any other
skips it (R517, R519). -/
def execLaunchRecord (die : Nat) (s : State) : Host.Outcome State Fault Refusal :=
  perform (do
    let d ← getDie die
    let h := d.host
    guardA (d.boot.bootsts == 1 && !(h.lqhead == h.lqtail))
    let addr := h.lqbase + 128 * (h.lqhead % 2 ^ h.lqctl)
    let r ← physRead die addr 128
    modHost die (fun h => { h with lqhead := (h.lqhead + 1) % 2 ^ 32 })
    match bitsOf 4 (fld r 750 4) with
    | [] => writeState die addr 3 0xB0
    | first :: _ =>
      if first = die then
        match ← readLaunch die h.lqhead addr r with
        | none => writeState die addr 3 0xB0
        | some l =>
          let n := (← now).nextLaunch
          putLaunch n l
          upd (fun s => { s with nextLaunch := n + 1 })) s

/-! ## End (R492, R519) -/

/-- The roots a launch created become FREE, and parts for them on every die are discarded (R492). -/
def State.freeRoots (s : State) (n : Nat) : State :=
  let mine := fun (root : Nat) => ((s.root root).map (fun r => r.launch == n)).getD false
  { s with dies := s.dies.map (fun (d : Nat × Die) => (d.1, { d.2 with
      roots := d.2.roots.map (fun (r : Nat × Root) => if r.2.launch = n then (r.1, { r.2 with live := false, waiters := [] }) else r)
      accums := d.2.accums.filter (fun a => !mine a.root) })) }

/-- A launch ends in a state: STATE is written, its roots become FREE, and its partitions and slots are free (R492, R519). -/
def endLaunch (n st : Nat) : Act Unit := do
  let l ← getLaunch n
  writeState l.home l.addr st 0
  upd (fun s => ((s.leaveGens n).freeRoots n).freeParts n)
  upd (fun s => { s with
    slots := s.slots.filter (fun x => !(x.1 / 8192 == n))
    resvs := s.resvs.filter (fun r => !(r.inst / 2 ^ 32 == n)) })
  putLaunch n { l with state := st, dies := [], tethers := [], carillons := [], stopping := false, out := false, withdraw := [] }
  upd (fun s => s.gateAll l.dies)

/-- A running launch whose every instance has retired ends (R519). -/
def endCheck (n : Nat) : Act Unit := do
  let s ← now
  let l ← getLaunch n
  if l.state = 1 ∧ s.insts.all (fun i => !(i.2.launch == n) || i.2.phase == .retired) then endLaunch n 2

/-! ## Start (R39, R471, R478) -/

/-- The free partitions of a die, ascending. -/
def Die.freeParts (d : Die) : List Nat := (upFrom 0 4).filter (fun p => (Tab.find d.parts p).isNone)

/-- The dies that are free for a launch, ascending, each with the partitions it would take (R478, R521). -/
def State.freeDies (s : State) (l : Launch) : Tab (List Nat) :=
  let parts := fld l.record 747 3
  (bitsOf 4 (fld l.record 750 4)).filterMap (fun d =>
    let x := s.die d
    if s.hasDie d && x.boot.bootsts == 1 && decide (parts ≤ x.freeParts.length) then some (d, x.freeParts.take parts) else none)

/-- A launch takes the partitions given. -/
def State.takeParts (s : State) (n : Nat) (ds : Tab (List Nat)) : State :=
  { s with dies := s.dies.map (fun (d : Nat × Die) =>
      (d.1, { d.2 with parts := (Tab.getD ds d.1 []).foldl (fun t p => Tab.set t p n) d.2.parts })) }

/-- The initial instances of a node from an index on (R39, R471). -/
def startInsts (n node : Nat) (dies : List Nat) : Nat → Nat → Act Unit
  | 0, _ => pure ()
  | k + 1, i => do
    discard (createInst n node i 0 (nth dies (i % dies.length) 0) 0 false)
    startInsts n node dies k (i + 1)

/-- The initial instances of nodes in order. -/
def startNodes (n : Nat) (dies : List Nat) : List Nat → Nat → Act Unit
  | [], _ => pure ()
  | r :: t, node => do
    startInsts n node dies (fld r 352 32) 0
    startNodes n dies t (node + 1)

/-- LAUNCH_START: a pending launch takes its dies and partitions at the first moment enough are free, and its initial
instances are created (R39, R471, R478). -/
def execLaunchStart (n : Nat) (s : State) : Host.Outcome State Fault Refusal :=
  perform (do
    let s ← now
    let l ← getLaunch n
    let free := s.freeDies l
    guardA (l.state == 0 && decide (fld l.record 736 3 ≤ free.length))
    let ds := free.take (fld l.record 739 3)
    upd (fun s => s.takeParts n ds)
    putLaunch n { l with
      state := 1, dies := ds, since := (s.die l.home).clk
      tethers := ds.map (fun d => (d.1, Tether.fresh (s.die d.1).clk)) }
    writeState l.home l.addr 1 0
    startNodes n (ds.map (fun d => d.1)) l.nodes 0
    endCheck n) s

/-! ## Dispatch (R472, R473, R476) -/

/-- Whether a launch is outranked on a die by another: its priority is above that of every holder, and no partition is free
(R473). -/
def State.outranks (s : State) (l : Launch) (die : Nat) : Bool :=
  (s.die die).freeParts.isEmpty &&
    (s.die die).parts.all (fun p => decide (fld (s.launchRec p.2) 743 4 < fld l.record 743 4))

/-- The lowest-ranked launch that holds partitions of a die (R473). -/
def State.lowestRanked (s : State) (die : Nat) : Option Nat :=
  (sortBy (fun n => fld (s.launchRec n) 743 4) (((s.die die).parts.map (fun p => p.2)).eraseDups)).head?

/-- Whether the energy account admits an instance that needs x (R476). -/
def State.admits (s : State) (i : Inst) (prio x : Nat) : Bool :=
  let e := (s.die i.die).energy
  !e.en || decide (56 ≤ prio) || decide ((x : Int) ≤ e.bal) ||
    (decide (e.budgetNow < x) && decide (e.bal = (e.budgetNow : Int)) &&
      !s.insts.any (fun j => j.2.launch == i.launch && j.2.die == i.die && !j.2.bucket &&
        (j.2.phase == .running || !(s.gangsOf j.1).isEmpty)))

/-- DISPATCH_INSTANCE: the first ready instance of a die that is not admitted yet passes energy admission and debits the
account; one of a launch that is out may have the lowest-ranked launch switched (R472, R473, R476, R523). -/
def execDispatchInstance (die key : Nat) (s : State) : Host.Outcome State Fault Refusal :=
  perform (do
    let s ← now
    let d ← getDie die
    let i ← getInst key
    let l ← getLaunch i.launch
    guardA (i.die == die && i.readyAt.isSome && (l.out || !i.admitted) && i.park.isNone && l.state == 1)
    if l.out then
      guardA (s.outranks l die)
      let n ← need (s.lowestRanked die)
      guardA (s.placing n)
      requestSwitch n
    else
      let waiting := s.insts.filter (fun j => j.2.die == die && j.2.readyAt.isSome && !j.2.admitted && s.placing j.2.launch)
      guardA (s.placing i.launch && !waiting.any (fun j => s.dispatchBefore j (key, i)) && !d.powerHold && !d.thermalHold)
      let x ← (do
        match ← readHome (s.schedPort i.launch die) (s.estimateAt i.launch i.node) 4 with
        | .ok v => return v
        | .error _ => openBytes 4 : Act Nat)
      guardA (s.admits i (nodePrio (s.instNode key)) x)
      modDie die (fun d => { d with energy := { d.energy with bal := d.energy.bal - x } })
      modInst key (fun i => { i with admitted := true, debit := x })) s

/-- TIME_SLICE_EXPIRY: a launch that has run its SLICE may be switched for one of equal priority that is out and has ready
instances on a die of its (R473, Table 20-8). -/
def execTimeSliceExpiry (n : Nat) (s : State) : Host.Outcome State Fault Refusal :=
  perform (do
    let s ← now
    let l ← getLaunch n
    let slice := fld l.record 768 32
    let rival := fun (x : Nat × Launch) => x.2.state == 1 && x.2.out && fld x.2.record 743 4 == fld l.record 743 4 &&
      s.insts.any (fun i => i.2.launch == x.1 && i.2.readyAt.isSome && (Tab.find l.dies i.2.die).isSome)
    guardA (s.placing n && !(slice == 0) && decide (slice * 1500 ≤ ((s.die l.home).clk + 2 ^ 64 - l.since) % 2 ^ 64) &&
      s.launches.any rival)
    requestSwitch n) s

/-! ## Retire (R22, R41, R468, R475, R476, R526) -/

/-- GANG_RETIRE: a gang whose groups, context and entries are done releases or spills its slots, and when none is left
gives up its resources (R22, R213, R305, R363). -/
def execGangRetire (n : Nat) (s : State) : Host.Outcome State Fault Refusal :=
  perform (do
    let s ← now
    let g ← getGang n
    guardA (!g.retired && g.placed && s.instGoes g.inst && s.gangDone n && !s.contHeld n g && g.handoffs.isEmpty)
    endHolds n
    retireSlots (s.ownedBy n)
    if ((← now).ownedBy n).isEmpty then
      modGang n (fun g => { g with placed := false, retired := true })
      upd (fun s => s.gate g.die g.cluster)) s

/-- ESTIMATE after a retire that measured e (R476). -/
def newEstimate (old e : Nat) : Nat := (satN 32 ((old : Int) + ((e : Int) - old) / 8)).toNat

/-- The energy account and the node's ESTIMATE after an instance's retire (R475, R476). -/
def settleEnergy (i : Inst) (e : Nat) : Act Unit := do
  modDie i.die (fun d => { d with energy := { d.energy with bal := d.energy.bal + i.debit - e } })
  let s ← now
  let p := s.schedPort i.launch i.die
  match ← locate p (s.estimateAt i.launch i.node) .atomic with
  | .error _ => pure ()
  | .ok pl => discard (rmwPlace p pl 4 (fun old => newEstimate old e))

/-- The measured energy of an instance: over the clusters it occupied, the energy metered since it came, in proportion to the
core-clk it held there, in whole nJ (R475) (DEDUCED, log 86). -/
def State.energyOf (s : State) (i : Inst) : Nat :=
  (i.shares.map (fun (x : Nat × Nat × Nat × Nat) =>
    let c := Tab.getD (s.die (x.1 / 16)).clusters (x.1 % 16) .off
    if c.held - x.2.2.1 = 0 then 0 else (c.meter - x.2.1) * x.2.2.2 / (c.held - x.2.2.1))).foldl (fun a b => a + b) 0

/-- INSTANCE_RETIRE: an instance whose gangs have retired publishes its other tiles, returns its weight and settles its
energy, or parks with REASON 8; the last one ends the launch (R41, R468, R475, R476, R519, R526). -/
def execInstanceRetire (launch number : Nat) (s : State) : Host.Outcome State Fault Refusal :=
  perform (do
    let key := instKey launch number
    let s ← now
    let i ← getInst key
    guardA (i.phase == .running && !i.bucket && i.park.isNone && i.unstarted.isEmpty && (s.gangsOf key).isEmpty &&
      s.placing i.launch)
    match ← publishRest (s.schedPort i.launch i.die) key with
    | some (c, va) =>
      let cause : Cause := { Cause.zero with code := c, addr := va }
      upd (fun s => s.park key 8 cause (2 ^ 64 - 1) ⟨true, cause, 0, 0, [], 0⟩)
    | none =>
      settleEnergy i ((← now).energyOf i)
      returnWeight i.die i.wgt.toNat
      modInst key (fun i => { i with phase := .retired, wgt := 0 })
      endCheck i.launch) s

/-! ## Step boundaries and migration (R54 to R56, R478) -/

/-- Whether a group waits at its STEPB. -/
def Group.atStep (g : Group) : Bool := !g.exited && (match g.st.wait with | .stepb none => true | _ => false)

/-- The groups of a launch, by key. -/
def State.groupsIn (s : State) (n : Nat) : List (Nat × Group) := s.groups.filter (fun g => s.launchOf g.1 == n)

/-- The gangs of a launch on a die that have started and not retired. -/
def State.gangsAt (s : State) (n die : Nat) : List (Nat × Gang) :=
  s.gangs.filter (fun g => g.2.launch == n && g.2.die == die && !g.2.retired)

/-- Whether a gang waits where it may migrate: every group has exited or stands at a STEPB of the safe-point table, and its
instance is not parked (R56). -/
def State.movable (s : State) (l : Launch) (n : Nat) (g : Gang) : Bool :=
  ((Tab.find s.insts g.inst).map (fun i => i.park.isNone)).getD false && g.placed &&
    s.groups.all (fun x => !(x.1 / 65536 == n) || x.2.exited ||
      (x.2.atStep && l.safe.any (fun o => decide (fld l.record 848 48 + o = x.2.st.pc))))

/-- Whether every entry of the queues of the gangs given has performed (R56). -/
def State.idleGangs (s : State) (gangs : List Nat) : Bool :=
  s.groups.all (fun x => !gangs.contains (x.1 / 65536) || x.2.queues.all (fun q => q.2.ents.isEmpty)) &&
    s.ctxs.all (fun c => !gangs.contains c.1 || c.2.queue.ents.isEmpty)

/-- Grid slots of a launch in use on a die. -/
def State.slotsAt (s : State) (n die : Nat) : List (Nat × Slot) :=
  s.slots.filter (fun x => x.1 / 8192 == n && x.1 / 2048 % 4 == die && !(x.2.state == .free))

/-- A gang moves to a window of another die with its state; its groups keep the registers their safe point names (R56). -/
def moveGang (l : Launch) (n : Nat) (g : Gang) (die cl core0 : Nat) : Act Unit := do
  let node := nth l.nodes g.node 0
  upd (fun s => s.maskAll l [n])
  putGang n { g with die := die }
  placeAgain n { g with die := die } node cl core0
  modDie die (fun d => { d with clusters := Tab.alter d.clusters cl .off (fun c => { c with powered := true }) })

/-- Moves gangs to a die one after another; false when one finds no window. -/
def moveGangs (l : Launch) (die : Nat) : List (Nat × Gang) → Act Bool
  | [] => pure true
  | (n, g) :: t => do
    match (← now).placeFor l (nth l.nodes g.node 0) die with
    | none => return false
    | some (cl, w) =>
      moveGang l n g die cl w
      moveGangs l die t

/-- An instance's gangs move together to the first of the dies given that takes them all (R39, R56). -/
def moveInst (l : Launch) (key : Nat) (gs : List (Nat × Gang)) : List Nat → Act Bool
  | [] => pure false
  | d :: ds => do
    let before ← get
    if ← moveGangs l d gs then
      modInst key (fun i => { i with die := d })
      return true
    else
      set before
      moveInst l key gs ds

/-- The instances with gangs on a die move; false when one cannot. -/
def moveInsts (l : Launch) (gs : List (Nat × Gang)) (rest : List Nat) : List Nat → Act Bool
  | [] => pure true
  | key :: t => do
    if ← moveInst l key (gs.filter (fun g => g.2.inst == key)) rest then moveInsts l gs rest t else return false

/-- The instances of a withdrawn die's pool go to the remaining dies in turn, ascending; those in its deque, and those a
group has adopted, go with their holder (R56, R478). -/
def spreadPool (n die : Nat) (rest : List Nat) : List (Nat × Inst) → Nat → Act Unit
  | [], _ => pure ()
  | (k, i) :: t, j => do
    if i.launch = n ∧ i.die = die ∧ i.phase ≠ .retired ∧ i.phase ≠ .aborted then
      if i.bucket then
        let holder := ((← now).groups.find? (fun g => g.2.adopted == some k)).map (fun g => g.1)
        let d := (holder.map (← now).dieOf).getD (nth rest 0 0)
        modInst k (fun i => { i with die := d })
        spreadPool n die rest t j
      else
        modInst k (fun i => { i with die := nth rest (j % rest.length) 0 })
        spreadPool n die rest t (j + 1)
    else spreadPool n die rest t j

/-- Every accumulator of a die forwards (R497). -/
def forwardAll (die : Nat) : List Accum → Act Unit
  | [] => pure ()
  | a :: t => do
    forward die a
    forwardAll die t

/-- How the withdrawal of a die ends. -/
inductive Leave where
  /-- it has left the set -/
  | gone
  /-- it stays in the set for this boundary -/
  | stays
  /-- its entries are still performing, or its slots are being spilled -/
  | waits
  deriving DecidableEq, Repr

/-- A die's withdrawal from a launch at a boundary. What leaves it covers its writes, and reservations on it end (R56, R363, R470,
R478, R481, R497) (DEDUCED, log 27). -/
def withdrawDie (n die : Nat) : Act Leave := do
  let s ← now
  let l ← getLaunch n
  let gs := s.gangsAt n die
  let rest := l.dieSet.filter (fun d => !(d == die))
  if !gs.all (fun g => s.movable l g.1 g.2) then return .stays
  else if !s.idleGangs (gs.map (fun g => g.1)) || l.tethers.any (fun t => t.2.stealing) then return .waits
  else
    let slots := s.slotsAt n die
    if slots.any (fun x => x.2.failed || !x.2.holders.isEmpty) then return .stays
    else if !slots.isEmpty then
      retireSlots slots
      return .waits
    else
      let before ← get
      rest.forM (fun d => reach d die)
      upd (fun s => { s with resvs := s.resvs.filter (fun r => !(r.inst / 2 ^ 32 == n && r.die == die)) })
      if ← moveInsts l gs rest ((gs.map (fun g => g.2.inst)).eraseDups) then
        spreadPool n die rest (← now).insts 0
        let src := (l.tether die).deque
        modLaunch n (fun l =>
          let l1 := l.setTether (nth rest 0 0) (fun t => { t with deque := src.foldl (fun acc e => e :: acc) t.deque })
          { l1 with
            dies := Tab.del l1.dies die
            tethers := Tab.set l1.tethers die { Tether.fresh 0 with created := (l1.tether die).created }
            withdraw := l1.withdraw.filter (fun d => !(d == die))
            carillons := l1.carillons.filter (fun c => !(c.1 / 16 == die)) })
        forwardAll die ((← now).die die).accums
        upd (fun s => { s with dies := match Tab.find s.dies die with
          | none => s.dies
          | some d => Tab.set s.dies die { d with parts := d.parts.filter (fun p => !(p.2 == n)) } })
        upd (fun s => s.gateAll [(die, Tab.getD l.dies die [])])
        return .gone
      else
        set before
        return .stays

/-- The host's requested dies are withdrawn from the highest down while the set stays above DMIN; false while one is not
ready to leave (R478). -/
def withdrawAll (n : Nat) : List Nat → Act Bool
  | [] => pure true
  | d :: ds => do
    let l ← getLaunch n
    if l.withdraw.contains d && decide (fld l.record 736 3 < l.dies.length) then
      match ← withdrawDie n d with
      | .waits => return false
      | _ => withdrawAll n ds
    else withdrawAll n ds

/-- The ready instances and deque entries of a launch over all dies (R478). -/
def State.workOf (s : State) (n : Nat) : Nat :=
  (s.insts.filter (fun i => i.2.launch == n && i.2.readyAt.isSome)).length +
    ((Tab.find s.launches n).map (fun l => (l.tethers.map (fun t => t.2.deque.length)).foldl (fun a b => a + b) 0)).getD 0

/-- Free dies of DSET join while the set is below DMAX and there is work for them (R478). -/
def addDies (n : Nat) : Nat → Act Unit
  | 0 => pure ()
  | k + 1 => do
    let s ← now
    let l ← getLaunch n
    let free := (s.freeDies l).filter (fun d => (Tab.find l.dies d.1).isNone)
    match free with
    | [] => pure ()
    | d :: _ =>
      if l.dies.length < fld l.record 739 3 ∧ 16 * l.dies.length < s.workOf n then
        upd (fun s => s.takeParts n [d])
        putLaunch n { l with
          dies := Tab.set l.dies d.1 d.2
          tethers := Tab.set l.tethers d.1 { Tether.fresh (s.die d.1).clk with created := (l.tether d.1).created } }
        addDies n k

/-- Releases every group that waits at a STEPB, with the die set and whether it migrated (R55, R486). -/
def State.releaseSteps (s : State) (n mask : Nat) (before : List (Nat × Nat)) : State :=
  { s with groups := s.groups.map (fun (g : Nat × Group) =>
      if s.launchOf g.1 == n && g.2.atStep then
        let moved := !before.contains (g.1, s.dieOf g.1)
        (g.1, { g.2 with st := { g.2.st with wait := .stepb (some (BitVec.ofNat 64 (mask + b2n moved * 2 ^ 8))) } })
      else g) }

/-- STEP_BOUNDARY: when every group of a launch waits in STEPB or has exited, dies leave and join the set, and every STEPB
is released (R55, R56, R478). -/
def execStepBoundary (n : Nat) (s : State) : Host.Outcome State Fault Refusal :=
  perform (do
    let s ← now
    let gs := s.groupsIn n
    guardA (s.placing n && gs.all (fun g => g.2.exited || g.2.atStep) && gs.any (fun g => g.2.atStep))
    let before := gs.map (fun g => (g.1, s.dieOf g.1))
    let l ← getLaunch n
    if ← withdrawAll n (l.dieSet.reverse) then
      addDies n 4
      let l2 ← getLaunch n
      upd (fun s => s.releaseSteps n (maskOf l2.dieSet) before)) s

/-! ## Host commands on launches (R519, R529) -/

/-- The running or pending launch of a ring index on a die. -/
def State.named (s : State) (die index : Nat) : Option (Nat × Launch) :=
  s.launches.find? (fun l => l.2.index == index && l.2.onDie die)

/-- Discards everything a launch has on the package (R519). -/
def State.discardLaunch (s : State) (n : Nat) : State :=
  { s with
    insts := s.insts.map (fun (i : Nat × Inst) =>
      if i.2.launch == n && !(i.2.phase == .retired) then (i.1, { i.2 with phase := .aborted, park := none, wgt := 0 }) else i)
    groups := s.groups.filter (fun g => !(s.launchOf g.1 == n))
    ctxs := s.ctxs.filter (fun c => !(((Tab.find s.gangs c.1).map (fun g => g.launch == n)).getD false))
    gangs := s.gangs.map (fun (g : Nat × Gang) =>
      if g.2.launch = n then (g.1, { g.2 with placed := false, retired := true, handoffs := [] }) else g) }

/-- The control block of a parked instance of a launch is free again: its STATE becomes 3 (R525). -/
def freeBlock (n : Nat) (i : Inst) : Act Unit :=
  match i.park.bind (fun p => p.block) with
  | none => pure ()
  | some b => if i.launch = n then blockState i.die b 3 else pure ()

/-- The dies whose RESUME in progress is of an instance of a launch. -/
def State.resumers (s : State) (n : Nat) : List Nat :=
  (s.insts.filter (fun i => i.2.launch == n && (i.2.park.bind (fun p => p.resuming)).isSome)).map (fun i => i.2.die)

/-- ABORT: the streams of a launch stop; once its work has drained its state is discarded, its resources are free, its
weight is void and STATE 4 is written (R492, R519, R529) (DEDUCED, log 20). -/
def execAbortCmd (die : Nat) (s : State) : Host.Outcome State Fault Refusal :=
  perform (do
    let d ← getDie die
    match d.host.hcmd with
    | some (2, arg) =>
      match (← now).named die (fld arg 0 32) with
      | none => commandBad die
      | some (n, l) =>
        if !l.stopping && !l.out && l.state == 1 then requestSwitch n
        else
          guardA (l.out || (← now).saveReady ((← now).gangsIn n))
          let s ← now
          let waiting := s.switchers l ++ s.resumers n
          s.insts.forM (fun i => freeBlock n i.2)
          upd (fun s => s.discardLaunch n)
          endLaunch n 4
          waiting.forM commandDone
          commandDone die
    | _ => stall) s

/-- WITHDRAW: the host asks that this die leave a launch's set at its next boundary (R478, R529). -/
def execWithdrawCmd (die : Nat) (s : State) : Host.Outcome State Fault Refusal :=
  perform (do
    let d ← getDie die
    match d.host.hcmd with
    | some (4, arg) =>
      match (← now).named die (fld arg 0 32) with
      | none => commandBad die
      | some (n, l) =>
        putLaunch n { l with withdraw := if l.withdraw.contains die then l.withdraw else l.withdraw ++ [die] }
        commandDone die
    | _ => stall) s

/-- TLBINV: every translation of the die is dropped, and counters whose reads had met a cause are read again (R519, R527). -/
def execTlbinvCmd (die : Nat) (s : State) : Host.Outcome State Fault Refusal :=
  perform (do
    let d ← getDie die
    match d.host.hcmd with
    | some (5, _) =>
      putDie die { d with clusters := d.clusters.map (fun (c : Nat × Cluster) => (c.1, { c.2 with tlb := [] })) }
      observeAll (fun i => i.die == die && i.phase == .pool) (fun w => w.2.2) (← now).insts
      commandDone die
    | _ => stall) s

end Sys2Proof.Machine
end

