-- ==== Sys2Proof/Machine/Host.lean ====
section
/-! DEFINITION. The energy period, power and temperature, the Tether agents, the messages of the links, host register
accesses, link management, reset and freeze (R251 to R253, R288, R475, R479, R480, R512 to R516, R520, R523, R528). -/

set_option linter.unusedVariables false

namespace Sys2Proof.Machine

open Sys2Proof

/-! ## Energy, power and temperature -/

/-- PERIOD_BOUNDARY: the running period has ended; a debt is carried over and a surplus is not (R474, R475). -/
def execPeriodBoundary (die : Nat) (s : State) : Host.Outcome State Fault Refusal :=
  perform (do
    let d ← getDie die
    let e := d.energy
    guardA d.periodOver
    putDie die { d with energy := { e with
      bal := (e.budget : Int) + min 0 e.bal
      budgetNow := e.budget
      began := (e.began + e.length) % 2 ^ 64
      length := e.period } }) s

/-- The power limit of a die, in mW (Table 20-9). -/
def powerLimit : Nat := 650000

/-- Whether a reading in mW is the mean power of so many nJ in so many clk of 1.5 GHz, rounded up or down (R523, Table 20-6)
(DESIGN CHOICE, log 85). -/
def isMeanPower (mw nj clk : Nat) : Bool :=
  decide (mw * clk < nj * 1500 + clk) && decide (nj * 1500 < (mw + 1) * clk) && decide (mw < 2 ^ 32)

/-- POWER_WINDOW: a window of 1 ms has passed: its power is reported, and above the limit the scheduler admits nothing (R523). -/
def execPowerWindow (die mw : Nat) (s : State) : Host.Outcome State Fault Refusal :=
  perform (do
    let d ← getDie die
    let e := d.energy
    let past := (d.clk + 2 ^ 64 - e.winBegan) % 2 ^ 64
    guardA (decide (1500000 ≤ past) && isMeanPower mw ((e.used + 2 ^ 64 - e.winUsed) % 2 ^ 64) past)
    putDie die { d with pwr := mw, powerHold := decide (powerLimit < mw), energy := { e with winBegan := d.clk, winUsed := e.used } }) s

/-- Whether a temperature in sixteenths of a degree fits its register (Table 20-6). -/
def tempOk (t : Int) : Bool := decide (-32768 ≤ t) && decide (t < 32768)

/-- THERMAL_WARNING: a sensor reaches 110 °C: the host is told, and the die admits nothing (R523). -/
def execThermalWarning (die sensor : Nat) (temp : Int) (s : State) : Host.Outcome State Fault Refusal :=
  perform (do
    let d ← getDie die
    guardA (decide (sensor < 17) && tempOk temp && decide (1760 ≤ temp) && !d.thermalHold)
    putDie die { d with temps := Tab.set d.temps sensor temp, thermalHold := true }
    notify die 4) s

/-- THERMAL_RECOVERY: every sensor is below 105 °C: the die admits again (R523). -/
def execThermalRecovery (die : Nat) (temps : List Int) (s : State) : Host.Outcome State Fault Refusal :=
  perform (do
    guardA (temps.length == 17 && temps.all (fun t => tempOk t && decide (t < 1680)))
    modDie die (fun d => { d with temps := (upFrom 0 17).zip temps, thermalHold := false })) s

/-- The package freezes: all clocks stop (R288). -/
def freezeAll : Act Unit := upd (fun s => { s with frozen := true })

/-- THERMAL_FREEZE: a sensor reaches 125 °C, and the package freezes (R288, R523). -/
def execThermalFreeze (die sensor : Nat) (temp : Int) (s : State) : Host.Outcome State Fault Refusal :=
  perform (do
    guardA (decide (sensor < 17) && tempOk temp && decide (2000 ≤ temp))
    modDie die (fun d => { d with temps := Tab.set d.temps sensor temp })
    freezeAll) s

/-- FREEZE: the FRZ pin (R288). -/
def execFreeze (s : State) : Host.Outcome State Fault Refusal := perform freezeAll s

/-- FREEZE_COMMAND: the command on the host link's sideband (R288, Table 20-1). -/
def execFreezeCommand (s : State) : Host.Outcome State Fault Refusal := perform freezeAll s

/-- The package goes on where it stopped (R288). -/
def thawAll : Act Unit := upd (fun s => { s with frozen := false })

/-- THAW: the release of FRZ (R288). -/
def execThaw (s : State) : Host.Outcome State Fault Refusal := perform thawAll s

/-- THAW_COMMAND: the command on the host link's sideband (R288, Table 20-1). -/
def execThawCommand (s : State) : Host.Outcome State Fault Refusal := perform thawAll s

/-! ## Tether (R479, R480) -/

/-- Distance between two numbers. -/
def apart (a b : Nat) : Nat := (a - b) + (b - a)

/-- The Chebyshev distance from a bucket to another (R480). -/
def bucketDist (ax ay bx bk : Nat) : Nat := max (apart ax bx) (apart ay bk)

/-- The victim an idle die chooses: the nearest cold end among the dies last heard of with entries, then the lowest die
(R480). -/
def Launch.victim (l : Launch) (die : Nat) : Option Nat :=
  let t := l.tether die
  let near := t.heard.filter (fun h => !(h.1 == die) && (Tab.find l.dies h.1).isSome && decide (0 < h.2.1))
  ((sortBy (fun h => bucketDist h.2.2.1 h.2.2.2 t.lastBx t.lastBy) (sortBy (fun h => h.1) near)).head?).map (fun h => h.1)

/-- Whether a die is idle for a launch: its deque is empty and a group on it waits in BQPOP (R480). -/
def State.tetherIdle (s : State) (l : Launch) (n die : Nat) : Bool :=
  (l.tether die).deque.isEmpty && s.groups.any (fun g => s.launchOf g.1 == n && s.dieOf g.1 == die && !g.2.exited &&
    (match g.2.st.wait with | .bqpop false => true | _ => false))

/-- Whether a clk has been reached. -/
def reached64 (clk at_ : Nat) : Bool := decide ((clk + 2 ^ 64 - at_) % 2 ^ 64 < 2 ^ 63)

/-- An idle die's agent sends a steal request to its victim, when it has no steal in flight and may choose (R480). -/
def chooseVictim (die n : Nat) : Act Unit := do
  let s ← now
  let l ← getLaunch n
  guardA (l.state == 1 && (Tab.find l.dies die).isSome && s.tetherIdle l n die && !(l.tether die).stealing &&
    reached64 (s.die die).clk (l.tether die).retryAt)
  let v ← need (l.victim die)
  putLaunch n (l.setTether die (fun t => { t with stealing := true }))
  post ⟨die, v, (s.die die).vclock, .stealRequest n⟩

/-- TETHER_STEAL (R480). -/
def execTetherSteal (die n : Nat) (s : State) : Host.Outcome State Fault Refusal := perform (chooseVictim die n) s

/-- STEAL_RETRY: 256 clk after an empty reply the thief chooses again (R480). -/
def execStealRetry (die n : Nat) (s : State) : Host.Outcome State Fault Refusal := perform (chooseVictim die n) s

/-- DEPTH_REPORT_SEND: a die's agent tells the other dies of the set its depth and cold-end bucket, every 1,024 clk from the
launch's start on it (R480). -/
def execDepthReportSend (die n : Nat) (s : State) : Host.Outcome State Fault Refusal :=
  perform (do
    let s ← now
    let l ← getLaunch n
    let t := l.tether die
    let ran := ((s.die die).clk + 2 ^ 64 - t.start) % 2 ^ 64
    guardA (l.state == 1 && !l.out && (Tab.find l.dies die).isSome && decide (1024 * t.reports ≤ ran))
    putLaunch n (l.setTether die (fun t => { t with reports := ran / 1024 + 1 }))
    let cold := (t.deque.head?.map (fun e => (e.bx, e.bk))).getD (0, 0)
    (l.dieSet.filter (fun d => !(d == die))).forM (fun d =>
      post ⟨die, d, (s.die die).vclock, .depth n t.deque.length cold.1 cold.2⟩)) s

/-- STEAL request arrives: the victim gives its cold-end entry, or says it has none (R479, R480). -/
def execStealRequest (src dst : Nat) (s : State) : Host.Outcome State Fault Refusal :=
  perform (do
    let m ← arriveMsg src dst (fun b => match b with | .stealRequest _ => true | _ => false)
    match m.body with
    | .stealRequest n =>
      let l ← getLaunch n
      let clk := ((← now).die dst).vclock
      match (l.tether dst).deque with
      | [] => post ⟨dst, src, clk, .stealReply n⟩
      | e :: t =>
        putLaunch n (l.setTether dst (fun x => { x with deque := t }))
        post ⟨dst, src, clk, .transfer n e⟩
    | _ => stall) s

/-- STEAL reply without an entry arrives: the thief may choose again after 256 clk (R480). -/
def execStealReply (src dst : Nat) (s : State) : Host.Outcome State Fault Refusal :=
  perform (do
    let m ← arriveMsg src dst (fun b => match b with | .stealReply _ => true | _ => false)
    match m.body with
    | .stealReply n =>
      let clk := ((← now).die dst).clk
      modLaunch n (fun l => l.setTether dst (fun t => { t with stealing := false, retryAt := (clk + 256) % 2 ^ 64 }))
    | _ => stall) s

/-- TRANSFER arrives: the stolen entry joins the thief's deque at the hot end with its weight (R480, R481). -/
def execTransferMsg (src dst : Nat) (s : State) : Host.Outcome State Fault Refusal :=
  perform (do
    let m ← arriveMsg src dst (fun b => match b with | .transfer _ _ => true | _ => false)
    match m.body with
    | .transfer n e =>
      guardA (((Tab.find (← now).launches n).map (fun l => decide ((l.tether dst).deque.length < 4096))).getD true)
      modLaunch n (fun l => if l.state = 1 then l.setTether dst (fun t => { t with deque := t.deque ++ [e], stealing := false }) else l)
      modInst (instKey n e.inst) (fun i => { i with die := dst })
    | _ => stall) s

/-- DEPTH report arrives (R480). -/
def execDepthReport (src dst : Nat) (s : State) : Host.Outcome State Fault Refusal :=
  perform (do
    let m ← arriveMsg src dst (fun b => match b with | .depth _ _ _ _ => true | _ => false)
    match m.body with
    | .depth n depth bx bk => modLaunch n (fun l => l.setTether dst (fun t => { t with heard := Tab.set t.heard src (depth, bx, bk) }))
    | _ => stall) s

/-! ## System-shared writes and remote reads (R251 to R253, R514) -/

/-- The first message of a link in one direction, taken off it; a counted one may come before its clock can be met (R253). -/
def arriveEarly (src dst : Nat) (want : MsgBody → Bool) : Act Msg := do
  let s ← now
  guardA (s.linkUp src dst)
  match takeFirst (fun m => m.src == src && m.dst == dst) s.msgs with
  | none => stall
  | some (m, rest) =>
    guardA (want m.body)
    upd (fun s => { s with msgs := rest })
    return m

/-- A counted message arrives and waits to be applied. -/
def arriveCounted (src dst : Nat) (want : MsgBody → Bool) : Act Unit := do
  let m ← arriveEarly src dst want
  upd (fun s => { s with inbox := s.inbox ++ [m] })

/-- Whether the host may write n bytes at a physical address of a home: package memory, within one block (R251, R514). -/
def State.hostMay (s : State) (home pa n : Nat) : Bool :=
  decide (0 < n) && decide (pa % 256 + n ≤ 256) &&
    (match s.target pa with
      | some (.gddr d) => d == home && (s.target (pa + n - 1)).isSome
      | some (.scratch d _) => d == home && (s.target (pa + n - 1)).isSome
      | _ => false)

/-- WRITE: a system-shared block arrives at its home. With bytes given and the host as source, the host agent sends it; with
the host as destination too, the host writes its own memory (R251, R514) (DEDUCED, log 29). -/
def execWriteMsg (src dst addr : Nat) (bytes : List (BitVec 8)) (s : State) : Host.Outcome State Fault Refusal :=
  perform (do
    let s ← now
    if src = 4 ∧ bytes ≠ [] then
      if dst = 4 then
        guardA (s.target addr == some .host && s.target (addr + bytes.length - 1) == some .host)
        poke addr bytes.length (ofBytes bytes)
      else
        guardA (s.hostMay dst addr bytes.length)
        discard (sendShared 4 (some dst) (.write addr bytes.length (ofBytes bytes) true) addr bytes.length)
    else arriveCounted src dst (fun b => match b with | .write _ _ _ _ => true | _ => false)) s

/-- NOTICE arrives (R251). -/
def execNoticeMsg (src dst : Nat) (s : State) : Host.Outcome State Fault Refusal :=
  perform (arriveCounted src dst (fun b => match b with | .notice _ _ => true | _ => false)) s

/-- A die takes a remote block's data into its L2, with the errors its home met in it (R212, R222). -/
def takeCopy (die block data errs : Nat) : Act Unit :=
  modDie die (fun d => { d with
    copies := d.copies.filter (fun l => !(l.block == block)) ++ [⟨block, data, d.clk, errs⟩]
    rdata := d.rdata.filter (fun r => !(r.1 == block)) })

/-- Replies whose clocks a die has come to cover complete (R253). -/
def takeReplies (die : Nat) : List (Nat × Nat × Tab Nat × Nat) → Act Unit
  | [] => pure ()
  | (block, data, clk, errs) :: t => do
    if covers ((← now).die die).vclock clk then takeCopy die block data errs
    takeReplies die t

/-- MESSAGE_APPLY: the first message of a source that waits at a receiver is applied once its clock allows (R253). -/
def execMessageApply (src dst : Nat) (s : State) : Host.Outcome State Fault Refusal :=
  perform (do
    match takeFirst (fun m => m.src == src && m.dst == dst) (← now).inbox with
    | none => stall
    | some (m, rest) =>
      upd (fun s => { s with inbox := rest })
      applyShared m
      takeReplies dst ((← now).die dst).rdata) s

/-- A home reads a whole block for another die: the errors it meets are counted, and the block is coded for the link (R219,
R222). -/
def State.readBlock (s : State) (die block : Nat) : State :=
  let e := s.blockErrs block
  let s1 := (bitsOf 8 (e % 256)).foldl (fun s _ => s.countCorr die) s
  let s2 := (bitsOf 8 (e / 256)).foldl (fun s _ => s.countBad die) s1
  match Tab.find s2.dies die with
  | none => s2
  | some d => s2.setDie die (d.code (Mem.read s.mem (256 * block) 256))

/-- READ arrives at the home of a block, which answers with its data and clock (R253). -/
def execReadMsg (src dst : Nat) (s : State) : Host.Outcome State Fault Refusal :=
  perform (do
    let m ← arriveMsg src dst (fun b => match b with | .read _ => true | _ => false)
    match m.body with
    | .read block =>
      let s ← now
      let clk := (s.die dst).vclock
      upd (fun s => s.readBlock dst block)
      post ⟨dst, src, clk, .rdata block (Mem.read s.mem (256 * block) 256) clk (s.blockErrs block)⟩
    | _ => stall) s

/-- RDATA arrives: the read completes once the die has applied what the home's clock covers (R253). -/
def execRdataMsg (src dst : Nat) (s : State) : Host.Outcome State Fault Refusal :=
  perform (do
    let m ← arriveEarly src dst (fun b => match b with | .rdata _ _ _ _ => true | _ => false)
    match m.body with
    | .rdata block data clk errs =>
      if covers ((← now).die dst).vclock clk then takeCopy dst block data errs
      else modDie dst (fun d => { d with rdata := d.rdata ++ [(block, data, clk, errs)] })
    | _ => stall) s

/-- ACK arrives: the sender hears how many of its messages the other has applied (R253). -/
def execAckMsg (src dst : Nat) (s : State) : Host.Outcome State Fault Refusal :=
  perform (do
    let m ← arriveEarly src dst (fun b => match b with | .ack _ => true | _ => false)
    match m.body with
    | .ack n =>
      let rise := fun (t : Tab Nat) => Tab.set t src (max n (Tab.getD t src 0))
      if dst = 4 then upd (fun s => { s with hostAcked := rise s.hostAcked })
      else modDie dst (fun d => { d with acked := rise d.acked })
    | _ => stall) s

/-! ## Host registers (R516, R517, R520, R528) -/

/-- The host's access reaches a die over link 0 when the die has applied what the host's clock covers (R514). -/
def hostReaches (die : Nat) : Act Unit := do
  let s ← now
  guardA (s.hasDie die && s.linkUp 4 die && covers (s.die die).vclock s.hostClock)

/-- A host's register write; one that is not naturally aligned is ignored (R528). -/
def hostWrite (die off size val : Nat) : Act Unit := do
  hostReaches die
  if off % size = 0 then upd (fun s => s.regWrite die off size (val % 2 ^ (8 * size)))

/-- HOST_REGISTER_REQUEST: the host reads or writes a register, and the die answers (R516, R528). -/
def execHostRegisterRequest (die : Nat) (wr : Bool) (offset size val tag : Nat) (s : State) : Host.Outcome State Fault Refusal :=
  perform (do
    guardA ([1, 2, 4, 8].contains size && decide (offset < 2 ^ 43))
    hostReaches die
    let s ← now
    let v := if offset % size = 0 then s.regRead die offset size else 0
    if wr then hostWrite die offset size val
    post ⟨die, 4, (s.die die).vclock, .hostResponse tag (if wr then 0 else v)⟩) s

/-- HOST_REGISTER_RESPONSE: the answer reaches the host (R516). -/
def execHostRegisterResponse (die : Nat) (s : State) : Host.Outcome State Fault Refusal :=
  perform (do
    let m ← arriveMsg die 4 (fun b => match b with | .hostResponse _ _ => true | _ => false)
    match m.body with
    | .hostResponse tag v => upd (fun s => { s with hostReads := s.hostReads ++ [(tag, v)] })
    | _ => stall) s

/-- EVENT: an event flit reaches the host agent (R520). -/
def execEventFlit (die : Nat) (s : State) : Host.Outcome State Fault Refusal :=
  perform (do
    let m ← arriveMsg die 4 (fun b => match b with | .event _ _ => true | _ => false)
    match m.body with
    | .event code arg => upd (fun s => { s with hostEvents := s.hostEvents ++ [(die, code, arg)] })
    | _ => stall) s

/-- LQTAIL_WRITE: the host's notify write (R517). -/
def execLqtailWrite (die val : Nat) (s : State) : Host.Outcome State Fault Refusal := perform (hostWrite die 0x8010 8 val) s

/-- MCCLR: a one in bit 0 clears every memory control counter (R223). -/
def execMcclr (die val : Nat) (s : State) : Host.Outcome State Fault Refusal := perform (hostWrite die 0x1008 8 val) s

/-- The registers whose writes are steps of their own: BOOTADDR, ATTCMD, MCCLR, LQTAIL and HCMD. -/
def ownWrites : List Nat := [0x10, 0x368, 0x1008, 0x8010, 0x8040]

/-- REGISTER_WRITE: a write of a register without behaviour of its own (R516, R528). -/
def execRegisterWrite (die offset size val : Nat) (s : State) : Host.Outcome State Fault Refusal :=
  perform (do
    guardA ([1, 2, 4, 8].contains size && decide (offset < 2 ^ 43) && !ownWrites.contains (offset / 8 * 8))
    hostWrite die offset size val) s

/-- HCMD_NOT_ACCEPTED: a command with an OP outside 1 to 5 is ignored and reported (R529). -/
def execHcmdNotAccepted (die val : Nat) (s : State) : Host.Outcome State Fault Refusal :=
  perform (do
    let d ← getDie die
    guardA (d.host.hcmd.isNone && !(decide (1 ≤ fld val 0 8) && decide (fld val 0 8 ≤ 5)))
    hostWrite die 0x8040 8 val) s

/-! ## Links (R512, R513, R515) -/

/-- Changes link k of a die, and of the die at its other end (R14). -/
def modLink (die k : Nat) (f : Die → Link → Link) : Act Unit := do
  let ends := if k = 0 then [die] else [die, die ^^^ k]
  ends.forM (fun e => modDie e (fun d => { d with links := Tab.set d.links k (f d (d.link k)) }))

/-- Whether a die has a link k: link 0 to the host, the others to a die that is there (R14). -/
def State.hasLink (s : State) (die k : Nat) : Bool := s.hasDie die && decide (k < 4) && s.hasDie (die ^^^ k)

/-- LINK_TRAINING: a link trains at a rate and a width and reports them (R512, Table 20-6) (DEDUCED, log 28). -/
def execLinkTraining (die k width rate : Nat) (s : State) : Host.Outcome State Fault Refusal :=
  perform (do
    guardA ((← now).hasLink die k && [32, 16, 12, 8, 4].contains rate && decide (0 < width) &&
      decide (width ≤ if k = 0 then 16 else 64))
    modLink die k (fun _ l => { l with state := 2, width := width, rate := rate, downAt := none })) s

/-- LINK_DOWN: a link leaves the up state; its flits stay in the retry buffers (R515). -/
def execLinkDown (die k : Nat) (s : State) : Host.Outcome State Fault Refusal :=
  perform (do
    guardA ((← now).hasLink die k && (((← now).die die).link k).state == 2)
    modLink die k (fun d l => { l with state := 0, downAt := some d.clk })) s

/-- LINK_LOST: a link that has stayed down for 10 ms freezes the package, and the host hears of it (R288, R515). -/
def execLinkLost (die k : Nat) (s : State) : Host.Outcome State Fault Refusal :=
  perform (do
    let d ← getDie die
    let since ← need (d.link k).downAt
    guardA (decide (15000000 ≤ (d.clk + 2 ^ 64 - since) % 2 ^ 64))
    let t := (← now).tick
    upd (fun s => { s with tick := s.tick + 1, hostEvents := s.hostEvents ++ [(die, 6, (Config.eventArg t).toNat)] })
    freezeAll) s

/-- DROPPED_FLIT: a flit of a reserved TYPE is dropped and counted; weight it carried is lost (R513). -/
def execDroppedFlit (die weight : Nat) (s : State) : Host.Outcome State Fault Refusal :=
  perform (do
    let d ← getDie die
    putDie die { d with lerr := (d.lerr + 1) % 2 ^ 64 }) s

/-- FLIT_RETRY: the adapter of a link sends flits again and counts them (R513, Table 20-6). -/
def execFlitRetry (die k n : Nat) (s : State) : Host.Outcome State Fault Refusal :=
  perform (do
    guardA ((← now).hasLink die k)
    modDie die (fun d => { d with links := Tab.set d.links k { d.link k with retry := ((d.link k).retry + n) % 2 ^ 64 } })) s

/-! ## Reset (R521) -/

/-- Whether a storage key is a byte of host memory: it lies outside the package. -/
def hostCell (k : Nat) : Bool := decide (2 ^ 47 ≤ k) && decide (k < 2 ^ 47 + 2 ^ 45)

/-- RESET: every unit of every die is reset and all memory of the package reads zero; the host's own memory and what it has
received stay (R521) (DEDUCED, log 31). -/
def execResetAll (form : Nat) (s : State) : Host.Outcome State Fault Refusal :=
  .next { State.resetForm (if form ≤ 2 then form else s.form) with
    mem := s.mem.filter (fun c => hostCell c.1)
    hostEvents := s.hostEvents, hostReads := s.hostReads, tick := s.tick, agenda := s.agenda }

end Sys2Proof.Machine
end

