-- ==== Sys2Proof/Machine/Boot.lean ====
section
/-! DEFINITION. The boot ROM and attestation: SHA-256, RSASSA-PSS verification with MGF1, the check of a firmware image, and
quotes (R521, R522, Table 20-7). -/

set_option linter.unusedVariables false

namespace Sys2Proof.Machine

open Sys2Proof

/-! ## SHA-256 -/

/-- The first n words of a number that holds them highest first. -/
def wordsOf (n v : Nat) : List W32 := (upFrom 1 n).map (fun i => BitVec.ofNat 32 (v / 2 ^ (32 * (n - i))))

/-- The round constants of SHA-256: eight numbers of eight words each. -/
def shaK : List W32 :=
  wordsOf 8 0x428a2f9871374491b5c0fbcfe9b5dba53956c25b59f111f1923f82a4ab1c5ed5 ++
  wordsOf 8 0xd807aa9812835b01243185be550c7dc372be5d7480deb1fe9bdc06a7c19bf174 ++
  wordsOf 8 0xe49b69c1efbe47860fc19dc6240ca1cc2de92c6f4a7484aa5cb0a9dc76f988da ++
  wordsOf 8 0x983e5152a831c66db00327c8bf597fc7c6e00bf3d5a7914706ca635114292967 ++
  wordsOf 8 0x27b70a852e1b21384d2c6dfc53380d13650a7354766a0abb81c2c92e92722c85 ++
  wordsOf 8 0xa2bfe8a1a81a664bc24b8b70c76c51a3d192e819d6990624f40e3585106aa070 ++
  wordsOf 8 0x19a4c1161e376c082748774c34b0bcb5391c0cb34ed8aa4a5b9cca4f682e6ff3 ++
  wordsOf 8 0x748f82ee78a5636f84c878148cc7020890befffaa4506cebbef9a3f7c67178f2

/-- The starting digest words of SHA-256. -/
def shaInit : List W32 := wordsOf 8 0x6a09e667bb67ae853c6ef372a54ff53a510e527f9b05688c1f83d9ab5be0cd19

/-- A 32-bit word rotated right. -/
def rotr (x : W32) (n : Nat) : W32 := (x >>> n) ||| (x <<< (32 - n))

/-- The message schedule, newest word first, extended by n words. -/
def shaExtend : Nat → List W32 → List W32
  | 0, w => w
  | n + 1, w =>
    let a := nth w 14 0
    let b := nth w 1 0
    let s0 := rotr a 7 ^^^ rotr a 18 ^^^ (a >>> 3)
    let s1 := rotr b 17 ^^^ rotr b 19 ^^^ (b >>> 10)
    shaExtend n ((nth w 15 0 + s0 + nth w 6 0 + s1) :: w)

/-- One round: the eight working words after a schedule word and a constant. -/
def shaRound (v : List W32) (k w : W32) : List W32 :=
  match v with
  | [a, b, c, d, e, f, g, h] =>
    let s1 := rotr e 6 ^^^ rotr e 11 ^^^ rotr e 25
    let ch := (e &&& f) ^^^ (~~~e &&& g)
    let t1 := h + s1 + ch + k + w
    let s0 := rotr a 2 ^^^ rotr a 13 ^^^ rotr a 22
    let maj := (a &&& b) ^^^ (a &&& c) ^^^ (b &&& c)
    [t1 + (s0 + maj), a, b, c, d + t1, e, f, g]
  | _ => v

/-- The rounds over constants and schedule words. -/
def shaRounds : List W32 → List W32 → List W32 → List W32
  | k :: ks, w :: ws, v => shaRounds ks ws (shaRound v k w)
  | _, _, v => v

/-- The big-endian words of a block of bytes. -/
def beWords : List Byte → List W32
  | a :: b :: c :: d :: t => (a ++ b ++ c ++ d) :: beWords t
  | _ => []

/-- The digest after one 64-byte block. -/
def shaBlock (h : List W32) (block : List Byte) : List W32 :=
  let w := (shaExtend 48 (beWords block).reverse).reverse
  (h.zip (shaRounds shaK w h)).map (fun x => x.1 + x.2)

/-- The digest after n blocks of a padded message. -/
def shaBlocks : Nat → List W32 → List Byte → List W32
  | 0, h, _ => h
  | n + 1, h, m => shaBlocks n (shaBlock h (m.take 64)) (m.drop 64)

/-- A message padded to whole blocks. -/
def shaPad (m : List Byte) : List Byte :=
  m ++ [0x80] ++ List.replicate ((119 - m.length % 64) % 64) 0 ++ (toBytes 8 (8 * m.length)).reverse

/-- SHA-256: the 32 bytes of the digest. -/
def sha256 (m : List Byte) : List Byte :=
  let p := shaPad m
  (shaBlocks (p.length / 64) shaInit p).flatMap (fun w => (toBytes 4 w.toNat).reverse)

/-! ## RSASSA-PSS -/

/-- b to the e modulo n; `k` bounds the bits of e. -/
def powMod : Nat → Nat → Nat → Nat → Nat
  | 0, _, _, n => 1 % n
  | k + 1, b, e, n =>
    let h := powMod k (b * b % n) (e / 2) n
    if e % 2 = 1 then b * h % n else h

/-- MGF1 with SHA-256: n blocks of the mask from a counter on. -/
def mgf1 (seed : List Byte) : Nat → Nat → List Byte
  | 0, _ => []
  | n + 1, i => sha256 (seed ++ (toBytes 4 i).reverse) ++ mgf1 seed n (i + 1)

/-- The number whose bytes, highest first, are given. -/
def ofBytesBE (bs : List Byte) : Nat := ofBytes bs.reverse

/-- The n bytes of a number, highest first. -/
def toBytesBE (n v : Nat) : List Byte := (toBytes n v).reverse

/-- EMSA-PSS verification of an encoded message of so many bits against a digest, with a 32-byte salt. -/
def pssOk (em : List Byte) (bits : Nat) (digest : List Byte) : Bool :=
  let len := em.length
  let db0 := em.take (len - 33)
  let h := (em.drop (len - 33)).take 32
  let top := 8 * len - bits
  let mask := (mgf1 h (ceilDiv (len - 33) 32) 0).take (len - 33)
  let x := (db0.zip mask).map (fun p => p.1 ^^^ p.2)
  let db := match x with
    | [] => []
    | a :: t => (a &&& BitVec.ofNat 8 (2 ^ (8 - top) - 1)) :: t
  let salt := db.drop (len - 65)
  decide (66 ≤ len) && em.getLast? == some 0xBC && decide ((nth db0 0 0).toNat < 2 ^ (8 - top)) &&
    db.take (len - 66) == List.replicate (len - 66) 0 && nth db (len - 66) 0 == 1 &&
    sha256 (List.replicate 8 0 ++ digest ++ salt) == h

/-- RSASSA-PSS verification of a signature over a digest by a modulus with exponent 65,537. -/
def rsaOk (modulus signature : Nat) (digest : List Byte) : Bool :=
  let bits := Nat.log2 modulus
  let m := powMod 17 signature 65537 modulus
  decide (signature < modulus) && decide (m < 256 ^ ceilDiv bits 8) && pssOk (toBytesBE (ceilDiv bits 8) m) bits digest

/-! ## Boot (R521) -/

/-- Reads an image's bytes for the ROM: none where a read faults. -/
def bootSpan (die : Nat) : Nat → Nat → Nat → Act (Option (List Byte))
  | 0, _, _ => pure (some [])
  | k + 1, pa, n => do
    if n = 0 then return some []
    let here := min n (32 - pa % 32)
    match (← now).target pa with
    | none => return none
    | some t =>
      match ← readPlace (diePort die) fresh ⟨t, pa, 1⟩ here with
      | .error _ => return none
      | .ok v => return (← bootSpan die k (pa + here) (n - here)).map (fun r => toBytes here v ++ r)

/-- Reads n bytes of an image for the ROM. -/
def bootRead (die pa n : Nat) : Act (Option (List Byte)) := bootSpan die (n / 32 + 2) pa n

/-- The code BOOTSTS takes for an image's header and body, and the digest that the signature covers (R521, Table 20-7) (DEDUCED, log 30). -/
def bootCheck (die : Nat) (header body : List Byte) : Nat × List Byte :=
  let modulus := (header.drop 64).take 384
  let digest := sha256 (header.take 448 ++ body)
  let code :=
    if ofBytes (header.take 4) ≠ Config.bootMagic then 2
    else if ofBytesBE (sha256 modulus) ≠ Config.keyDigest then 3
    else if !rsaOk (ofBytes modulus) (ofBytes ((header.drop 448).take 384)) digest then 4
    else if ofBytes ((header.drop 4).take 4) < Config.rollback die then 5
    else 1
  (code, digest)

/-- BOOT: after a write of BOOTADDR the ROM reads the image, verifies and measures it (R521). -/
def execBoot (die : Nat) (s : State) : Host.Outcome State Fault Refusal :=
  perform (do
    let d ← getDie die
    guardA d.boot.bootReq
    let addr := d.boot.bootaddr
    let ended := fun (b : Boot) => modDie die (fun d => { d with boot := b })
    let failed := { d.boot with bootReq := false, bootsts := 6 }
    match ← bootRead die addr 1024 with
    | none => ended failed
    | some header =>
      match ← bootRead die (addr + 1024) (ofBytes ((header.drop 8).take 8)) with
      | none => ended failed
      | some body =>
        let (code, digest) := bootCheck die header body
        if code = 1 then
          ended { d.boot with
            bootReq := false, bootsts := 1, fwver := ofBytes ((header.drop 4).take 4)
            mr := ofBytes (sha256 (toBytes 32 d.boot.mr ++ digest)) }
        else ended { d.boot with bootReq := false, bootsts := code }) s

/-! ## Attestation (R522) -/

/-- ATTESTATION_QUOTE: a write of GO copies NONCE and starts a quote (R522). -/
def execAttestationQuote (die : Nat) (s : State) : Host.Outcome State Fault Refusal :=
  perform (do
    guardA !((← now).die die).boot.attBusy
    hostWrite die 0x368 8 1) s

/-- The digest a quote signs: DIEID, FWVER, MR and the nonce copied at GO (Table 20-7). -/
def quoteDigest (die : Nat) (b : Boot) : List Byte :=
  sha256 (toBytes 8 (Config.dieId die).toNat ++ toBytes 4 b.fwver ++ toBytes 32 b.mr ++ toBytes 32 b.attNonce)

/-- QUOTE_READY: the quote is written, BUSY clears and the host is told (R522). -/
def execQuoteReady (die : Nat) (s : State) : Host.Outcome State Fault Refusal :=
  perform (do
    let d ← getDie die
    guardA d.boot.attBusy
    let t := (← now).tick
    let sig := Config.quote die (ofBytes (quoteDigest die d.boot)) t % 2 ^ 3072
    putDie die { d with boot := { d.boot with attBusy := false, quote := sig } }
    upd State.tickOn
    notify die 5) s

end Sys2Proof.Machine
end

