-- ==== Sys2Proof/Machine/LaneMem.lean ====
section
/-! DEFINITION. Lane memory instructions: loads, stores, atomics and FIFO banks, and their accesses as they perform
(R224 to R229). -/

set_option linter.unusedVariables false

namespace Sys2Proof.Machine

open Sys2Proof

/-- ORD, SCOPE and POL of a memory instruction (Table 7-9). -/
def ordOf (w : LaneW) : Nat := w.mod.toNat / 64
/-- SCOPE -/
def scopeOf (w : LaneW) : Nat := w.mod.toNat / 8 % 8
/-- POL -/
def polOf (w : LaneW) : Nat := w.mod.toNat / 2 % 4

/-- Bytes of a type. -/
def tySize (t : Nat) : Nat := tyBits t / 8

/-- The cause an address meets at issue, 0 for none: alignment, canonical bits, scratchpad bounds (R201, R209). -/
def accCause (spad : Bool) (ga : Gang) (n a : Nat) : Nat :=
  if spad then (if a % n ≠ 0 then 0x12 else if (spadAt ga a n).isNone then 0x14 else 0)
  else if a ≥ 2 ^ 48 then 0x10
  else if a % n ≠ 0 then 0x12
  else 0

/-- Raises the lowest cause that the addresses of a lane instruction meet at issue, at the first thread that meets it. -/
def checkThreads (l : Lane) (spad : Bool) (n : Nat) (ts : List AccThread) : Act Unit := do
  let (_, ga) ← myGang
  let cs := (ts.map (fun t => (accCause spad ga n t.addr, t.addr))).filter (fun c => !(c.1 == 0))
  match cs with
  | [] => pure ()
  | c :: _ =>
    let code := leastOf c.1 (cs.map (fun x => x.1))
    raiseLane l code (((cs.find? (fun x => x.1 == code)).map (fun x => x.2)).getD 0)

/-- Waits until the .acq loads that the fragment has issued have performed (R226). -/
def waitAcq : Act Unit := do
  let l ← myLane
  guardA (!l.fr.acqs.any (fun t => l.g.laccs.any (fun a => a.tag == t)))

/-- The issuing fragment records a tag its later memory instructions wait for. -/
def noteAcq (k fi tag : Nat) : Act Unit :=
  modGroup k (fun g => { g with run := { g.run with frags := match g.run.frags[fi]? with
    | none => g.run.frags
    | some f => setNth g.run.frags fi { f with acqs := tag :: f.acqs } } })

/-- Issues a lane access: results that are known at once, the threads to perform, and the word's completion. -/
def issueAccess (w : LaneW) (kind : AccKind) (spad : Bool) (known : List (Nat × Nat × W32)) (ts : List AccThread) : Act Unit := do
  let l ← myLane
  let d := match kind with
    | .store => none
    | _ => some w.d.toNat
  let tag ← match kind with
    | .store => do
      modGroup l.k (fun g => { g with tags := g.tags + 1 }.laneNext l.fi)
      pure l.g.tags
    | _ => laneLater w
  if d.isSome then resultAdd l.k tag known
  if ordOf w = 1 ∨ ordOf w = 3 then noteAcq l.k l.fi tag
  if ts.isEmpty then
    if d.isSome then resultReady l.k tag []
  else
    modGroup l.k (fun g => { g with
      laccs := g.laccs ++ [⟨tag, kind, spad, w.pty, ordOf w, scopeOf w, polOf w, d, ts, false, l.g.lastEnts, l.g.aldsOut⟩] })

/-- The effective address of a thread: 64 bits in virtual space, 32 in scratchpad (R226). -/
def effAddr (spad : Bool) (base : Nat) (w : LaneW) (disp : Bool) : Nat :=
  wrap (if spad then 32 else 64) ((base : Int) + (if disp then w.imm.toInt else 0))

/-- The address slot of a memory instruction. -/
def addrSlot (spad : Bool) (c : BitVec 8) : SlotReq := if spad then slot32 c else slot64 c

/-- LD and LDX (R226). -/
def loadLane (spad : Bool) (w : LaneW) : Act Unit := do
  waitAcq
  checkD w (wide64 w.pty)
  let l ← myLane
  let xs ← readOps w (l.part w) [addrSlot spad w.a]
  let ts := xs.map (fun x => (⟨x.1, effAddr spad (arg x.2 0) w true, 0, 0⟩ : AccThread))
  checkThreads l spad (tySize w.pty) ts
  issueAccess w .load spad [] ts

/-- ST and STX; helpers are dropped (R226, Table 2-5). -/
def storeLane (spad : Bool) (w : LaneW) : Act Unit := do
  waitAcq
  let l ← myLane
  let xs ← readOps w (l.part w) [addrSlot spad w.a, slotT w.pty w.b]
  let ts := (xs.filter (fun x => !((l.g.thread x.1).cls == .helper))).map (fun x =>
    (⟨x.1, effAddr spad (arg x.2 0) w true, arg x.2 1 % 2 ^ tyBits w.pty, 0⟩ : AccThread))
  checkThreads l spad (tySize w.pty) ts
  issueAccess w .store spad [] ts

/-- ATOM and ATOMX; helpers perform nothing and receive 0 (R227, Table 2-5). -/
def atomLane (spad : Bool) (w : LaneW) : Act Unit := do
  waitAcq
  checkD w (wide64 w.pty)
  let l ← myLane
  let op := w.imm.toNat % 16
  let cas := if op = 7 then [slotT w.pty w.c] else []
  let xs ← readOps w (l.part w) ([addrSlot spad w.a, slotT w.pty w.b] ++ cas)
  let helper := fun (x : Nat × List Nat) => (l.g.thread x.1).cls == .helper
  let ts := (xs.filter (fun x => !helper x)).map (fun x =>
    (⟨x.1, effAddr spad (arg x.2 0) w false, arg x.2 1 % 2 ^ tyBits w.pty, arg x.2 2 % 2 ^ tyBits w.pty⟩ : AccThread))
  checkThreads l spad (tySize w.pty) ts
  let zeros := resultWrites w.d.toNat (wide64 w.pty) ((xs.filter helper).map (fun x => (x.1, 0)))
  issueAccess w (.atomic op) spad zeros ts

/-- LD -/
def execLd (w : LaneW) (s : State) : Host.Outcome State Fault Refusal := perform (loadLane false w) s
/-- LDX -/
def execLdx (w : LaneW) (s : State) : Host.Outcome State Fault Refusal := perform (loadLane true w) s
/-- ST -/
def execSt (w : LaneW) (s : State) : Host.Outcome State Fault Refusal := perform (storeLane false w) s
/-- STX -/
def execStx (w : LaneW) (s : State) : Host.Outcome State Fault Refusal := perform (storeLane true w) s
/-- ATOM -/
def execAtom (w : LaneW) (s : State) : Host.Outcome State Fault Refusal := perform (atomLane false w) s
/-- ATOMX -/
def execAtomx (w : LaneW) (s : State) : Host.Outcome State Fault Refusal := perform (atomLane true w) s

/-! ## FIFO banks -/

/-- The holding a FIFO handle names: gang number, gang, its key among the gang's FIFOs; cause 0x04 out of range (R228). -/
def fifoOf (l : Lane) (w : LaneW) : Act (Nat × Gang × Nat × Bool) := do
  let (n, ga) ← myGang
  let pos := fld w.imm.toNat 0 3
  let h := fld w.imm.toNat 3 6
  let hs := Tab.getD ga.hold pos []
  if pos ≥ ga.cores ∨ h ≥ hs.length then raiseLane l 0x04 0
  return (n, ga, 512 * pos + h, nth hs h 0 == 2)

/-- A FIFO operation meets the wrong mode: its cause is raised at the next boundary (R215, R224, R228). -/
def fifoFault (l : Lane) (ts : List Nat) : Act Unit := do
  laneDone
  upd (fun s => s.later (.group l.k) (Cause.ofThread 0x15 (leastOf 0 ts) 0))

/-- FQPUT (R228, R229) (DEDUCED, log 55). -/
def execFqput (w : LaneW) (s : State) : Host.Outcome State Fault Refusal :=
  perform (do
    waitAcq
    let l ← settledLane (← myLane)
    let (n, ga, key, ok) ← fifoOf l w
    checkSrc [slot32 w.a]
    if !ok then fifoFault l (l.part w)
    else
      let q := Tab.getD ga.fifos key []
      if q.length ≥ 64 then halt (.laneWait .fifo)
      let xs ← readOps w (l.part w) [slot32 w.a]
      let word := fun (t : Nat) =>
        match xs.find? (fun x => x.1 == t) with
        | none => (0 : W32)
        | some x => if (l.g.thread t).cls == .helper then 0 else BitVec.ofNat 32 (arg x.2 0)
      putGang n { ga with fifos := Tab.set ga.fifos key (q ++ [(upFrom 0 32).map word]) }
      laneDone) s

/-- FQGET (R228, R229). -/
def execFqget (w : LaneW) (s : State) : Host.Outcome State Fault Refusal :=
  perform (do
    waitAcq
    checkD w false
    let l ← settledLane (← myLane)
    let (n, ga, key, ok) ← fifoOf l w
    if !ok then fifoFault l (l.part w)
    else
      match Tab.getD ga.fifos key [] with
      | [] => halt (.laneWait .fifo)
      | e :: rest =>
        putGang n { ga with fifos := Tab.set ga.fifos key rest }
        laneLong w ((l.part w).map (fun t => (t, (nth e t 0).toNat)))) s

/-! ## Accesses performing -/

/-- The new value of an atomic: 0 add, 1 min, 2 max, 3 and, 4 or, 5 xor, 6 exch, 7 cas (R227). -/
def atomNew (ty op old b c : Nat) : Nat :=
  let less := fun (x y : Nat) => decide (tyRead ty x < tyRead ty y)
  match op with
  | 0 => if ty = 9 then fadd32 old b else (old + b) % 2 ^ tyBits ty
  | 1 => if ty = 9 then minF fmt32 false old b else if less b old then b else old
  | 2 => if ty = 9 then minF fmt32 true old b else if less old b then b else old
  | 3 => old &&& b
  | 4 => old ||| b
  | 5 => old ^^^ b
  | 6 => b
  | _ => if old = c then b else old

/-- Drops an acquire's copies: nothing below gang scope, else every clean line of the core (Table 8-3). -/
def acquireAt (p : Port) (scope : Nat) : Act Unit := if scope ≥ 2 then upd (fun s => s.dropCore p) else pure ()

/-- Whether every other die has applied what this die had applied, read or made: only then does a release at .sys to host memory,
which carries no clock, perform (R245, R254). -/
def State.knownBy (s : State) (die : Nat) : Bool := (s.others die).all (fun o => covers (s.clockOf o) (s.clockOf die))

/-- One thread's access: the value it gives, or a cause. -/
def accOnce (p : Port) (gang : Nat) (a : LAcc) (t : AccThread) : Act (Except Nat Nat) := do
  let n := tySize a.ty
  if a.ord = 1 ∨ a.ord = 3 then acquireAt p a.scope
  match a.kind, a.spad with
  | .load, true => readSpad gang t.addr n
  | .load, false => readVA p ⟨a.ord == 0 || a.scope < 2, a.pol⟩ t.addr n
  | .store, true =>
    match ← writeSpad gang t.addr n t.data with
    | .error c => return .error c
    | .ok _ => return .ok 0
  | .store, false =>
    match ← locate p t.addr .write with
    | .error c => return .error c
    | .ok pl =>
      if a.ord ≥ 2 && a.scope = 5 && pl.target = .host then guardA ((← now).knownBy p.die)
      match ← writePlace p pl n t.data with
      | .error c => return .error c
      | .ok _ => return .ok 0
  | .atomic op, true =>
    match ← readSpad gang t.addr n with
    | .error c => return .error c
    | .ok old =>
      match ← writeSpad gang t.addr n (atomNew a.ty op old t.data t.cmp) with
      | .error c => return .error c
      | .ok _ => return .ok old
  | .atomic op, false =>
    match ← locate p t.addr .atomic with
    | .error c => return .error c
    | .ok pl => rmwPlace p pl n (fun old => atomNew a.ty op old t.data t.cmp)
  | .fqput, _ => return .ok 0
  | .fqget, _ => return .ok 0

/-- The location of a thread's access: its scratchpad address, or its physical address where it translates, so that two virtual
addresses of one location are one (R241). -/
def State.accAt (s : State) (p : Port) (spad : Bool) (addr : Nat) : Nat :=
  if spad then addr
  else match s.translate p addr with
    | .leaf _ _ pa => pa
    | _ => addr

/-- Whether two accesses of one thread may not pass each other: they share bytes of one space, or the later releases
(R226, R241). -/
def keepsOrder (s : State) (p : Port) (a : LAcc) (x : AccThread) (b : LAcc) (y : AccThread) : Bool :=
  let m := s.accAt p a.spad x.addr
  let n := s.accAt p b.spad y.addr
  x.tnum == y.tnum &&
    (b.ord ≥ 2 || (a.spad == b.spad && decide (m < n + tySize b.ty) && decide (n < m + tySize a.ty)))

/-- A thread's access meets a cause: it and the threads above it perform nothing, and the group takes the cause at its
next boundary (R224). -/
def accFault (gk tag c tnum addr : Nat) : Act Unit := do
  modGroup gk (fun g => { g with laccs := g.laccs.filter (fun b => !(b.tag == tag)) })
  resultReady gk tag []
  upd (fun s => s.later (.group gk) (Cause.ofThread c tnum addr))

/-- The cause a thread's access will meet, and whether it is an access to a device page (R205, R210, R268). -/
def accProbe (p : Port) (gang : Nat) (a : LAcc) (t : AccThread) : Act (Option Nat × Bool) := do
  if a.spad then
    let g ← getGang gang
    match spadAt g t.addr (tySize a.ty) with
    | none => return (some 0x14, false)
    | some (pos, off) => return (if spadMode g pos off (tySize a.ty) then none else some 0x15, false)
  else
    let need := match a.kind with
      | .load => Need.read
      | .store => Need.write
      | _ => Need.atomic
    match ← locate p t.addr need with
    | .error c => return (some c, false)
    | .ok pl => return (none, pl.ty == 2)

/-- The causes of a list of threads, with the first thread's, and whether any is an access to a device page. -/
def accProbes (p : Port) (gang : Nat) (a : LAcc) : List AccThread → Act (Option (Nat × Nat × Nat) × Bool)
  | [] => pure (none, false)
  | t :: ts => do
    let (c, dev) ← accProbe p gang a t
    let (r, devs) ← accProbes p gang a ts
    match c with
    | some c => return (some (c, t.tnum, t.addr), dev || devs)
    | none => return (r, dev || devs)

/-- Before the first thread of an access performs: a non-idempotent one, an atomic or an access to a device page, waits for
the group's earlier entries and accesses, and for every thread's checks (R268). A cause found ends it. -/
def accCheck (p : Port) (gk : Nat) (g : Group) (a : LAcc) : Act Bool := do
  if a.checked then return true
  let (c, dev) ← accProbes p (gk / 65536) a a.todo
  let once := dev || (match a.kind with | .atomic _ => true | _ => false)
  if once then
    guardA ((g.laccs.takeWhile (fun b => !(b.tag == a.tag))).isEmpty && !g.aldsOut.any (fun b => a.alds.contains b))
    if !g.committedTo a.after then
      commitAll gk
      guardA ((← getGroup gk).committedTo a.after)
  match c with
  | some (c, tnum, addr) =>
    if once then
      accFault gk a.tag c tnum addr
      return false
  | none => pure ()
  modGroup gk (fun g => { g with laccs := g.laccs.map (fun b => if b.tag == a.tag then { b with checked := true } else b) })
  return true

/-- The next thread of the access with a tag performs: true while more may follow. -/
def accStep (gk tag : Nat) : Act Bool := do
  let g ← getGroup gk
  let a ← need (g.laccs.find? (fun a => a.tag == tag))
  match a.todo with
  | [] => stall
  | t :: rest =>
    let earlier := g.laccs.takeWhile (fun b => !(b.tag == tag))
    let p := (← now).portOf (.group gk)
    let s ← now
    guardA (!earlier.any (fun b => b.todo.any (fun x => keepsOrder s p b x a t)))
    if !(← accCheck p gk g a) then return false
    match ← accOnce p (gk / 65536) a t with
    | .error c =>
      accFault gk tag c t.tnum t.addr
      return false
    | .ok v =>
      match a.dst with
      | none => pure ()
      | some d =>
        let fill := if isInt a.ty then tyPut a.ty false (tyRead a.ty v) else v
        resultAdd gk tag (resultWrites d (wide64 a.ty) [(t.tnum, fill)])
      modGroup gk (fun g => { g with
        laccs := (g.laccs.map (fun b => if b.tag == tag then { b with todo := rest } else b)).filter (fun b => !b.todo.isEmpty) })
      if rest.isEmpty then resultReady gk tag []
      return !rest.isEmpty

/-- Up to n threads of the access with a tag perform. -/
def accRun (gk tag : Nat) : Nat → Act Unit
  | 0 => pure ()
  | n + 1 => do if ← accStep gk tag then accRun gk tag n

/-- LANE_MEMORY_ACCESS_PERFORM: the next n threads of a group's k-th issued access perform (R224, R226). -/
def execLaneMemoryAccessPerform (gk k n : Nat) (s : State) : Host.Outcome State Fault Refusal :=
  perform (do
    let g ← getGroup gk
    let a ← need (g.laccs[k]?)
    accRun gk a.tag n) s

end Sys2Proof.Machine
end

