-- ==== Sys2Proof/Machine/Raster.lean ====
section
/-! DEFINITION. The stochastic rasteriser (R364 to R382): binding, coverage, sampling and resolving a bucket, and the lane
words over sample records. -/

set_option linter.unusedVariables false

namespace Sys2Proof.Machine

open Sys2Proof

/-! ## Sample patterns (Tables 13-1 and 13-2) -/

/-- S -/
def patSamples (h : Nat) : Nat := fld h 0 7
/-- PT, the side of the pattern tile -/
def patTile (h : Nat) : Nat := 2 ^ fld h 8 2
/-- COCW -/
def patCocw (h : Nat) : Nat := fld h 10 2
/-- E, the number of entries -/
def patEntries (h : Nat) : Nat := patSamples h * (patTile h * patTile h)
/-- OPITCH -/
def patPitch (h : Nat) : Nat := fld h 192 16

/-- Whether a pattern header is valid (R366). -/
def patHeadOk (h : Nat) : Bool :=
  !bit h 7 && decide (fld h 12 52 = 0) && decide (fld h 208 304 = 0) && decide (1 ≤ patSamples h ∧ patSamples h ≤ 64) &&
  decide (patEntries h ≤ 256) && decide (256 ≤ patPitch h) && decide (patPitch h % 8 = 0)

/-- Whether a pattern entry is valid (R366). -/
def patEntOk (e : Nat) : Bool := decide (fld e 40 24 = 0) && !(fld e 16 8 == 0x80) && !(fld e 24 8 == 0x80)

/-- The entry of sample i of screen pixel (px, py) (R365). -/
def Raster.entry (b : Raster) (px py i : Nat) : Nat :=
  let t := patTile b.header
  nth b.entries (i + patSamples b.header * (px % t + t * (py % t))) 0

/-- The resolve weight of an entry (R367). -/
def Raster.weight (b : Raster) (e : Nat) : Nat :=
  fld b.header (64 + 8 * (fld e 0 8 / 32)) 8 * fld b.header (128 + 8 * (fld e 8 8 / 32)) 8

/-- The address of the record of sample i of pixel (x, y) of the bucket (R368). -/
def Raster.record (b : Raster) (x y i : Nat) : Nat := b.sbuf + 16 * (patSamples b.header * (32 * y + x) + i)

/-! ## The coverage test (R369 to R371) -/

/-- A placed vertex. -/
structure Placed where
  ok : Bool
  x : Int
  y : Int
  z : Nat
  deriving DecidableEq, Repr

/-- The integer nearest 256 × an FP32 value, a tie to even. -/
def nearest256 (x : Nat) : Int :=
  match decodeF fmt32 x with
  | .fin n m e =>
    let v : Int := roundTo 0 n m (e + 8) 0
    if n then -v else v
  | _ => 0

/-- A vertex record placed for a pattern entry (R369). -/
def placeVertex (cocw e v : Nat) : Placed :=
  let w := fun (i : Nat) => fld v (32 * i) 32
  let tf := fOfDyadic (fld e 32 8 : Nat) (-8)
  let lens := fun (lo : Nat) => fdiv32 (fOfInt (sext 8 (fld e lo 8))) (fOfInt 127)
  let c := if cocw = 3 then 0 else w (9 + cocw)
  let xl := ffma32 (lens 16) c (flerp32 (w 0) (w 3) tf)
  let yl := ffma32 (lens 24) c (flerp32 (w 1) (w 4) tf)
  let zt := flerp32 (w 2) (w 5) tf
  let x := nearest256 xl
  let y := nearest256 yl
  ⟨ffin32 xl && ffin32 yl && ffin32 zt && decide (x.natAbs ≤ 2 ^ 29) && decide (y.natAbs ≤ 2 ^ 29), x, y, zt⟩

/-- What the test of a triangle at a sample point gives: |A|, e1 and e2 after the sign fix, and whether it covers (R370). -/
def coverage (p0 p1 p2 : Placed) (sx sy : Int) : Int × Int × Int × Bool :=
  let e := fun (a b : Placed) => (b.x - a.x) * (sy - a.y) - (b.y - a.y) * (sx - a.x)
  let area := (p1.x - p0.x) * (p2.y - p0.y) - (p1.y - p0.y) * (p2.x - p0.x)
  let sg : Int := if area < 0 then -1 else 1
  let inside := fun (a b : Placed) (v : Int) =>
    let dx := sg * (b.x - a.x)
    let dy := sg * (b.y - a.y)
    decide (v > 0) || (decide (v = 0) && (decide (dy < 0) || (decide (dy = 0) && decide (dx > 0))))
  let e0 := sg * e p1 p2
  let e1 := sg * e p2 p0
  let e2 := sg * e p0 p1
  (sg * area, e1, e2, !(area == 0) && inside p1 p2 e0 && inside p2 p0 e1 && inside p0 p1 e2)

/-- λ1, λ2 and z of a triangle with |A| ≠ 0 (R371). -/
def depthOf (p0 p1 p2 : Placed) (area e1 e2 : Int) : Nat × Nat × Nat :=
  let quot := fun (x : Int) => encodeF fmt32 0 (divF (FV.ofInt x) (FV.ofInt area))
  let l1 := quot e1
  let l2 := quot e2
  (l1, l2, ffma32 l2 (fsub32 p2.z p0.z) (ffma32 l1 (fsub32 p1.z p0.z) p0.z))

/-- The corners of triangle 0 or 1 of a quad, as offsets (R372). -/
def triCorners (t : Nat) : (Nat × Nat) × (Nat × Nat) × (Nat × Nat) :=
  if t = 0 then ((0, 0), (1, 0), (1, 1)) else ((0, 0), (1, 1), (0, 1))

/-! ## Sampling a grid (R372) -/

/-- A grid read from its slot: the interior vertex records by row, with an uncorrectable one as none (R375). -/
def State.gridRows (s : State) (key nu nv : Nat) : List (List (Option Nat)) :=
  (upFrom 0 (nv + 1)).map (fun j => (upFrom 0 (nu + 1)).map (fun i =>
    let k := cupolaKey key + vertexOff nu i j
    if s.badAt k 48 then none else some (Mem.read s.mem k 48)))

/-- An element of a grid of rows. -/
def atGrid {α : Type} (rows : List (List α)) (d : α) (i j : Nat) : α := nth (nth rows j []) i d

/-- Whether a quad takes part: the OPA of its lower corner is a number of at least 1.0. -/
def quadOpaque (v : Option Nat) : Bool :=
  match v with
  | none => false
  | some v => decide (0x3C00 ≤ fld v 272 16 ∧ fld v 272 16 ≤ 0x7C00)

/-- A hit: its record's number in the bucket and the record's words. -/
structure Hit where
  idx : Nat
  z : Nat
  w1 : Nat
  w2 : Nat
  w3 : Nat
  deriving DecidableEq, Repr

/-- The pixels along one coordinate whose sample can lie between lo and hi, for a bucket's first pixel and a sample offset. -/
def pixelsIn (lo hi : Int) (first off : Nat) : List Nat :=
  (upFrom 0 32).filter (fun x =>
    let c : Int := 256 * ((first + x : Nat) : Int) + (off : Int)
    decide (lo ≤ c) && decide (c ≤ hi))

/-- The least and the greatest of three. -/
def span3 (a b c : Int) : Int × Int := (min a (min b c), max a (max b c))

/-- The tests of one triangle for one pattern entry: hits in pixel order and whether a covered test gave a NaN depth. -/
def triHits (b : Raster) (bx bk ent tile : Nat) (p0 p1 p2 : Placed) (w1 w2 w3 : Nat) : List Hit × Bool :=
  let t := patTile b.header
  let n := patSamples b.header
  let e := nth b.entries ent 0
  let (xl, xh) := span3 p0.x p1.x p2.x
  let (yl, yh) := span3 p0.y p1.y p2.y
  let xs := (pixelsIn xl xh (32 * bx) (fld e 0 8)).filter (fun x => (32 * bx + x) % t == tile % t)
  let ys := (pixelsIn yl yh (32 * bk) (fld e 8 8)).filter (fun y => (32 * bk + y) % t == tile / t)
  let tests := ys.flatMap (fun y => xs.filterMap (fun x =>
    let sx : Int := ((256 * (32 * bx + x) + fld e 0 8 : Nat) : Int)
    let sy : Int := ((256 * (32 * bk + y) + fld e 8 8 : Nat) : Int)
    let (area, e1, e2, cov) := coverage p0 p1 p2 sx sy
    if cov then some (⟨n * (32 * y + x) + ent % n, (depthOf p0 p1 p2 area e1 e2).2.2, w1, w2, w3⟩ : Hit) else none))
  (tests.filter (fun h => !fnan32 h.z), tests.any (fun h => fnan32 h.z))

/-- All tests of a grid in one bucket: the hits, each record's in the order of R372, and the status they give (R375). -/
def gridHits (b : Raster) (bx bk hd nu nv : Nat) (rows : List (List (Option Nat))) : List Hit × Nat :=
  let quads := (upFrom 0 nv).flatMap (fun j => (upFrom 0 nu).map (fun i => (i, j)))
  let n := patSamples b.header
  let runs := (upFrom 0 (patEntries b.header)).map (fun ent =>
    let placed := rows.map (fun r => r.map (fun v => v.map (placeVertex (patCocw b.header) (nth b.entries ent 0))))
    quads.flatMap (fun (q : Nat × Nat) =>
      let (i, j) := q
      if quadOpaque (atGrid rows none i j) then
        let v := (atGrid rows none i j).getD 0
        let mpn := (fld hd 160 25 + 16 * j + i) % 2 ^ 25
        (upFrom 0 2).map (fun t =>
          let (a, c, d) := triCorners t
          let at_ := fun (o : Nat × Nat) => atGrid placed none (i + o.1) (j + o.2)
          match at_ a, at_ c, at_ d with
          | some p0, some p1, some p2 =>
            if p0.ok && p1.ok && p2.ok then
              let (hs, nan) := triHits b bx bk ent (ent / n) p0 p1 p2 (fld v 224 32) (fld v 256 32) (fld hd 185 7 + mpn * 2 ^ 7)
              (hs, if nan then 0x60 else 0)
            else ([], 0x81)
          | _, _, _ => ([], 0x32))
      else if (atGrid rows none i j).isNone then [([], 0x32)] else []))
  let all := runs.flatMap (fun r => r)
  (all.flatMap (fun x => x.1), all.foldl (fun st x => worseSts st x.2) 0)

/-- The hit that each record keeps: the least depth, the earliest among equals. -/
def bestHits (hs : List Hit) : Tab Hit :=
  hs.foldl (fun (t : Tab Hit) (h : Hit) =>
    match Tab.find t h.idx with
    | none => Tab.set t h.idx h
    | some g => if flt32 h.z g.z then Tab.set t h.idx h else t) []

/-- A record's 128 bits after a hit. -/
def hitRecord (old : Nat) (h : Option Hit) : Nat :=
  match h with
  | none => old
  | some h => if flt32 h.z (fld old 0 32) then packWords [h.z, h.w1, h.w2, h.w3] else old

/-! ## Shared steps of Z entries -/

/-- Reads a sample sector: its value, or none where it is uncorrectable, and the status so far. -/
def sampleSector (p : Port) (a st : Nat) : Act (Except Nat (Option Nat × Nat)) := do
  let before := (← now).corrections
  match ← readVA p fresh a 32 with
  | .ok v =>
    let after := (← now).corrections
    return .ok (some v, if after == before then st else worseSts st 0x20)
  | .error c => if c = 0x13 then return .ok (none, worseSts st 0x31) else return .error c

/-- Records in the head of a Z queue a sector it wrote. -/
def zNote (k n st : Nat) (sent : Option (Nat × Nat)) : Act Unit :=
  setHead k 4 (fun e => { e with
    started := true, wrote := e.wrote + n
    status := BitVec.ofNat 32 (worseSts e.status.toNat st)
    sent := match sent with
      | none => e.sent
      | some (h, c) => Tab.set e.sent h (max c (Tab.getD e.sent h 0)) })

/-- Completes the head of a Z queue once its writes have reached their homes; whether it did. -/
def zDone (k : Nat) : Act Bool := do
  if ← headReached k 4 then
    let e ← need ((← getGroup k).queue 4).ents.head?
    discard (complete k 4 (e.status.toNat / 16) (e.status.toNat % 16))
    return true
  else return false

/-- The binding of a group, with the cause of a missing one at the issuing scalar word. -/
def bindingOf (g : Group) : Act Raster := do
  match g.raster with
  | some b => return b
  | none => raise 0x04

/-- The causes of a flags word of SFLUSH, SGRID and SRESOLVE. -/
def zFlagCauses (ga : Gang) (fl : Nat) : List (Bool × Nat) := (bit fl 0, 0x04) :: flagCauses ga fl

/-! ## Scalar words -/

/-- A part of SPAT's record: a memory cause is raised, or 0x12 where s_B is misaligned and that is lower (R34, R373). -/
def spatRead (va n : Nat) (skew : Bool) : Act Nat := do
  let p ← myPort
  match ← tryRec p va n with
  | .ok x => return x
  | .error (c, a) => if skew && decide (0x12 < c) then raise 0x12 else raiseMem p c a

/-- SPAT (R373) -/
def execSpat (d a b : BitVec 5) (s : State) : Host.Outcome State Fault Refusal :=
  perform (do
    let k ← myGroup
    let va ← sreg a.toNat
    let sb ← sreg b.toNat
    let skew := decide (sb % 256 ≠ 0)
    check [(decide (va ≥ 2 ^ 48), 0x10), (decide (va % 8 ≠ 0), 0x12), (decide (sb ≥ 2 ^ 48), 0x10)]
    let h ← spatRead va 64 skew
    if !patHeadOk h then raise (if skew then 0x12 else 0x50)
    let r ← spatRead (va + 64) (8 * patEntries h) skew
    let es := (upFrom 0 (patEntries h)).map (fun i => fld r (64 * i) 64)
    check [(skew, 0x12), (!es.all patEntOk, 0x50)]
    modGroup k (fun g => { g with raster := some ⟨h, es, sb⟩ })
    finishWith d.toNat (patSamples h)) s

/-- SFLUSH (R374) -/
def execSflush (d a b : BitVec 5) (s : State) : Host.Outcome State Fault Refusal :=
  perform (do
    let k ← myGroup
    let (_, ga) ← myGang
    let g ← getGroup k
    let v ← sreg a.toNat
    let fl ← sreg b.toNat
    check ((decide (v ≥ 2 ^ 32), 0x04) :: (g.raster.isNone, 0x04) :: zFlagCauses ga fl)
    if bit fl 1 then waitSettled
    let bind ← bindingOf g
    finishWith d.toNat (← issueEntry k 4 (.sflush bind 0 0 (BitVec.ofNat 32 v) (flagBar fl)))) s

/-- Whether a bucket lies in the rectangle of a grid header. -/
def inRect (h bx bk : Nat) : Bool :=
  decide (fld h 80 16 ≤ bx ∧ bx ≤ fld h 80 16 + fld h 112 2 ∧ fld h 96 16 ≤ bk ∧ bk ≤ fld h 96 16 + fld h 114 2)

/-- The header of an image, as its home holds it. -/
def State.imageHead (s : State) (key image : Nat) : Nat :=
  match s.translate (s.slotPort key) image with
  | .leaf _ _ pa => Mem.read s.mem pa 32
  | _ => 0

/-- The rectangle of a slot's grid as a header: from its entry while that is still to perform, else from the slot (R375). -/
def State.rectHead (s : State) (key : Nat) : Nat :=
  if s.gridReady key then s.gridHead key
  else
    let es := s.groups.flatMap (fun (g : Nat × Group) => ((Tab.getD g.2.queues 3 Queue.empty).ents).filterMap (fun e => match e.op with
      | .dice patch r k _ bucket _ => if k = key then some (gridHeader patch r bucket 0) else none
      | .fill image k _ _ _ => if k = key then some (s.imageHead key image) else none
      | _ => none))
    es.head?.getD 0
/-- SGRID (R375) -/
def execSgrid (d a b : BitVec 5) (s : State) : Host.Outcome State Fault Refusal :=
  perform (do
    let k ← myGroup
    let (n, ga) ← myGang
    let g ← getGroup k
    let h ← sreg a.toNat
    let fl ← sreg b.toNat
    check ((g.raster.isNone, 0x04) :: (ga.bucket.isNone, 0x04) :: zFlagCauses ga fl)
    let xy ← readRec (ga.bucket.getD 0) 4
    let s ← now
    let slot := (s.usableSlot ga h).filter (fun key =>
      (s.slotAt key).owner == n || (s.slotAt key).holders.contains n)
    let outside := (slot.map (fun key => !inRect (s.rectHead key) (fld xy 0 16) (fld xy 16 16))).getD false
    check [(outside, 0x04), (slot.isNone, 0x41)]
    waitSettled
    let key ← need slot
    let bind ← bindingOf g
    finishWith d.toNat (← issueEntry k 4 (.sgrid bind (fld xy 0 16) (fld xy 16 16) key n (flagBar fl)))) s

/-- SRESOLVE (R376) -/
def execSresolve (d a b : BitVec 5) (s : State) : Host.Outcome State Fault Refusal :=
  perform (do
    let k ← myGroup
    let (_, ga) ← myGang
    let g ← getGroup k
    let v ← sreg a.toNat
    let fl ← sreg b.toNat
    check ((g.raster.isNone, 0x04) :: (decide (v ≥ 2 ^ 48), 0x10) :: (decide (v % 8 ≠ 0), 0x12) :: zFlagCauses ga fl)
    if bit fl 1 then waitSettled
    let bind ← bindingOf g
    finishWith d.toNat (← issueEntry k 4 (.sresolve bind 0 0 v (flagBar fl)))) s

/-! ## Entries performing -/

/-- Writes cleared records from sector z on, n sectors at most; whether no cause was met. A correction that the write's
translation needed is reported (R222, R374). -/
def flushRun (k : Nat) (p : Port) (b : Raster) (depth : Nat) : Nat → Nat → Act Bool
  | 0, _ => pure true
  | n + 1, z => do
    if z ≥ 512 * patSamples b.header then return true
    let rec1 := packWords [depth, 0, 0, 0xFFFFFFFF]
    let a := b.sbuf + 32 * z
    let before := (← now).corrections
    match ← writeVA p a 32 (rec1 + rec1 * 2 ^ 128) with
    | .error c =>
      haltHead k 4 c a
      return false
    | .ok sent =>
      zNote k 1 (if (← now).corrections == before then 0 else 0x20) sent
      setHead k 4 (fun e => { e with pos := z + 1 })
      flushRun k p b depth n (z + 1)

/-- SFLUSH_ENTRY_PERFORM: the next n sectors (R374, R382). -/
def execSflushEntryPerform (gk n : Nat) (s : State) : Host.Outcome State Fault Refusal :=
  perform (do
    let (g, qu, e) ← headOf gk 4
    match e.op with
    | .sflush b _ _ depth _ =>
      let p ← headPort gk 4
      setHead gk 4 (fun e => { e with started := true })
      if ← flushRun gk p b depth.toNat n e.pos then
        let e ← need ((← getGroup gk).queue 4).ents.head?
        if e.pos ≥ 512 * patSamples b.header then discard (zDone gk)
    | _ => stall) s

/-- Updates the sample sectors of a list, ascending, n of them at most: the records keep their nearest hits. Whether all are
done; POS passes each (R372, R375, R381, R382). -/
def sampleRun (k : Nat) (p : Port) (b : Raster) (best : Tab Hit) : Nat → List Nat → Act Bool
  | 0, zs => pure zs.isEmpty
  | _, [] => pure true
  | n + 1, z :: rest => do
    let a := b.sbuf + 32 * z
    match ← sampleSector p a 0 with
    | .error c =>
      haltHead k 4 c a
      return false
    | .ok (old, st) =>
      let t := (← now).tick
      let lost := fun (i : Nat) => packWords [0x7F800000, openWord t (3 * i), openWord t (3 * i + 1), openWord t (3 * i + 2)]
      let v := old.getD (lost 0 + lost 1 * 2 ^ 128)
      if old.isNone then upd (fun s => { s with tick := s.tick + 24 })
      let v1 := hitRecord (fld v 0 128) (Tab.find best (2 * z)) + hitRecord (fld v 128 128) (Tab.find best (2 * z + 1)) * 2 ^ 128
      setHead k 4 (fun e => { e with pos := z + 1 })
      if old = some v1 then
        zNote k 0 st none
        sampleRun k p b best n rest
      else
        match ← writeVA p a 32 v1 with
        | .error c =>
          haltHead k 4 c a
          return false
        | .ok sent =>
          zNote k 1 st sent
          sampleRun k p b best n rest

/-- SAMPLED, DONE and REMAIN after an SGRID's last record update (R341). -/
def markSampled (key gang bx bk : Nat) : Act Unit := do
  let s ← now
  let h := s.gridHead key
  let own := (s.slotAt key).owner == gang
  let h1 := if own then setFld h 116 1 1 else h
  let i := 128 + (bx - fld h 80 16) + 4 * (bk - fld h 96 16)
  let fresh_ := !bit h i
  putHead key (if fresh_ then setFld (setFld h1 i 1 1) 144 5 (hdRemain h - 1) else h1)
  modSlot key (fun sl => { sl with
    state := if own && sl.state == .ready then .sampled else sl.state
    holders := if fresh_ then sl.holders.filter (fun x => !(x == gang)) else sl.holders })

/-- The rasteriser reads a slot's header and vertices: the status of what it met. Vertices of an uncorrectable sector are
skipped, and so is every triangle of a grid whose header is uncorrectable (R222, R375) (DESIGN CHOICE, log 91). -/
def readSlot (die key nu nv : Nat) : Act Nat := do
  let s ← now
  let last := cupolaKey key + vertexOff nu nu nv + 48
  let here := fun (z : Nat) => decide (cupolaKey key ≤ 32 * z) && decide (32 * z < last) &&
    (decide (32 * z < cupolaKey key + 32) || decide (cupolaKey key + 512 ≤ 32 * z))
  let bad := s.bad.filter here
  let corr := s.corr.filter here
  bad.forM (fun _ => countBad die)
  corr.forM (fun _ => countCorr die)
  return if !bad.isEmpty then 0x32 else if !corr.isEmpty then 0x20 else 0

/-- SGRID_ENTRY_PERFORM: the next n sample sectors that its hits reach; after the last, SAMPLED, DONE and REMAIN (R341, R375,
R382). -/
def execSgridEntryPerform (part : Part) (s : State) : Host.Outcome State Fault Refusal :=
  perform (do
    let (g, qu, e) ← headOf part.g 4
    match e.op with
    | .sgrid b bx bk key gang _ =>
      let s ← now
      guardA (s.gridReadyFor key e.born)
      if e.pos = 65536 then
        if ← zDone part.g then releaseSlot key
      else
        let p ← headPort part.g 4
        let h := s.gridHead key
        let slot ← readSlot p.die key (hdNu h) (hdNv h)
        let rows := if s.badAt (cupolaKey key) 32 then [] else s.gridRows key (hdNu h) (hdNv h)
        let (hits, st) := if rows.isEmpty then ([], 0) else gridHits b bx bk h (hdNu h) (hdNv h) rows
        zNote part.g 0 (worseSts slot st) none
        let best := bestHits hits
        let zs := sortBy (fun x => x) ((best.map (fun (h : Nat × Hit) => h.1 / 2)).eraseDups)
        if ← sampleRun part.g p b best part.n (zs.filter (fun z => decide (e.pos ≤ z))) then
          markSampled key gang bx bk
          setHead part.g 4 (fun e => { e with pos := 65536 })
          if ← zDone part.g then releaseSlot key
    | _ => stall) s

/-- Reads the records of a list of addresses: none for those of an uncorrectable sector; the status, or a cause with its
address. -/
def sampleRecords (p : Port) : List Nat → Nat → Act (Except (Nat × Nat) (List (Option Nat) × Nat))
  | [], st => pure (.ok ([], st))
  | a :: rest, st => do
    match ← sampleSector p (a / 32 * 32) st with
    | .error c => return .error (c, a)
    | .ok (v, st1) =>
      match ← sampleRecords p rest st1 with
      | .error e => return .error e
      | .ok (vs, st2) => return .ok (v.map (fun v => fld v (8 * (a % 32)) 128) :: vs, st2)

/-- One channel of a resolved pixel: records with their weights, the channel's bit offset in a record (R376). -/
def resolveChannel (rs : List (Nat × Nat)) (lo : Nat) : Nat :=
  let total := (rs.map (fun r => r.2)).foldl (fun a b => a + b) 0
  let terms := (rs.filter (fun r => !(r.2 == 0))).map (fun r =>
    mulF (FV.ofInt (r.2 : Nat)) (decodeF fmt16 (fld r.1 lo 16)))
  match terms with
  | [] => 0
  | t :: ts => encodeF fmt16 0 (divF (ts.foldl (fun a b => addF 0 a b) t) (FV.ofInt (total : Nat)))

/-- A resolved pixel: four FP16 channels (R376). -/
def resolvePixel (rs : List (Nat × Nat)) : Nat :=
  resolveChannel rs 32 + resolveChannel rs 48 * 2 ^ 16 + resolveChannel rs 64 * 2 ^ 32 + resolveChannel rs 80 * 2 ^ 48

/-- Whether a channel of a pixel is a NaN. -/
def pixelNan (v : Nat) : Bool := (upFrom 0 4).any (fun i => (decodeF fmt16 (fld v (16 * i) 16)).isNan)

/-- The pixels whose output lies in a sector, with their addresses. -/
def pixelsAt (base pitch z : Nat) : List (Nat × Nat × Nat) :=
  (upFrom 0 32).flatMap (fun y => (upFrom 0 32).filterMap (fun x =>
    let a := base + y * pitch + 8 * x
    if a / 32 = z then some (x, y, a) else none))

/-- Resolves the pixels of a list: address and value of each, with the status; a cause with its address. -/
def resolvePixels (p : Port) (b : Raster) : List (Nat × Nat × Nat) → Nat → Act (Except (Nat × Nat) (List (Nat × Nat) × Nat))
  | [], st => pure (.ok ([], st))
  | (x, y, a) :: rest, st => do
    let n := patSamples b.header
    match ← sampleRecords p ((upFrom 0 n).map (fun i => b.record x y i)) st with
    | .error e => return .error e
    | .ok (rs, st1) =>
      let ws := (upFrom 0 n).map (fun i => b.weight (b.entry x y i))
      let good := (rs.zip ws).filterMap (fun r => r.1.map (fun v => (v, r.2)))
      let v := resolvePixel good
      match ← resolvePixels p b rest (if pixelNan v then worseSts st1 0x60 else st1) with
      | .error e => return .error e
      | .ok (vs, st2) => return .ok ((a, v) :: vs, st2)

/-- Resolves output sectors of a list, n at most; whether all are written. -/
def resolveRun (k : Nat) (p : Port) (b : Raster) (base : Nat) : Nat → List Nat → Act Bool
  | 0, zs => pure zs.isEmpty
  | _, [] => pure true
  | n + 1, z :: zs => do
    match ← resolvePixels p b (pixelsAt base (patPitch b.header) z) 0 with
    | .error (c, a) =>
      haltHead k 4 c a
      return false
    | .ok (vs, st) =>
      joinStatus k 4 st
      let bytes := vs.flatMap (fun (v : Nat × Nat) => (upFrom 0 8).map (fun (i : Nat) => (v.1 + i, fld v.2 (8 * i) 8)))
      match ← putSector k 4 1 p false z bytes with
      | .error c =>
        haltHead k 4 c (32 * z)
        return false
      | .ok false => return false
      | .ok true =>
        setHead k 4 (fun e => { e with pos := e.pos + 1 })
        resolveRun k p b base n zs

/-- SRESOLVE_ENTRY_PERFORM: the next n output sectors (R376, R382). Pattern tiles repeat over the screen from a bucket's
first pixel, since a bucket is a whole number of tiles. -/
def execSresolveEntryPerform (gk n : Nat) (s : State) : Host.Outcome State Fault Refusal :=
  perform (do
    let (g, qu, e) ← headOf gk 4
    match e.op with
    | .sresolve b _ _ base _ =>
      let p ← headPort gk 4
      let pitch := patPitch b.header
      setHead gk 4 (fun e => { e with started := true })
      let zs := sortBy (fun x => x) (((upFrom 0 32).flatMap (fun y => (upFrom 0 32).map (fun x => (base + y * pitch + 8 * x) / 32))).eraseDups)
      if ← resolveRun gk p b base n (zs.drop e.pos) then discard (zDone gk)
    | _ => stall) s

/-! ## Lane words (R377 to R379) -/

/-- Whether a selector is accepted: sample count, grid size when quads are named (R377). -/
def selectorOk (samples : Nat) (grid : Option (Nat × Nat)) (w : Nat) : Bool :=
  decide (fld w 10 6 < samples) &&
  (match grid with
  | none => decide (fld w 16 16 = 0)
  | some (nu, nv) => decide (fld w 25 7 = 0) && decide (fld w 16 4 < nu) && decide (fld w 20 4 < nv))

/-- The per-thread operands of an entry: TNUM, whether it is a helper, and its words. -/
def Lane.targ (l : Lane) (t : Nat) (ws : List Nat) : TArg :=
  ⟨t, (l.g.thread t).cls == .helper, ws.map (fun x => BitVec.ofNat 32 x)⟩

/-- SCOVER at issue (R378) (DEDUCED, log 45) -/
def execScover (w : LaneW) (s : State) : Host.Outcome State Fault Refusal :=
  perform (do
    let l ← myLane
    let ga ← getGang (l.k / 65536)
    let s ← now
    let xs ← readOps w (l.part w) [slot32 w.a]
    let slot := s.usableSlot ga (l.plain s 0 (slot64 w.b) 0)
    let grid := (slot.map (fun key => ((s.slotAt key).nu, (s.slotAt key).nv))).getD (16, 16)
    let n := (l.g.raster.map (fun b => patSamples b.header)).getD 64
    checkLane l [(l.g.lacks (w.d.toNat + 3), 0x04), (l.g.raster.isNone, 0x04), (ga.bucket.isNone, 0x04),
      (xs.any (fun x => !selectorOk n (some grid) (arg x.2 0)), 0x04), (slot.isNone, 0x41)]
    let key ← need slot
    let b ← need l.g.raster
    match ← readVA { (← myPort) with core := none } fresh (ga.bucket.getD 0) 4 with
    | .error c => raiseLane l c (ga.bucket.getD 0)
    | .ok xy =>
      if xs.isEmpty then laneDone
      else
        guardA ((← now).roomFor l.k 4)
        let tag ← laneLater w
        discard (issueEntry l.k 4 (.scover b (fld xy 0 16) (fld xy 16 16) key w.d.toNat (xs.map (fun x => l.targ x.1 x.2)) tag))) s

/-- What SCOVER writes for a thread: none where a slot word is uncorrectable (R378). -/
def State.scoverOf (s : State) (b : Raster) (bx bk key w : Nat) : Option (List Nat) :=
  let h := s.gridHead key
  let rows := s.gridRows key (hdNu h) (hdNv h)
  let e := b.entry (32 * bx + fld w 0 5) (32 * bk + fld w 5 5) (fld w 10 6)
  let (a, c, d) := triCorners (fld w 24 1)
  let at_ := fun (o : Nat × Nat) => (atGrid rows none (fld w 16 4 + o.1) (fld w 20 4 + o.2)).map (placeVertex (patCocw b.header) e)
  match at_ a, at_ c, at_ d with
  | some p0, some p1, some p2 =>
    let sx : Int := ((256 * (32 * bx + fld w 0 5) + fld e 0 8 : Nat) : Int)
    let sy : Int := ((256 * (32 * bk + fld w 5 5) + fld e 8 8 : Nat) : Int)
    let (area, e1, e2, cov) := coverage p0 p1 p2 sx sy
    if area = 0 ∨ !(p0.ok && p1.ok && p2.ok) then some [2, 0, 0, 0]
    else
      let (l1, l2, z) := depthOf p0 p1 p2 area e1 e2
      some [b2n cov, z, l1, l2]
  | _, _, _ => none

/-- Writes of four words from register d on. -/
def wordWrites (t d : Nat) (ws : List Nat) : List (Nat × Nat × W32) :=
  (upFrom 0 ws.length).map (fun i => (t, d + i, BitVec.ofNat 32 (nth ws i 0)))

/-- A lane entry of a queue ends at a thread's cause: those below have their results, and the cause waits for the group's
boundary (R224) (DEDUCED, log 46). -/
def entryFault (k q tag c tnum addr : Nat) : Act Unit := do
  resultReady k tag []
  discard (complete k q 0 0)
  upd (fun s => s.later (.group k) (Cause.ofThread c tnum addr))

/-- The threads of an SCOVER entry, ascending. -/
def scoverRun (k key : Nat) (b : Raster) (bx bk dst tag : Nat) : List TArg → Act Unit
  | [] => do
    resultReady k tag []
    discard (complete k 4 0 0)
    releaseSlot key
  | t :: ts => do
    match (← now).scoverOf b bx bk key (nth t.words 0 0).toNat with
    | none =>
      entryFault k 4 tag 0x13 t.tnum 0
      releaseSlot key
    | some ws =>
      resultAdd k tag (wordWrites t.tnum dst ws)
      scoverRun k key b bx bk dst tag ts

/-- SCOVER_ENTRY_PERFORM (R378) -/
def execScoverEntryPerform (gk : Nat) (s : State) : Host.Outcome State Fault Refusal :=
  perform (do
    let (g, qu, e) ← headOf gk 4
    match e.op with
    | .scover b bx bk key dst args tag =>
      guardA ((← now).gridReadyFor key e.born)
      scoverRun gk key b bx bk dst tag args
    | _ => stall) s

/-- SREAD at issue (R379) -/
def execSread (w : LaneW) (s : State) : Host.Outcome State Fault Refusal :=
  perform (do
    let l ← myLane
    let xs ← readOps w (l.part w) [slot32 w.a]
    let n := (l.g.raster.map (fun b => patSamples b.header)).getD 64
    checkLane l [(l.g.lacks (w.d.toNat + 3), 0x04), (l.g.raster.isNone, 0x04),
      (xs.any (fun x => !selectorOk n none (arg x.2 0)), 0x04)]
    let b ← need l.g.raster
    if xs.isEmpty then laneDone
    else
      guardA ((← now).roomFor l.k 4)
      let tag ← laneLater w
      discard (issueEntry l.k 4 (.sread b w.d.toNat (xs.map (fun x => l.targ x.1 x.2)) tag))) s

/-- SWRITE and SWRITE.Z at issue; a helper's selector, whose write is dropped, raises nothing (R61, R379) -/
def swriteOp (z : Bool) (w : LaneW) : Act Unit := do
  let l ← myLane
  let xs ← readOps w (l.part w) [slot32 w.b]
  let n := (l.g.raster.map (fun b => patSamples b.header)).getD 64
  checkLane l [(l.g.lacks (w.a.toNat + 3), 0x04), (l.g.raster.isNone, 0x04),
    (xs.any (fun x => !((l.g.thread x.1).cls == .helper) && !selectorOk n none (arg x.2 0)), 0x04)]
  let b ← need l.g.raster
  if !xs.isEmpty then
    guardA ((← now).roomFor l.k 4)
    let words := fun (t : Nat) => (upFrom 0 4).map (fun i => (Tab.getD (l.g.thread t).v (w.a.toNat + i) 0).toNat)
    let tag := (← getGroup l.k).tags
    modGroup l.k (fun g => { g with tags := g.tags + 1 })
    discard (issueEntry l.k 4 (.swrite b z (xs.map (fun x => l.targ x.1 (arg x.2 0 :: words x.1))) tag))
  laneDone

/-- SWRITE -/
def execSwrite (w : LaneW) (s : State) : Host.Outcome State Fault Refusal := perform (swriteOp false w) s
/-- SWRITE.Z -/
def execSwriteZ (w : LaneW) (s : State) : Host.Outcome State Fault Refusal := perform (swriteOp true w) s

/-- The address of the record a selector names. -/
def Raster.selected (b : Raster) (w : Nat) : Nat := b.record (fld w 0 5) (fld w 5 5) (fld w 10 6)

/-- A thread of the lane entry at the head of a queue is done: its result waits with the others. -/
def threadDone (k q tag : Nat) (ws : List (Nat × Nat × W32)) : Act Unit := do
  resultAdd k tag ws
  setHead k q (fun e => { e with started := true, pos := e.pos + 1 })

/-- The threads of an SREAD entry from the next on, n of them at most (R379). -/
def sreadRun (k : Nat) (p : Port) (b : Raster) (dst tag : Nat) : Nat → List TArg → Act Unit
  | _, [] => do
    resultReady k tag []
    discard (complete k 4 0 0)
  | 0, _ => pure ()
  | n + 1, t :: ts => do
    let a := b.selected (nth t.words 0 0).toNat
    match ← readVA p fresh a 16 with
    | .error c => entryFault k 4 tag c t.tnum a
    | .ok v =>
      threadDone k 4 tag (wordWrites t.tnum dst ((upFrom 0 4).map (fun i => fld v (32 * i) 32)))
      sreadRun k p b dst tag n ts

/-- What the records of a sector hold after the writes of the threads given, in order: a record is replaced, or under .z where
the new depth is less (R379). -/
def swriteOver (b : Raster) (z : Bool) (sector : Nat) : List TArg → Nat → Nat
  | [], v => v
  | t :: ts, v =>
    let lo := 8 * (b.selected (nth t.words 0 0).toNat - 32 * sector)
    let new := packWords ((t.words.drop 1).map (fun x => x.toNat))
    swriteOver b z sector ts (if z && !flt32 (fld new 0 32) (fld v lo 32) then v else setFld v lo 128 new)

/-- One sector of an SWRITE entry: the records that its threads name, in ascending TNUM order, as one indivisible update; the
cause that ended it, if any (R243, R244, R379, R381). -/
def swriteSector (k : Nat) (p : Port) (b : Raster) (z : Bool) (sector : Nat) (ts : List TArg) : Act (Option Nat) := do
  let whole := !z && ts.any (fun t => decide (b.selected (nth t.words 0 0).toNat % 32 = 0)) &&
    ts.any (fun t => decide (b.selected (nth t.words 0 0).toNat % 32 = 16))
  let old ← (do
    if whole then return .ok (0, false)
    else if z then
      match ← readVA p fresh (32 * sector) 32 with
      | .error c => return .error c
      | .ok v => return .ok (v, false)
    else readDest (k / 65536) p false sector : Act (Except Nat (Nat × Bool)))
  match old with
  | .error c => return some c
  | .ok (v, bad) =>
    if bad then return some 0x13
    else
      let v1 := swriteOver b z sector ts v
      if z ∧ v1 = v then return none
      else
        match ← writeVA p (32 * sector) 32 v1 with
        | .error c => return some c
        | .ok sent =>
          zNote k 1 0 sent
          return none

/-- The sectors of an SWRITE entry from the next on, ascending, n of them at most: whether all are done, and the cause that ended
them with its thread and address. -/
def swriteRun (k : Nat) (p : Port) (b : Raster) (z : Bool) (args : List TArg) : Nat → List Nat → Act (Bool × Option (Nat × Nat × Nat))
  | 0, zs => pure (zs.isEmpty, none)
  | _, [] => pure (true, none)
  | n + 1, x :: xs => do
    let ts := args.filter (fun t => decide (b.selected (nth t.words 0 0).toNat / 32 = x))
    match ← swriteSector k p b z x ts with
    | some c =>
      let t := ts.headD ⟨0, false, []⟩
      return (false, some (c, t.tnum, b.selected (nth t.words 0 0).toNat))
    | none =>
      setHead k 4 (fun e => { e with started := true, pos := e.pos + 1 })
      swriteRun k p b z args n xs

/-- SAMPLE_RECORD_ENTRY_PERFORM: the next n threads of an SREAD entry, or the next n sectors of an SWRITE entry. A cause of an SWRITE
waits for the group's boundary, or halts the queue of a group that has exited (R224, R280, R379). -/
def execSampleRecordEntryPerform (part : Part) (s : State) : Host.Outcome State Fault Refusal :=
  perform (do
    let (g, qu, e) ← headOf part.g 4
    let p ← headPort part.g 4
    match e.op with
    | .sread b dst args tag => sreadRun part.g p b dst tag part.n (args.drop e.pos)
    | .swrite b z args tag =>
      let mine := args.filter (fun t => !t.helper)
      let zs := sortBy (fun x => x) ((mine.map (fun t => b.selected (nth t.words 0 0).toNat / 32)).eraseDups)
      let (done, cause) ← swriteRun part.g p b z mine part.n (zs.drop e.pos)
      match cause with
      | none => if done then discard (zDone part.g)
      | some (c, t, a) =>
        if g.exited then haltHead part.g 4 c a
        else
          setHead part.g 4 (fun e => { e with pos := 32 })
          upd (fun s => s.later (.group part.g) (Cause.ofThread c t a))
          discard (zDone part.g)
    | _ => stall) s

end Sys2Proof.Machine
end

