-- ==== Sys2Proof/Machine/Lantern.lean ====
section
/-! DEFINITION. The Lantern ray unit and the radiance cache (R383 to R404): bindings, tracing, the regrouping of threads by
hit kind, hit records, and the cache's look-up, insertion and fading. -/

set_option linter.unusedVariables false

namespace Sys2Proof.Machine

open Sys2Proof

/-! ## The BVH descriptor (Table 14-1) -/

/-- NODEA -/
def bvhNodes (r : Nat) : Nat := fld r 0 64
/-- TRIA -/
def bvhTris (r : Nat) : Nat := fld r 64 64
/-- NNODE -/
def bvhNnode (r : Nat) : Nat := fld r 128 32
/-- NTRI -/
def bvhNtri (r : Nat) : Nat := fld r 160 26
/-- RCA -/
def bvhRca (r : Nat) : Nat := fld r 384 48
/-- RCLOG -/
def bvhRclog (r : Nat) : Nat := fld r 432 5
/-- CLOG -/
def bvhClog (r : Nat) : Int := sext 5 (fld r 437 5)

/-- Three FP32 values from a bit on. -/
def vec3 (r lo : Nat) : List Nat := (upFrom 0 3).map (fun i => fld r (lo + 32 * i) 32)

/-- A box: its lower and upper corner. -/
def boxAt (r lo : Nat) : List Nat × List Nat := (vec3 r lo, vec3 r (lo + 96))

/-- Whether a box holds no NaN. -/
def boxOk (b : List Nat × List Nat) : Bool := (b.1 ++ b.2).all (fun x => !fnan32 x)

/-- Whether a descriptor is valid (R384). -/
def bvhOk (r : Nat) : Bool :=
  decide (fld r 186 6 = 0) && decide (fld r 442 70 = 0) && decide (bvhNodes r % 64 = 0 ∧ bvhNodes r < 2 ^ 48) &&
  decide (bvhTris r % 16 = 0 ∧ bvhTris r < 2 ^ 48) && decide (1 ≤ bvhNnode r ∧ bvhNnode r ≤ 2 ^ 30) &&
  boxOk (boxAt r 192) && decide (bvhRca r % 256 = 0) &&
  (bvhRclog r == 0 && bvhRca r == 0 || decide (3 ≤ bvhRclog r ∧ bvhRclog r ≤ 24))

/-! ## Ray arithmetic (R387, R388) -/

/-- RNE(a × b − c). -/
def fms32 (a b c : Nat) : Nat :=
  encodeF fmt32 0 (addF 0 (mulF (decodeF fmt32 a) (decodeF fmt32 b)) (decodeF fmt32 c).neg)

/-- cross(a, b) -/
def crossF (a b : List Nat) : List Nat :=
  let x := fun (v : List Nat) => nth v 0 0
  let y := fun (v : List Nat) => nth v 1 0
  let z := fun (v : List Nat) => nth v 2 0
  [fms32 (y a) (z b) (fmul32 (z a) (y b)), fms32 (z a) (x b) (fmul32 (x a) (z b)), fms32 (x a) (y b) (fmul32 (y a) (x b))]

/-- dot(a, b) -/
def dotF (a b : List Nat) : Nat :=
  ffma32 (nth a 0 0) (nth b 0 0) (ffma32 (nth a 1 0) (nth b 1 0) (fmul32 (nth a 2 0) (nth b 2 0)))

/-- a − b, component by component. -/
def subF (a b : List Nat) : List Nat := (a.zip b).map (fun x => fsub32 x.1 x.2)

/-- A ray. -/
structure Ray where
  o : List Nat
  d : List Nat
  tmin : Nat
  tmax : Nat
  deriving DecidableEq, Repr

/-- The ray of eight register words (R391). -/
def Ray.ofWords (ws : List Nat) : Ray := ⟨ws.take 3, (ws.drop 3).take 3, nth ws 6 0, nth ws 7 0⟩

/-- Whether a ray is void (R387). -/
def Ray.void (r : Ray) : Bool :=
  !(r.o ++ r.d).all ffin32 || r.d.all (fun x => x % 2 ^ 31 == 0) || !ffin32 r.tmin || flt32 r.tmin 0 || fnan32 r.tmax ||
    flt32 r.tmax r.tmin

/-- One axis of the box test: whether it passes alone, and its entry and exit. -/
def boxAxis (o d lo hi : Nat) : Bool × Nat × Nat :=
  if d % 2 ^ 31 = 0 then (fle32 lo o && fle32 o hi, 0xFF800000, 0x7F800000)
  else
    let inv := fdiv32 0x3F800000 d
    let ta := fmul32 (fsub32 lo o) inv
    let tb := fmul32 (fsub32 hi o) inv
    (true, minF fmt32 false ta tb, minF fmt32 true ta tb)

/-- The box test (R388); a NaN passes nothing, and neither does a box whose lower corner exceeds its upper one (R386). -/
def boxPass (r : Ray) (b : List Nat × List Nat) : Bool :=
  (upFrom 0 3).all (fun c => fle32 (nth b.1 c 0) (nth b.2 c 0)) &&
  let axes := (upFrom 0 3).map (fun c => boxAxis (nth r.o c 0) (nth r.d c 0) (nth b.1 c 0) (nth b.2 c 0))
  axes.all (fun a => a.1) && axes.all (fun a => axes.all (fun b => fle32 a.2.1 b.2.2)) &&
    axes.all (fun a => fle32 r.tmin a.2.2) && axes.all (fun a => fle32 a.2.1 r.tmax)

/-- A hit of a ray with a triangle. -/
structure RayHit where
  tri : Nat
  t : Nat
  back : Bool
  kind : Nat
  b1 : Nat
  b2 : Nat
  deriving DecidableEq, Repr

/-- The triangle test on a triangle record (R388). -/
def triTest (r : Ray) (cullb cullf : Bool) (k rec1 : Nat) : Option RayHit :=
  let p0 := vec3 rec1 0
  let e1 := subF (vec3 rec1 96) p0
  let e2 := subF (vec3 rec1 192) p0
  let s := subF r.o p0
  let pv := crossF r.d e2
  let qv := crossF s e1
  let det := dotF e1 pv
  if feq32 det 0 || (cullb && flt32 det 0) || (cullf && flt32 0 det) then none
  else
    let inv := fdiv32 0x3F800000 det
    let b1 := fmul32 (dotF s pv) inv
    let b2 := fmul32 (dotF r.d qv) inv
    let t := fmul32 (dotF e2 qv) inv
    if fle32 0 b1 && fle32 0 b2 && fle32 (fadd32 b1 b2) 0x3F800000 && fle32 r.tmin t && fle32 t r.tmax then
      some ⟨k, t, flt32 det 0, fld rec1 288 4, b1, b2⟩
    else none

/-- The nearer of two hits; of equal t, the lower index (R389). -/
def nearer (a b : Option RayHit) : Option RayHit :=
  match a, b with
  | none, x => x
  | x, none => x
  | some x, some y => if flt32 y.t x.t || (feq32 y.t x.t && decide (y.tri < x.tri)) then some y else some x

/-- The hit record, or the miss record (R390). -/
def hitRecord4 (h : Option RayHit) : List Nat :=
  match h with
  | none => [0x03FFFFFF, 0x7F800000, 0, 0]
  | some h => [h.tri + b2n h.back * 2 ^ 26 + h.kind * 2 ^ 28, h.t, h.b1, h.b2]

/-! ## Traversal (R385, R386, R389) -/

/-- Whether a child word is valid (Table 14-2a). -/
def childOk (bvh c : Nat) : Bool :=
  if bit c 30 then decide (c = 2 ^ 30)
  else if bit c 31 then decide (fld c 0 26 + fld c 26 4 < bvhNtri bvh)
  else decide (fld c 0 30 < bvhNnode bvh)

/-- Whether a node record is valid, apart from its depth (R386). -/
def nodeOk (bvh n : Nat) : Bool :=
  decide (fld n 448 64 = 0) && boxOk (boxAt n 0) && boxOk (boxAt n 192) && childOk bvh (fld n 384 32) && childOk bvh (fld n 416 32)

/-- Whether a triangle record is valid (R386). -/
def triOk (t : Nat) : Bool :=
  decide (fld t 292 28 = 0) && (vec3 t 0 ++ vec3 t 96 ++ vec3 t 192).all ffin32 && decide (fld t 288 4 ≠ 0)

/-- Tests n triangles of a leaf from k on: the nearest hit so far, or a cause with its address. -/
def leafHits (p : Port) (bvh : Nat) (r : Ray) (cullb cullf : Bool) : Nat → Nat → Option RayHit → Act (Except (Nat × Nat) (Option RayHit))
  | 0, _, best => pure (.ok best)
  | n + 1, k, best => do
    let a := bvhTris bvh + 48 * k
    match ← readRange p fresh a 48 with
    | .error e => return .error e
    | .ok t =>
      if !triOk t then return .error (0x60, a)
      else leafHits p bvh r cullb cullf n (k + 1) (nearer best (triTest r cullb cullf k t))

/-- Visits a node and what its passing children hold; the fuel is what the path may still pass (DEDUCED, log 47). -/
def visitNode (p : Port) (bvh : Nat) (r : Ray) (cullb cullf : Bool) : Nat → Nat → Option RayHit → Act (Except (Nat × Nat) (Option RayHit))
  | 0, i, _ => pure (.error (0x60, bvhNodes bvh + 64 * i))
  | fuel + 1, i, best => do
    let a := bvhNodes bvh + 64 * i
    match ← readRange p fresh a 64 with
    | .error e => return .error e
    | .ok n =>
      if !nodeOk bvh n then return .error (0x60, a)
      else
        let child : Nat → Option RayHit → Act (Except (Nat × Nat) (Option RayHit)) := fun c best => do
          let w := fld n (384 + 32 * c) 32
          if bit w 30 || !boxPass r (boxAt n (192 * c)) then return .ok best
          else if bit w 31 then leafHits p bvh r cullb cullf (fld w 26 4 + 1) (fld w 0 26) best
          else visitNode p bvh r cullb cullf fuel (fld w 0 30) best
        match ← child 0 best with
        | .error e => return .error e
        | .ok b => child 1 b

/-- Traces a ray (R387 to R389). -/
def traceRay (p : Port) (bvh : Nat) (r : Ray) (cullb cullf : Bool) : Act (Except (Nat × Nat) (Option RayHit)) :=
  if r.void || !boxPass r (boxAt bvh 192) then pure (.ok none) else visitNode p bvh r cullb cullf 64 0 none

/-! ## BVHBIND -/

/-- BVHBIND (R401) -/
def execBvhbind (d a b : BitVec 5) (s : State) : Host.Outcome State Fault Refusal :=
  perform (do
    discard myGroup
    let (n, ga) ← myGang
    let va ← sreg a.toNat
    let i ← sreg b.toNat
    check [(decide (i > 3), 0x04), (decide (va ≥ 2 ^ 48), 0x10), (decide (va % 64 ≠ 0), 0x12)]
    let r ← readRec va 64
    if !bvhOk r then raise 0x60
    putGang n { ga with bvh := Tab.set ga.bvh i r }
    finishWith d.toNat (bvhNtri r)) s

/-! ## Issuing Y entries -/

/-- The words of n registers of a thread from one on. -/
def Lane.regWords (l : Lane) (t a n : Nat) : List Nat := (upFrom 0 n).map (fun i => (Tab.getD (l.g.thread t).v (a + i) 0).toNat)

/-- The binding slot an immediate names, of the issuing gang. -/
def slotRecord (l : Lane) (imm : Nat) : Act (Option Nat) := do
  return Tab.find (← getGang (l.k / 65536)).bvh (fld imm 0 2)

/-- A fresh result tag for a lane word that has no result. -/
def freshTag (k : Nat) : Act Nat := do
  let g ← getGroup k
  putGroup k { g with tags := g.tags + 1 }
  return g.tags

/-- The checks of a Lantern lane word (R166, and "Lane instructions"). -/
def lanternChecks (l : Lane) (regs : List Nat) (r : Option Nat) (cache : Bool) : Act Unit :=
  checkLane l (regs.map (fun x => (l.g.lacks x, 0x04)) ++
    [(r.isNone, 0x04), (cache && ((r.map bvhRclog).getD 1 == 0), 0x04)])

/-- The miss record for the helpers among some threads. -/
def helperMisses (l : Lane) (ts : List Nat) (d : Nat) : List (Nat × Nat × W32) :=
  (ts.filter (fun t => (l.g.thread t).cls == .helper)).flatMap (fun t => wordWrites t d (hitRecord4 none))

/-- TRACE at issue; with only helpers in part(F) no entry issues, and the miss records come as any result does (R89, R391) -/
def execTrace (w : LaneW) (s : State) : Host.Outcome State Fault Refusal :=
  perform (do
    let l ← myLane
    let imm := w.imm.toNat
    let r ← slotRecord l imm
    lanternChecks l [w.a.toNat + 7, w.d.toNat + 3] r false
    let bvh ← need r
    let ts := l.part w
    let rays := ts.filter (fun t => !((l.g.thread t).cls == .helper))
    if ts.isEmpty then laneDone
    else if rays.isEmpty then
      let tag ← laneLater w
      resultReady l.k tag (helperMisses l ts w.d.toNat)
    else
      guardA ((← now).roomFor l.k 5)
      let tag ← laneLater w
      discard (issueEntry l.k 5 (.trace bvh (bit imm 8) (bit imm 9) w.d.toNat
        (ts.map (fun t => l.targ t (l.regWords t w.a.toNat 8))) tag))) s

/-- Sets the wait of a group's first fragment that traces under TRACE.SORT. -/
def sortTraced (k : Nat) : Act Unit :=
  modGroup k (fun g => { g with run := { g.run with frags := g.run.frags.map (fun (f : Frag) => match f.wait with
    | .tracing x => { f with wait := .meeting g.sorts x }
    | _ => f) } })

/-- The root join after a TRACE.SORT at x parks at it: the joined fragment continues at x itself (R189, R392) (DEDUCED, log 48). -/
def RootJoin.sortAt (r : RootJoin) (x : Int) : RootJoin :=
  { r with rc := some (x - 1) }

/-- TRACE.SORT at issue (R392) -/
def execTraceSort (w : LaneW) (s : State) : Host.Outcome State Fault Refusal :=
  perform (do
    closeLane
    let l ← myLane
    let x := l.fr.pc
    let imm := w.imm.toNat
    checkLane l [(!l.fr.stack.isEmpty, 0x04)]
    match l.g.run.root with
    | some r => putGroup l.k ({ l.g with run := { l.g.run with root := some (r.sortAt x) } }.resume l.fi l.fr.mask)
    | none =>
      let r ← slotRecord l imm
      lanternChecks l [w.a.toNat + 7, w.d.toNat + 3] r false
      let bvh ← need r
      let ts := l.active
      let rays := ts.filter (fun t => !((l.g.thread t).cls == .helper))
      guardA ((← now).roomFor l.k 5)
      let tag ← freshTag l.k
      modGroup l.k (fun g => { g with
        sorts := g.sorts + 1
        lpend := if rays.isEmpty then g.lpend else g.lpend ++ [⟨tag, false, []⟩]
        threads := if rays.isEmpty then writeLanes g.threads (helperMisses l ts w.d.toNat) else g.threads
        run := { g.run with frags := setNth g.run.frags l.fi { l.fr with wait := .tracing x } } })
      if rays.isEmpty then sortTraced l.k
      else discard (issueEntry l.k 5 (.trace bvh (bit imm 8) (bit imm 9) w.d.toNat
        (ts.map (fun t => l.targ t (l.regWords t w.a.toNat 8))) tag))) s

/-- The threads of a TRACE entry from the next on, n of them at most: whether all were traced (R391). -/
def traceRun (k : Nat) (p : Port) (bvh : Nat) (cullb cullf : Bool) (dst tag : Nat) : Nat → List TArg → Act Bool
  | _, [] => pure true
  | 0, _ => pure false
  | n + 1, t :: ts => do
    let r ← (if t.helper then pure (.ok none) else traceRay p bvh (Ray.ofWords (t.words.map (fun x => x.toNat))) cullb cullf)
    match r with
    | .error (c, a) =>
      entryFault k 5 tag c t.tnum a
      return false
    | .ok h =>
      threadDone k 5 tag (wordWrites t.tnum dst (hitRecord4 h))
      traceRun k p bvh cullb cullf dst tag n ts

/-- TRACE_ENTRY_PERFORM: the next n threads; a TRACE.SORT's group then enters its meeting (R391, R392). -/
def execTraceEntryPerform (part : Part) (s : State) : Host.Outcome State Fault Refusal :=
  perform (do
    let (g, qu, e) ← headOf part.g 5
    match e.op with
    | .trace bvh cullb cullf dst args tag =>
      if ← traceRun part.g (← headPort part.g 5) bvh cullb cullf dst tag part.n (args.drop e.pos) then
        resultReady part.g tag []
        discard (complete part.g 5 0 0)
        let sorting := g.run.frags.any (fun f => match f.wait with | .tracing _ => true | _ => false)
        let windowed := g.run.frags.any (fun f => f.wins.any (fun v => v.1 == tag))
        if sorting && !windowed then
          modGroup part.g (fun g => g.writeTags [tag])
          sortTraced part.g
    | _ => stall) s

/-! ## The meeting (R393, R394) -/

/-- The lane index at which a group waits in its n-th meeting. -/
def Group.meetingAt (g : Group) (n : Nat) : Option Int :=
  g.run.frags.findSome? (fun f => match f.wait with
    | .meeting m x => if m = n then some x else none
    | _ => none)

/-- A member's movers, finished threads among them: position, and the KIND of its hit (R394) (DEDUCED, log 48). -/
def Group.movers (g : Group) : List (Nat × Nat) :=
  match g.run.frags with
  | f :: _ =>
    let d := match decodeLane f.word with
      | .ok (.traceSort w) => w.d.toNat
      | _ => 0
    ((upFrom 0 32).filter (fun t => (g.thread t).cls == .normal)).map (fun t =>
      (t, fld (Tab.getD (g.thread t).v d 0).toNat 28 4))
  | [] => []

/-- The members of a meeting leave it with the threads given to each position, as one fragment of the unfinished ones at x + 1, or
with their run ended where none is left (R189, R394). -/
def Group.afterMeeting (g : Group) (x : Int) (put : List (Nat × Thread)) : Group :=
  let g1 := { g with threads := put.foldl (fun ts (p : Nat × Thread) => Tab.set ts p.1 p.2) g.threads }
  let left := g1.unfinished
  { g1 with run := { g1.run with
      linkWd := 8
      frags := g1.run.frags.map (fun (f : Frag) => { f with mask := left, pc := x + 1, stack := [], wait := .none }) } }.resumeEmpty
    g1.run.frags.length

/-- TRACE_SORT_MEETING: the n-th meeting of the groups of one gang on one core with equal register counts (R393, R394). -/
def execTraceSortMeeting (gang pos regcnt n : Nat) (s : State) : Host.Outcome State Fault Refusal :=
  perform (do
    let s ← now
    let members := sortBy (fun (g : Nat × Group) => g.1) (s.groups.filter (fun g => g.1 / 65536 == gang && g.2.id.pos == pos &&
      g.2.regcnt == regcnt && !g.2.exited && decide (g.2.sorts ≤ n)))
    let ats := members.map (fun g => g.2.meetingAt n)
    guardA (!members.isEmpty && ats.all (fun x => x.isSome) && members.all (fun g => !g.2.st.stopped))
    let x := (ats.head?.getD none).getD 0
    if ats.any (fun y => !(y == some x)) then
      members.forM (fun g => do
        let y := (g.2.meetingAt n).getD 0
        modGroup g.1 (fun g => { g with run := { g.run with frags := g.run.frags.map (fun (f : Frag) => { f with wait := .none }) } })
        raiseUnit (.group g.1) (Cause.atLane 0x04 y (leastOf 0 (g.2.run.frags.flatMap (fun f => bitsOf 32 f.mask.toNat))) 0))
    else
      let all := members.flatMap (fun g => g.2.movers.map (fun m => (g.1, m.1, m.2, g.2.thread m.1)))
      let sorted := sortBy (fun (m : Nat × Nat × Nat × Thread) => m.2.2.1) all
      let spots := all.map (fun m => (m.1, m.2.1))
      let moves := spots.zip (sorted.map (fun m => m.2.2.2))
      members.forM (fun g =>
        modGroup g.1 (fun x1 => x1.afterMeeting x ((moves.filter (fun m => m.1.1 == g.1)).map (fun m => (m.1.2, m.2)))))) s

/-! ## HITGET -/

/-- HITGET at issue (R395) -/
def execHitget (w : LaneW) (s : State) : Host.Outcome State Fault Refusal :=
  perform (do
    let l0 ← myLane
    let xs ← readOps w (l0.part w) [slot32 w.a]
    let l ← myLane
    let r ← slotRecord l w.imm.toNat
    lanternChecks l [w.d.toNat + 2] r false
    let bvh ← need r
    if xs.isEmpty then laneDone
    else
      guardA ((← now).roomFor l.k 5)
      let tag ← laneLater w
      discard (issueEntry l.k 5 (.hitget bvh w.c.toNat w.d.toNat (xs.map (fun x => l.targ x.1 [arg x.2 0])) tag))) s

/-- The threads of a HITGET entry from the next on, ascending, n of them at most (R395). -/
def hitgetRun (k : Nat) (p : Port) (bvh sel dst tag : Nat) : Nat → List TArg → Act Unit
  | _, [] => do
    resultReady k tag []
    discard (complete k 5 0 0)
  | 0, _ => pure ()
  | n + 1, t :: ts => do
    let i := fld (nth t.words 0 0).toNat 0 26
    if i = 0x3FFFFFF then
      threadDone k 5 tag (wordWrites t.tnum dst [0, 0, 0])
      hitgetRun k p bvh sel dst tag n ts
    else if i ≥ bvhNtri bvh then entryFault k 5 tag 0x04 t.tnum 0
    else
      match ← readRange p fresh (bvhTris bvh + 48 * i) 48 with
      | .error (c, a) => entryFault k 5 tag c t.tnum a
      | .ok r =>
        threadDone k 5 tag (wordWrites t.tnum dst (vec3 r (96 * sel)))
        hitgetRun k p bvh sel dst tag n ts

/-- HITGET_ENTRY_PERFORM: the next n threads (R395) -/
def execHitgetEntryPerform (part : Part) (s : State) : Host.Outcome State Fault Refusal :=
  perform (do
    let (g, qu, e) ← headOf part.g 5
    match e.op with
    | .hitget bvh sel dst args tag => hitgetRun part.g (← headPort part.g 5) bvh sel dst tag part.n (args.drop e.pos)
    | _ => stall) s

/-! ## The radiance cache (R396 to R400) -/

/-- The key of a position and a normal, six FP32 words; none when there is none (R397). -/
def cacheKey (bvh : Nat) (ws : List Nat) : Option Nat :=
  let p := ws.take 3
  let n := (ws.drop 3).take 3
  if !(p ++ n).all ffin32 || n.all (fun x => x % 2 ^ 31 == 0) then none
  else
    let q := fun (x : Nat) => match decodeF fmt32 x with
      | .fin s m e => wrap 20 (FV.fin s m (e - bvhClog bvh)).floorInt
      | _ => 0
    let ab := fun (i : Nat) => fabs32 (nth n i 0)
    let a := if ab 0 ≥ ab 1 ∧ ab 0 ≥ ab 2 then 0 else if ab 1 ≥ ab 2 then 1 else 2
    let nc := 2 * a + b2n (bit (nth n a 0) 31)
    some (q (nth p 0 0) + q (nth p 1 0) * 2 ^ 20 + q (nth p 2 0) * 2 ^ 40 + nc * 2 ^ 60)

/-- The address of probe position i of a key (R396, R397). -/
def probeAddr (bvh key i : Nat) : Nat :=
  let h := key * 0x9E3779B97F4A7C15 % 2 ^ 64 / 2 ^ (64 - bvhRclog bvh)
  bvhRca bvh + 32 * ((h + i) % 2 ^ bvhRclog bvh)

/-- Reads n probe positions from i on; a cause with its address. -/
def readProbes (p : Port) (bvh key : Nat) : Nat → Nat → Act (Except (Nat × Nat) (List Nat))
  | 0, _ => pure (.ok [])
  | n + 1, i => do
    let a := probeAddr bvh key i
    match ← readVA p fresh a 32 with
    | .error c => return .error (c, a)
    | .ok v =>
      match ← readProbes p bvh key n (i + 1) with
      | .error e => return .error e
      | .ok vs => return .ok (v :: vs)

/-- VALID of a cache slot. -/
def slotValid (v : Nat) : Bool := bit v 80
/-- CONF -/
def slotConf (v : Nat) : Nat := fld v 64 16
/-- Whether a slot is valid and holds a key. -/
def slotHas (key v : Nat) : Bool := slotValid v && fld v 0 64 == key

/-- RCLOOK at issue (R399) -/
def execRclook (w : LaneW) (s : State) : Host.Outcome State Fault Refusal :=
  perform (do
    let l ← myLane
    let r ← slotRecord l w.imm.toNat
    lanternChecks l [w.a.toNat + 5, w.d.toNat + 1] r true
    let bvh ← need r
    let ts := l.part w
    if ts.isEmpty then laneDone
    else
      guardA ((← now).roomFor l.k 5)
      let tag ← laneLater w
      discard (issueEntry l.k 5 (.rclook bvh w.d.toNat (ts.map (fun t => l.targ t (l.regWords t w.a.toNat 6))) tag))) s

/-- The two result words of a look-up in the slots of a key (R399). -/
def lookWords (key : Nat) (vs : List Nat) : List Nat :=
  match vs.find? (slotHas key) with
  | none => [0, 0]
  | some v => [fld v 96 32, fld v 128 16 + slotConf v * 2 ^ 16]

/-- The threads of an RCLOOK entry from the next on, ascending, n of them at most. -/
def rclookRun (k : Nat) (p : Port) (bvh dst tag : Nat) : Nat → List TArg → Act Unit
  | _, [] => do
    resultReady k tag []
    discard (complete k 5 0 0)
  | 0, _ => pure ()
  | n + 1, t :: ts => do
    match cacheKey bvh (t.words.map (fun x => x.toNat)) with
    | none =>
      threadDone k 5 tag (wordWrites t.tnum dst [0, 0])
      rclookRun k p bvh dst tag n ts
    | some key =>
      match ← readProbes p bvh key 8 0 with
      | .error (c, a) => entryFault k 5 tag c t.tnum a
      | .ok vs =>
        threadDone k 5 tag (wordWrites t.tnum dst (lookWords key vs))
        rclookRun k p bvh dst tag n ts

/-- RCLOOK_ENTRY_PERFORM: the next n threads (R399) -/
def execRclookEntryPerform (part : Part) (s : State) : Host.Outcome State Fault Refusal :=
  perform (do
    let (g, qu, e) ← headOf part.g 5
    match e.op with
    | .rclook bvh dst args tag => rclookRun part.g (← headPort part.g 5) bvh dst tag part.n (args.drop e.pos)
    | _ => stall) s

/-- RCINS at issue (R400) -/
def execRcins (w : LaneW) (s : State) : Host.Outcome State Fault Refusal :=
  perform (do
    let l ← myLane
    let r ← slotRecord l w.imm.toNat
    lanternChecks l [w.a.toNat + 7] r true
    let bvh ← need r
    let ts := (l.part w).filter (fun t => !((l.g.thread t).cls == .helper))
    if !ts.isEmpty then
      guardA ((← now).roomFor l.k 5)
      let tag ← freshTag l.k
      discard (issueEntry l.k 5 (.rcins bvh (ts.map (fun t => l.targ t (l.regWords t w.a.toNat 8))) tag))
    laneDone) s

/-- The probe position that an insertion writes (R400). -/
def insertAt (key : Nat) (vs : List Nat) : Nat :=
  match (upFrom 0 8).find? (fun i => slotHas key (nth vs i 0)) with
  | some i => i
  | none =>
    match (upFrom 0 8).find? (fun i => !slotValid (nth vs i 0)) with
    | some i => i
    | none =>
      let low := leastOf 0 (vs.map slotConf)
      ((upFrom 0 8).find? (fun i => slotConf (nth vs i 0) == low)).getD 0

/-- The slot that an insertion writes (Table 14-6). -/
def insertSlot (key c0 c1 : Nat) : Nat :=
  key + fld c1 16 16 * 2 ^ 64 + 2 ^ 80 + fld c0 0 32 * 2 ^ 96 + fld c1 0 16 * 2 ^ 128

/-- Records in the head of a Y queue a sector it wrote. -/
def yNote (k n st : Nat) (sent : Option (Nat × Nat)) : Act Unit :=
  setHead k 5 (fun e => { e with
    started := true, wrote := e.wrote + n
    status := BitVec.ofNat 32 (worseSts e.status.toNat st)
    sent := match sent with
      | none => e.sent
      | some (h, c) => Tab.set e.sent h (max c (Tab.getD e.sent h 0)) })

/-- One thread of an RCINS entry, an indivisible operation: the cause that ended it, if any (R398, R400). -/
def rcinsOne (k : Nat) (p : Port) (bvh : Nat) (t : TArg) : Act (Option (Nat × Nat × Nat)) := do
  let ws := t.words.map (fun x => x.toNat)
  match cacheKey bvh ws with
  | none => return none
  | some key =>
    if fld (nth ws 7 0) 16 16 = 0 then return none
    else
      match ← readProbes p bvh key 8 0 with
      | .error (c, a) => return some (c, t.tnum, a)
      | .ok vs =>
        let a := probeAddr bvh key (insertAt key vs)
        match ← writeVA p a 32 (insertSlot key (nth ws 6 0) (nth ws 7 0)) with
        | .error c => return some (c, t.tnum, a)
        | .ok sent =>
          yNote k 1 0 sent
          return none

/-- The threads of an RCINS entry from the next on, ascending, n of them at most: whether all are done, and the cause that ended
them. -/
def rcinsRun (k : Nat) (p : Port) (bvh : Nat) : Nat → List TArg → Act (Bool × Option (Nat × Nat × Nat))
  | _, [] => pure (true, none)
  | 0, _ => pure (false, none)
  | n + 1, t :: ts => do
    match ← rcinsOne k p bvh t with
    | some x => return (false, some x)
    | none =>
      setHead k 5 (fun e => { e with started := true, pos := e.pos + 1 })
      rcinsRun k p bvh n ts

/-- Completes the head of a Y queue once its writes have reached their homes. -/
def yDone (k : Nat) : Act Unit := do
  if ← headReached k 5 then
    let e ← need ((← getGroup k).queue 5).ents.head?
    discard (complete k 5 (e.status.toNat / 16) (e.status.toNat % 16))

/-- RCINS_ENTRY_PERFORM: the next n threads. A cause waits for the group's boundary, or halts the queue of a group that has exited
(R224, R280, R400). -/
def execRcinsEntryPerform (part : Part) (s : State) : Host.Outcome State Fault Refusal :=
  perform (do
    let (g, qu, e) ← headOf part.g 5
    match e.op with
    | .rcins bvh args tag =>
      let (done, cause) ← rcinsRun part.g (← headPort part.g 5) bvh part.n (args.drop e.pos)
      match cause with
      | none => if done then yDone part.g
      | some (c, t, a) =>
        if g.exited then haltHead part.g 5 c a
        else
          setHead part.g 5 (fun e => { e with pos := 32 })
          upd (fun s => s.later (.group part.g) (Cause.ofThread c t a))
          yDone part.g
    | _ => stall) s

/-! ## RCFADE -/

/-- RCFADE (R402) -/
def execRcfade (d a b : BitVec 5) (s : State) : Host.Outcome State Fault Refusal :=
  perform (do
    let k ← myGroup
    let (_, ga) ← myGang
    let i ← sreg a.toNat
    let v ← sreg b.toNat
    let r := if i < 4 then Tab.find ga.bvh i else none
    let bar := v / 2 ^ 32
    check [(r.isNone, 0x04), ((r.map bvhRclog).getD 1 == 0, 0x04), (decide (fld v 0 9 > 256), 0x04),
      (decide (fld v 10 22 ≠ 0), 0x04), (!bit v 9 && decide (bar ≠ 0), 0x04), (bit v 9 && decide (bar % 16 ≠ 0), 0x12),
      (bit v 9 && decide (bar ≥ 16 * ga.nbar), 0x04)]
    waitSettled
    let bvh ← need r
    finishWith d.toNat (← issueEntry k 5 (.rcfade bvh (fld v 0 9) (if bit v 9 then some bar else none)))) s

/-- A cache slot after a fade by factor f. -/
def fadeSlot (f v : Nat) : Nat :=
  if slotValid v then
    let c := slotConf v * f / 256
    if c = 0 then 0 else setFld v 64 16 c
  else v

/-- Fades the next n slots from slot i on: whether no cause was met. -/
def fadeRun (k : Nat) (p : Port) (bvh f : Nat) : Nat → Nat → Act Bool
  | 0, _ => pure true
  | n + 1, i => do
    if i ≥ 2 ^ bvhRclog bvh then return true
    let a := bvhRca bvh + 32 * i
    let before := (← now).corrections
    let got ← readVA p fresh a 32
    let after := (← now).corrections
    let put : Option (Nat × Nat × Bool) := match got with
      | .ok v => some (fadeSlot f v, if before == after then 0 else 0x20, !(fadeSlot f v == v))
      | .error c => if c = 0x13 then some (0, 0x31, true) else none
    match put, got with
    | none, .error c =>
      haltHead k 5 c a
      return false
    | none, .ok _ => return false
    | some (v, st, write), _ =>
      match ← (if write then writeVA p a 32 v else pure (.ok none)) with
      | .error c =>
        haltHead k 5 c a
        return false
      | .ok sent =>
        yNote k (b2n write) st sent
        setHead k 5 (fun e => { e with pos := i + 1 })
        fadeRun k p bvh f n (i + 1)

/-- RCFADE_ENTRY_PERFORM: the next n slots (R402, R404). -/
def execRcfadeEntryPerform (gk n : Nat) (s : State) : Host.Outcome State Fault Refusal :=
  perform (do
    let (g, qu, e) ← headOf gk 5
    match e.op with
    | .rcfade bvh f _ =>
      setHead gk 5 (fun e => { e with started := true })
      if ← fadeRun gk (← headPort gk 5) bvh f n e.pos then
        let e ← need ((← getGroup gk).queue 5).ents.head?
        if e.pos ≥ 2 ^ bvhRclog bvh then yDone gk
    | _ => stall) s

end Sys2Proof.Machine
end

