-- ==== Sys2Proof/Machine/Sampler.lean ====
section
/-! DEFINITION. The texture sampler (R405 to R418): bindings, mip layout and residency, filtering in exact arithmetic, the
latent fallback, and the sampler's lane instructions and entries. -/

set_option linter.unusedVariables false

namespace Sys2Proof.Machine

open Sys2Proof

/-! ## The texture descriptor (Table 15-1) -/

/-- BASE -/
def texBase (r : Nat) : Nat := fld r 0 64
/-- RMAP -/
def texRmap (r : Nat) : Nat := fld r 64 48
/-- LATA -/
def texLata (r : Nat) : Nat := fld r 128 48
/-- WLOG -/
def texWlog (r : Nat) : Nat := fld r 192 4
/-- HLOG -/
def texHlog (r : Nat) : Nat := fld r 196 4
/-- LVM1 -/
def texLvm1 (r : Nat) : Nat := fld r 200 4
/-- FMT is FP16 rather than unsigned normalised. -/
def texHalf (r : Nat) : Bool := fld r 204 2 == 1
/-- FILT -/
def texTrilinear (r : Nat) : Bool := bit r 206
/-- WRAPU -/
def texClampU (r : Nat) : Bool := bit r 207
/-- WRAPV -/
def texClampV (r : Nat) : Bool := bit r 208
/-- LWLOG -/
def texLwlog (r : Nat) : Nat := fld r 209 4
/-- LHLOG -/
def texLhlog (r : Nat) : Nat := fld r 213 4
/-- BIAS -/
def texBias (r : Nat) : Nat := fld r 224 32

/-- Whether a descriptor is valid (R406). -/
def texOk (r : Nat) : Bool :=
  decide (fld r 112 16 = 0 ∧ fld r 176 16 = 0 ∧ fld r 217 7 = 0 ∧ fld r 256 256 = 0) && decide (fld r 204 2 < 2) &&
  decide (texBase r < 2 ^ 48 ∧ texBase r % 256 = 0) && decide (texLata r % 128 = 0 ∧ texLata r ≠ 0) &&
  decide (texWlog r ≤ 14 ∧ texHlog r ≤ 14 ∧ texLvm1 r ≤ max (texWlog r) (texHlog r)) &&
  decide (texLwlog r ≤ 12 ∧ texLhlog r ≤ 12) && ffin32 (texBias r)

/-! ## Levels, texels and tiles (R407, R408) -/

/-- w_l -/
def texW (r l : Nat) : Nat := 2 ^ (texWlog r - l)
/-- h_l -/
def texH (r l : Nat) : Nat := 2 ^ (texHlog r - l)
/-- b: bytes of a texel -/
def texelBytes (r : Nat) : Nat := if texHalf r then 8 else 4
/-- p_l -/
def texPitch (r l : Nat) : Nat := 64 * ((texW r l * texelBytes r + 63) / 64)
/-- z_l -/
def texSize (r l : Nat) : Nat := 256 * ((texPitch r l * texH r l + 255) / 256)
/-- OFF_l -/
def texOff (r : Nat) : Nat → Nat
  | 0 => 0
  | l + 1 => texOff r l + texSize r l
/-- The address of texel (i, j) of a level. -/
def texelAddr (r l i j : Nat) : Nat := texBase r + texOff r l + j * texPitch r l + i * texelBytes r
/-- tw_l -/
def texTilesX (r l : Nat) : Nat := (texW r l + 63) / 64
/-- th_l -/
def texTilesY (r l : Nat) : Nat := (texH r l + 63) / 64
/-- ROFF_l -/
def texRoff (r : Nat) : Nat → Nat
  | 0 => 0
  | l + 1 => texRoff r l + (texTilesX r l * texTilesY r l + 7) / 8

/-- The address of the residency byte of a tile. -/
def texBitAddr (r l tx ty : Nat) : Nat := texRmap r + texRoff r l + (ty * texTilesX r l + tx) / 8

/-! ## Reading with a status -/

/-- What one read of the sampler gave: the bytes, none when uncorrectable, and whether a correction was made. -/
abbrev TexRead := Option Nat × Bool

/-- The thread that the sampler works for: its group, the port, and its TNUM. -/
structure TexAt where
  k : Nat
  port : Port
  tnum : Nat
  deriving DecidableEq, Repr

/-- The number under which an H entry holds a read that it made ahead. -/
def TexAt.key (p : TexAt) (va n : Nat) : Nat := (64 * p.tnum + n) * 2 ^ 64 + va

/-- A read as an entry holds it. -/
def TexRead.hold (x : TexRead) : Nat := 4 * x.1.getD 0 + 2 * b2n x.1.isNone + b2n x.2
/-- A read that an entry holds. -/
def TexRead.held (x : Nat) : TexRead := (if bit x 1 then none else some (x / 4), bit x 0)

/-- Reads n bytes of one sector at die scope: a memory cause with its address, or the bytes. -/
def texReadNow (p : Port) (va n : Nat) : Act (Except (Nat × Nat) TexRead) := do
  let before := (← now).corrections
  let got ← readVA p fresh va n
  let after := (← now).corrections
  match got with
  | .ok v => return .ok (some v, !(before == after))
  | .error c => if c = 0x13 then return .ok (none, false) else return .error (c, va)

/-- A read of a thread: what the entry read ahead, else what memory holds now (R417). -/
def texRead (p : TexAt) (va n : Nat) : Act (Except (Nat × Nat) TexRead) := do
  let g ← getGroup p.k
  match (g.queue 6).ents.head?.bind (fun e => Tab.find e.reads (p.key va n)) with
  | some x => return .ok (TexRead.held x)
  | none => texReadNow p.port va n

/-- The tile's residency bit and a status: an uncorrectable byte is all clear (R408, R412). -/
def texBit (p : TexAt) (r l tx ty : Nat) : Act (Except (Nat × Nat) (Bool × Nat)) := do
  if texRmap r = 0 then return .ok (true, 0)
  let t := ty * texTilesX r l + tx
  match ← texRead p (texBitAddr r l tx ty) 1 with
  | .error e => return .error e
  | .ok (none, _) => return .ok (false, 0x32)
  | .ok (some v, fixed) => return .ok (bit v (t % 8), if fixed then 0x20 else 0)

/-! ## Coordinates and weights (R409, R410) -/

/-- L: the LOD clamped, in units of 1/256 (R409). -/
def lodFix (r lod : Nat) : Nat :=
  match decodeF fmt32 lod with
  | .nan => 0
  | .inf neg => if neg then 0 else 256 * texLvm1 r
  | .fin neg m e => if neg then 0 else min (roundTo 0 neg m (e + 8) 0) (256 * texLvm1 r)

/-- l0 and fl of an LOD (R409). -/
def lodLevels (r lod : Nat) : Nat × Nat :=
  let l := lodFix r lod
  if !texTrilinear r then ((l + 128) / 256, 0)
  else if l / 256 = texLvm1 r then (l / 256, 0) else (l / 256, l % 256)

/-- X: 256 × (u × size − 0.5) to the nearest integer, tie to even, for a size of 2^lg (R410). -/
def texCoord (lg u : Nat) : Int :=
  match decodeF fmt32 u with
  | .fin neg m e =>
    match addF 0 (.fin neg m (e + 8 + lg)) (FV.ofInt (-128)) with
    | .fin n k q => let v : Int := roundTo 0 n k q 0; if n then -v else v
    | _ => 0
  | _ => 0

/-- ix or jy: repeat or clamp within a size. -/
def texWrap (clamp : Bool) (size : Nat) (i : Int) : Nat :=
  if clamp then (max 0 (min i ((size : Int) - 1))).toNat else (i % (size : Int)).toNat

/-- The texels of a level that a sample reads, each with its weight: those of weight 0 are left out (R410). -/
def texTaps (lw lh : Nat) (cu cv : Bool) (u v : Nat) : List (Nat × Nat × Nat) :=
  let x := texCoord lw u
  let y := texCoord lh v
  let fx := (x % 256).toNat
  let fy := (y % 256).toNat
  let ix := fun (d : Int) => texWrap cu (2 ^ lw) (x / 256 + d)
  let jy := fun (d : Int) => texWrap cv (2 ^ lh) (y / 256 + d)
  [(ix 0, jy 0, (256 - fx) * (256 - fy)), (ix 1, jy 0, fx * (256 - fy)), (ix 0, jy 1, (256 - fx) * fy),
    (ix 1, jy 1, fx * fy)].filter (fun t => !(t.2.2 == 0))

/-- A weighted sum of exact values (R410). -/
def weigh (xs : List (Nat × FV)) : FV :=
  match xs.map (fun x => mulF (.fin false x.1 0) x.2) with
  | [] => .fin false 0 0
  | y :: ys => ys.foldl (addF 0) y

/-- An exact value divided by 2^24 (DEDUCED, log 32). -/
def FV.over24 : FV → FV
  | .fin n m e => .fin n m (e - 24)
  | x => x

/-! ## One thread -/

/-- What the sampler gave one thread: four channels, whether they come from the latent, and a status. -/
structure TexOut where
  words : List Nat
  approx : Bool
  status : Nat
  deriving DecidableEq, Repr

/-- Whether the tiles of some texels are all resident, with the status of reading their bits (R412). -/
def tapsResident (p : TexAt) (r : Nat) : List (Nat × Nat × Nat × Nat) → Act (Except (Nat × Nat) (Bool × Nat))
  | [] => pure (.ok (true, 0))
  | (l, i, j, _) :: rest => do
    match ← texBit p r l (i / 64) (j / 64) with
    | .error e => return .error e
    | .ok (b, st) =>
      match ← tapsResident p r rest with
      | .error e => return .error e
      | .ok (b1, st1) => return .ok (b && b1, worseSts st st1)

/-- Reads texels: their words, none when one is uncorrectable, and whether a correction was made. -/
def readTaps (p : TexAt) (r : Nat) : List (Nat × Nat × Nat × Nat) → Act (Except (Nat × Nat) (Option (List Nat) × Bool))
  | [] => pure (.ok (some [], false))
  | (l, i, j, _) :: rest => do
    match ← texRead p (texelAddr r l i j) (texelBytes r) with
    | .error e => return .error e
    | .ok (none, _) => return .ok (none, false)
    | .ok (some v, fixed) =>
      match ← readTaps p r rest with
      | .error e => return .error e
      | .ok (vs, fixed1) => return .ok (vs.map (fun x => v :: x), fixed || fixed1)

/-- Channel ch of a texel. -/
def texChannel (r ch v : Nat) : FV := if texHalf r then decodeF fmt16 (fld v (16 * ch) 16) else FV.ofInt ((fld v (8 * ch) 8 : Nat) : Int)

/-- A filtered channel (R410). -/
def texFilter (r : Nat) (s : FV) : Nat :=
  if texHalf r then encodeF fmt32 0 s.over24
  else
    match s with
    | .fin _ m _ => encodeF fmt32 0 (quotient false m (2 ^ 24 * 255) 0)
    | _ => 0

/-- Pieces of the latent record from an address on, each within a sector: an uncorrectable one reads as zero (R413). -/
def latRead (p : TexAt) : List (Nat × Nat) → Act (Except (Nat × Nat) (List Nat × Nat))
  | [] => pure (.ok ([], 0))
  | (a, n) :: rest => do
    match ← texRead p a n with
    | .error e => return .error e
    | .ok (v, fixed) =>
      match ← latRead p rest with
      | .error e => return .error e
      | .ok (vs, st) =>
        return .ok (v.getD 0 :: vs, worseSts (if v.isNone then 0x33 else if fixed then 0x20 else 0) st)

/-- One output channel of the decoder: the bias and eight fused steps, from the decoder's three sectors (R413). -/
def latChannel (r : Nat) (dec : List Nat) (z : List Nat) (c : Nat) : Nat :=
  let half := fun (off : Nat) => f32of16 (fld (nth dec (off / 32) 0) (8 * (off % 32)) 16)
  let acc := (upFrom 0 8).foldl (fun a k => ffma32 (half (16 * c + 2 * k)) (nth z k 0) a) (half (64 + 2 * c))
  if texHalf r then acc else minF fmt32 false (minF fmt32 true acc 0) 0x3F800000

/-- The decoder's pieces of the latent record. -/
def decPieces (r : Nat) : List (Nat × Nat) := [(texLata r, 32), (texLata r + 32, 32), (texLata r + 64, 8)]
/-- The latent texels that (u, v) names, with their weights. -/
def latTaps (r u v : Nat) : List (Nat × Nat × Nat) := texTaps (texLwlog r) (texLhlog r) (texClampU r) (texClampV r) u v
/-- The piece of the latent record that holds a latent texel. -/
def latPiece (r : Nat) (t : Nat × Nat × Nat) : Nat × Nat := (texLata r + 128 + 16 * (t.2.1 * 2 ^ texLwlog r + t.1), 16)

/-- Decodes the latent at finite (u, v) (R413). -/
def latDecode (p : TexAt) (r u v : Nat) : Act (Except (Nat × Nat) (List Nat × Nat)) := do
  match ← latRead p (decPieces r) with
  | .error e => return .error e
  | .ok (dec, st) =>
    let taps := latTaps r u v
    match ← latRead p (taps.map (latPiece r)) with
    | .error e => return .error e
    | .ok (ws, st1) =>
      let z := (upFrom 0 8).map (fun k =>
        encodeF fmt32 0 (weigh ((taps.zip ws).map (fun x => (256 * x.1.2.2, decodeF fmt16 (fld x.2 (16 * k) 16))))).over24)
      let nan := if z.any fnan32 then 0x60 else 0
      return .ok ((upFrom 0 4).map (latChannel r dec z), worseSts (worseSts st st1) nan)

/-- A thread that falls back to the latent, with the status so far. -/
def texFallback (p : TexAt) (r u v st : Nat) : Act (Except (Nat × Nat) TexOut) := do
  match ← latDecode p r u v with
  | .error e => return .error e
  | .ok (ws, st1) => return .ok ⟨ws, true, worseSts st st1⟩

/-- The texels that a sample at (u, v) with an LOD names, each with its level and weight (R409, R410). -/
def sampleTaps (r u v lod : Nat) : List (Nat × Nat × Nat × Nat) :=
  let (l0, fl) := lodLevels r lod
  let level := fun (l k : Nat) =>
    (texTaps (texWlog r - l) (texHlog r - l) (texClampU r) (texClampV r) u v).map (fun t => (l, t.1, t.2.1, k * t.2.2))
  level l0 (256 - fl) ++ (if fl = 0 then [] else level (l0 + 1) fl)

/-- Samples at (u, v) with an LOD (R409 to R412). -/
def texSample (p : TexAt) (r u v lod : Nat) : Act (Except (Nat × Nat) TexOut) := do
  let taps := sampleTaps r u v lod
  match ← tapsResident p r taps with
  | .error e => return .error e
  | .ok (resident, st) =>
    if !resident then texFallback p r u v (worseSts st 0x90)
    else
      match ← readTaps p r taps with
      | .error e => return .error e
      | .ok (none, _) => texFallback p r u v (worseSts st 0x31)
      | .ok (some ws, fixed) =>
        let sums := (upFrom 0 4).map (fun ch => weigh ((taps.zip ws).map (fun x => (x.1.2.2.2, texChannel r ch x.2))))
        let nan := if sums.any FV.isNan then 0x60 else 0
        return .ok ⟨sums.map (texFilter r), false, worseSts (worseSts st (if fixed then 0x20 else 0)) nan⟩

/-- 2^n as FP32, for n at most 14. -/
def pow2F (n : Nat) : Nat := fOfDyadic 1 n

/-- The LOD of TEXG from its four gradients (R414). -/
def texGradLod (r dudx dvdx dudy dvdy : Nat) : Nat :=
  if fnan32 dudx || fnan32 dvdx || fnan32 dudy || fnan32 dvdy then 0x7FC00000
  else
    let len := fun (du dv : Nat) =>
      let a := fmul32 du (pow2F (texWlog r))
      let b := fmul32 dv (pow2F (texHlog r))
      ffma32 a a (fmul32 b b)
    fadd32 (fmul32 0x3F000000 (flog2 (minF fmt32 true (len dudx dvdx) (len dudy dvdy)))) (texBias r)

/-- The LOD of a thread of a TEX (form 0), TEXG (1) or TEXLAT (2) entry (R414). -/
def texLod (r form : Nat) (ws : List Nat) : Nat :=
  let w := fun (i : Nat) => nth ws i 0
  if form = 0 then fadd32 (w 2) (texBias r) else if form = 1 then texGradLod r (w 2) (w 3) (w 4) (w 5) else 0

/-- Whether a thread samples nothing (R411). -/
def texVoid (r form : Nat) (ws : List Nat) : Bool :=
  !ffin32 (nth ws 0 0) || !ffin32 (nth ws 1 0) || fnan32 (texLod r form ws)

/-- What a thread of a TEX (form 0), TEXG (1) or TEXLAT (2) entry gets from its operand words (R411, R413, R414). -/
def texThread (p : TexAt) (r form : Nat) (ws : List Nat) : Act (Except (Nat × Nat) TexOut) := do
  let u := nth ws 0 0
  let v := nth ws 1 0
  if texVoid r form ws then return .ok ⟨[0, 0, 0, 0], false, 0x80⟩
  else if form = 2 then texFallback p r u v 0
  else texSample p r u v (texLod r form ws)

/-- The reads that a thread may make, in no order among themselves: residency bytes, texels and latent (R417). -/
def texReads (r form : Nat) (ws : List Nat) : List (Nat × Nat) :=
  if texVoid r form ws then []
  else
    let u := nth ws 0 0
    let v := nth ws 1 0
    let taps := if form = 2 then [] else sampleTaps r u v (texLod r form ws)
    (if texRmap r = 0 then [] else taps.map (fun t => (texBitAddr r t.1 (t.2.1 / 64) (t.2.2.1 / 64), 1))) ++
    taps.map (fun t => (texelAddr r t.1 t.2.1 t.2.2.1, texelBytes r)) ++
    decPieces r ++ (latTaps r u v).map (latPiece r)

/-! ## TEXBIND -/

/-- TEXBIND (R405, R418) -/
def execTexbind (d a b : BitVec 5) (s : State) : Host.Outcome State Fault Refusal :=
  perform (do
    discard myGroup
    let (n, ga) ← myGang
    let va ← sreg a.toNat
    let i ← sreg b.toNat
    check [(decide (i > 3), 0x04), (decide (va ≥ 2 ^ 48), 0x10), (decide (va % 64 ≠ 0), 0x12)]
    let r ← readRec va 64
    if !texOk r then raise 0x70
    putGang n { ga with tex := Tab.set ga.tex i r }
    finishWith d.toNat (texLvm1 r + 1)) s

/-! ## Issuing H entries -/

/-- The descriptor of the slot that an immediate names, of the issuing gang. -/
def texSlot (l : Lane) (imm : Nat) : Act (Option Nat) := do
  return Tab.find (← getGang (l.k / 65536)).tex (fld imm 0 2)

/-- The barrier that an immediate names: bits 15:8 hold an index, 0xFF none (Table 15-2). -/
def texBar (imm : Nat) : BarRef := if fld imm 8 8 = 0xFF then none else some (16 * fld imm 8 8)

/-- The checks of a sampler lane word: ranges that end at the registers given, the slot and the barrier index. -/
def texChecks (l : Lane) (regs : List Nat) (imm : Nat) (r : Option Nat) : Act Unit := do
  let ga ← getGang (l.k / 65536)
  checkLane l (regs.map (fun x => (l.g.lacks x, 0x04)) ++
    [(r.isNone, 0x04), (decide (fld imm 8 8 ≠ 0xFF ∧ fld imm 8 8 ≥ ga.nbar), 0x04)])

/-- TEX, TEXG or TEXLAT at issue, with the number of its operand registers (R414). -/
def texIssue (form n : Nat) (w : LaneW) : Act Unit := do
  let l ← myLane
  let imm := w.imm.toNat
  let r ← texSlot l imm
  texChecks l [w.a.toNat + (n - 1), w.d.toNat + 4] imm r
  let desc ← need r
  let ts := l.part w
  if ts.isEmpty then laneDone
  else
    guardA ((← now).roomFor l.k 6)
    let tag ← laneLater w
    discard (issueEntry l.k 6 (.tex desc form w.d.toNat (ts.map (fun t => l.targ t (l.regWords t w.a.toNat n))) (texBar imm) tag))

/-- TEX (R414) -/
def execTex (w : LaneW) (s : State) : Host.Outcome State Fault Refusal := perform (texIssue 0 3 w) s
/-- TEXG (R414) -/
def execTexg (w : LaneW) (s : State) : Host.Outcome State Fault Refusal := perform (texIssue 1 6 w) s
/-- TEXLAT (R414) -/
def execTexlat (w : LaneW) (s : State) : Host.Outcome State Fault Refusal := perform (texIssue 2 2 w) s

/-- TEXQ at issue (R415) -/
def execTexq (w : LaneW) (s : State) : Host.Outcome State Fault Refusal :=
  perform (do
    let l0 ← myLane
    let xs ← readOps w (l0.part w) [slot32 w.a, slot32 w.b]
    let l ← myLane
    let imm := w.imm.toNat
    let r ← texSlot l imm
    texChecks l [w.d.toNat + 3] imm r
    let desc ← need r
    if xs.isEmpty then laneDone
    else
      guardA ((← now).roomFor l.k 6)
      let tag ← laneLater w
      discard (issueEntry l.k 6 (.texq desc w.d.toNat (xs.map (fun x => l.targ x.1 x.2)) (texBar imm) tag))) s

/-! ## H entries performing -/

/-- A sampler operation that arrives at no barrier: one whose threads did not all perform (R416). -/
def EOp.silent : EOp → EOp
  | .tex r f d a _ t => .tex r f d a none t
  | .texq r d a _ t => .texq r d a none t
  | op => op

/-- Ends an H entry at a thread's cause: the threads below have their results unless the entry arrives at a barrier, when
none has (R224, R268). -/
def texFault (k tag c tnum addr : Nat) (below : List (Nat × Nat × W32)) : Act Unit := do
  let e ← need ((← getGroup k).queue 6).ents.head?
  if e.op.bar.isNone then resultAdd k tag below else resultDrop k tag
  setHead k 6 (fun e => { e with op := e.op.silent })
  entryFault k 6 tag c tnum addr

/-- A thread of the H entry at the head is done: its result waits, and the entry gathers its status and, of a thread whose
result came from the latent, its TNUM. -/
def texDone (k tag st : Nat) (approx : Bool) (t : Nat) (ws : List (Nat × Nat × W32)) : Act Unit := do
  threadDone k 6 tag ws
  setHead k 6 (fun e => { e with
    status := BitVec.ofNat 32 (worseSts e.status.toNat st)
    buf := if approx then e.buf ++ [BitVec.ofNat 8 t] else e.buf })

/-- One read that the head makes ahead of the thread that needs it: one that meets a cause is left to the thread (R417)
(DESIGN CHOICE, log 92). -/
def texAhead (k : Nat) (p : Port) (t : TArg) (va n : Nat) : Act Unit := do
  match ← texReadNow p va n with
  | .error _ => pure ()
  | .ok x =>
    setHead k 6 (fun e => { e with started := true, reads := Tab.set e.reads ((⟨k, p, t.tnum⟩ : TexAt).key va n) x.hold })

/-- The reads that the head makes ahead: 32 times a place among the reads of a thread, plus the thread's TNUM. -/
def readAhead (k : Nat) (p : Port) (reads : TArg → List (Nat × Nat)) (left : List TArg) (ahead : List Nat) : Act Unit :=
  ahead.forM (fun x =>
    match left.find? (fun t => t.tnum == x % 32) with
    | none => pure ()
    | some t =>
      match (reads t)[x / 32]? with
      | none => pure ()
      | some y => texAhead k p t y.1 y.2)

/-- Completes the H entry at the head with the status it gathered. -/
def texComplete (k tag : Nat) (ws : Ent → List (Nat × Nat × W32)) : Act Unit := do
  let e ← need ((← getGroup k).queue 6).ents.head?
  resultReady k tag (ws e)
  discard (complete k 6 (e.status.toNat / 16) (e.status.toNat % 16))

/-- The mask words of threads of a TEX entry, from what it has gathered (R414). -/
def maskWords (dst : Nat) (ts : List TArg) (e : Ent) : List (Nat × Nat × W32) :=
  ts.map (fun t => (t.tnum, dst + 4, BitVec.ofNat 32 (maskOf (e.buf.map (fun b => b.toNat)))))

/-- The threads of a TEX, TEXG or TEXLAT entry from the next on, n of them at most (R414) (DEDUCED, log 34). -/
def texRun (k : Nat) (p : Port) (r form dst tag : Nat) (all : List TArg) : Nat → List TArg → Act Unit
  | _, [] => texComplete k tag (maskWords dst all)
  | 0, _ => pure ()
  | n + 1, t :: ts => do
    match ← texThread ⟨k, p, t.tnum⟩ r form (t.words.map (fun x => x.toNat)) with
    | .error (c, a) =>
      let e ← need ((← getGroup k).queue 6).ents.head?
      texFault k tag c t.tnum a (maskWords dst (all.filter (fun i => decide (i.tnum < t.tnum))) e)
    | .ok o =>
      texDone k tag o.status o.approx t.tnum (wordWrites t.tnum dst o.words)
      texRun k p r form dst tag all n ts

/-- TEX_ENTRY_PERFORM: the reads made ahead, then the next n threads (R410 to R414, R416, R417) -/
def execTexEntryPerform (part : ReadPart) (s : State) : Host.Outcome State Fault Refusal :=
  perform (do
    let (g, qu, e) ← headOf part.g 6
    match e.op with
    | .tex r form dst args bar tag =>
      let p ← headPort part.g 6
      readAhead part.g p (fun t => texReads r form (t.words.map (fun x => x.toNat))) (args.drop e.pos) part.ahead
      texRun part.g p r form dst tag args part.n (args.drop e.pos)
    | _ => stall) s

/-- Whether a thread of a TEXQ entry names no tile of a level. -/
def texqBeyond (r lv tile : Nat) : Bool := decide (fld tile 0 16 ≥ texTilesX r lv ∨ fld tile 16 16 ≥ texTilesY r lv)

/-- What a thread of a TEXQ entry gets from its level and tile words (R415) (DEDUCED, log 33). -/
def texqThread (p : TexAt) (r lv tile : Nat) : Act (Except (Nat × Nat) (List Nat × Nat)) := do
  if lv > texLvm1 r then return .ok ([0, 0, 0, 0], 0x81)
  let out := fun (b : Bool) => [texW r lv, texH r lv, b2n b, texLvm1 r + 1]
  if texqBeyond r lv tile then return .ok (out false, 0)
  match ← texBit p r lv (fld tile 0 16) (fld tile 16 16) with
  | .error e => return .error e
  | .ok (b, st) => return .ok (out b, st)

/-- The reads that a thread of a TEXQ entry may make. -/
def texqReads (r : Nat) (t : TArg) : List (Nat × Nat) :=
  let lv := (nth t.words 0 0).toNat
  let tile := (nth t.words 1 0).toNat
  if decide (lv > texLvm1 r) || texqBeyond r lv tile || texRmap r == 0 then []
  else [(texBitAddr r lv (fld tile 0 16) (fld tile 16 16), 1)]

/-- The threads of a TEXQ entry from the next on, n of them at most. -/
def texqRun (k : Nat) (p : Port) (r dst tag : Nat) : Nat → List TArg → Act Unit
  | _, [] => texComplete k tag (fun _ => [])
  | 0, _ => pure ()
  | n + 1, t :: ts => do
    match ← texqThread ⟨k, p, t.tnum⟩ r (nth t.words 0 0).toNat (nth t.words 1 0).toNat with
    | .error (c, a) => texFault k tag c t.tnum a []
    | .ok (ws, st) =>
      texDone k tag st false t.tnum (wordWrites t.tnum dst ws)
      texqRun k p r dst tag n ts

/-- TEXQ_ENTRY_PERFORM: the reads made ahead, then the next n threads (R415, R416, R417) -/
def execTexqEntryPerform (part : ReadPart) (s : State) : Host.Outcome State Fault Refusal :=
  perform (do
    let (g, qu, e) ← headOf part.g 6
    match e.op with
    | .texq r dst args bar tag =>
      let p ← headPort part.g 6
      readAhead part.g p (texqReads r) (args.drop e.pos) part.ahead
      texqRun part.g p r dst tag part.n (args.drop e.pos)
    | _ => stall) s

end Sys2Proof.Machine
end

