-- ==== Sys2Proof/Machine/Transform.lean ====
section
/-! DEFINITION. The transform pipe (R419 to R444): colour transforms, sensor words, raw blocks and the delta-compressed
surface. -/

set_option linter.unusedVariables false

namespace Sys2Proof.Machine

open Sys2Proof

/-! ## The pipe (R419) -/

/-- The STAGE of a group's node (R44) (DEDUCED, log 37). -/
def State.stageOf (s : State) (k : Nat) : Nat :=
  match s.gangOf (.group k) with
  | none => 0
  | some g => fld (s.nodeRec g) 244 3

/-- The head of a group's X queue, if the pipe may take it or has it: no head of another group of the core that may perform
comes before it. One that the pipe has taken comes first, then the lower STAGE, then the one issued earlier (R419). -/
def pipeHead (k : Nat) : Act (Group × Queue × Ent) := do
  let (g, qu, e) ← headOf k 7
  let s ← now
  let here := s.poolPlace 0 k g
  let others := s.groups.filter (fun x => !(x.1 == k) && s.poolPlace 0 x.1 x.2 == here)
  let first := fun (x : Nat × Group) (o : Ent) =>
    (o.started && !e.started) || (o.started == e.started &&
      decide (s.stageOf x.1 < s.stageOf k ∨ (s.stageOf x.1 = s.stageOf k ∧ o.born < e.born)))
  guardA (!others.any (fun x => match (x.2.queue 7).ents.head? with
    | none => false
    | some o => s.mayPerform x.1 x.2 (x.2.queue 7) o && first x o))
  return (g, qu, e)

/-- The entry that the pipe has, to go on with. A turn that finds the pipe free takes the head and does no more: an entry that
waits for its operands holds the pipe (R419). -/
def pipeEntry (k : Nat) : Act (Option (Group × Queue × Ent)) := do
  let h ← pipeHead k
  if h.2.2.started then return some h
  else
    setHead k 7 (fun e => { e with started := true })
    return none

/-- Completes the head of an X queue once its writes have reached their homes. -/
def xDone (k : Nat) : Act Unit := do
  if ← headReached k 7 then
    let e ← need ((← getGroup k).queue 7).ents.head?
    discard (complete k 7 (e.status.toNat / 16) (e.status.toNat % 16))

/-- A lane transform entry ends at a cause: no thread has performed (R423). -/
def xFault (k tag : Nat) (args : List TArg) (c addr : Nat) : Act Unit :=
  entryFault k 7 tag c ((args.head?.map (fun t => t.tnum)).getD 0) addr

/-! ## Reading with uncorrectable sectors -/

/-- Bytes that an engine read: an uncorrectable byte reads as zero and is marked in `bad`. -/
structure Got where
  val : Nat
  bad : Nat
  fixed : Bool
  deriving DecidableEq, Repr

/-- Reads n bytes in pieces that each lie in one sector; the first memory cause met, with its address. -/
def gather (p : Port) : Nat → Nat → Nat → Act (Except (Nat × Nat) Got)
  | 0, _, _ => pure (.ok ⟨0, 0, false⟩)
  | k + 1, va, n => do
    if n = 0 then return .ok ⟨0, 0, false⟩
    let here := min n (32 - va % 32)
    match ← texReadNow p va here with
    | .error e => return .error e
    | .ok (v, fixed) =>
      match ← gather p k (va + here) (n - here) with
      | .error e => return .error e
      | .ok x =>
        return .ok ⟨v.getD 0 + x.val * 2 ^ (8 * here), (if v.isNone then 2 ^ here - 1 else 0) + x.bad * 2 ^ here, fixed || x.fixed⟩

/-- Reads n bytes at a virtual address at die scope (R249) (DEDUCED, log 35). -/
def readGot (p : Port) (va n : Nat) : Act (Except (Nat × Nat) Got) := gather p (n / 32 + 2) va n

/-- The status of a read: an uncorrectable operand, a correction, or ok. -/
def Got.status (x : Got) : Nat := if x.bad ≠ 0 then 0x31 else if x.fixed then 0x20 else 0

/-- Whether W bits from bit b on touch an uncorrectable byte. -/
def Got.spoils (x : Got) (b w : Nat) : Bool := w != 0 && fld x.bad (b / 8) ((b + w - 1) / 8 - b / 8 + 1) != 0

/-- The pieces of n bytes from an address on, each within a sector. -/
def sectorPieces : Nat → Nat → Nat → List (Nat × Nat)
  | 0, _, _ => []
  | k + 1, va, n =>
    if n = 0 then []
    else
      let here := min n (32 - va % 32)
      (va, here) :: sectorPieces k (va + here) (n - here)

/-! ## Colour descriptors (R424, R425) -/

/-- KIND -/
def xdKind (r : Nat) : Nat := fld r 504 4
/-- CLAMP -/
def xdClamp (r : Nat) : Bool := bit r 508
/-- m[c][k] -/
def xdM (r c k : Nat) : Nat := fld r (128 * c + 32 * k) 32
/-- TBASE -/
def xdTable (r : Nat) : Nat := fld r 0 48
/-- LO -/
def xdLo (r : Nat) : Nat := fld r 64 32
/-- SCL -/
def xdScl (r : Nat) : Nat := fld r 96 32
/-- N -/
def xdN (r : Nat) : Nat := fld r 128 12 + 1
/-- PERCH -/
def xdPerch (r : Nat) : Bool := bit r 140

/-- Whether a descriptor is valid for an instruction of a kind (R424). -/
def xdOk (kind r : Nat) : Bool :=
  xdKind r == kind && fld r 509 3 == 0 &&
  (if kind = 1 then decide (fld r 384 120 = 0) && (upFrom 0 12).all (fun i => ffin32 (fld r (32 * i) 32))
   else
    decide (fld r 48 16 = 0) && decide (xdTable r % 8 = 0) && ffin32 (xdLo r) && ffin32 (xdScl r) && flt32 0 (xdScl r) &&
    (if kind = 2 then decide (fld r 141 363 = 0) && decide (2 ≤ xdN r)
     else decide (fld r 140 364 = 0) && decide (2 ≤ xdN r ∧ xdN r ≤ 65)))

/-- Reads a table entry of n bytes: an uncorrectable one is +0 (R426). -/
def tableRead (p : Port) (a n : Nat) : Act (Except (Nat × Nat) (Nat × Nat)) := do
  match ← texReadNow p a n with
  | .error e => return .error e
  | .ok (none, _) => return .ok (0, 0x31)
  | .ok (some v, fixed) => return .ok (v, if fixed then 0x20 else 0)

/-- clamp(RNE(RNE(x − LO) × SCL), 0, N − 1) and its floor (R428, R429). -/
def tableIndex (r x : Nat) : Nat × Nat :=
  let w := minF fmt32 false (minF fmt32 true (fmul32 (fsub32 x (xdLo r)) (xdScl r)) 0) (fOfInt ((xdN r - 1 : Nat) : Int))
  (w, ((decodeF fmt32 w).floorInt).toNat)

/-- What a colour step gives: words and a status. -/
abbrev ColourOut := Except (Nat × Nat) (List Nat × Nat)

/-- XMAT's channels (R427). -/
def matChannels (r : Nat) (x : List Nat) : List Nat :=
  (upFrom 0 3).map (fun c =>
    ffma32 (xdM r c 0) (nth x 0 0) (ffma32 (xdM r c 1) (nth x 1 0) (ffma32 (xdM r c 2) (nth x 2 0) (xdM r c 3))))

/-- One channel of XLUT1 (R428). -/
def lut1Channel (p : Port) (r c x : Nat) : Act (Except (Nat × Nat) (Nat × Nat)) := do
  if fnan32 x then return .ok (0x7FC00000, 0)
  let (w, i) := tableIndex r x
  let at1 := fun (i : Nat) => xdTable r + 2 * (xdN r * (if xdPerch r then c else 0) + i)
  match ← tableRead p (at1 i) 2 with
  | .error e => return .error e
  | .ok (a, st) =>
    if i = xdN r - 1 then return .ok (f32of16 a, st)
    match ← tableRead p (at1 (i + 1)) 2 with
    | .error e => return .error e
    | .ok (b, st1) => return .ok (flerp32 (f32of16 a) (f32of16 b) (fsub32 w (fOfInt (i : Int))), worseSts st st1)

/-- The channels of XLUT1 from channel c on. -/
def lut1Channels (p : Port) (r : Nat) : Nat → List Nat → Act ColourOut
  | _, [] => pure (.ok ([], 0))
  | c, x :: xs => do
    match ← lut1Channel p r c x with
    | .error e => return .error e
    | .ok (o, st) =>
      match ← lut1Channels p r (c + 1) xs with
      | .error e => return .error e
      | .ok (os, st1) => return .ok (o :: os, worseSts st st1)

/-- Reads table nodes at the addresses given. -/
def readNodes (p : Port) : List Nat → Act ColourOut
  | [] => pure (.ok ([], 0))
  | a :: rest => do
    match ← tableRead p a 8 with
    | .error e => return .error e
    | .ok (v, st) =>
      match ← readNodes p rest with
      | .error e => return .error e
      | .ok (vs, st1) => return .ok (v :: vs, worseSts st st1)

/-- XLUT3's channels (R429). -/
def lut3Channels (p : Port) (r : Nat) (x : List Nat) : Act ColourOut := do
  if x.any fnan32 then return .ok ([0x7FC00000, 0x7FC00000, 0x7FC00000], 0)
  let n := xdN r
  let axes := x.map (fun v =>
    let (w, i0) := tableIndex r v
    let i := min i0 (n - 2)
    (i, fsub32 w (fOfInt (i : Int))))
  let f := fun (a : Nat) => (nth axes a (0, 0)).2
  let order := sortBy (fun a => 2 ^ 32 - f a) (upFrom 0 3)
  let a := fun (m : Nat) => nth order m 0
  let node := fun (up : List Nat) =>
    let c := fun (d : Nat) => (nth axes d (0, 0)).1 + b2n (up.contains d)
    xdTable r + 8 * (c 0 + n * c 1 + n * n * c 2)
  match ← readNodes p [node [], node [a 0], node [a 0, a 1], node [0, 1, 2]] with
  | .error e => return .error e
  | .ok (q, st) =>
    let ch := fun (m c : Nat) => f32of16 (fld (nth q m 0) (16 * c) 16)
    let out := (upFrom 0 3).map (fun c =>
      let d := fun (m : Nat) => fsub32 (ch m c) (ch (m - 1) c)
      ffma32 (f (a 2)) (d 3) (ffma32 (f (a 1)) (d 2) (ffma32 (f (a 0)) (d 1) (ch 0 c))))
    return .ok (out, st)

/-- One thread of a colour entry (R426). -/
def colourThread (p : Port) (kind r : Nat) (x : List Nat) : Act ColourOut := do
  match ← (if kind = 1 then pure (.ok (matChannels r x, 0)) else if kind = 2 then lut1Channels p r 0 x else lut3Channels p r x) with
  | .error e => return .error e
  | .ok (o, st) =>
    let out := if xdClamp r then o.map (fun v => minF fmt32 false (minF fmt32 true v 0) 0x3F800000) else o
    return .ok (out, worseSts st (if out.any fnan32 then 0x60 else 0))

/-! ## Lane transform instructions at issue -/

/-- The value of a scalar register broadcast to the lane run. -/
def Lane.scalar (s : State) (l : Lane) (code : Nat) : Nat := l.plain s 0 ⟨code, true, false⟩ 0

/-- XMAT, XLUT1 or XLUT3 at issue (R420, R422, R424). -/
def colourIssue (kind : Nat) (w : LaneW) : Act Unit := do
  let l ← myLane
  let a := l.scalar (← now) w.b.toNat
  checkLane l [(l.g.lacks (w.a.toNat + 2), 0x04), (l.g.lacks (w.d.toNat + 2), 0x04), (decide (a ≥ 2 ^ 48), 0x10),
    (decide (a % 64 ≠ 0), 0x12)]
  let ts := l.part w
  if ts.isEmpty then laneDone
  else
    guardA ((← now).roomFor l.k 7)
    let tag ← laneLater w
    discard (issueEntry l.k 7 (.colour kind a w.d.toNat (ts.map (fun t => l.targ t (l.regWords t w.a.toNat 3))) tag))

/-- XMAT (R427) -/
def execXmat (w : LaneW) (s : State) : Host.Outcome State Fault Refusal := perform (colourIssue 1 w) s
/-- XLUT1 (R428) -/
def execXlut1 (w : LaneW) (s : State) : Host.Outcome State Fault Refusal := perform (colourIssue 2 w) s
/-- XLUT3 (R429) -/
def execXlut3 (w : LaneW) (s : State) : Host.Outcome State Fault Refusal := perform (colourIssue 3 w) s

/-- Whether a field width is in range (Table 16-3). -/
def widthOk (n : Nat) : Bool := decide (8 ≤ n ∧ n ≤ 16)

/-- XRAW at issue (R431) -/
def execXraw (w : LaneW) (s : State) : Host.Outcome State Fault Refusal :=
  perform (do
    let l ← myLane
    let imm := w.imm.toNat
    let a := l.scalar (← now) w.b.toNat
    checkLane l [(l.g.lacks w.d.toNat, 0x04), (!widthOk (fld imm 0 5), 0x04)]
    let ts := l.part w
    if ts.isEmpty then laneDone
    else
      guardA ((← now).roomFor l.k 7)
      let tag ← laneLater w
      discard (issueEntry l.k 7 (.xraw a (fld imm 0 5) (bit imm 8) w.d.toNat (ts.map (fun t => l.targ t [])) tag))) s

/-- The checks of a run of fields at issue (R422, R430). -/
def runChecks (l : Lane) (a width : Nat) (lacks : Bool) : Act Unit :=
  checkLane l [(lacks, 0x04), (!widthOk width, 0x04), (decide (a ≥ 2 ^ 48), 0x10), (decide (a % 4 ≠ 0), 0x12)]

/-- XPACK at issue (R430) -/
def execXpack (w : LaneW) (s : State) : Host.Outcome State Fault Refusal :=
  perform (do
    let l0 ← myLane
    let xs ← readOps w (l0.part w) [slot32 w.a]
    let l ← myLane
    let n := fld w.imm.toNat 0 5
    let a := l.scalar (← now) w.b.toNat
    runChecks l a n false
    if !xs.isEmpty then
      guardA ((← now).roomFor l.k 7)
      let tag ← freshTag l.k
      discard (issueEntry l.k 7 (.pack a n (xs.map (fun x => l.targ x.1 x.2)) tag))
    laneDone) s

/-- XUNPK at issue (R430) -/
def execXunpk (w : LaneW) (s : State) : Host.Outcome State Fault Refusal :=
  perform (do
    let l ← myLane
    let imm := w.imm.toNat
    let a := l.scalar (← now) w.b.toNat
    runChecks l a (fld imm 0 5) (l.g.lacks w.d.toNat)
    let ts := l.part w
    if ts.isEmpty then laneDone
    else
      guardA ((← now).roomFor l.k 7)
      let tag ← laneLater w
      discard (issueEntry l.k 7 (.unpack a (fld imm 0 5) (bit imm 8) w.d.toNat (ts.map (fun t => l.targ t [])) tag))) s

/-! ## Lane transform entries performing -/

/-- The threads of a colour entry, ascending: their results and the status so far (R426). -/
def colourRun (k : Nat) (p : Port) (kind r dst tag : Nat) (all : List TArg) :
    List TArg → List (Nat × Nat × W32) → Nat → Act Unit
  | [], done, st => do
    resultReady k tag done
    discard (complete k 7 (st / 16) (st % 16))
  | t :: ts, done, st => do
    match ← colourThread p kind r (t.words.map (fun x => x.toNat)) with
    | .error (c, a) => xFault k tag all c a
    | .ok (o, st1) => colourRun k p kind r dst tag all ts (done ++ wordWrites t.tnum dst o) (worseSts st st1)

/-- COLOUR_TRANSFORM_ENTRY_PERFORM: the descriptor is read once, then the threads perform (R424, R426). -/
def execColourTransformEntryPerform (gk : Nat) (s : State) : Host.Outcome State Fault Refusal :=
  perform (do
    match ← pipeEntry gk with
    | none => pure ()
    | some (g, qu, e) =>
      match e.op with
      | .colour kind a dst args tag =>
        let p ← headPort gk 7
        if e.buf.isEmpty then
          match ← readRange p fresh a 64 with
          | .error (c, x) => xFault gk tag args c x
          | .ok r =>
            if !xdOk kind r then xFault gk tag args 0x80 a
            else setHead gk 7 (fun e => { e with buf := toBytes 64 r })
        else colourRun gk p kind (ofBytes e.buf) dst tag args args [] 0
      | _ => stall) s

/-- The bits of a run that an XPACK's threads write, and their values, as two numbers (R430, Table 16-4). -/
def packBits (w : Nat) (args : List TArg) : Nat × Nat :=
  (args.filter (fun t => !t.helper)).foldl (fun (x : Nat × Nat) t =>
    (x.1 + (2 ^ w - 1) * 2 ^ (w * t.tnum), x.2 + (nth t.words 0 0).toNat % 2 ^ w * 2 ^ (w * t.tnum))) (0, 0)

/-- Writes the sectors of a run of fields at address a that hold bits to write: masks and values are numbers of the run's bits
(R243, R244). True once all are written. -/
def packSectors (k : Nat) (p : Port) (a mask val tag : Nat) (args : List TArg) : List Nat → Act Bool
  | [] => pure true
  | z :: rest => do
    let cut := fun (x : Nat) => x * 2 ^ (8 * (a % 32)) / 2 ^ (256 * (z - a / 32)) % 2 ^ 256
    let m := cut mask
    let put ← (if m = 0 then pure (.ok true)
      else putOver k 7 1 p false z (m == 2 ^ 256 - 1) (fun w => (w &&& (2 ^ 256 - 1 - m)) + cut val))
    match put with
    | .error c =>
      xFault k tag args c (32 * z)
      return false
    | .ok false => return false
    | .ok true =>
      setHead k 7 (fun e => { e with pos := e.pos + 1 })
      packSectors k p a mask val tag args rest

/-- XPACK's entry performing: every page first, held from then on, then the sectors. A run of which no field is written is not
touched (R61, R430). -/
def packRun (k a w tag : Nat) (args : List TArg) (e : Ent) : Act Unit := do
  let p ← headPort k 7
  let (mask, val) := packBits w args
  if mask = 0 then discard (complete k 7 0 0)
  else if !e.committed then
    match ← holdRun p .write a (4 * w) with
    | .error (c, x) => xFault k tag args c x
    | .ok l => setHead k 7 (fun e => { e with committed := true, xlat := l })
  else
    let zs := (sectorPieces 5 a (4 * w)).map (fun x => x.1 / 32)
    if ← packSectors k p a mask val tag args (zs.drop e.pos) then xDone k

/-- XUNPK's entry performing (R430). -/
def unpackRun (k a w : Nat) (sx : Bool) (dst tag : Nat) (args : List TArg) : Act Unit := do
  let p ← headPort k 7
  match ← holdRun p .read a (4 * w) with
  | .error (c, x) => xFault k tag args c x
  | .ok _ =>
    match ← readGot p a (4 * w) with
    | .error (c, x) => xFault k tag args c x
    | .ok got =>
      let field := fun (i : Nat) =>
        if got.spoils (w * i) w then 0
        else if sx then wrap 32 (sext w (fld got.val (w * i) w)) else fld got.val (w * i) w
      resultReady k tag (args.map (fun t => (t.tnum, dst, BitVec.ofNat 32 (field t.tnum))))
      discard (complete k 7 (got.status / 16) (got.status % 16))

/-- PACK_ENTRY_PERFORM (R430) -/
def execPackEntryPerform (gk : Nat) (s : State) : Host.Outcome State Fault Refusal :=
  perform (do
    match ← pipeEntry gk with
    | none => pure ()
    | some (g, qu, e) =>
      match e.op with
      | .pack a w args tag => packRun gk a w tag args e
      | .unpack a w sx dst args tag => unpackRun gk a w sx dst tag args
      | _ => stall) s

/-! ## Raw blocks (R431 to R433) -/

/-- The number of 1 bits from bit b on before the next 0 bit; none at 32 or at the end (R432). -/
def rawOnes (code bits : Nat) : Nat → Nat → Option Nat
  | 0, _ => none
  | fuel + 1, b =>
    if b ≥ bits then none
    else if bit code b then (rawOnes code bits fuel (b + 1)).map (fun n => n + 1) else some 0

/-- Decodes n samples from bit b on, newest first after the ones given: the samples and the bits consumed, none at an
error (R432). -/
def rawSamples (w k code bits : Nat) (pred0 : Nat → Nat) : Nat → Nat → List Nat → Option (List Nat × Nat)
  | 0, b, done => some (done.reverse, b)
  | n + 1, b, done =>
    match rawOnes code bits 32 b with
    | none => none
    | some q =>
      let b1 := b + q + 1
      if b1 + k > bits then none
      else
        let e := q * 2 ^ k + fld code b1 k
        let r : Int := if e % 2 = 0 then ((e / 2 : Nat) : Int) else -(((e + 1) / 2 : Nat) : Int)
        let before : Nat := if done.length < 2 then pred0 done.length else nth done 1 0
        rawSamples w k code bits pred0 n (b1 + k) (wrap w ((before : Int) + r) :: done)

/-- Decodes a block of LEN bytes: its 32 samples, none at an error (R431, R432). -/
def rawBlock (w : Nat) (pred0 : Nat → Nat) (block : Nat) : Option (List Nat) :=
  let len := fld block 0 16
  let bits := 8 * (len - 4)
  match rawSamples w (fld block 16 4) (fld block 32 bits) bits pred0 32 0 [] with
  | none => none
  | some (xs, b) => if 4 + (b + 7) / 8 = len then some xs else none

/-- Ends an XRAW: samples, the chain state and the status (R432). -/
def rawEnd (k dst tag : Nat) (args : List TArg) (xs : List Nat) (p0 p1 : Nat) (poison : Bool) (st : Nat) : Act Unit := do
  modGroup k (fun g => { g with p0 := p0, p1 := p1, poison := poison })
  resultReady k tag (args.map (fun t => (t.tnum, dst, BitVec.ofNat 32 (nth xs t.tnum 0))))
  discard (complete k 7 (st / 16) (st % 16))

/-- XRAW's entry performing, with the group's chain state (R432). -/
def rawRun (k : Nat) (g : Group) (a w : Nat) (chain : Bool) (dst tag : Nat) (args : List TArg) : Act Unit := do
  if chain && g.poison then rawEnd k dst tag args [] g.p0 g.p1 true 0xA1
  else
    let p ← headPort k 7
    match ← readGot p a 4 with
    | .error (c, x) => xFault k tag args c x
    | .ok h =>
      let len := fld h.val 0 16
      if h.bad ≠ 0 then rawEnd k dst tag args [] 0 0 true 0x31
      else if len < 5 ∨ len > 196 ∨ fld h.val 20 12 ≠ 0 then rawEnd k dst tag args [] 0 0 true 0xA0
      else
        match ← readGot p (addr64 a 4) (len - 4) with
        | .error (c, x) => xFault k tag args c x
        | .ok b =>
          if b.bad ≠ 0 then rawEnd k dst tag args [] 0 0 true 0x31
          else
            let pred0 := fun (t : Nat) => if chain then (if t = 0 then g.p0 else g.p1) else 2 ^ (w - 1)
            match rawBlock w pred0 (h.val + b.val * 2 ^ 32) with
            | none => rawEnd k dst tag args [] 0 0 true 0xA0
            | some xs => rawEnd k dst tag args xs (nth xs 30 0) (nth xs 31 0) false (if h.fixed || b.fixed then 0x20 else 0)

/-- XRAW_ENTRY_PERFORM (R432) -/
def execXrawEntryPerform (gk : Nat) (s : State) : Host.Outcome State Fault Refusal :=
  perform (do
    match ← pipeEntry gk with
    | none => pure ()
    | some (g, qu, e) =>
      match e.op with
      | .xraw a w chain dst args tag => rawRun gk g a w chain dst tag args
      | _ => stall) s

/-! ## Surfaces (R434 to R437) -/

/-- TBASE -/
def sfBase (r : Nat) : Nat := fld r 0 48
/-- MBASE -/
def sfModes (r : Nat) : Nat := fld r 64 48
/-- NTILE -/
def sfTiles (r : Nat) : Nat := fld r 128 24
/-- CLEAR -/
def sfClear (r : Nat) : Nat := fld r 160 32

/-- Whether a surface descriptor is valid (R434). -/
def sfOk (r : Nat) : Bool :=
  decide (fld r 48 16 = 0 ∧ fld r 112 16 = 0 ∧ fld r 152 8 = 0 ∧ fld r 192 320 = 0) && decide (sfBase r % 256 = 0) &&
  decide (sfTiles r ≠ 0) && decide (sfBase r + 256 * sfTiles r ≤ sfModes r)

/-- Reads the descriptor at s_A whole and raises the lowest of the causes that apply: those known without it, and those
that need it (R34, R439). -/
def surfaceRec (a : BitVec 5) (known : List (Bool × Nat)) (ofRec : Nat → List (Bool × Nat)) : Act Nat := do
  let va ← sreg a.toNat
  check (if va < 2 ^ 48 ∧ va % 64 = 0 then [] else known ++ [(decide (va ≥ 2 ^ 48), 0x10), (decide (va % 64 ≠ 0), 0x12)])
  let p ← myPort
  match ← tryRec p va 64 with
  | .error (c, x) =>
    check (known.filter (fun k => decide (k.2 < c)))
    raiseMem p c x
  | .ok r =>
    check (known ++ (if sfOk r then ofRec r else [(true, 0x80)]))
    return r

/-- XFCLR at issue (R439, R440) -/
def execXfclr (a b : BitVec 5) (s : State) : Host.Outcome State Fault Refusal :=
  perform (do
    let k ← myGroup
    let v ← sreg b.toNat
    let r ← surfaceRec a [] (fun r => [(decide (fld v 0 32 + fld v 32 32 > sfTiles r), 0x04)])
    discard (issueEntry k 7 (.xfclr r (fld v 0 32) (fld v 32 32)))
    finish) s

/-- XDCMP at issue (R439, R442) -/
def execXdcmp (a b : BitVec 5) (s : State) : Host.Outcome State Fault Refusal :=
  perform (do
    let k ← myGroup
    let v ← sreg b.toNat
    let r ← surfaceRec a [(decide (fld v 32 32 ≠ 0), 0x04)] (fun r => [(decide (fld v 0 32 ≥ sfTiles r), 0x04)])
    discard (issueEntry k 7 (.xdcmp r (fld v 0 32)))
    finish) s

/-- XDELTA at issue: D holds the coverage mask (R439, R441). -/
def execXdelta (d a b : BitVec 5) (s : State) : Host.Outcome State Fault Refusal :=
  perform (do
    let k ← myGroup
    let (_, ga) ← myGang
    let v ← sreg b.toNat
    let mask ← sreg d.toNat
    let src := fld v 32 32
    let r ← surfaceRec a [(decide (src % 4 ≠ 0), 0x12), ((spadAt ga src 256).isNone, 0x14)]
      (fun r => [(decide (fld v 0 32 ≥ sfTiles r), 0x04)])
    discard (issueEntry k 7 (.xdelta r (fld v 0 32) src (BitVec.ofNat 64 mask)))
    finish) s

/-! ### Tiles -/

/-- The bytes of tile data of a mode byte; none when it is reserved (Table 16-8). -/
def tileLen (mode : Nat) : Option Nat :=
  if mode = 0 then some 0
  else if mode = 1 then some 256
  else if 0x10 ≤ mode ∧ mode ≤ 0x17 then some (4 + (252 * (mode - 0x10) + 7) / 8)
  else none

/-- The bytes of a DELTA tile from byte i on, newest first after the ones given; a byte whose pixel touches an
uncorrectable sector is zero (R435). -/
def deltaBytes (k : Nat) (got : Got) : Nat → Nat → List Nat → List Nat
  | 0, _, done => done.reverse
  | n + 1, i, done =>
    let spoilt := got.spoils (32 + 4 * k * (i / 4 - 1)) (4 * k)
    let x := if spoilt then 0 else wrap 8 (((nth done 3 0 : Nat) : Int) + sext k (fld got.val (32 + k * (i - 4)) k))
    deltaBytes k got n (i + 1) (x :: done)

/-- The 256 bytes of a tile that its mode and data stand for (R435, R441). -/
def tileBytes (clear mode : Nat) (got : Got) : List Nat :=
  let byte := fun (x i : Nat) => fld x (8 * i) 8
  if mode = 0 then (upFrom 0 256).map (fun i => byte clear (i % 4))
  else if mode = 1 then (upFrom 0 256).map (byte got.val)
  else
    let first := (upFrom 0 4).map (byte got.val)
    deltaBytes (mode - 0x10) got 252 4 first.reverse

/-- d(p, c) of byte i of a tile (R436). -/
def tileDelta (pix : List Nat) (i : Nat) : Int :=
  sext 8 ((nth pix i 0 + 256 - nth pix (i - 4) 0) % 256)

/-- The mode of a tile and its data bytes as a number (R436). -/
def tileEncode (clear : Nat) (pix : List Nat) : Nat × Nat :=
  let ofB := fun (xs : List Nat) => xs.foldr (fun x n => x + 256 * n) 0
  if pix == (upFrom 0 256).map (fun i => fld clear (8 * (i % 4)) 8) then (0, 0)
  else
    let ds := (upFrom 4 252).map (tileDelta pix)
    let fits := fun (k : Nat) => ds.all (fun d => if k = 0 then d == 0 else decide (-(2 ^ (k - 1) : Int) ≤ d ∧ d < 2 ^ (k - 1)))
    match (upFrom 0 8).find? fits with
    | none => (1, ofB pix)
    | some k => (0x10 + k, ofB (pix.take 4) + 2 ^ 32 * ds.foldr (fun d n => wrap k d + 2 ^ k * n) 0)

/-! ### Reading a tile

An entry that acts on a tile reads it piece by piece, each piece in a turn of its own, and holds what it read: four times the
value, plus 2 where the piece is uncorrectable and 1 where it needed a correction (R222, R438, R444). -/

/-- n free bytes (log 35). -/
def freeNum (n : Nat) : Act Nat := do
  let t := (← now).tick
  upd (fun s => { s with tick := s.tick + 32 })
  return ofBytes ((upFrom 0 n).map (fun i => Config.freeByte (t + i)))

/-- The status of a piece. -/
def pieceSt (x : Nat) : Nat := if bit x 1 then 0x31 else if bit x 0 then 0x20 else 0

/-- Reads a piece of memory: an uncorrectable one is zero, or a free value. -/
def memPiece (p : Port) (free : Bool) (a n : Nat) : Act (Except (Nat × Nat) Nat) := do
  match ← texReadNow p a n with
  | .error e => return .error e
  | .ok (some v, fixed) => return .ok (4 * v + b2n fixed)
  | .ok (none, _) => if free then return .ok (4 * (← freeNum n) + 2) else return .ok 2

/-- Reads a piece of scratchpad: an uncorrectable one is a free value. -/
def spadPiece (gang a n : Nat) : Act (Except (Nat × Nat) Nat) := do
  let before := (← now).corrections
  let got ← readSpad gang a n
  let after := (← now).corrections
  match got with
  | .ok v => return .ok (4 * v + b2n (!(before == after)))
  | .error c => if c = 0x13 then return .ok (4 * (← freeNum n) + 2) else return .error (c, a)

/-- Whether the head of an X queue holds all of some pieces, numbered from one on; else it reads the first that it lacks, or
halts at its cause. -/
def havePieces (k : Nat) (read : Nat → Nat → Act (Except (Nat × Nat) Nat)) : Nat → List (Nat × Nat) → Act Bool
  | _, [] => pure true
  | i, x :: rest => do
    if (Tab.find (← headEnt k 7).reads i).isSome then havePieces k read (i + 1) rest
    else
      match ← read x.1 x.2 with
      | .error (c, a) => haltHead k 7 c a
      | .ok v => setHead k 7 (fun e => { e with reads := Tab.set e.reads i v })
      return false

/-- The pieces an entry holds, numbered from one on, as one number: uncorrectable bytes are marked. -/
def piecesGot (reads : Tab Nat) : Nat → List (Nat × Nat) → Got
  | _, [] => ⟨0, 0, false⟩
  | i, x :: rest =>
    let v := Tab.getD reads i 0
    let t := piecesGot reads (i + 1) rest
    ⟨v / 4 + t.val * 2 ^ (8 * x.2), (if bit v 1 then 2 ^ x.2 - 1 else 0) + t.bad * 2 ^ x.2, bit v 0 || t.fixed⟩

/-- The pieces of a tile's data under a mode byte. -/
def tilePieces (r tile mode : Nat) : List (Nat × Nat) := sectorPieces 10 (sfBase r + 256 * tile) ((tileLen mode).getD 0)

/-! ### Writing a tile -/

/-- Whether the home of a place, on the port's die, corrects an error of the place's sector as a store merges into it (R222). -/
def State.fixesAt (s : State) (p : Port) (pl : Place) : Bool :=
  match pl.target with
  | .gddr d => d == p.die && s.corrAt pl.pa 1
  | .scratch d off => d == p.die && ((s.scratchKey d off).map (fun k => s.corrAt k 1)).getD false
  | _ => false

/-- Stores a tile's mode byte at its home: a correction there is counted and reported (R222, R437, R440). The cause, if any. -/
def modeStore (k : Nat) (p : Port) (a wrote v : Nat) : Act (Option Nat) := do
  match ← locate p a .write with
  | .error c => return some c
  | .ok pl =>
    let fixed := (← now).fixesAt p pl
    if fixed then countCorr p.die
    match ← writePlace p pl 1 v with
    | .error c => return some c
    | .ok sent =>
      note k 7 (if fixed then 0x20 else 0) sent wrote
      return none

/-- A tile's new mode and data as the entry holds them: the mode byte, then the data padded to whole sectors (R436). -/
def tileBuf (mode data : Nat) : List Byte := BitVec.ofNat 8 mode :: toBytes (32 * (((tileLen mode).getD 0 + 31) / 32)) data

/-- An entry is to rewrite a tile: both pages translate first and stay held, a cause halts the queue (R437). -/
def tileReady (k : Nat) (p : Port) (r tile mode data : Nat) : Act Unit := do
  match ← holdRun p .write (sfBase r + 256 * tile) 256 with
  | .error (c, a) => haltHead k 7 c a
  | .ok l =>
    match ← holdRun p .write (sfModes r + tile) 1 with
    | .error (c, a) => haltHead k 7 c a
    | .ok m => setHead k 7 (fun e => { e with committed := true, xlat := l ++ m, buf := tileBuf mode data, pos := 1 })

/-- An entry that writes nothing more completes once its writes have reached their homes. -/
def tileDone (k : Nat) : Act Unit := do
  setHead k 7 (fun e => { e with pos := 11 })
  xDone k

/-- The next write of an entry that rewrites a tile: the next sector of data, after the last the mode byte (R437, R444) (DEDUCED, log 36). -/
def tileNext (k : Nat) (p : Port) (r tile : Nat) (e : Ent) : Act Unit := do
  let i := e.pos - 1
  if i > (e.buf.length - 1) / 32 then xDone k
  else if i = (e.buf.length - 1) / 32 then
    match ← modeStore k p (sfModes r + tile) 0 (nth e.buf 0 0).toNat with
    | some c => haltHead k 7 c (sfModes r + tile)
    | none => tileDone k
  else
    let a := sfBase r + 256 * tile + 32 * i
    match ← writeVA p a 32 (ofBytes ((e.buf.drop (1 + 32 * i)).take 32)) with
    | .error c => haltHead k 7 c a
    | .ok sent =>
      note k 7 0 sent 1
      setHead k 7 (fun e => { e with pos := e.pos + 1 })

/-- Replaces the pixels of a tile that a mask selects (R441). -/
def mergePixels (mask : W64) (src : Nat) (pix : List Nat) : List Nat :=
  (upFrom 0 256).map (fun i => if mask.getLsbD (i / 4) then fld src (8 * i) 8 else nth pix i 0)

/-- XDELTA has read its tile and its source: it merges and encodes (R441). -/
def deltaMerge (k : Nat) (p : Port) (r tile src : Nat) (mask : W64) (e : Ent) : Act Unit := do
  let m := Tab.getD e.reads 0 0
  let mode := m / 4
  let got := piecesGot e.reads 1 (tilePieces r tile mode)
  let from_ := piecesGot e.reads 16 (sectorPieces 10 src 256)
  let old := if (tileLen mode).isNone then List.replicate 256 0 else tileBytes (sfClear r) mode got
  let (mode1, data) := tileEncode (sfClear r) (mergePixels mask from_.val old)
  joinStatus k 7 (worseSts (worseSts (pieceSt m) (if (tileLen mode).isNone then 0xA2 else 0)) (worseSts got.status from_.status))
  tileReady k p r tile mode1 data

/-- XDELTA_ENTRY_PERFORM: the next read or the next write (R441, R444) -/
def execXdeltaEntryPerform (gk : Nat) (s : State) : Host.Outcome State Fault Refusal :=
  perform (do
    match ← pipeEntry gk with
    | none => pure ()
    | some (g, qu, e) =>
      match e.op with
      | .xdelta r tile src mask =>
        let p ← headPort gk 7
        if e.pos ≠ 0 then tileNext gk p r tile e
        else if ← havePieces gk (memPiece p true) 0 [(sfModes r + tile, 1)] then
          if ← havePieces gk (memPiece p false) 1 (tilePieces r tile (Tab.getD e.reads 0 0 / 4)) then
            if ← havePieces gk (spadPiece (gk / 65536)) 16 (sectorPieces 10 src 256) then deltaMerge gk p r tile src mask e
      | _ => stall) s

/-- XDCMP has read its tile: it goes on to write it in RAW form, or writes nothing where it could not read it (R442). -/
def dcmpExpand (k : Nat) (p : Port) (r tile mode : Nat) (e : Ent) : Act Unit := do
  let got := piecesGot e.reads 1 (tilePieces r tile mode)
  joinStatus k 7 got.status
  if got.bad ≠ 0 then tileDone k
  else tileReady k p r tile 1 ((tileBytes (sfClear r) mode got).foldr (fun x n => x + 256 * n) 0)

/-- XDCMP_ENTRY_PERFORM: the next read or the next write (R442, R444) -/
def execXdcmpEntryPerform (gk : Nat) (s : State) : Host.Outcome State Fault Refusal :=
  perform (do
    match ← pipeEntry gk with
    | none => pure ()
    | some (g, qu, e) =>
      match e.op with
      | .xdcmp r tile =>
        let p ← headPort gk 7
        if e.pos ≠ 0 then tileNext gk p r tile e
        else if ← havePieces gk (memPiece p true) 0 [(sfModes r + tile, 1)] then
          let m := Tab.getD e.reads 0 0
          joinStatus gk 7 (worseSts (pieceSt m) (if (tileLen (m / 4)).isNone then 0xA2 else 0))
          if (tileLen (m / 4)).isNone || m / 4 == 1 then tileDone gk
          else if ← havePieces gk (memPiece p false) 1 (tilePieces r tile (m / 4)) then dcmpExpand gk p r tile (m / 4) e
      | _ => stall) s

/-- Writes the mode bytes of n tiles from address a on (R440). -/
def clearModes (k : Nat) (p : Port) (last : Nat) : Nat → Nat → Act (Option (Nat × Nat))
  | 0, _ => pure none
  | n + 1, a => do
    match ← modeStore k p a (b2n (a % 32 == 31 || a + 1 == last)) 0 with
    | some c => return some (c, a)
    | none =>
      setHead k 7 (fun e => { e with pos := e.pos + 1 })
      clearModes k p last n (a + 1)

/-- XFCLR_ENTRY_PERFORM: the next sector's mode bytes (R440, R444). -/
def execXfclrEntryPerform (gk : Nat) (s : State) : Host.Outcome State Fault Refusal :=
  perform (do
    match ← pipeEntry gk with
    | none => pure ()
    | some (g, qu, e) =>
      match e.op with
      | .xfclr r first count =>
        if e.pos ≥ count then xDone gk
        else
          let a := sfModes r + first + e.pos
          let last := sfModes r + first + count
          match ← clearModes gk (← headPort gk 7) last (min (last - a) (32 - a % 32)) a with
          | some (c, x) => haltHead gk 7 c x
          | none => if e.pos + min (last - a) (32 - a % 32) ≥ count then xDone gk
      | _ => stall) s

end Sys2Proof.Machine
end

