-- ==== Sys2Proof/Machine/Carillon.lean ====
section
/-! DEFINITION. The Carillon temporal array (R445 to R464): peals, evaluation, and the scalar and lane instructions and
entries of the K queue. -/

set_option linter.unusedVariables false

namespace Sys2Proof.Machine

open Sys2Proof

/-! ## The array (R445 to R452) -/

/-- NEVER -/
def never : Nat := 0xFFFF

/-- The Carillon of a gang's cluster in its launch. -/
def State.carillon (s : State) (g : Gang) : Carillon :=
  ((Tab.find s.launches g.launch).map (fun l => Tab.getD l.carillons (s.carKey g) ⟨1024, [], 0⟩)).getD ⟨1024, [], 0⟩

/-- Changes the Carillon of a gang's cluster. -/
def modCarillon (g : Gang) (f : Carillon → Carillon) : Act Unit :=
  upd (fun s => match Tab.find s.launches g.launch with
    | none => s
    | some l =>
      (s.setLaunch g.launch { l with carillons := Tab.set l.carillons (s.carKey g) (f (s.carillon g)) }))

/-- dly(t, d) in a window (R446). -/
def dly (window t d : Nat) : Nat := if t = never ∨ t + d ≥ window then never else t + d

/-- OP of a cell. -/
def cellOp (w : Nat) : Nat := fld w 13 3
/-- PART -/
def cellPart (w : Nat) : Nat := fld w 7 6
/-- DLY -/
def cellDly (w : Nat) : Nat := fld w 1 6

/-- Whether a cell is valid (R451). -/
def cellOk (w : Nat) : Bool :=
  let op := cellOp w
  decide (op < 6) && !bit w 0 && !((op == 0 || op == 4 || op == 5) && cellPart w != 0) && !(op == 5 && cellDly w != 0)

/-- The output of a cell on the rails of its tier (Table 17-3). -/
def cellOut (window : Nat) (r : List Nat) (i w : Nat) : Nat :=
  let a := nth r i never
  let b := nth r (cellPart w) never
  let d := cellDly w
  match cellOp w with
  | 0 => dly window a d
  | 1 => dly window (min a b) d
  | 2 => dly window (max a b) d
  | 3 => if a < b then dly window a d else never
  | 4 => dly window 0 d
  | _ => never

/-- One tier of a peal on the rails before it. -/
def tierOut (window : Nat) (cells r : List Nat) : List Nat := (upFrom 0 64).map (fun i => cellOut window r i (nth cells i 0xA000))

/-- The rails after n tiers. -/
def tiers (window : Nat) : Nat → List Nat → List Nat → List Nat
  | 0, _, r => r
  | n + 1, cells, r => tiers window n (cells.drop 64) (tierOut window cells r)

/-- An evaluation of a peal's 2,048 cells on launch values (R450). -/
def evaluate (window : Nat) (cells : List Nat) (lv : Nat → Nat) : List Nat :=
  tiers window 32 cells ((upFrom 0 64).map (fun i => if lv i < window then lv i else never))

/-- A peal of KILL cells. -/
def killPeal : List Nat := List.replicate 2048 0xA000

/-- A table of the rails that are not NEVER. -/
def railTab (xs : List Nat) : Tab Nat :=
  (upFrom 0 xs.length).filterMap (fun i => if nth xs i never = never then none else some (i, nth xs i never))

/-! ## The array's order (R453) -/

/-- The head of a group's K queue, if the array may take it or has it: no older head of its cluster may perform, and no other
has started (R453). -/
def arrayHead (k : Nat) : Act (Group × Queue × Ent) := do
  let (g, qu, e) ← headOf k 8
  let s ← now
  let here := s.poolPlace 1 k g
  let others := s.groups.filter (fun x => !(x.1 == k) && s.poolPlace 1 x.1 x.2 == here)
  guardA (!others.any (fun x => match (x.2.queue 8).ents.head? with
    | none => false
    | some o => s.mayPerform x.1 x.2 (x.2.queue 8) o && ((o.started && !e.started) ||
        (o.started == e.started && x.2.clearFor o && decide (o.born < e.born)))))
  return (g, qu, e)

/-! ## Scalar instructions -/

/-- KTWIN (R456) -/
def execKtwin (d a : BitVec 5) (s : State) : Host.Outcome State Fault Refusal :=
  perform (do
    let k ← myGroup
    let v ← sreg a.toNat
    check [(decide (v < 16 ∨ v > 1024), 0x91)]
    finishWith d.toNat (← issueEntry k 8 (.ktwin v))) s

/-- KTWIN_ENTRY_PERFORM (R456) -/
def execKtwinEntryPerform (gk : Nat) (s : State) : Host.Outcome State Fault Refusal :=
  perform (do
    let (g, qu, e) ← arrayHead gk
    match e.op with
    | .ktwin v =>
      modCarillon (← getGang (gk / 65536)) (fun c => { c with twin := v })
      discard (complete gk 8 0 0)
    | _ => stall) s

/-- Reads a peal's 4,096 bytes of scratchpad in n sectors from an address on: the cells, with KILL cells where a sector is
uncorrectable, and a status; or a cause (R455, R457). -/
def pealSectors (gang : Nat) : Nat → Nat → Act (Except Nat (List Nat × Nat))
  | 0, _ => pure (.ok ([], 0))
  | n + 1, a => do
    let before := (← now).corrections
    let got ← readSpad gang a 32
    let after := (← now).corrections
    let one : Except Nat (List Nat × Nat) := match got with
      | .ok v => .ok ((upFrom 0 16).map (fun i => fld v (16 * i) 16), if before == after then 0 else 0x20)
      | .error c => if c = 0x13 then .ok (List.replicate 16 0xA000, 0x31) else .error c
    match one with
    | .error c => return .error c
    | .ok (xs, st) =>
      match ← pealSectors gang n (a + 32) with
      | .error c => return .error c
      | .ok (ys, st1) => return .ok (xs ++ ys, worseSts st st1)

/-- KPEAL (R457) -/
def execKpeal (d a b : BitVec 5) (s : State) : Host.Outcome State Fault Refusal :=
  perform (do
    let k ← myGroup
    let (n, ga) ← myGang
    let src ← sreg a.toNat
    let v ← sreg b.toNat
    let bar := v / 2 ^ 32
    let place := spadAt ga src 4096
    let known : List (Bool × Nat) :=
      [(decide (src ≥ 2 ^ 32), 0x04), (decide (fld v 4 4 ≠ 0 ∨ fld v 9 23 ≠ 0), 0x04), (!bit v 8 && decide (bar ≠ 0), 0x04),
        (decide (src % 64 ≠ 0), 0x12), (bit v 8 && decide (bar % 16 ≠ 0), 0x12), (bit v 8 && decide (bar ≥ 16 * ga.nbar), 0x04),
        (place.isNone, 0x14), (!(place.map (fun x => spadMode ga x.1 x.2 4096)).getD true, 0x15)]
    check (known.filter (fun x => decide (x.2 ≤ 0x13)))
    match ← (if place.isNone then pure (.ok ([], 0)) else pealSectors n 128 src) with
    | .error _ => check known
    | .ok (cells, st) =>
      if st / 16 = 3 then halt (.raiseBad (Cause.atWord 0x13 (← myStream).pc src) ga.die)
      check (known ++ [(!cells.all cellOk, 0x90)])
    finishWith d.toNat (← issueEntry k 8 (.kpeal src (fld v 0 4) (if bit v 8 then some bar else none)))) s

/-- The stored words of a gang's cluster's peal slot (R222). -/
def State.pealWords (s : State) (g : Gang) (slot : Nat) (w : Sram) : Bool :=
  match w with
  | .peal l c n _ => l == g.launch && c == s.carKey g && n == slot
  | _ => false

/-- Ends the KPEAL at the head of a K queue with the cells it read (R457). -/
def pealEnd (k slot : Nat) (e : Ent) : Act Unit := do
  let cells := (upFrom 0 2048).map (fun i => ofBytes ((e.buf.drop (2 * i)).take 2))
  let ok := cells.all cellOk
  let ga ← getGang (k / 65536)
  modCarillon ga (fun c => { c with
    peals := Tab.set c.peals slot (if ok then cells else killPeal)
    loaded := c.loaded ||| 2 ^ slot })
  upd (fun s => s.rewrite (s.pealWords ga slot))
  let st := worseSts e.status.toNat (if ok then 0 else 0x41)
  discard (complete k 8 (st / 16) (st % 16))

/-- KPEAL_ENTRY_PERFORM: the next n sectors of the source, then the slot as a whole (R455, R457) -/
def execKpealEntryPerform (part : Part) (s : State) : Host.Outcome State Fault Refusal :=
  perform (do
    let (g, qu, e) ← arrayHead part.g
    match e.op with
    | .kpeal src slot _ =>
      if e.pos ≥ 128 then pealEnd part.g slot e
      else
        let m := min part.n (128 - e.pos)
        match ← pealSectors (part.g / 65536) m (src + 32 * e.pos) with
        | .error c => haltHead part.g 8 c src
        | .ok (cells, st) => setHead part.g 8 (fun e => { e with
            started := true, pos := e.pos + m, status := BitVec.ofNat 32 (worseSts e.status.toNat st)
            buf := e.buf ++ cells.flatMap (toBytes 2) })
    | _ => stall) s

/-- KRST (R458) -/
def execKrst (a : BitVec 5) (s : State) : Host.Outcome State Fault Refusal :=
  perform (do
    let k ← myGroup
    let v ← sreg a.toNat
    check [(decide (v = 0 ∨ v ≥ 4), 0x04)]
    discard (issueEntry k 8 (.krst (bit v 0) (bit v 1)))
    finish) s

/-- Changes a group's vectors. -/
def modVectors (k : Nat) (f : KVec → KVec) : Act Unit := modGroup k (fun g => { g with kvec := f g.kvec })

/-- The stored entries of a group's launch vector from one on, so many (R222). -/
def lvWords (k a n : Nat) (w : Sram) : Bool :=
  match w with
  | .lv g i => g == k && decide (a ≤ i ∧ i < a + n)
  | _ => false

/-- The stored entries of a group's capture vector from one on (R222). -/
def cvWords (k a : Nat) (w : Sram) : Bool :=
  match w with
  | .cv g i => g == k && decide (a ≤ i)
  | _ => false

/-- KRST_ENTRY_PERFORM (R458) -/
def execKrstEntryPerform (gk : Nat) (s : State) : Host.Outcome State Fault Refusal :=
  perform (do
    let (g, qu, e) ← arrayHead gk
    match e.op with
    | .krst lv cv =>
      modVectors gk (fun v => { v with lv := if lv then [] else v.lv, cv := if cv then [] else v.cv })
      upd (fun s => s.rewrite (fun w => (lv && lvWords gk 0 64 w) || (cv && cvWords gk 0 w)))
      discard (complete gk 8 0 0)
    | _ => stall) s

/-- KWAIT (R459) -/
def execKwait (d a : BitVec 5) (s : State) : Host.Outcome State Fault Refusal :=
  perform (do
    let k ← myGroup
    let b ← sreg a.toNat
    let g ← getGroup k
    let back := ((g.queue 8).next.toNat + 65536 - b % 65536) % 65536
    check [(decide (b ≥ 65536 ∨ back = 0 ∨ back ≥ 32768), 0x04)]
    if (g.queue 8).ents.any (fun e => e.seq.toNat == b) then halt (.wait .engine)
    finishWith d.toNat g.kvec.sts.last.toNat) s

/-- KSTAT (R460) -/
def execKstat (d a : BitVec 5) (s : State) : Host.Outcome State Fault Refusal :=
  perform (do
    let k ← myGroup
    let (_, ga) ← myGang
    let n ← sreg a.toNat
    let g ← getGroup k
    let q := g.queue 8
    let sticky := fld g.kvec.sts.sticky 1 10 * 2
    let c := (← now).carillon ga
    match n with
    | 0 => finishWith d.toNat (q.mark.toNat + q.next.toNat * 2 ^ 16)
    | 1 => finishWith d.toNat sticky
    | 2 => finishWith d.toNat g.kvec.sts.last.toNat
    | 3 =>
      modVectors k (fun v => { v with sts := ⟨0, 0⟩ })
      finishWith d.toNat sticky
    | 4 => finishWith d.toNat (c.twin + c.loaded * 2 ^ 16)
    | _ => raise 0x04) s

/-! ## Lane instructions -/

/-- KLAUNCH at issue (R461) -/
def execKlaunch (w : LaneW) (s : State) : Host.Outcome State Fault Refusal :=
  perform (do
    let l0 ← myLane
    let xs ← readOps w (l0.part w) [slot32 w.a]
    let l ← myLane
    let ga ← getGang (l.k / 65536)
    let imm := w.imm.toNat
    checkLane l [(decide (fld imm 8 8 ≠ 0xFF ∧ fld imm 8 8 ≥ ga.nbar), 0x04)]
    discard (issueEntry l.k 8 (.klaunch (fld imm 0 4) (bit imm 4) (bit imm 5)
      (xs.map (fun x => (x.1, min (arg x.2 0) never))) (texBar imm)))
    laneDone) s

/-- LV after a half is driven: the threads' values, and NEVER where no thread takes part (R461). -/
def driveHalf (lv : Tab Nat) (half : Bool) (vals : Tab Nat) : Tab Nat :=
  let h := 32 * b2n half
  railTab ((upFrom 0 64).map (fun i =>
    if h ≤ i ∧ i < h + 32 then Tab.getD vals (i - h) never else Tab.getD lv i never))

/-- The word of a table, and what stands for it where it is uncorrectable (R455). -/
def orLost (s : State) (w : Sram) (lost v : Nat) : Nat := if s.sramBad.contains w then lost else v

/-- An evaluation of a group's launch vector: an uncorrectable cell acts as KILL, and an uncorrectable entry reads as NEVER;
the status (R450, R455). -/
def ring (k peal : Nat) : Act Nat := do
  let g ← getGroup k
  let ga ← getGang (k / 65536)
  let s ← now
  let c := s.carillon ga
  let cells := (upFrom 0 2048).map (fun i =>
    orLost s (.peal ga.launch (s.carKey ga) peal i) 0xA000 (nth (Tab.getD c.peals peal killPeal) i 0xA000))
  let lv := fun (i : Nat) => orLost s (.lv k i) never (Tab.getD g.kvec.lv i never)
  let x ← readWords ga.die (s.pealWords ga peal)
  let y ← readWords ga.die (lvWords k 0 64)
  modVectors k (fun v => { v with lv := [], cv := railTab (evaluate c.twin cells lv) })
  upd (fun s => s.rewrite (fun w => lvWords k 0 64 w || cvWords k 0 w))
  return worseSts (if x = 3 then 0x31 else 16 * x) (if y = 3 then 0x32 else 16 * y)

/-- KLAUNCH_ENTRY_PERFORM (R450, R455, R461) -/
def execKlaunchEntryPerform (gk : Nat) (s : State) : Host.Outcome State Fault Refusal :=
  perform (do
    let (g, qu, e) ← arrayHead gk
    match e.op with
    | .klaunch peal half go vals _ =>
      modVectors gk (fun v => { v with lv := driveHalf v.lv half vals })
      upd (fun s => s.rewrite (lvWords gk (32 * b2n half) 32))
      let st ← (if go then ring gk peal else pure 0)
      discard (complete gk 8 (st / 16) (st % 16))
    | _ => stall) s

/-- KCAPT at issue (R462) -/
def execKcapt (w : LaneW) (s : State) : Host.Outcome State Fault Refusal :=
  perform (do
    let l ← myLane
    checkLane l [(l.g.lacks w.d.toNat, 0x04)]
    guardA ((← now).roomFor l.k 8)
    let tag ← laneLater w
    discard (issueEntry l.k 8 (.kcapt (bit w.imm.toNat 4) w.d.toNat (l.part w) tag))) s

/-- The stored entries of a half of a group's capture vector that some threads read (R222). -/
def cvRead (k : Nat) (half : Bool) (threads : List Nat) (w : Sram) : Bool :=
  threads.any (fun t => w == .cv k (32 * b2n half + t))

/-- KCAPT_ENTRY_PERFORM (R455, R462) -/
def execKcaptEntryPerform (gk : Nat) (s : State) : Host.Outcome State Fault Refusal :=
  perform (do
    let (g, qu, e) ← arrayHead gk
    match e.op with
    | .kcapt half dst threads tag =>
      let read := fun (t : Nat) =>
        let i := 32 * b2n half + t
        orLost s (.cv gk i) never (Tab.getD g.kvec.cv i never)
      let x ← readWords (← getGang (gk / 65536)).die (cvRead gk half threads)
      resultReady gk tag (threads.map (fun t => (t, dst, BitVec.ofNat 32 (read t))))
      discard (complete gk 8 x (if x = 3 then 2 else 0))
    | _ => stall) s

end Sys2Proof.Machine
end

