-- ==== Sys2Proof/Machine/Dispatch.lean ====
section
/-! DEFINITION. One arm per instruction: the call of its meaning, or its rejection by name. -/

namespace Sys2Proof.Machine

open Sys2Proof

def exec (i : Instr) (s : State) : Host.Outcome State Fault Refusal :=
  match i with
  | .add x0 x1 x2 => Sys2Proof.Machine.execAdd x0 x1 x2 s
  | .sub x0 x1 x2 => Sys2Proof.Machine.execSub x0 x1 x2 s
  | .mul x0 x1 x2 => Sys2Proof.Machine.execMul x0 x1 x2 s
  | .mulhI64 x0 x1 x2 => Sys2Proof.Machine.execMulhI64 x0 x1 x2 s
  | .mulhN64 x0 x1 x2 => Sys2Proof.Machine.execMulhN64 x0 x1 x2 s
  | .andS x0 x1 x2 => Sys2Proof.Machine.execAndS x0 x1 x2 s
  | .orS x0 x1 x2 => Sys2Proof.Machine.execOrS x0 x1 x2 s
  | .xorS x0 x1 x2 => Sys2Proof.Machine.execXorS x0 x1 x2 s
  | .shl x0 x1 x2 => Sys2Proof.Machine.execShl x0 x1 x2 s
  | .shr x0 x1 x2 => Sys2Proof.Machine.execShr x0 x1 x2 s
  | .sra x0 x1 x2 => Sys2Proof.Machine.execSra x0 x1 x2 s
  | .minI64 x0 x1 x2 => Sys2Proof.Machine.execMinI64 x0 x1 x2 s
  | .minN64 x0 x1 x2 => Sys2Proof.Machine.execMinN64 x0 x1 x2 s
  | .maxI64 x0 x1 x2 => Sys2Proof.Machine.execMaxI64 x0 x1 x2 s
  | .maxN64 x0 x1 x2 => Sys2Proof.Machine.execMaxN64 x0 x1 x2 s
  | .cmp x0 x1 x2 => Sys2Proof.Machine.execCmp x0 x1 x2 s
  | .tst x0 x1 x2 => Sys2Proof.Machine.execTst x0 x1 x2 s
  | .lea x0 x1 x2 x3 => Sys2Proof.Machine.execLea x0 x1 x2 x3 s
  | .sel x0 x1 x2 x3 x4 => Sys2Proof.Machine.execSel x0 x1 x2 x3 x4 s
  | .addImm x0 x1 x2 => Sys2Proof.Machine.execAddImm x0 x1 x2 s
  | .andImm x0 x1 x2 => Sys2Proof.Machine.execAndImm x0 x1 x2 s
  | .orImm x0 x1 x2 => Sys2Proof.Machine.execOrImm x0 x1 x2 s
  | .xorImm x0 x1 x2 => Sys2Proof.Machine.execXorImm x0 x1 x2 s
  | .shlImm x0 x1 x2 => Sys2Proof.Machine.execShlImm x0 x1 x2 s
  | .shrImm x0 x1 x2 => Sys2Proof.Machine.execShrImm x0 x1 x2 s
  | .sraImm x0 x1 x2 => Sys2Proof.Machine.execSraImm x0 x1 x2 s
  | .mulImm x0 x1 x2 => Sys2Proof.Machine.execMulImm x0 x1 x2 s
  | .cmpImm x0 x1 x2 => Sys2Proof.Machine.execCmpImm x0 x1 x2 s
  | .movi x0 x1 => Sys2Proof.Machine.execMovi x0 x1 s
  | .movhi x0 x1 x2 => Sys2Proof.Machine.execMovhi x0 x1 x2 s
  | .gets x0 x1 => Sys2Proof.Machine.execGets x0 x1 s
  | .sets x0 x1 => Sys2Proof.Machine.execSets x0 x1 s
  | .sld x0 x1 x2 x3 x4 => Sys2Proof.Machine.execSld x0 x1 x2 x3 x4 s
  | .sst x0 x1 x2 x3 => Sys2Proof.Machine.execSst x0 x1 x2 x3 s
  | .ald x0 x1 x2 x3 x4 => Sys2Proof.Machine.execAld x0 x1 x2 x3 x4 s
  | .ast x0 x1 x2 x3 => Sys2Proof.Machine.execAst x0 x1 x2 x3 s
  | .loopImm x0 x1 => Sys2Proof.Machine.execLoopImm x0 x1 s
  | .loopSreg x0 x1 => Sys2Proof.Machine.execLoopSreg x0 x1 s
  | .lrunImm x0 => Sys2Proof.Machine.execLrunImm x0 s
  | .lrunSreg x0 x1 => Sys2Proof.Machine.execLrunSreg x0 x1 s
  | .fence x0 => Sys2Proof.Machine.execFence x0 s
  | .qfence x0 => Sys2Proof.Machine.execQfence x0 s
  | .trap x0 => Sys2Proof.Machine.execTrap x0 s
  | .brSet x0 x1 x2 => Sys2Proof.Machine.execBrSet x0 x1 x2 s
  | .brClear x0 x1 x2 => Sys2Proof.Machine.execBrClear x0 x1 x2 s
  | .jmp x0 => Sys2Proof.Machine.execJmp x0 s
  | .call x0 => Sys2Proof.Machine.execCall x0 s
  | .nop => Sys2Proof.Machine.execNop s
  | .exit => Sys2Proof.Machine.execExit s
  | .yield => Sys2Proof.Machine.execYield s
  | .sleep x0 => Sys2Proof.Machine.execSleep x0 s
  | .lsync => Sys2Proof.Machine.execLsync s
  | .jmpr x0 => Sys2Proof.Machine.execJmpr x0 s
  | .ret => Sys2Proof.Machine.execRet s
  | .lexit => Sys2Proof.Machine.execLexit s
  | .reggive x0 x1 => Sys2Proof.Machine.execReggive x0 x1 s
  | .regclaim x0 x1 => Sys2Proof.Machine.execRegclaim x0 x1 s
  | .tretRegion => Sys2Proof.Machine.execTretRegion s
  | .tretAgain => Sys2Proof.Machine.execTretAgain s
  | .tretNext => Sys2Proof.Machine.execTretNext s
  | .cause x0 x1 => Sys2Proof.Machine.execCause x0 x1 s
  | .regn => Sys2Proof.Machine.execRegn s
  | .frec x0 x1 => Sys2Proof.Machine.execFrec x0 x1 s
  | .susp x0 => Sys2Proof.Machine.execSusp x0 s
  | .mwait x0 x1 x2 => Sys2Proof.Machine.execMwait x0 x1 x2 s
  | .bankcfg x0 x1 x2 => Sys2Proof.Machine.execBankcfg x0 x1 x2 s
  | .discard x0 x1 => Sys2Proof.Machine.execDiscard x0 x1 s
  | .flush x0 x1 => Sys2Proof.Machine.execFlush x0 x1 s
  | .inval x0 x1 => Sys2Proof.Machine.execInval x0 x1 s
  | .pref x0 x1 => Sys2Proof.Machine.execPref x0 x1 s
  | .l2cfg x0 x1 => Sys2Proof.Machine.execL2cfg x0 x1 s
  | .barInit x0 x1 => Sys2Proof.Machine.execBarInit x0 x1 s
  | .barArrive x0 x1 x2 => Sys2Proof.Machine.execBarArrive x0 x1 x2 s
  | .barWait x0 x1 x2 => Sys2Proof.Machine.execBarWait x0 x1 x2 s
  | .barTest x0 x1 x2 => Sys2Proof.Machine.execBarTest x0 x1 x2 s
  | .copy x0 x1 => Sys2Proof.Machine.execCopy x0 x1 s
  | .gcopy x0 x1 => Sys2Proof.Machine.execGcopy x0 x1 s
  | .mcopy x0 x1 x2 => Sys2Proof.Machine.execMcopy x0 x1 x2 s
  | .cseal x0 => Sys2Proof.Machine.execCseal x0 s
  | .cwaitUpto x0 => Sys2Proof.Machine.execCwaitUpto x0 s
  | .cwaitLeft x0 => Sys2Proof.Machine.execCwaitLeft x0 s
  | .ccont x0 x1 x2 => Sys2Proof.Machine.execCcont x0 x1 x2 s
  | .cstat x0 x1 => Sys2Proof.Machine.execCstat x0 x1 s
  | .patch x0 x1 x2 => Sys2Proof.Machine.execPatch x0 x1 x2 s
  | .split x0 x1 x2 => Sys2Proof.Machine.execSplit x0 x1 x2 s
  | .dice x0 x1 x2 => Sys2Proof.Machine.execDice x0 x1 x2 s
  | .gbound x0 x1 x2 => Sys2Proof.Machine.execGbound x0 x1 x2 s
  | .bspill x0 x1 x2 => Sys2Proof.Machine.execBspill x0 x1 x2 s
  | .bfill x0 x1 x2 => Sys2Proof.Machine.execBfill x0 x1 x2 s
  | .spat x0 x1 x2 => Sys2Proof.Machine.execSpat x0 x1 x2 s
  | .sgrid x0 x1 x2 => Sys2Proof.Machine.execSgrid x0 x1 x2 s
  | .sflush x0 x1 x2 => Sys2Proof.Machine.execSflush x0 x1 x2 s
  | .sresolve x0 x1 x2 => Sys2Proof.Machine.execSresolve x0 x1 x2 s
  | .bvhbind x0 x1 x2 => Sys2Proof.Machine.execBvhbind x0 x1 x2 s
  | .rcfade x0 x1 x2 => Sys2Proof.Machine.execRcfade x0 x1 x2 s
  | .texbind x0 x1 x2 => Sys2Proof.Machine.execTexbind x0 x1 x2 s
  | .xdelta x0 x1 x2 => Sys2Proof.Machine.execXdelta x0 x1 x2 s
  | .xdcmp x0 x1 => Sys2Proof.Machine.execXdcmp x0 x1 s
  | .xfclr x0 x1 => Sys2Proof.Machine.execXfclr x0 x1 s
  | .ktwin x0 x1 => Sys2Proof.Machine.execKtwin x0 x1 s
  | .kpeal x0 x1 x2 => Sys2Proof.Machine.execKpeal x0 x1 x2 s
  | .krst x0 => Sys2Proof.Machine.execKrst x0 s
  | .kwait x0 x1 => Sys2Proof.Machine.execKwait x0 x1 s
  | .kstat x0 x1 => Sys2Proof.Machine.execKstat x0 x1 s
  | .spawn x0 x1 x2 => Sys2Proof.Machine.execSpawn x0 x1 x2 s
  | .ndone x0 x1 => Sys2Proof.Machine.execNdone x0 x1 s
  | .stepb x0 => Sys2Proof.Machine.execStepb x0 s
  | .prio x0 x1 => Sys2Proof.Machine.execPrio x0 x1 s
  | .erd x0 x1 => Sys2Proof.Machine.execErd x0 x1 s
  | .bqpush x0 x1 x2 => Sys2Proof.Machine.execBqpush x0 x1 x2 s
  | .bqpop x0 x1 => Sys2Proof.Machine.execBqpop x0 x1 s
  | .dieq x0 x1 => Sys2Proof.Machine.execDieq x0 x1 s
  | .qroot x0 => Sys2Proof.Machine.execQroot x0 s
  | .qsplit x0 x1 x2 => Sys2Proof.Machine.execQsplit x0 x1 x2 s
  | .qretW x0 x1 => Sys2Proof.Machine.execQretW x0 x1 s
  | .qretM x0 x1 => Sys2Proof.Machine.execQretM x0 x1 s
  | .qborrow x0 => Sys2Proof.Machine.execQborrow x0 s
  | .qwait x0 x1 => Sys2Proof.Machine.execQwait x0 x1 s
  | .qpoll x0 x1 => Sys2Proof.Machine.execQpoll x0 x1 s
  | .qsend x0 x1 => Sys2Proof.Machine.execQsend x0 x1 s
  | .mshape x0 x1 x2 => Sys2Proof.Machine.execMshape x0 x1 x2 s
  | .mloadb x0 x1 x2 => Sys2Proof.Machine.execMloadb x0 x1 x2 s
  | .mma x0 x1 x2 => Sys2Proof.Machine.execMma x0 x1 x2 s
  | .mmac x0 x1 x2 => Sys2Proof.Machine.execMmac x0 x1 x2 s
  | .mzero x0 x1 x2 => Sys2Proof.Machine.execMzero x0 x1 x2 s
  | .mstat x0 x1 x2 => Sys2Proof.Machine.execMstat x0 x1 x2 s
  | .iadd x0 => Sys2Proof.Machine.execIadd x0 s
  | .isub x0 => Sys2Proof.Machine.execIsub x0 s
  | .imul x0 => Sys2Proof.Machine.execImul x0 s
  | .imad x0 => Sys2Proof.Machine.execImad x0 s
  | .imulh x0 => Sys2Proof.Machine.execImulh x0 s
  | .iabs x0 => Sys2Proof.Machine.execIabs x0 s
  | .imin x0 => Sys2Proof.Machine.execImin x0 s
  | .imax x0 => Sys2Proof.Machine.execImax x0 s
  | .laneAnd x0 => Sys2Proof.Machine.execLaneAnd x0 s
  | .laneOr x0 => Sys2Proof.Machine.execLaneOr x0 s
  | .laneXor x0 => Sys2Proof.Machine.execLaneXor x0 s
  | .notL x0 => Sys2Proof.Machine.execNotL x0 s
  | .laneShl x0 => Sys2Proof.Machine.execLaneShl x0 s
  | .laneShr x0 => Sys2Proof.Machine.execLaneShr x0 s
  | .laneSra x0 => Sys2Proof.Machine.execLaneSra x0 s
  | .bfe x0 => Sys2Proof.Machine.execBfe x0 s
  | .bfi x0 => Sys2Proof.Machine.execBfi x0 s
  | .popc x0 => Sys2Proof.Machine.execPopc x0 s
  | .clz x0 => Sys2Proof.Machine.execClz x0 s
  | .isetp x0 => Sys2Proof.Machine.execIsetp x0 s
  | .mov x0 => Sys2Proof.Machine.execMov x0 s
  | .laneSel x0 => Sys2Proof.Machine.execLaneSel x0 s
  | .plop x0 => Sys2Proof.Machine.execPlop x0 s
  | .fadd x0 => Sys2Proof.Machine.execFadd x0 s
  | .fsub x0 => Sys2Proof.Machine.execFsub x0 s
  | .fmul x0 => Sys2Proof.Machine.execFmul x0 s
  | .ffma x0 => Sys2Proof.Machine.execFfma x0 s
  | .fmin x0 => Sys2Proof.Machine.execFmin x0 s
  | .fmax x0 => Sys2Proof.Machine.execFmax x0 s
  | .fsetp x0 => Sys2Proof.Machine.execFsetp x0 s
  | .frnd x0 => Sys2Proof.Machine.execFrnd x0 s
  | .frcp x0 => Sys2Proof.Machine.execFrcp x0 s
  | .frsq x0 => Sys2Proof.Machine.execFrsq x0 s
  | .fsqrt x0 => Sys2Proof.Machine.execFsqrt x0 s
  | .fexp2 x0 => Sys2Proof.Machine.execFexp2 x0 s
  | .flog2 x0 => Sys2Proof.Machine.execFlog2 x0 s
  | .fsin x0 => Sys2Proof.Machine.execFsin x0 s
  | .fcos x0 => Sys2Proof.Machine.execFcos x0 s
  | .hadd2 x0 => Sys2Proof.Machine.execHadd2 x0 s
  | .hmul2 x0 => Sys2Proof.Machine.execHmul2 x0 s
  | .hfma2 x0 => Sys2Proof.Machine.execHfma2 x0 s
  | .cvt x0 => Sys2Proof.Machine.execCvt x0 s
  | .shfl x0 => Sys2Proof.Machine.execShfl x0 s
  | .vote x0 => Sys2Proof.Machine.execVote x0 s
  | .gred x0 => Sys2Proof.Machine.execGred x0 s
  | .gscan x0 => Sys2Proof.Machine.execGscan x0 s
  | .gdx x0 => Sys2Proof.Machine.execGdx x0 s
  | .gdy x0 => Sys2Proof.Machine.execGdy x0 s
  | .xchg x0 => Sys2Proof.Machine.execXchg x0 s
  | .brl x0 => Sys2Proof.Machine.execBrl x0 s
  | .switchL x0 => Sys2Proof.Machine.execSwitchL x0 s
  | .reconv x0 => Sys2Proof.Machine.execReconv x0 s
  | .lloop x0 => Sys2Proof.Machine.execLloop x0 s
  | .llexit x0 => Sys2Proof.Machine.execLlexit x0 s
  | .lstop x0 => Sys2Proof.Machine.execLstop x0 s
  | .ld x0 => Sys2Proof.Machine.execLd x0 s
  | .st x0 => Sys2Proof.Machine.execSt x0 s
  | .ldx x0 => Sys2Proof.Machine.execLdx x0 s
  | .stx x0 => Sys2Proof.Machine.execStx x0 s
  | .atom x0 => Sys2Proof.Machine.execAtom x0 s
  | .atomx x0 => Sys2Proof.Machine.execAtomx x0 s
  | .fqput x0 => Sys2Proof.Machine.execFqput x0 s
  | .fqget x0 => Sys2Proof.Machine.execFqget x0 s
  | .mfeed x0 => Sys2Proof.Machine.execMfeed x0 s
  | .mscale x0 => Sys2Proof.Machine.execMscale x0 s
  | .mdrain x0 => Sys2Proof.Machine.execMdrain x0 s
  | .mfmt x0 => Sys2Proof.Machine.execMfmt x0 s
  | .gread x0 => Sys2Proof.Machine.execGread x0 s
  | .greadApron x0 => Sys2Proof.Machine.execGreadApron x0 s
  | .gwrite x0 => Sys2Proof.Machine.execGwrite x0 s
  | .gnorm x0 => Sys2Proof.Machine.execGnorm x0 s
  | .scover x0 => Sys2Proof.Machine.execScover x0 s
  | .sread x0 => Sys2Proof.Machine.execSread x0 s
  | .swrite x0 => Sys2Proof.Machine.execSwrite x0 s
  | .swriteZ x0 => Sys2Proof.Machine.execSwriteZ x0 s
  | .trace x0 => Sys2Proof.Machine.execTrace x0 s
  | .traceSort x0 => Sys2Proof.Machine.execTraceSort x0 s
  | .hitget x0 => Sys2Proof.Machine.execHitget x0 s
  | .rclook x0 => Sys2Proof.Machine.execRclook x0 s
  | .rcins x0 => Sys2Proof.Machine.execRcins x0 s
  | .tex x0 => Sys2Proof.Machine.execTex x0 s
  | .texg x0 => Sys2Proof.Machine.execTexg x0 s
  | .texq x0 => Sys2Proof.Machine.execTexq x0 s
  | .texlat x0 => Sys2Proof.Machine.execTexlat x0 s
  | .xmat x0 => Sys2Proof.Machine.execXmat x0 s
  | .xlut1 x0 => Sys2Proof.Machine.execXlut1 x0 s
  | .xlut3 x0 => Sys2Proof.Machine.execXlut3 x0 s
  | .xraw x0 => Sys2Proof.Machine.execXraw x0 s
  | .xpack x0 => Sys2Proof.Machine.execXpack x0 s
  | .xunpk x0 => Sys2Proof.Machine.execXunpk x0 s
  | .klaunch x0 => Sys2Proof.Machine.execKlaunch x0 s
  | .kcapt x0 => Sys2Proof.Machine.execKcapt x0 s
  | .spawnLane x0 => Sys2Proof.Machine.execSpawnLane x0 s
  | .qsendLane x0 => Sys2Proof.Machine.execQsendLane x0 s
  | .longLatencyResultWrite x0 x1 x2 => Sys2Proof.Machine.execLongLatencyResultWrite x0 x1 x2 s
  | .aldReadsPerform x0 x1 x2 => Sys2Proof.Machine.execAldReadsPerform x0 x1 x2 s
  | .laneMemoryAccessPerform x0 x1 x2 => Sys2Proof.Machine.execLaneMemoryAccessPerform x0 x1 x2 s
  | .rangeMaintenancePerform x0 x1 => Sys2Proof.Machine.execRangeMaintenancePerform x0 x1 s
  | .copyEntryPerform x0 x1 => Sys2Proof.Machine.execCopyEntryPerform x0 x1 s
  | .continuationStart x0 x1 => Sys2Proof.Machine.execContinuationStart x0 x1 s
  | .mloadbEntryPerform x0 => Sys2Proof.Machine.execMloadbEntryPerform x0 s
  | .mmaEntryPerform x0 => Sys2Proof.Machine.execMmaEntryPerform x0 s
  | .mzeroEntryPerform x0 => Sys2Proof.Machine.execMzeroEntryPerform x0 s
  | .mfeedEntryPerform x0 => Sys2Proof.Machine.execMfeedEntryPerform x0 s
  | .mscaleEntryPerform x0 => Sys2Proof.Machine.execMscaleEntryPerform x0 s
  | .mdrainEntryPerform x0 x1 => Sys2Proof.Machine.execMdrainEntryPerform x0 x1 s
  | .mfmtRequest x0 x1 => Sys2Proof.Machine.execMfmtRequest x0 x1 s
  | .diceEntryPerform x0 => Sys2Proof.Machine.execDiceEntryPerform x0 s
  | .fillEntryPerform x0 => Sys2Proof.Machine.execFillEntryPerform x0 s
  | .spillEntryPerform x0 x1 => Sys2Proof.Machine.execSpillEntryPerform x0 x1 s
  | .engineSpill x0 => Sys2Proof.Machine.execEngineSpill x0 s
  | .greadEntryPerform x0 => Sys2Proof.Machine.execGreadEntryPerform x0 s
  | .gwriteEntryPerform x0 => Sys2Proof.Machine.execGwriteEntryPerform x0 s
  | .sflushEntryPerform x0 x1 => Sys2Proof.Machine.execSflushEntryPerform x0 x1 s
  | .sgridEntryPerform x0 => Sys2Proof.Machine.execSgridEntryPerform x0 s
  | .sresolveEntryPerform x0 x1 => Sys2Proof.Machine.execSresolveEntryPerform x0 x1 s
  | .scoverEntryPerform x0 => Sys2Proof.Machine.execScoverEntryPerform x0 s
  | .sampleRecordEntryPerform x0 => Sys2Proof.Machine.execSampleRecordEntryPerform x0 s
  | .traceEntryPerform x0 => Sys2Proof.Machine.execTraceEntryPerform x0 s
  | .traceSortMeeting x0 x1 x2 x3 => Sys2Proof.Machine.execTraceSortMeeting x0 x1 x2 x3 s
  | .hitgetEntryPerform x0 => Sys2Proof.Machine.execHitgetEntryPerform x0 s
  | .rclookEntryPerform x0 => Sys2Proof.Machine.execRclookEntryPerform x0 s
  | .rcinsEntryPerform x0 => Sys2Proof.Machine.execRcinsEntryPerform x0 s
  | .rcfadeEntryPerform x0 x1 => Sys2Proof.Machine.execRcfadeEntryPerform x0 x1 s
  | .texEntryPerform x0 => Sys2Proof.Machine.execTexEntryPerform x0 s
  | .texqEntryPerform x0 => Sys2Proof.Machine.execTexqEntryPerform x0 s
  | .colourTransformEntryPerform x0 => Sys2Proof.Machine.execColourTransformEntryPerform x0 s
  | .packEntryPerform x0 => Sys2Proof.Machine.execPackEntryPerform x0 s
  | .xrawEntryPerform x0 => Sys2Proof.Machine.execXrawEntryPerform x0 s
  | .xfclrEntryPerform x0 => Sys2Proof.Machine.execXfclrEntryPerform x0 s
  | .xdeltaEntryPerform x0 => Sys2Proof.Machine.execXdeltaEntryPerform x0 s
  | .xdcmpEntryPerform x0 => Sys2Proof.Machine.execXdcmpEntryPerform x0 s
  | .ktwinEntryPerform x0 => Sys2Proof.Machine.execKtwinEntryPerform x0 s
  | .kpealEntryPerform x0 => Sys2Proof.Machine.execKpealEntryPerform x0 s
  | .krstEntryPerform x0 => Sys2Proof.Machine.execKrstEntryPerform x0 s
  | .klaunchEntryPerform x0 => Sys2Proof.Machine.execKlaunchEntryPerform x0 s
  | .kcaptEntryPerform x0 => Sys2Proof.Machine.execKcaptEntryPerform x0 s
  | .ballastDepositPerform x0 => Sys2Proof.Machine.execBallastDepositPerform x0 s
  | .qretEntryPerform x0 => Sys2Proof.Machine.execQretEntryPerform x0 s
  | .takeCause x0 x1 => Sys2Proof.Machine.execTakeCause x0 x1 s
  | .parkBlockWrite x0 x1 => Sys2Proof.Machine.execParkBlockWrite x0 x1 s
  | .softError x0 x1 => Sys2Proof.Machine.execSoftError x0 x1 s
  | .sleepExpire x0 x1 => Sys2Proof.Machine.execSleepExpire x0 x1 s
  | .mwaitWake x0 x1 => Sys2Proof.Machine.execMwaitWake x0 x1 s
  | .xchgMatch x0 x1 => Sys2Proof.Machine.execXchgMatch x0 x1 s
  | .translationWalk x0 x1 x2 x3 x4 x5 => Sys2Proof.Machine.execTranslationWalk x0 x1 x2 x3 x4 x5 s
  | .cacheLineExpire x0 x1 x2 x3 => Sys2Proof.Machine.execCacheLineExpire x0 x1 x2 x3 s
  | .writeCombineTimeout x0 x1 x2 => Sys2Proof.Machine.execWriteCombineTimeout x0 x1 x2 s
  | .gangAdmission x0 x1 x2 x3 x4 x5 => Sys2Proof.Machine.execGangAdmission x0 x1 x2 x3 x4 x5 s
  | .admissionRetry x0 x1 x2 x3 => Sys2Proof.Machine.execAdmissionRetry x0 x1 x2 x3 s
  | .gangRetire x0 => Sys2Proof.Machine.execGangRetire x0 s
  | .instanceRetire x0 x1 => Sys2Proof.Machine.execInstanceRetire x0 x1 s
  | .dispatchInstance x0 x1 => Sys2Proof.Machine.execDispatchInstance x0 x1 s
  | .launchStart x0 => Sys2Proof.Machine.execLaunchStart x0 s
  | .stepBoundary x0 => Sys2Proof.Machine.execStepBoundary x0 s
  | .preemption x0 => Sys2Proof.Machine.execPreemption x0 s
  | .partitionResume x0 x1 => Sys2Proof.Machine.execPartitionResume x0 x1 s
  | .clusterPowerUp x0 x1 => Sys2Proof.Machine.execClusterPowerUp x0 x1 s
  | .periodBoundary x0 => Sys2Proof.Machine.execPeriodBoundary x0 s
  | .powerWindow x0 x1 => Sys2Proof.Machine.execPowerWindow x0 x1 s
  | .thermalWarning x0 x1 x2 => Sys2Proof.Machine.execThermalWarning x0 x1 x2 s
  | .thermalRecovery x0 x1 => Sys2Proof.Machine.execThermalRecovery x0 x1 s
  | .thermalFreeze x0 x1 x2 => Sys2Proof.Machine.execThermalFreeze x0 x1 x2 s
  | .accumulatorForward x0 x1 => Sys2Proof.Machine.execAccumulatorForward x0 x1 s
  | .tetherSteal x0 x1 => Sys2Proof.Machine.execTetherSteal x0 x1 s
  | .stealRetry x0 x1 => Sys2Proof.Machine.execStealRetry x0 x1 s
  | .depthReportSend x0 x1 => Sys2Proof.Machine.execDepthReportSend x0 x1 s
  | .writeMsg x0 x1 x2 x3 => Sys2Proof.Machine.execWriteMsg x0 x1 x2 x3 s
  | .noticeMsg x0 x1 => Sys2Proof.Machine.execNoticeMsg x0 x1 s
  | .readMsg x0 x1 => Sys2Proof.Machine.execReadMsg x0 x1 s
  | .rdataMsg x0 x1 => Sys2Proof.Machine.execRdataMsg x0 x1 s
  | .ackMsg x0 x1 => Sys2Proof.Machine.execAckMsg x0 x1 s
  | .messageApply x0 x1 => Sys2Proof.Machine.execMessageApply x0 x1 s
  | .returnMsg x0 x1 => Sys2Proof.Machine.execReturnMsg x0 x1 s
  | .borrowMsg x0 x1 => Sys2Proof.Machine.execBorrowMsg x0 x1 s
  | .grantMsg x0 x1 => Sys2Proof.Machine.execGrantMsg x0 x1 s
  | .refuseMsg x0 x1 => Sys2Proof.Machine.execRefuseMsg x0 x1 s
  | .depositMsg x0 x1 => Sys2Proof.Machine.execDepositMsg x0 x1 s
  | .transferMsg x0 x1 => Sys2Proof.Machine.execTransferMsg x0 x1 s
  | .wakeMsg x0 x1 => Sys2Proof.Machine.execWakeMsg x0 x1 s
  | .stealRequest x0 x1 => Sys2Proof.Machine.execStealRequest x0 x1 s
  | .stealReply x0 x1 => Sys2Proof.Machine.execStealReply x0 x1 s
  | .depthReport x0 x1 => Sys2Proof.Machine.execDepthReport x0 x1 s
  | .hostRegisterRequest x0 x1 x2 x3 x4 x5 => Sys2Proof.Machine.execHostRegisterRequest x0 x1 x2 x3 x4 x5 s
  | .hostRegisterResponse x0 => Sys2Proof.Machine.execHostRegisterResponse x0 s
  | .eventFlit x0 => Sys2Proof.Machine.execEventFlit x0 s
  | .lqtailWrite x0 x1 => Sys2Proof.Machine.execLqtailWrite x0 x1 s
  | .launchRecord x0 => Sys2Proof.Machine.execLaunchRecord x0 s
  | .resumeCmd x0 => Sys2Proof.Machine.execResumeCmd x0 s
  | .abortCmd x0 => Sys2Proof.Machine.execAbortCmd x0 s
  | .switchCmd x0 => Sys2Proof.Machine.execSwitchCmd x0 s
  | .withdrawCmd x0 => Sys2Proof.Machine.execWithdrawCmd x0 s
  | .tlbinvCmd x0 => Sys2Proof.Machine.execTlbinvCmd x0 s
  | .mcclr x0 x1 => Sys2Proof.Machine.execMcclr x0 x1 s
  | .registerWrite x0 x1 x2 x3 => Sys2Proof.Machine.execRegisterWrite x0 x1 x2 x3 s
  | .boot x0 => Sys2Proof.Machine.execBoot x0 s
  | .attestationQuote x0 => Sys2Proof.Machine.execAttestationQuote x0 s
  | .quoteReady x0 => Sys2Proof.Machine.execQuoteReady x0 s
  | .resetAll x0 => Sys2Proof.Machine.execResetAll x0 s
  | .linkTraining x0 x1 x2 x3 => Sys2Proof.Machine.execLinkTraining x0 x1 x2 x3 s
  | .linkLost x0 x1 => Sys2Proof.Machine.execLinkLost x0 x1 s
  | .freeze => Sys2Proof.Machine.execFreeze s
  | .freezeCommand => Sys2Proof.Machine.execFreezeCommand s
  | .thaw => Sys2Proof.Machine.execThaw s
  | .thawCommand => Sys2Proof.Machine.execThawCommand s
  | .timeSliceExpiry x0 => Sys2Proof.Machine.execTimeSliceExpiry x0 s
  | .hcmdNotAccepted x0 x1 => Sys2Proof.Machine.execHcmdNotAccepted x0 x1 s
  | .linkDown x0 x1 => Sys2Proof.Machine.execLinkDown x0 x1 s
  | .droppedFlit x0 x1 => Sys2Proof.Machine.execDroppedFlit x0 x1 s
  | .flitRetry x0 x1 x2 => Sys2Proof.Machine.execFlitRetry x0 x1 x2 s

end Sys2Proof.Machine
end

