-- ==== Sys2Proof/Machine/Step.lean ====
section
/-! DEFINITION. One step: the next turn of the agenda. With no turn to come the machine idles. Time passes, the actor's
next word is brought to issue, and the instruction runs; while the package is frozen only thaw and reset take place. -/

set_option linter.unusedVariables false

namespace Sys2Proof.Machine

open Sys2Proof

/-- The machine as the first turn of the agenda begins: the turn taken off, its clk passed, its errors struck and its energy
metered (R222, R475), its actor set. No clk passes and nothing is metered while the package is frozen (R288). -/
def State.begin (s : State) (t : Turn) (rest : List Turn) : State :=
  let s1 := t.upsets.foldl State.strike (s.pass (if s.frozen then 0 else t.clk))
  { (if s.frozen then [] else t.energy).foldl State.metered s1 with agenda := rest, actor := t.act.actor }

/-- One step of the machine. -/
def step (s : State) : Host.Outcome State Fault Refusal :=
  match s.agenda with
  | [] => .next s
  | t :: rest =>
    if s.frozen && !thaws t.act then .next { s with agenda := rest }
    else
      match (s.begin t rest).issue t.act with
      | .error o => o
      | .ok (s1, i) => exec i s1

/-- Puts n bytes of a number at physical address a of die 0. -/
def State.load (s : State) (a n v : Nat) : State := s.setMem (Mem.put s.mem a n v)

/-- A launch, instance, gang, group and context placed by hand, under a page table that maps the first GiB of die 0's
GDDR 7 one to one with every permission, so that the instruction of the given word is the next to issue: a scalar word in
the group's scalar stream, a matrix word in the context, a lane word in a lane run of all 32 threads (DESIGN CHOICE, log 3). -/
def State.withFetchWord (s : State) (nbits w : Nat) : State :=
  let code := 0x40000
  let node := code + code * 2 ^ 64 + code * 2 ^ 128 + 2 ^ 192 + 2 ^ 208 + 2 ^ 224 + 2 ^ 240 + 2 ^ 247 + 64 * 2 ^ 256
  let rec_ := 2 ^ 64 + 0x1000 * 2 ^ 192 + 2 ^ 736 + 2 ^ 739 + 2 ^ 747 + 2 ^ 750
  let lane := decide (32 < nbits)
  let ctl := !lane && fld w 26 6 == 0x3C
  let g0 := Group.start ⟨0, 0, 0, 0, 0, 0⟩ code 64 0 0 []
  let g := if lane then { g0 with run := { g0.run with active := true, frags := [Frag.at 0xFFFFFFFF 0] } } else g0
  let s1 := { s with
    frozen := false
    launches := Tab.set s.launches 0 {
      record := rec_, index := 0, addr := 0, home := 0, state := 1, nodes := [node], regions := [], safe := [], live := [],
      dies := [(0, [0])], out := false, stopping := false, since := 0, withdraw := [], tethers := [], carillons := [] }
    insts := Tab.set s.insts 0 {
      launch := 0, number := 0, node := 0, index := 0, die := 0, phase := .running, wgt := 0, published := [],
      admitted := true, debit := 0, unstarted := [], park := none, bucket := false, wants := [] }
    gangs := Tab.set s.gangs 0 {
      launch := 0, inst := 0, node := 0, gx := 0, gy := 0, gz := 0, die := 0, cluster := 0, core0 := 0, cores := 1, gpc := 1,
      regs := 64, nbar := 0, hold := [], barPend := [], fifos := [], free := [], bucket := none, budget := 0, bvh := [],
      tex := [], matrix := [], handoffs := [], placed := true, retired := false }
    groups := Tab.set s.groups 0 g
    ctxs := Tab.set s.ctxs 0 (Ctx.start 0 0 code)
    agenda := [{ clk := 0, act := if lane then .lane 0 0 else if ctl then .control 0 else .scalar 0 }] }
  ((s1.load 0x1000 8 0x2001).load 0x2000 8 0x3F).load code (if lane then 12 else 4) w

end Sys2Proof.Machine
end

