-- ==== Sys2Proof/Safety.lean ====
section
/-! DEFINITION. What counts as a safe state: the forms of State that every step keeps. -/

set_option linter.unusedVariables false

namespace Sys2Proof

open Sys2Proof.Machine

/-- The memory is in its canonical form. -/
def Safe (s : State) : Prop := Mem.wf s.mem = true

/-- A step that neither faults nor refuses. -/
def Completes (s : State) : Prop := ∃ t, step s = .next t

end Sys2Proof
end

