-- ==== Sys2Proof/WellFormed.lean ====
section
/-! DEFINITION. Well-formedness of instructions. -/

set_option linter.unusedVariables false

namespace Sys2Proof

/-- An instruction is well formed when its word is one the decoder accepts: a scalar constructor holds exactly its row's
fields and always is; a lane word passes every check of Table 3-10, with the sub-code its constructor stands for. -/
def Instr.wellFormed (i : Instr) : Bool :=
  match i.laneOp with
  | some (op, w, c) => laneCause op w == 0 && (c == 2 || w.c.toNat == c)
  | none => true

end Sys2Proof
end

