-- ==== Sys2Proof/Certificates/Slice0/Obligations.lean ====
section
/-! DEFINITION. The statements for the provers. -/

set_option linter.unusedVariables false

/-! ## Words the statements share -/

namespace Sys2Proof.Machine

/-- A unit issues, with this scalar stream. -/
def Issues (s : State) (u : Who) (st : Stream) : Prop := s.issuer = some u ∧ s.stream u = some st

/-- A group issues a scalar word. -/
def GroupIssues (s : State) (k : Nat) (g : Group) : Prop :=
  s.issuer = some (.group k) ∧ Tab.find s.groups k = some g

/-- A group issues a scalar word, with the record of its gang. -/
def GangIssues (s : State) (k : Nat) (g : Group) (ga : Gang) : Prop :=
  GroupIssues s k g ∧ Tab.find s.gangs (k / 65536) = some ga

/-- A context issues a word, with the record of its gang. -/
def CtxIssues (s : State) (c : Nat) (x : Ctx) (ga : Gang) : Prop :=
  s.issuer = some (.ctx c) ∧ Tab.find s.ctxs c = some x ∧ Tab.find s.gangs c = some ga

/-- The group's word completes without a transfer, leaving the rest of the group as `g` and its stream as `st`. -/
def State.wordDone (s : State) (k : Nat) (g : Group) (pc : Nat) (st : Stream) : State :=
  s.setGroup k { g with st := s.stepped (.group k) pc st.complete }

/-- No run is active and nothing of an ended run is outstanding (R46, R152, R153). -/
def Group.noRun (g : Group) : Prop := g.run.active = false ∧ g.laccs = [] ∧ g.lpend = []

/-- A computation answers, and leaves this work. -/
def Answers {α : Type} (m : Act α) (w : Work) (a : α) (v : Work) : Prop := m w = .ok (a, v)

/-- The machine after a meaning that changed it to `v`. -/
def State.after (s : State) (v : Work) : State := v.cur.setMem (storeAll s.mem v.stores)

end Sys2Proof.Machine

open Sys2Proof Sys2Proof.Machine

/-! ## Scalar words that need only their stream -/

/-- A register-form word writes f of its operands to s_D, for every unit and every operand number, s0 included, and
changes nothing else but what every completing word changes. -/
def Sys2Proof.Machine.WritesReg (mk : BitVec 5 → BitVec 5 → BitVec 5 → Instr) (f : W64 → W64 → W64) : Prop :=
  ∀ s u st d a b, Issues s u st → exec (mk d a b) s = .next (s.setStream u (s.stepped u st.pc
    (st.put d.toNat (f (st.get a.toNat) (st.get b.toNat))).complete))

/-- R138 and R139: every register-form word of Table 5-4 completes in every state with the result of the rule, computed
on integers and wrapped; shifts of 64 or more give 0, or the sign. -/
def Sys2Proof.Machine.RegisterFormWords : Prop :=
  WritesReg .add (fun x y => BitVec.ofNat 64 (x.toNat + y.toNat)) ∧
  WritesReg .sub (fun x y => BitVec.ofInt 64 (x.toInt - y.toInt)) ∧
  WritesReg .mul (fun x y => BitVec.ofInt 64 (x.toInt * y.toInt)) ∧
  WritesReg .mulhI64 (fun x y => BitVec.ofInt 64 (x.toInt * y.toInt / 2 ^ 64)) ∧
  WritesReg .mulhN64 (fun x y => BitVec.ofNat 64 (x.toNat * y.toNat / 2 ^ 64)) ∧
  WritesReg .andS (fun x y => x &&& y) ∧ WritesReg .orS (fun x y => x ||| y) ∧ WritesReg .xorS (fun x y => x ^^^ y) ∧
  WritesReg .shl (fun x y => if 64 ≤ y.toNat then 0 else BitVec.ofNat 64 (x.toNat * 2 ^ y.toNat)) ∧
  WritesReg .shr (fun x y => if 64 ≤ y.toNat then 0 else BitVec.ofNat 64 (x.toNat / 2 ^ y.toNat)) ∧
  WritesReg .sra (fun x y => if 64 ≤ y.toNat then (if x.toInt < 0 then -1 else 0) else BitVec.ofInt 64 (x.toInt / 2 ^ y.toNat)) ∧
  WritesReg .minI64 (fun x y => BitVec.ofInt 64 (min x.toInt y.toInt)) ∧
  WritesReg .minN64 (fun x y => BitVec.ofNat 64 (min x.toNat y.toNat)) ∧
  WritesReg .maxI64 (fun x y => BitVec.ofInt 64 (max x.toInt y.toInt)) ∧
  WritesReg .maxN64 (fun x y => BitVec.ofNat 64 (max x.toNat y.toNat)) ∧
  (∀ h : BitVec 3, WritesReg (fun d a b => .lea d a b h) (fun x y => BitVec.ofNat 64 (x.toNat + y.toNat * 2 ^ h.toNat)))

/-- An immediate-form word writes f of s_A and its immediate to s_D. -/
def Sys2Proof.Machine.WritesImm (mk : BitVec 5 → BitVec 5 → BitVec 16 → Instr) (f : W64 → BitVec 16 → W64) : Prop :=
  ∀ s u st d a i, Issues s u st → exec (mk d a i) s = .next (s.setStream u (s.stepped u st.pc
    (st.put d.toNat (f (st.get a.toNat) i)).complete))

/-- R138 to R140: immediate forms, MOVI and MOVHI; a shift by an immediate of 64 or more raises 0x04 and writes nothing. -/
def Obligations.ImmediateFormsWriteTheirResult : Prop :=
  WritesImm .addImm (fun x i => BitVec.ofInt 64 (x.toInt + i.toInt)) ∧
  WritesImm .mulImm (fun x i => BitVec.ofInt 64 (x.toInt * i.toInt)) ∧
  WritesImm .andImm (fun x i => BitVec.ofNat 64 (x.toNat &&& i.toNat)) ∧
  WritesImm .orImm (fun x i => BitVec.ofNat 64 (x.toNat ||| i.toNat)) ∧
  WritesImm .xorImm (fun x i => BitVec.ofNat 64 (x.toNat ^^^ i.toNat)) ∧
  (∀ s u st d a i, Issues s u st → i.toNat < 64 →
    exec (.shlImm d a i) s = .next (s.setStream u (s.stepped u st.pc
      (st.put d.toNat (BitVec.ofNat 64 ((st.get a.toNat).toNat * 2 ^ i.toNat))).complete)) ∧
    exec (.shrImm d a i) s = .next (s.setStream u (s.stepped u st.pc
      (st.put d.toNat (BitVec.ofNat 64 ((st.get a.toNat).toNat / 2 ^ i.toNat))).complete)) ∧
    exec (.sraImm d a i) s = .next (s.setStream u (s.stepped u st.pc
      (st.put d.toNat (BitVec.ofInt 64 ((st.get a.toNat).toInt / 2 ^ i.toNat))).complete))) ∧
  (∀ s u st d a i, Issues s u st → 64 ≤ i.toNat →
    exec (.shlImm d a i) s = .next (s.raise u (Cause.atWord 0x04 st.pc 0)) ∧
    exec (.shrImm d a i) s = .next (s.raise u (Cause.atWord 0x04 st.pc 0)) ∧
    exec (.sraImm d a i) s = .next (s.raise u (Cause.atWord 0x04 st.pc 0))) ∧
  (∀ s u st d i, Issues s u st →
    exec (.movi d i) s = .next (s.setStream u (s.stepped u st.pc (st.put d.toNat (BitVec.ofInt 64 i.toInt)).complete))) ∧
  (∀ s u st d h i, Issues s u st → ∃ v : W64,
    exec (.movhi d h i) s = .next (s.setStream u (s.stepped u st.pc (st.put d.toNat v).complete)) ∧
    ∀ n, n < 64 → v.getLsbD n =
      if 16 * h.toNat ≤ n ∧ n < 16 * h.toNat + 16 then i.getLsbD (n - 16 * h.toNat) else (st.get d.toNat).getLsbD n)

/-- R133, R261: a write to s0 is discarded and s0 reads zero; another register reads what was last written to it, and no
other register of the current bank changes. -/
def Sys2Proof.Machine.ScalarRegistersHoldWhatIsWritten : Prop :=
  ∀ (st : Stream) (n m : Nat) (v : W64),
    st.put 0 v = st ∧ (st.put n v).get 0 = 0 ∧ (n ≠ 0 → (st.put n v).get n = v) ∧
    (m ≠ n → (st.put n v).get m = st.get m)

/-- R141, R142 and Tables 5-1 and 3-2: CMP and TST write the four outcomes of f_D, a D of 4 or more raises 0x04, and SEL
chooses by the condition. -/
def Obligations.ComparisonsWriteTheirFlag : Prop :=
  (∀ (f a b : BitVec 5) (i : BitVec 16),
    let fab := f.toNat * 2 ^ 21 + a.toNat * 2 ^ 16
    encode (.cmp f a b) = some (32, 0x01 * 2 ^ 26 + fab + b.toNat * 2 ^ 11 + 0x0F * 2 ^ 4) ∧
    encode (.tst f a b) = some (32, 0x01 * 2 ^ 26 + fab + b.toNat * 2 ^ 11 + 0x10 * 2 ^ 4) ∧
    encode (.cmpImm f a i) = some (32, 0x0B * 2 ^ 26 + fab + i.toNat)) ∧
  (∀ s u st f a b i, Issues s u st → f.toNat < 4 →
    let x := st.get a.toNat
    let y := st.get b.toNat
    let done := fun (o : Flag) => Host.Outcome.next (s.setStream u (s.stepped u st.pc (st.setFlag f.toNat o).complete))
    let cmp := fun (x y : W64) => (⟨x == y, decide (x.toInt < y.toInt), decide (x.toNat < y.toNat),
      !(BitVec.ofInt 64 (x.toInt - y.toInt)).toInt == x.toInt - y.toInt⟩ : Flag)
    exec (.cmp f a b) s = done (cmp x y) ∧
    exec (.cmpImm f a i) s = done (cmp x (BitVec.ofInt 64 i.toInt)) ∧
    exec (.tst f a b) s = done ⟨(x &&& y) == 0, (x &&& y).getLsbD 63, false, false⟩) ∧
  (∀ s u st f a b i, Issues s u st → 4 ≤ f.toNat →
    exec (.cmp f a b) s = .next (s.raise u (Cause.atWord 0x04 st.pc 0)) ∧
    exec (.cmpImm f a i) s = .next (s.raise u (Cause.atWord 0x04 st.pc 0)) ∧
    exec (.tst f a b) s = .next (s.raise u (Cause.atWord 0x04 st.pc 0))) ∧
  (∀ s u st d a b f c, Issues s u st →
    exec (.sel d a b f c) s = .next (s.setStream u (s.stepped u st.pc
      (st.put d.toNat (if (st.flag f.toNat).cond c.toNat then st.get a.toNat else st.get b.toNat)).complete)))

/-- R143 and R144: BR goes to its target when the outcome holds and otherwise falls through, JMP always goes, CALL pushes
the next word's address, RET pops it, JMPR goes to s_A. Targets are relative to the word and wrap to 64 bits. -/
def Obligations.TransfersGoToTheirTarget : Prop :=
  ∀ s u st, Issues s u st →
    let goes := fun (x : Stream) (pc : Nat) => Host.Outcome.next (s.setStream u (s.stepped u st.pc (x.jump pc)))
    let falls := Host.Outcome.next (s.setStream u (s.stepped u st.pc st.complete))
    let target := fun (o : BitVec 22) => (((st.pc : Int) + 4 * o.toInt) % 2 ^ 64).toNat
    (∀ f c o, (st.flag f.toNat).outcome c.toNat = true → exec (.brSet f c o) s = goes st (target o) ∧ exec (.brClear f c o) s = falls) ∧
    (∀ f c o, (st.flag f.toNat).outcome c.toNat = false → exec (.brClear f c o) s = goes st (target o) ∧ exec (.brSet f c o) s = falls) ∧
    (∀ o, exec (.jmp o) s = goes st (target o)) ∧
    (∀ o, st.rstack.length < 8 →
      exec (.call o) s = goes { st.flush with rstack := (st.pc + 4) % 2 ^ 64 :: st.rstack } (target o)) ∧
    (∀ o, 8 ≤ st.rstack.length → exec (.call o) s = .next (s.raise u (Cause.atWord 0x06 st.pc 0))) ∧
    (∀ r t, st.rstack = r :: t → exec .ret s = goes { st.flush with rstack := t } r) ∧
    (st.rstack = [] → exec .ret s = .next (s.raise u (Cause.atWord 0x04 st.pc 0))) ∧
    (∀ a, (st.flush.get a.toNat).toNat % 4 = 0 → exec (.jmpr a) s = goes st.flush (st.flush.get a.toNat).toNat) ∧
    (∀ a, (st.flush.get a.toNat).toNat % 4 ≠ 0 → exec (.jmpr a) s = .next (s.raise u (Cause.atWord 0x12 st.pc 0)))

/-- R145 to R147: LOOP with a count enters the loop at the next word with its counter zero, a count of 0 skips the body, a
fifth level raises 0x05, LEXIT goes past the innermost end; a completing word at the last address goes back while
iterations are left, and otherwise the next outer loop is asked. -/
def Sys2Proof.Machine.LoopsRepeatTheirBody : Prop :=
  encode .lexit = some (32, 0x02 * 2 ^ 26 + 0x07 * 2 ^ 4) ∧
  (∀ s u st e c a, Issues s u st →
    let goes := fun (x : Stream) (pc : Nat) => Host.Outcome.next (s.setStream u (s.stepped u st.pc (x.jump pc)))
    let enters := fun (e : BitVec 10) (n : Nat) => goes { st with
      loops := ⟨(st.pc + 4) % 2 ^ 64, (st.pc + 4 * e.toNat) % 2 ^ 64, n⟩ :: st.loops
      lc := Tab.set st.lc st.loops.length 0 } ((st.pc + 4) % 2 ^ 64)
    let n := (st.get a.toNat).toNat
    (e.toNat ≠ 0 → c.toNat ≠ 0 → st.loops.length < 4 → exec (.loopImm e c) s = enters e c.toNat) ∧
    (e.toNat ≠ 0 → c.toNat = 0 → exec (.loopImm e c) s = goes st ((st.pc + 4 * e.toNat + 4) % 2 ^ 64)) ∧
    (e.toNat ≠ 0 → n ≠ 0 → n < 2 ^ 32 → st.loops.length < 4 → exec (.loopSreg a e) s = enters e n) ∧
    (e.toNat ≠ 0 → n ≠ 0 → n < 2 ^ 32 → 4 ≤ st.loops.length →
      exec (.loopSreg a e) s = .next (s.raise u (Cause.atWord 0x05 st.pc 0))) ∧
    (∀ l t, st.loops = l :: t → exec .lexit s = goes { st with loops := t } ((l.fin + 4) % 2 ^ 64)) ∧
    (st.loops = [] → exec .lexit s = .next (s.raise u (Cause.atWord 0x04 st.pc 0)))) ∧
  (∀ st : Stream, (∀ l ∈ st.loops, l.fin ≠ st.pc) → st.complete.pc = (st.pc + 4) % 2 ^ 64 ∧ st.complete.loops = st.loops ∧
    st.complete.lc = st.lc) ∧
  (∀ (st : Stream) (l : LoopEnt) t, st.loops = l :: t → l.fin = st.pc → Tab.getD st.lc t.length 0 + 1 < l.count →
    st.complete.pc = l.start ∧ st.complete.loops = st.loops ∧
    st.complete.lc = Tab.set st.lc t.length (Tab.getD st.lc t.length 0 + 1)) ∧
  (∀ (st : Stream) (l : LoopEnt) t, st.loops = l :: t → l.fin = st.pc → l.count ≤ Tab.getD st.lc t.length 0 + 1 →
    st.complete = { st with loops := t }.complete)

/-- R148: NOP has no effect but to complete, and YIELD sets the wait time to zero (which completing does, too). -/
def Sys2Proof.Machine.NopAndYieldOnlyComplete : Prop :=
  ∀ s u st, Issues s u st →
    exec .nop s = .next (s.setStream u (s.stepped u st.pc st.complete)) ∧
    exec .yield s = .next (s.setStream u (s.stepped u st.pc { st with age := 0 }.complete)) ∧
    st.complete.age = 0 ∧ st.complete.regs = st.regs ∧ st.complete.flags = st.flags ∧ st.complete.bank = st.bank

/-- R133, R138, R139, R261: every register-form word of Table 5-4 completes in every state with the result of its rule, and a
scalar register holds what is written to it. -/
def Obligations.RegisterFormsWriteTheirResult : Prop := RegisterFormWords ∧ ScalarRegistersHoldWhatIsWritten

/-- R145 to R148: loops go round, end and nest; NOP and YIELD only complete. -/
def Obligations.LoopsRepeatAndHintsComplete : Prop := LoopsRepeatTheirBody ∧ NopAndYieldOnlyComplete

/-! ## The rest of the sequencer, traps and regions -/

/-- A word of any unit completes with the given stream. -/
def Sys2Proof.Machine.State.unitDone (s : State) (u : Who) (pc : Nat) (st : Stream) : State :=
  s.setStream u (s.stepped u pc st.complete)

/-- Nothing of the unit's earlier entries and accesses can raise a cause any more (R268); a context has no regions. -/
def Sys2Proof.Machine.State.unitSettled (s : State) (u : Who) : Prop :=
  ∀ k, u = .group k → ((Tab.find s.groups k).map Group.settled) = some true

/-- R135, R161, R162: GETS writes the special register of its number to s_D, SETS writes ASTR and AMASK and clears XSTS
and BSTS; a number that cannot be read or written raises 0x04. -/
def Obligations.SpecialRegistersReadAndWrite : Prop :=
  (∀ s k g ga d n v, GangIssues s k g ga → s.groupReg g ga n.toNat = some v →
    exec (.gets d n) s = .next (s.wordDone k g g.st.pc (g.st.put d.toNat (BitVec.ofNat 64 v)))) ∧
  (∀ s c x ga d n v, CtxIssues s c x ga → s.ctxReg x ga n.toNat = some v →
    exec (.gets d n) s = .next (s.unitDone (.ctx c) x.st.pc (x.st.put d.toNat (BitVec.ofNat 64 v)))) ∧
  (∀ s k g ga d n, GangIssues s k g ga → g.st.wait = .none → s.groupReg g ga n.toNat = none →
    exec (.gets d n) s = .next (s.raise (.group k) (Cause.atWord 0x04 g.st.pc 0))) ∧
  (∀ s k g a, GroupIssues s k g →
    exec (.sets a 0x0030) s = .next (s.wordDone k { g with astr := (g.st.get a.toNat).setWidth 32 } g.st.pc g.st) ∧
    exec (.sets a 0x0031) s = .next (s.wordDone k { g with amask := (g.st.get a.toNat).setWidth 32 } g.st.pc g.st) ∧
    exec (.sets a 0x0130) s = .next (s.wordDone k { g with xsts := ⟨0, 0⟩ } g.st.pc g.st) ∧
    exec (.sets a 0x0141) s = .next (s.wordDone k { g with bsts := ⟨0, 0⟩ } g.st.pc g.st)) ∧
  (∀ s k g a n, GroupIssues s k g → g.st.wait = .none → n ≠ 0x0030 → n ≠ 0x0031 → n ≠ 0x0130 → n ≠ 0x0141 →
    exec (.sets a n) s = .next (s.raise (.group k) (Cause.atWord 0x04 g.st.pc 0)))

/-- R148, R52: SLEEP holds the stream for s_A clk and for none when s_A is 0, raises 0x04 from 2^32 on, and SLEEP_EXPIRE
completes it when no clk is left. -/
def Sys2Proof.Machine.SleepHoldsTheStream : Prop :=
  (∀ s u st a, Issues s u st → (∀ n, st.wait ≠ .sleep n) → (st.get a.toNat).toNat = 0 →
    exec (.sleep a) s = .next (s.unitDone u st.pc st)) ∧
  (∀ s u st a, Issues s u st → (∀ n, st.wait ≠ .sleep n) → 0 < (st.get a.toNat).toNat → (st.get a.toNat).toNat < 2 ^ 32 →
    exec (.sleep a) s = .next (s.setStream u { st with wait := .sleep (st.get a.toNat).toNat })) ∧
  (∀ s u st a, Issues s u st → st.wait = .none → 2 ^ 32 ≤ (st.get a.toNat).toNat →
    exec (.sleep a) s = .next (s.raise u (Cause.atWord 0x04 st.pc 0))) ∧
  (∀ (s : State) unit who st, s.stream (whoOf unit who) = some st → st.wait = .sleep 0 → st.stopped = false → st.held = none →
    exec (.sleepExpire unit who) s = .next (s.unitDone (whoOf unit who) st.pc st)) ∧
  (∀ (st : Stream) n left, st.wait = .sleep left → st.stopped = false →
    st.pass n = { st with wait := .sleep (left - n) })

/-- R150 to R152: with no run active LRUN starts one of every thread at its index, with the broadcast copy of the scalar
registers, and LSYNC completes; an index of 2^20 or more raises 0x04. -/
def Obligations.LaneRunsStartAndJoin : Prop :=
  (∀ s k g l, GroupIssues s k g → g.st.tmode = false → g.noRun →
    exec (.lrunImm l) s = .next (s.wordDone k (({ g with st := g.st.flush }).startRun l.toNat) g.st.flush.pc g.st.flush)) ∧
  (∀ s k g a l, GroupIssues s k g → g.st.tmode = false → g.noRun → (g.st.flush.get a.toNat).toNat + l.toNat < 2 ^ 20 →
    exec (.lrunSreg a l) s = .next (s.wordDone k
      (({ g with st := g.st.flush }).startRun ((g.st.flush.get a.toNat).toNat + l.toNat)) g.st.flush.pc g.st.flush)) ∧
  (∀ s k g a l, GroupIssues s k g → g.st.tmode = false → g.st.wait = .none →
    2 ^ 20 ≤ (g.st.flush.get a.toNat).toNat + l.toNat →
    exec (.lrunSreg a l) s = .next (s.raise (.group k) (Cause.atWord 0x04 g.st.pc 0))) ∧
  (∀ s k g, GroupIssues s k g → g.st.tmode = false → g.noRun →
    exec .lsync s = .next (s.wordDone k g g.st.flush.pc g.st.flush)) ∧
  (∀ (g : Group) n, (g.startRun n).run.active = true ∧ (g.startRun n).run.bcast = g.st.regs ∧
    (g.startRun n).run.frags = [⟨0xFFFFFFFF, (n : Int), [], .none, [], [], 0, 0⟩] ∧ (g.startRun n).run.root = none)

/-- R163, R164, R51: REGGIVE gives up its registers, and REGCLAIM takes the greatest multiple of 8 that the lane's free
registers allow; s_D takes the result. -/
def Obligations.RegistersAreTraded : Prop :=
  (∀ s k g ga d a, GangIssues s k g ga → g.st.tmode = false → g.noRun → g.settled = true →
    let n := (g.st.get a.toNat).toNat
    n % 8 = 0 → n + 8 ≤ g.regcnt →
    exec (.reggive d a) s = .next
      ((s.setGang (k / 65536) { ga with
          free := Tab.set ga.free (ga.laneKey g) (Tab.getD ga.free (ga.laneKey g) 0 + 32 * n) }).wordDone k
        { g with regcnt := g.regcnt - n, threads := g.threads.map (fun t => (t.1, t.2.cut (g.regcnt - n))) } g.st.pc
        (g.st.put d.toNat (BitVec.ofNat 64 (g.regcnt - n))))) ∧
  (∀ s k g ga d a, GangIssues s k g ga → g.st.tmode = false → g.noRun → g.settled = true →
    let n := (g.st.get a.toNat).toNat
    let m := min n (Tab.getD ga.free (ga.laneKey g) 0 / 256 * 8)
    n % 8 = 0 → g.regcnt + n ≤ 64 →
    exec (.regclaim d a) s = .next
      ((s.setGang (k / 65536) { ga with
          free := Tab.set ga.free (ga.laneKey g) (Tab.getD ga.free (ga.laneKey g) 0 - 32 * m) }).wordDone k
        { g with regcnt := g.regcnt + m } g.st.pc (g.st.put d.toNat (BitVec.ofNat 64 m)))) ∧
  (∀ s k g ga d a, GangIssues s k g ga → g.st.tmode = false → g.noRun → g.settled = true → g.st.wait = .none →
    ((g.st.get a.toNat).toNat % 8 ≠ 0 ∨ g.regcnt < (g.st.get a.toNat).toNat + 8) →
    exec (.reggive d a) s = .next (s.raise (.group k) (Cause.atWord 0x04 g.st.pc 0)))

/-- R262, R269: a cause with nothing outstanding enters the handler in trap mode, with the cause and the unit's region in
the fault record, unless the instance is parking, the cause cannot be handled, or the handler mask leaves its class out. -/
def Sys2Proof.Machine.TakingACauseEntersTheHandler : Prop :=
  ∀ (s : State) (u : Who) (st : Stream) (c : Cause), s.stream u = some st → st.held = none → st.tmode = false → s.quiet u = true →
    ((Tab.find s.insts (s.instOf u)).map (fun i => i.park.isSome)).getD false = false →
    c.code ≠ 0x13 → c.code < 0xF0 → (∀ n, u = .ctx n → c.kind ≠ 2) → s.handler u ≠ 0 →
    st.hmask.toNat / 2 ^ (c.code / 16) % 2 = 1 →
    ∃ st', (s.raise u c).stream u = some st' ∧ st'.pc = s.handler u ∧ st'.tmode = true ∧ st'.held = none ∧
      st'.cause = some c ∧ st'.frec = ⟨true, c, (s.regionOf u).1, (s.regionOf u).2.1, (s.regionOf u).2.2, 0⟩ ∧
      st'.hmask = st.hmask ∧ st'.bank = st.flush.bank ∧ st'.regs = st.flush.regs ∧ st'.rstack = st.rstack ∧ st'.loops = st.loops ∧ st'.flags = st.flags

/-- R262 and Table 9-4: where the handler cannot take it, the instance parks: in trap mode with REASON 2 and the second
code, an uncorrectable error with 1, a debug cause with 4, and otherwise with 0. -/
def Sys2Proof.Machine.UnhandledCausesParkTheInstance : Prop :=
  ∀ (s : State) (u : Who) (st : Stream) (c : Cause) (i : Inst), s.stream u = some st → st.held = none → s.quiet u = true → Tab.find s.insts (s.instOf u) = some i →
    i.park = none → (∀ n, u ≠ .ctx n) →
    (st.tmode = true ∨ c.code = 0x13 ∨ 0xF0 ≤ c.code ∨ s.handler u = 0 ∨ st.hmask.toNat / 2 ^ (c.code / 16) % 2 = 0) →
    ∃ p, (Tab.find (s.raise u c).insts (s.instOf u)).map (fun i => i.park) = some (some p) ∧
      p.reason = (if st.tmode then 2 else if c.code = 0x13 then 1 else if 0xF0 ≤ c.code then 4 else 0) ∧
      (st.tmode = false → p.cause = c) ∧ (st.tmode = true → p.frec = { st.frec with second := c.code })

/-- R271: TRAP raises 0x0C, precise at the word, with its immediate in USER; with nothing outstanding, a handler and a mask
that lets the class through, it is in the handler, in trap mode, with the record of Table 9-2. TAKE_CAUSE takes the cause a unit holds once
nothing it has issued is outstanding, and SOFT_ERROR makes a unit hold 0x13. -/
def Sys2Proof.Machine.TrapAndHeldCausesAreTaken : Prop :=
  (∀ (u : BitVec 16) (r : Nat), r < 2 ^ 10 → decodeTableWord 32 (0x18 * 2 ^ 26 + r * 2 ^ 16 + u.toNat) =
    if r = 0 then some (.trap u) else none) ∧
  (∀ s u st n, Issues s u st → st.wait = .none →
    exec (.trap n) s = .next (s.raise u ⟨0x0C, 0, 0, 0, n.toNat, st.pc, 0, 0, 0, 0⟩)) ∧
  (∀ s u st n, Issues s u st → st.wait = .none → st.held = none → st.tmode = false → s.quiet u = true →
    ((Tab.find s.insts (s.instOf u)).map (fun i => i.park.isSome)).getD false = false → s.handler u ≠ 0 →
    st.hmask.toNat % 2 = 1 →
    ∃ t st', exec (.trap n) s = .next t ∧ t.stream u = some st' ∧ st'.pc = s.handler u ∧ st'.tmode = true ∧ st'.held = none ∧
      st'.tpc = st.pc ∧ st'.frec = ⟨true, ⟨0x0C, 0, 0, 0, n.toNat, st.pc, 0, 0, 0, 0⟩, (s.regionOf u).1, (s.regionOf u).2.1,
        (s.regionOf u).2.2, 0⟩ ∧ st'.hmask = st.hmask ∧ st'.regs = st.flush.regs ∧ t.mem = s.mem) ∧
  (∀ (s : State) unit who st c, s.stream (whoOf unit who) = some st → st.held = some c → st.stopped = false →
    s.quiet (whoOf unit who) = true →
    exec (.takeCause unit who) s = .next ((s.settleLanes (whoOf unit who)).take (whoOf unit who))) ∧
  (∀ (s : State) unit who st, s.stream (whoOf unit who) = some st → st.held = none → (∀ b, st.wait ≠ .barWait b none) →
    exec (.softError unit who) s = .next
      (((s.countBad (((s.gangOf (whoOf unit who)).map (fun g => g.die)).getD 0)).tickOn).raise (whoOf unit who)
        ⟨0x13, (Config.softKind s.tick).toNat, 0, 0, 0, 0, 0, 0, 0, 0⟩))

/-- R264, R266: REGN, with no run active and every earlier entry committed, ends the region: the checkpoint takes the
scalar state, BASE the next sequence numbers, EPC the word and the counter one more. -/
def Obligations.RegnTakesACheckpoint : Prop :=
  (∀ s k g, GroupIssues s k g → g.st.tmode = false → g.noRun → g.aldPending = false → g.committed = true →
    exec .regn s = .next (s.wordDone k (({ g with st := g.st.flush }).region g.st.flush.pc) g.st.flush.pc g.st.flush)) ∧
  (∀ (g : Group) pc, (g.region pc).epc = pc ∧ (g.region pc).regnc = (g.regnc + 1) % 2 ^ 64 ∧
    (g.region pc).base = g.queues.map (fun q => (q.1, q.2.next)) ∧ (g.region pc).ckpt.regs = g.st.regs ∧
    (g.region pc).ckpt.flags = g.st.flags ∧ (g.region pc).ckpt.rstack = g.st.rstack ∧
    (g.region pc).ckpt.loops = g.st.loops ∧ (g.region pc).ckpt.lc = g.st.lc ∧ (g.region pc).ckpt.astr = g.astr ∧
    (g.region pc).ckpt.amask = g.amask ∧ (g.region pc).ckpt.wgt = g.wgt)

/-- R273: TRET leaves trap mode: region replays from the checkpoint after the REGN word, again goes to XPC for a cause
precise at a scalar word and to where the stream stood for one of a lane word, next goes past a TRAP. Outside trap mode
each raises 0x03. -/
def Sys2Proof.Machine.ReturnsFromTheHandler : Prop :=
  (∀ s k g, GroupIssues s k g → g.st.tmode = true →
    exec .tretRegion s = .next (s.setGroup k { g.replay with st := s.stepped (.group k) g.st.pc g.replay.st }) ∧ g.replay.st.tmode = false ∧ g.replay.st.held = none ∧
    g.replay.st.regs = g.ckpt.regs ∧ g.replay.st.flags = g.ckpt.flags ∧ g.replay.astr = g.ckpt.astr ∧
    g.replay.amask = g.ckpt.amask ∧ g.replay.wgt = g.ckpt.wgt ∧ g.replay.run.active = false ∧
    (g.epc ≠ 0 → g.replay.st.pc = (g.epc + 4) % 2 ^ 64) ∧ (g.epc = 0 → g.replay.st.pc = g.ckpt.first)) ∧
  (∀ s u st, Issues s u st → st.tmode = true →
    let back := fun (pc : Nat) (w : Wait) => Host.Outcome.next (s.setStream u (s.stepped u st.pc
      { st with tmode := false, held := none, cause := none, pc := pc, wait := w, twait := .none, word := st.tword, age := 0 }))
    (st.frec.cause.kind = 0 → exec .tretAgain s = back st.frec.cause.xpc .none) ∧
    (st.frec.cause.kind = 1 → exec .tretAgain s = back st.tpc st.twait) ∧
    (st.frec.cause.code = 0x0C → exec .tretNext s = back ((st.frec.cause.xpc + 4) % 2 ^ 64) .none)) ∧
  (∀ s c st, Issues s (.ctx c) st → st.tmode = true → st.wait = .none →
    exec .tretRegion s = .next (s.raise (.ctx c) (Cause.atWord 0x04 st.pc 0))) ∧
  (∀ s u st, Issues s u st → st.tmode = false → st.wait = .none →
    exec .tretRegion s = .next (s.raise u (Cause.atWord 0x03 st.pc 0)) ∧
    exec .tretAgain s = .next (s.raise u (Cause.atWord 0x03 st.pc 0)) ∧
    exec .tretNext s = .next (s.raise u (Cause.atWord 0x03 st.pc 0)))

/-- R274 to R276: CAUSE exchanges HMASK with s_A, FREC reads a word of the fault record, SUSP parks the instance with
REASON 3 and its operand in USER; an operand out of range raises 0x04. -/
def Sys2Proof.Machine.HandlerMaskRecordAndSuspension : Prop :=
  (∀ s u st d a, Issues s u st → (st.get a.toNat).toNat < 2 ^ 16 →
    exec (.cause d a) s = .next (s.unitDone u st.pc
      ({ st with hmask := (st.get a.toNat).setWidth 16 }.put d.toNat (st.hmask.setWidth 64)))) ∧
  (∀ s u st d a, Issues s u st → (st.get a.toNat).toNat < 16 →
    exec (.frec d a) s = .next (s.unitDone u st.pc
      (st.put d.toNat (BitVec.ofNat 64 (st.frec.word (s.markOf u) (st.get a.toNat).toNat))))) ∧
  (∀ s u st a, Issues s u st → (st.get a.toNat).toNat < 2 ^ 16 → s.unitSettled u →
    let frec := st.suspRec (st.get a.toNat).toNat (s.regionOf u)
    let s1 := s.setStream u { st with frec := frec }
    exec (.susp a) s = .next (s1.park (s1.instOf u) 3 frec.cause (s1.whoWord u) frec)) ∧
  (∀ s u st d a, Issues s u st → st.wait = .none → 2 ^ 16 ≤ (st.get a.toNat).toNat →
    exec (.cause d a) s = .next (s.raise u (Cause.atWord 0x04 st.pc 0)) ∧
    exec (.frec d a) s = .next (s.raise u (Cause.atWord 0x04 st.pc 0)) ∧
    exec (.susp a) s = .next (s.raise u (Cause.atWord 0x04 st.pc 0)))

/-- R89: a result whose window has ended is written, a scalar one to its register (in the trap bank, where its word issued in
trap mode and names s24 to s31), a lane one to the registers of its
threads. -/
def Sys2Proof.Machine.EndedWindowsWriteTheirResult : Prop :=
  (∀ (s : State) unit who k st p, unit ≠ 2 → s.stream (whoOf unit who) = some st → st.pend[k]? = some p → p.left = 0 →
    exec (.longLatencyResultWrite unit who k) s = .next (s.setStream (whoOf unit who)
      { st.result p with pend := dropNth st.pend k })) ∧
  (∀ (s : State) who k g p, Tab.find s.groups who = some g → g.lpend[k]? = some p → p.ready = true →
    (∀ f ∈ g.run.frags, ∀ w ∈ f.wins, w.1 = p.tag → w.2 = 0) →
    exec (.longLatencyResultWrite 2 who k) s = .next (s.setGroup who (g.writeTags [p.tag])))

/-- R34, R35, R260 to R262, R271, R277: TRAP and a held cause are taken: the stream enters the handler, or the instance parks. The kind of a soft error is free (log 63). -/
def Obligations.CausesEnterTheHandlerOrPark : Prop := TakingACauseEntersTheHandler ∧ UnhandledCausesParkTheInstance ∧ TrapAndHeldCausesAreTaken

/-- R52, R89, R148: SLEEP holds its stream, and windows that end write their results. -/
def Obligations.StreamsWaitForTimeAndResults : Prop := SleepHoldsTheStream ∧ EndedWindowsWriteTheirResult

/-- R262, R273 to R276: the words of a handler and its return. -/
def Obligations.HandlersRunAndReturn : Prop := ReturnsFromTheHandler ∧ HandlerMaskRecordAndSuspension

/-! ## Scalar memory, barriers, fences and the memory system -/

namespace Sys2Proof.Machine

/-- A group's word completes after issuing one entry into a queue (R17, R30). -/
def State.entryIssued (s : State) (k : Nat) (g : Group) (q : Nat) (op : EOp) (st : Stream) : State :=
  s.tickOn.wordDone k (g.issued q op s.tick) g.st.pc st

/-- The address of an S-M word (R72, R154). -/
def Stream.smAddr (st : Stream) (b : BitVec 5) (z : BitVec 2) (o : BitVec 10) : Nat :=
  ((((st.get b.toNat).toNat : Int) + o.toInt * 2 ^ z.toNat) % 2 ^ 64).toNat

/-- A unit issues, with the record of its gang. -/
def UnitIssues (s : State) (u : Who) (st : Stream) (ga : Gang) : Prop := Issues s u st ∧ s.gangOf u = some ga

/-- No lane access of an ended run and no ALD read of the group is outstanding. -/
def Group.clear (g : Group) : Prop := (g.run.active = true ∨ g.laccs = []) ∧ g.aldPending = false

/-- No lane access of an ended run and no ALD read of the unit is outstanding. -/
def State.unitClear (s : State) (u : Who) : Prop := ∀ k, u = .group k → ∃ g, Tab.find s.groups k = some g ∧ g.clear

/-- No ALD read of the unit is outstanding. -/
def State.aldsDone (s : State) (u : Who) : Prop :=
  ∀ k, u = .group k → (Tab.find s.groups k).map Group.aldPending = some false

/-- The machine after a read at a key of a die that may have needed a correction (R222). -/
def State.readOnce (s : State) (die k n : Nat) : State := if s.corrAt k n then s.countCorr die else s

/-- The address lies in 48 bits and is a multiple of n (R201, R209). -/
def Placed48 (a n : Nat) : Prop := a < 2 ^ 48 ∧ a % n = 0

end Sys2Proof.Machine

/-- R6, R213: memory reads what was last written, byte by byte, and a write leaves every other byte alone. -/
def Obligations.MemoryHoldsWhatIsWritten : Prop :=
  (∀ w : Nat, decodeLaneBytes ((upFrom 0 12).map (fun i => BitVec.ofNat 8 (w / 2 ^ (8 * i)))) = decodeLane (w % 2 ^ 96)) ∧
  (∀ w : Nat, decodeScalarBytes ((upFrom 0 4).map (fun i => BitVec.ofNat 8 (w / 2 ^ (8 * i)))) = decodeScalar (w % 2 ^ 32)) ∧
  ∀ (m : List Host.Cell) (k n v : Nat), Mem.wf m = true →
    Mem.wf (Mem.put m k n v) = true ∧
    (∀ i, i < n → Mem.get (Mem.put m k n v) (k + i) = BitVec.ofNat 8 (v / 2 ^ (8 * i))) ∧
    (∀ a, a < k ∨ k + n ≤ a → Mem.get (Mem.put m k n v) a = Mem.get m a) ∧
    Mem.read (Mem.put m k n v) k n = v % 2 ^ (8 * n)

/-- R154, R89: an SLD whose aligned address can be read writes what is read, zero-extended, to s_D, at once or when its
window ends; an SST whose address can be written completes with the bytes stored; both once earlier ALD reads have performed. -/
def Obligations.ScalarLoadsAndStoresComplete : Prop :=
  (∀ s u st d b l z o x w st1, Issues s u st → Placed48 (st.smAddr b z o) (2 ^ z.toNat) → s.aldsDone u →
    Answers (streamRead u (s.portOf u) ⟨true, 0⟩ (st.smAddr b z o) (2 ^ z.toNat)) ⟨s, []⟩ (.ok x) w → Issues w.cur u st1 →
    (l = 0 → exec (.sld d b l z o) s = .next
      (s.after ⟨w.cur.unitDone u st1.pc (st1.put d.toNat (BitVec.ofNat 64 x)), w.stores⟩)) ∧
    (l ≠ 0 → exec (.sld d b l z o) s = .next
      (s.after ⟨w.cur.unitDone u st1.pc { st1 with pend := st1.pend ++ [⟨d.toNat, BitVec.ofNat 64 x, l.toNat, st1.tmode⟩] }, w.stores⟩))) ∧
  (∀ s u st d b z o r w st1, Issues s u st → Placed48 (st.smAddr b z o) (2 ^ z.toNat) →
    s.aldsDone u →
    Answers (streamWrite u (s.portOf u) (st.smAddr b z o) (2 ^ z.toNat)
      ((st.get d.toNat).toNat % 2 ^ (8 * 2 ^ z.toNat))) ⟨s, []⟩ (.ok r) w → Issues w.cur u st1 →
    exec (.sst d b z o) s = .next (s.after ⟨w.cur.unitDone u st1.pc st1, w.stores⟩)) ∧
  (∀ s u st d b l z o, Issues s u st → st.wait = .none →
    (2 ^ 48 ≤ st.smAddr b z o →
      exec (.sld d b l z o) s = .next (s.raise u (Cause.atWord 0x10 st.pc (st.smAddr b z o))) ∧
      exec (.sst d b z o) s = .next (s.raise u (Cause.atWord 0x10 st.pc (st.smAddr b z o)))) ∧
    (st.smAddr b z o < 2 ^ 48 → st.smAddr b z o % 2 ^ z.toNat ≠ 0 →
      exec (.sld d b l z o) s = .next (s.raise u (Cause.atWord 0x12 st.pc (st.smAddr b z o))) ∧
      exec (.sst d b z o) s = .next (s.raise u (Cause.atWord 0x12 st.pc (st.smAddr b z o)))))

/-- R156 to R158, R160, R240: ALD allocates an entry at its queue's tail; ALD_READS_PERFORM reads its elements one after
another, in ALD order, and the entry is present with the last; an element outside AMASK is 0. AST, once no run is active,
stores its elements one after another in ascending order and completes with the last. -/
def Obligations.OperandLoadsAndStoresComplete : Prop :=
  (∀ s k g x q b z o, GroupIssues s k g → z ≠ 3 → ¬(x = 1 ∧ z = 2) →
    let base := g.st.smAddr b z o
    let oq := Tab.getD g.opq q.toNat OpQ.empty
    (∀ i ∈ elems g.amask, Placed48 (elemAddr base g.astr.toInt (2 ^ z.toNat) i) (2 ^ z.toNat)) → oq.fill g.present < 16 →
    exec (.ald x q b z o) s = .next (s.tickOn.wordDone k { g with opq := Tab.set g.opq q.toNat { oq with
      ents := oq.ents ++ [⟨[], some ⟨base, g.astr.toInt, 2 ^ z.toNat, x == 1, g.amask, false, s.tick⟩⟩] } } g.st.pc g.st)) ∧
  (∀ s k g x q b z o, GroupIssues s k g → g.st.wait = .none → z ≠ 3 → ¬(x = 1 ∧ z = 2) →
    (∀ i ∈ elems g.amask, Placed48 (elemAddr (g.st.smAddr b z o) g.astr.toInt (2 ^ z.toNat) i) (2 ^ z.toNat)) →
    16 ≤ (Tab.getD g.opq q.toNat OpQ.empty).fill g.present → g.run.active = false →
    exec (.ald x q b z o) s = .next (s.raise (.group k) (Cause.atWord 0x04 g.st.pc 0))) ∧
  (∀ (s : State) gk q k g oq e j x w g1, Tab.find s.groups gk = some g → Tab.find g.opq q = some oq → oq.ents[k]? = some e →
    e.job = some j → j.failed = false → g.aldBefore j.born = false →
    Answers (aldWord gk (s.portOf (.group gk)) j e.words.length) ⟨s, []⟩ (.ok x) w → Tab.find w.cur.groups gk = some g1 →
    let e1 : QEnt := ⟨e.words ++ [x], if e.words.length + 1 < 32 then some j else none⟩
    exec (.aldReadsPerform gk q k) s = .next (s.after ⟨w.cur.setGroup gk { g1 with
      opq := Tab.set g1.opq q { oq with ents := setNth oq.ents k e1 } }, w.stores⟩)) ∧
  (∀ gk p j i w, j.mask.getLsbD i = false → Answers (aldWord gk p j i) w (.ok 0) w) ∧
  (∀ s k g v b z o n, GroupIssues s k g → g.st.tmode = false → z ≠ 3 → g.noRun → g.aldPending = false →
    (g.st.wait = .ast n ∨ (n = 0 ∧ ∀ i, g.st.wait ≠ .ast i)) →
    let base := g.st.smAddr b z o
    let addr := elemAddr base g.astr.toInt (2 ^ z.toNat)
    let x := fun (i : Nat) => (if v.toNat < g.regcnt then (Tab.getD (g.thread i).v v.toNat 0).toNat else 0) % 2 ^ (8 * 2 ^ z.toNat)
    (∀ i ∈ elems g.amask, Placed48 (addr i) (2 ^ z.toNat)) →
    ((∀ i ∈ elems g.amask, i < n) → exec (.ast v b z o) s = .next (s.wordDone k g g.st.pc g.st)) ∧
    (∀ i r w g1, i ∈ elems g.amask → n ≤ i → (∀ y ∈ elems g.amask, n ≤ y → i ≤ y) →
      Answers (streamWrite (.group k) (s.portOf (.group k)) (addr i) (2 ^ z.toNat) (x i)) ⟨s, []⟩ (.ok r) w → GroupIssues w.cur k g1 →
      ((∀ y ∈ elems g.amask, y ≤ i) →
        exec (.ast v b z o) s = .next (s.after ⟨w.cur.wordDone k g1 g1.st.pc g1.st, w.stores⟩)) ∧
      ((∃ y ∈ elems g.amask, i < y) → exec (.ast v b z o) s = .next
        (s.after ⟨w.cur.setGroup k { g1 with st := { g1.st with wait := .ast (i + 1) } }, w.stores⟩))))

/-- R230: MWAIT whose word differs from s_B completes with the word in s_D, one that is equal waits on the sector, and the
wake after a write of the sector completes with the word then read. -/
def Obligations.MwaitWatchesItsSector : Prop :=
  (∀ s u st d a b x sec w st1, Issues s u st → (∀ n m, st.wait ≠ .mwait n m) → Placed48 (st.get a.toNat).toNat 8 →
    Answers (watchRead u (st.get a.toNat).toNat) ⟨s, []⟩ (.ok (x, sec)) w → Issues w.cur u st1 →
    (x ≠ (st1.get b.toNat).toNat → exec (.mwait d a b) s = .next
      (s.after ⟨w.cur.unitDone u st1.pc (st1.put d.toNat (BitVec.ofNat 64 x)), w.stores⟩)) ∧
    (x = (st1.get b.toNat).toNat → exec (.mwait d a b) s = .next
      (s.after ⟨w.cur.setStream u { st1 with wait := .mwait sec false }, w.stores⟩))) ∧
  (∀ (s : State) unit who st sec d a b x y w st1, s.stream (whoOf unit who) = some st → st.stopped = false → st.held = none →
    st.wait = .mwait sec true → decodeScalar st.word = .ok (.mwait d a b) →
    Answers (watchRead (whoOf unit who) (st.get a.toNat).toNat) ⟨s, []⟩ (.ok (x, y)) w → w.cur.stream (whoOf unit who) = some st1 →
    exec (.mwaitWake unit who) s = .next
      (s.after ⟨w.cur.unitDone (whoOf unit who) st1.pc (st1.put d.toNat (BitVec.ofNat 64 x)), w.stores⟩))

/-- R213 to R217, R231, R233: BANKCFG gives the old mode; a change, once nothing committed pins the holding, loses its
contents, and with no bank of the core left in cache-way mode none of its lines remains. L2CFG in a privileged launch gives
the old mask, the ways that change hold zero, and lines of ways that become scratch are gone; another launch's L2CFG raises
0x03. Which lines a bank or a way holds is the model's (log 73). -/
def Obligations.BankAndWayModesChange : Prop :=
  (∀ s k g ga d a b, GangIssues s k g ga → g.st.tmode = false → g.noRun → g.settled = true →
    let x := (g.st.get a.toNat).toNat
    let mode := (g.st.get b.toNat).toNat
    let hs := Tab.getD ga.hold (x % 8) []
    let old := nth hs (x / 8) 0
    let changed := (s.store (spadKey (k / 65536) (x % 8) + 8192 * (x / 8)) 8192 0).setGang (k / 65536) { ga with
      hold := Tab.set ga.hold (x % 8) (setNth hs (x / 8) mode)
      fifos := Tab.set ga.fifos (512 * (x % 8) + x / 8) [] }
    x < 2 ^ 9 → x % 8 < ga.cores → x / 8 < hs.length → mode ≤ 2 → (x % 8 = 0 → 16 * ga.nbar ≤ 8192 * (x / 8)) →
    (mode = old → exec (.bankcfg d a b) s = .next (s.wordDone k g g.st.pc (g.st.put d.toNat (BitVec.ofNat 64 mode)))) ∧
    (mode ≠ old → s.pinned (k / 65536) (x % 8) (x / 8) = false →
      exec (.bankcfg d a b) s = .next
        ((if old = 0 then changed.loseBank ga.die ga.cluster (ga.core0 + x % 8) else changed).wordDone k g g.st.pc
          (g.st.put d.toNat (BitVec.ofNat 64 old))))) ∧
  (∀ (s : State) die cl core d, Tab.find s.dies die = some d →
    (∀ l ∈ Tab.getD ((s.loseBank die cl core).die die).caches (8 * cl + core) [], l ∈ Tab.getD d.caches (8 * cl + core) []) ∧
    (48 ≤ s.banksOut die cl core → Tab.getD ((s.loseBank die cl core).die die).caches (8 * cl + core) [] = [])) ∧
  (∀ s k g ga x d a, GangIssues s k g ga → s.privileged (.group k) = true → g.settled = true → Tab.find s.dies ga.die = some x →
    let m := (g.st.get a.toNat).toNat
    let inWay := fun (c : Nat) => ∃ y ∈ bitsOf 16 (x.wmask ^^^ m), 2 ^ 48 + ga.die * 2 ^ 40 + y * 2 ^ 22 ≤ c ∧
      c < 2 ^ 48 + ga.die * 2 ^ 40 + (y + 1) * 2 ^ 22
    m < 2 ^ 16 → popcount 16 m ≤ 12 →
    ∃ t y, exec (.l2cfg d a) s = .next t ∧ Tab.find t.dies ga.die = some y ∧ y.wmask = m ∧
      (m &&& x.wmask = m → y = { x with wmask := m }) ∧
      (m &&& x.wmask ≠ m → (∀ l ∈ y.copies, l ∈ x.copies ∧ Config.blockInWay s.tick l.block = false) ∧
        (∀ z ∈ y.dirty, z ∈ x.dirty ∧ Config.blockInWay s.tick (z.1 / 8) = false)) ∧
      Tab.find t.groups k = some { g with st := s.stepped (.group k) g.st.pc (g.st.put d.toNat (BitVec.ofNat 64 x.wmask)).complete } ∧
      (∀ c, inWay c → Mem.get t.mem c = 0) ∧ (∀ c, ¬inWay c → Mem.get t.mem c = Mem.get s.mem c)) ∧
  (∀ s k g d a, GroupIssues s k g → s.privileged (.group k) = false → g.st.wait = .none →
    exec (.l2cfg d a) s = .next (s.raise (.group k) (Cause.atWord 0x03 g.st.pc 0)))

/-- R24 to R26, R305: an arrival below EXPECTED raises ARRIVED and keeps the status of highest rank pending; the one that
reaches it flips the phase, clears ARRIVED and WAITERS, leaves the status word, and hands over the armed continuation's record
as it stands, whose weight is then zero; reserved fields are written as zero. -/
def Sys2Proof.Machine.BarriersCountArrivals : Prop :=
  ∀ (w : Work) (gang addr n status : Nat) (g : Gang), Tab.find w.cur.gangs gang = some g →
    let key := barKey gang addr
    let v := Mem.read w.cur.mem key 16
    let cont := fld v 96 16
    let rec_ := spadKey gang 0 + 128 * cont
    let best := if statusRank (status / 2 ^ 24) > statusRank ((Tab.getD g.barPend addr 0).toNat / 2 ^ 24) then status
      else (Tab.getD g.barPend addr 0).toNat
    (fld v 0 16 ≤ fld v 32 16 → Answers (arrive gang addr n status) w () w) ∧
    (fld v 32 16 < fld v 0 16 → fld v 32 16 + n < fld v 0 16 →
      ∃ x, Answers (arrive gang addr n status) w () ⟨(w.cur.store key 16 x).setGang gang
          { g with barPend := Tab.set g.barPend addr (BitVec.ofNat 32 best) }, (key, 16, x) :: w.stores⟩ ∧
        fld x 0 16 = fld v 0 16 ∧ fld x 31 1 = fld v 31 1 ∧ fld x 32 16 = fld v 32 16 + n ∧ fld x 112 16 = fld v 112 16 ∧
        fld x 16 15 = 0 ∧ fld x 48 16 = 0) ∧
    (fld v 32 16 < fld v 0 16 → fld v 0 16 ≤ fld v 32 16 + n →
      ∃ x, fld x 0 16 = fld v 0 16 ∧ fld x 31 1 = 1 - fld v 31 1 ∧ fld x 32 16 = 0 ∧ fld x 64 32 = best % 2 ^ 32 ∧
        fld x 96 16 = 0xFFFF ∧ fld x 112 16 = 0 ∧ fld x 16 15 = 0 ∧ fld x 48 16 = 0 ∧
        (cont = 0xFFFF → Answers (arrive gang addr n status) w () ⟨((w.cur.store key 16 x).setGang gang
          { g with barPend := Tab.set g.barPend addr 0 }).wakeBar gang addr best, (key, 16, x) :: w.stores⟩) ∧
        (cont ≠ 0xFFFF → Answers (arrive gang addr n status) w () ⟨(((w.cur.store key 16 x).store (rec_ + 8) 8 0).setGang gang
          { g with
            barPend := Tab.set g.barPend addr 0
            handoffs := g.handoffs ++ [Mem.read (w.cur.store key 16 x).mem rec_ 128] }).wakeBar gang addr best,
          (rec_ + 8, 8, 0) :: (key, 16, x) :: w.stores⟩))

/-- R222, R235 to R237: BAR.INIT writes a fresh object, BAR.ARRIVE arrives and gives the phase before, BAR.WAIT and BAR.TEST
answer the status word of a completed phase; BAR.WAIT on the present phase sleeps and counts in WAITERS, and a completion
wakes it with the status of its phase. An object with an uncorrectable error raises 0x13. -/
def Sys2Proof.Machine.BarrierWordsComplete : Prop :=
  (∀ s u st ga a b, UnitIssues s u st ga → s.unitSettled u →
    let x := (st.get a.toNat).toNat
    let e := (st.get b.toNat).toNat
    let key := barKey u.gang x
    x % 16 = 0 → x < 16 * ga.nbar → 0 < e → e ≤ 65535 → s.badAt key 16 = false → fld (Mem.read s.mem key 16) 112 16 = 0 →
    exec (.barInit a b) s = .next ((((s.readOnce ga.die key 16).store key 16 (e + 0xFFFF * 2 ^ 96)).setGang u.gang
      { ga with barPend := Tab.set ga.barPend x 0 }).unitDone u st.pc st)) ∧
  (∀ s u st ga a b d w st1, UnitIssues s u st ga → s.unitSettled u →
    let x := (st.get a.toNat).toNat
    let v := (st.get b.toNat).toNat
    let key := barKey u.gang x
    x % 16 = 0 → x < 16 * ga.nbar → fld v 0 16 ≠ 0 → fld v 16 8 ≤ 0x0A → fld v 28 4 = 0 → fld v 48 16 = 0 →
    s.badAt key 16 = false →
    Answers (arrive u.gang x (fld v 0 16) (fld v 16 8 * 2 ^ 24 + 0xF * 2 ^ 20 + fld v 24 4 * 2 ^ 16 + fld v 32 16 % 65536))
      ⟨s.readOnce ga.die key 16, []⟩ () w → Issues w.cur u st1 →
    exec (.barArrive d a b) s = .next (s.after ⟨w.cur.unitDone u st1.pc (st1.put d.toNat
      (BitVec.ofNat 64 (fld (Mem.read s.mem key 16) 31 1))), w.stores⟩)) ∧
  (∀ s u st ga d a b, UnitIssues s u st ga → (∀ y z, st.wait ≠ .barWait y z) →
    let x := (st.get a.toNat).toNat
    let e := (st.get b.toNat).toNat
    let key := barKey u.gang x
    let v := Mem.read s.mem key 16
    let s1 := s.readOnce ga.die key 16
    x % 16 = 0 → x < 16 * ga.nbar → e ≤ 1 → s.badAt key 16 = false →
    (fld v 31 1 ≠ e → exec (.barWait d a b) s = .next ((s1.dropCore (s.portOf u)).unitDone u st.pc
        (st.put d.toNat (BitVec.ofNat 64 (fld v 64 32)))) ∧
      exec (.barTest d a b) s = .next ((s1.dropCore (s.portOf u)).unitDone u st.pc
        (st.put d.toNat (BitVec.ofNat 64 (2 ^ 63 + fld v 64 32))))) ∧
    (fld v 31 1 = e → exec (.barTest d a b) s = .next (s1.unitDone u st.pc (st.put d.toNat 0)) ∧
      ∃ y, exec (.barWait d a b) s = .next
          ((s1.store key 16 y).setStream u { st with wait := .barWait x none }) ∧
        fld y 112 16 = (fld v 112 16 + 1) % 65536 ∧ fld y 31 1 = fld v 31 1)) ∧
  (∀ s u st ga d a b z y, UnitIssues s u st ga → st.wait = .barWait z (some y) →
    let x := (st.get a.toNat).toNat
    let key := barKey u.gang x
    x % 16 = 0 → x < 16 * ga.nbar → (st.get b.toNat).toNat ≤ 1 → s.badAt key 16 = false →
    exec (.barWait d a b) s = .next (((s.readOnce ga.die key 16).dropCore (s.portOf u)).unitDone u st.pc
      (st.put d.toNat (BitVec.ofNat 64 y.toNat)))) ∧
  (∀ s u st ga d a b, UnitIssues s u st ga → st.wait = .none →
    let x := (st.get a.toNat).toNat
    x % 16 = 0 → x < 16 * ga.nbar → (st.get b.toNat).toNat ≤ 1 → s.badAt (barKey u.gang x) 16 = true →
    let raised := Host.Outcome.next ((s.countBad ga.die).raise u (Cause.atWord 0x13 st.pc x))
    exec (.barWait d a b) s = raised ∧ exec (.barTest d a b) s = raised)

/-- R20, R255 to R257: with nothing earlier outstanding FENCE completes, at cluster scope and wider as an acquire, at .sys once
every site has applied what the die had sent; QFENCE completes when no earlier entry of a queue it names is left, or none is
named, and while it waits a later entry of such a queue is held back. -/
def Sys2Proof.Machine.FencesComplete : Prop :=
  (∀ s u st sc, Issues s u st → s.unitClear u → sc.toNat ≤ 5 → (∀ n, st.wait ≠ .fence n) →
    let p := s.portOf u
    (sc.toNat < 2 → exec (.fence sc) s = .next (s.unitDone u st.pc st)) ∧
    (2 ≤ sc.toNat → sc.toNat < 5 → exec (.fence sc) s = .next ((s.dropCore p).unitDone u st.pc st)) ∧
    (sc.toNat = 5 → (∀ o ∈ s.others p.die, Tab.getD (s.clockOf p.die) p.die 0 ≤ Tab.getD (s.clockOf o) p.die 0) →
      exec (.fence sc) s = .next ((s.dropCore p).unitDone u st.pc st))) ∧
  (∀ s u st, Issues s u st → exec (.qfence 0) s = .next (s.unitDone u st.pc st)) ∧
  (∀ s k g m, GroupIssues s k g → (∀ l, g.st.wait ≠ .qfence l) → g.clear → (∀ q ∈ bitsOf 10 m.toNat, (g.queue q).ents = []) →
    m ≠ 0 → exec (.qfence m) s = .next ((s.dropCore (s.portOf (.group k))).wordDone k g g.st.pc g.st)) ∧
  (∀ s k g m ts, GroupIssues s k g → g.st.wait = .qfence ts → g.clear → m ≠ 0 →
    (∀ t ∈ ts, ∀ e ∈ (g.queue t.1).ents, ¬(t.2 - e.seq - 1).toNat < 32768) →
    exec (.qfence m) s = .next ((s.dropCore (s.portOf (.group k))).wordDone k g g.st.pc g.st)) ∧
  (∀ (s : State) k q g e ts n, Tab.find s.groups k = some g → (g.queue q).ents.head? = some e → g.st.wait = .qfence ts →
    (q, n) ∈ ts → (e.seq - n).toNat < 32768 → e.started = false → headOf k q ⟨s, []⟩ = .error .stall) ∧
  (∀ s c x ga, CtxIssues s c x ga → (∀ l, x.st.wait ≠ .qfence l) → x.queue.ents = [] →
    exec (.qfence 4) s = .next (s.unitDone (.ctx c) x.st.pc x.st))

/-- R232: DISCARD, FLUSH, INVAL and PREF of a sector-aligned range issue an entry into queue L; a misaligned one raises
0x12 and one beyond 4 GiB 0x04, the lower of the two if both. -/
def Sys2Proof.Machine.RangeMaintenanceIssues : Prop :=
  ∀ s k g a b, GroupIssues s k g →
    let x := (g.st.get a.toNat).toNat
    let n := (g.st.get b.toNat).toNat
    (x % 32 = 0 → n % 32 = 0 → n ≤ 2 ^ 32 → s.roomFor k 0 = true →
      exec (.discard a b) s = .next (s.entryIssued k g 0 (.range 2 x n) g.st) ∧
      exec (.flush a b) s = .next (s.entryIssued k g 0 (.range 3 x n) g.st) ∧
      exec (.inval a b) s = .next (s.entryIssued k g 0 (.range 4 x n) g.st) ∧
      exec (.pref a b) s = .next (s.entryIssued k g 0 (.range 5 x n) g.st)) ∧
    (g.st.wait = .none → (x % 32 ≠ 0 ∨ n % 32 ≠ 0) →
      let raised := Host.Outcome.next (s.raise (.group k) (Cause.atWord (if n ≤ 2 ^ 32 then 0x12 else 0x04) g.st.pc 0))
      exec (.discard a b) s = raised ∧ exec (.flush a b) s = raised ∧ exec (.inval a b) s = raised ∧ exec (.pref a b) s = raised) ∧
    (g.st.wait = .none → x % 32 = 0 → n % 32 = 0 → 2 ^ 32 < n →
      let raised := Host.Outcome.next (s.raise (.group k) (Cause.atWord 0x04 g.st.pc 0))
      exec (.discard a b) s = raised ∧ exec (.flush a b) s = raised ∧ exec (.inval a b) s = raised ∧ exec (.pref a b) s = raised)

/-- R207, R247, R219 to R221: a walk that finds a leaf caches it, an expiring line leaves its core's cache ways; a block that
has waited WCWAIT clk in the write-combining buffer is completed by a read and counted in BLOCKS, SECTORS and RMW; the
write-back of a block's dirty sectors leaves memory as it is, a whole block is coded at once and a part begins to wait. When
these steps take place is the agenda's (log 10), and the coded size a free value (log 72). -/
def Obligations.MemorySystemSteps : Prop :=
  (∀ (s : State) die cl root va alt victim d pte lg pa,
    let s1 := s.walked ⟨die, 16, none, root, [], true⟩ va
    Tab.find s1.dies die = some d → va < 2 ^ 48 → s.walkFrom die va (some alt) 3 root = .leaf pte lg pa →
    ∃ d', exec (.translationWalk die cl root va alt victim) s = .next (s1.setDie die d') ∧
      (Tab.getD d'.clusters cl .off).tlb.head? = some ⟨root, va / 2 ^ lg, lg, pte, d.host.hmlim⟩ ∧
      (Tab.getD d'.clusters cl .off).tlb.length ≤ 2048) ∧
  (∀ (s : State) die cl core block,
    exec (.cacheLineExpire die cl core block) s = .next (s.dropLine ⟨die, cl, some core, 0, [], true⟩ block)) ∧
  (∀ (s : State) die block secs d c, Tab.find s.dies die = some d →
    d.combs.find? (fun c => c.block == block && d.combOver c) = some c →
    let data := Mem.read s.mem (256 * block) 256
    ∃ d', exec (.writeCombineTimeout die block secs) s = .next (s.setDie die d') ∧ (∀ x ∈ d'.combs, x.block ≠ block) ∧
      d'.mc = { d.mc with
        blocks := (d.mc.blocks + 1) % 2 ^ 64
        sectors := (d.mc.sectors + codedSectors data) % 2 ^ 64
        rmw := (d.mc.rmw + c.writes) % 2 ^ 64 } ∧ d'.dirty = d.dirty) ∧
  (∀ (s : State) die block secs d, Tab.find s.dies die = some d → (∀ c ∈ d.combs, c.block ≠ block) →
    let held := (upFrom (8 * block) 8).filter (fun x => bit secs (x % 8) && (Tab.find d.dirty x).isSome)
    let data := Mem.read s.mem (256 * block) 256
    held ≠ [] →
    ∃ d', exec (.writeCombineTimeout die block secs) s = .next (s.setDie die d') ∧ (∀ x ∈ held, ∀ y ∈ d'.dirty, y.1 ≠ x) ∧
      (held.length = 8 → d'.combs = d.combs ∧ d'.mc = { d.mc with
        blocks := (d.mc.blocks + 1) % 2 ^ 64
        sectors := (d.mc.sectors + codedSectors data) % 2 ^ 64 }) ∧
      (held.length ≠ 8 → d'.mc = d.mc ∧ ∃ bytes, d'.combs = d.combs ++ [⟨block, bytes, 1, d.clk⟩])) ∧
  (∀ data, 1 ≤ codedSectors data ∧ codedSectors data ≤ 8)

/-- R232, R255 to R257: fences wait for what is earlier and complete; range maintenance issues its entry. -/
def Obligations.FencesAndRangeMaintenanceComplete : Prop := FencesComplete ∧ RangeMaintenanceIssues

/-- R24 to R26, R235 to R237: arrivals at a barrier count, and the barrier words complete. -/
def Obligations.BarriersComplete : Prop := BarriersCountArrivals ∧ BarrierWordsComplete

/-! ## Copies, tasks and weight: the scalar words -/

/-- R296 to R298: COPY, GCOPY and MCOPY of a readable, valid shape record whose ranges lie inside issue an entry into queue
C and give its sequence number; an invalid shape raises 0x20. -/
def Sys2Proof.Machine.CopyWordsIssueAnEntry : Prop :=
  ∀ s k g ga kind d a b h w1 r w2 g2, GangIssues s k g ga →
    let va := (g.st.get a.toNat).toNat
    Placed48 va 8 → Answers (readRec va 40) ⟨s, []⟩ h w1 → 1 ≤ fld h 128 4 → fld h 128 4 ≤ 14 →
    Answers (readRec va (40 + 20 * fld h 128 4)) w1 r w2 → GroupIssues w2.cur k g2 →
    (∀ m, kind = .multi m → m = (g.st.get b.toNat).toNat ∧ m ≠ 0 ∧ m / 2 ^ ga.cores = 0) →
    let mk := match kind with | .plain => Instr.copy d a | .gather => Instr.gcopy d a | .multi _ => Instr.mcopy d a b
    let gather := match kind with | .gather => true | _ => false
    let pos := match kind with | .multi m => bitsOf 8 m | _ => [fld r 84 3]
    (shapeOk kind (w2.cur.nodeRec ga) ga r = true → w2.cur.roomFor k 1 = true →
      ((shapeExts r).contains 0 = true ∨
        (rangeCause ga (bit r 136) (fld r 0 64) (shapeElem r) ((topCounters gather r).zip (shapeSrc r)) [fld r 20 3] = 0 ∧
         rangeCause ga (bit r 138) (fld r 64 64) (shapeElem r) ((topCounters false r).zip (shapeDst kind r)) pos = 0)) →
      exec mk s = .next (s.after ⟨w2.cur.entryIssued k g2 1 (.copy kind r (shapeNdim r))
        (g2.st.put d.toNat (BitVec.ofNat 64 (g2.queue 1).next.toNat)), w2.stores⟩)) ∧
    (shapeOk kind (w2.cur.nodeRec ga) ga r = false → g.st.wait = .none →
      exec mk s = .next (s.raise (.group k) (Cause.atWord 0x20 g2.st.pc 0)))

/-- R300 to R302: CSEAL seals the open batch and gives its number, CWAIT completes as an acquire when no sealed batch it
names has entries left, and CSTAT gives and clears the copy status. -/
def Sys2Proof.Machine.CopyBatchWordsComplete : Prop :=
  (∀ s k g d, GroupIssues s k g → g.settled = true → g.sealedLeft.length < 64 →
    ∃ bs, exec (.cseal d) s = .next (s.wordDone k { g with batches := ⟨(g.batches.opened + 1) % 65536, bs⟩ } g.st.pc
        (g.st.put d.toNat (BitVec.ofNat 64 g.batches.opened))) ∧
      (∀ b, b ∈ bs ↔ (b ∈ g.batches.sealed ∨ b = g.batches.opened) ∧ ∃ e ∈ (g.queue 1).ents, e.batch = b)) ∧
  (∀ s k g a, GroupIssues s k g →
    let b := (g.st.get a.toNat).toNat
    let back := (g.batches.opened + 65536 - b % 65536) % 65536
    (b < 65536 → back ≠ 0 → back ≤ 32768 → (∀ x ∈ g.sealedLeft, (g.batches.opened + 65536 - x) % 65536 < back) →
      exec (.cwaitUpto a) s = .next ((s.dropCore (s.portOf (.group k))).wordDone k g g.st.pc g.st)) ∧
    (b < 2 ^ 32 → g.sealedLeft.length ≤ b →
      exec (.cwaitLeft a) s = .next ((s.dropCore (s.portOf (.group k))).wordDone k g g.st.pc g.st)) ∧
    (g.st.wait = .none → (65536 ≤ b ∨ back = 0 ∨ 32768 < back) →
      exec (.cwaitUpto a) s = .next (s.raise (.group k) (Cause.atWord 0x04 g.st.pc 0)))) ∧
  (∀ s k g d a, GroupIssues s k g →
    let gives := fun (g1 : Group) (v : Nat) => Host.Outcome.next (s.wordDone k g1 g.st.pc (g.st.put d.toNat (BitVec.ofNat 64 v)))
    (g.st.get a.toNat = 0 → exec (.cstat d a) s = gives g ((g.queue 1).mark.toNat + (g.queue 1).next.toNat * 2 ^ 16 +
      g.batches.opened * 2 ^ 32 + (g.sealedLeft.head?.getD g.batches.opened) * 2 ^ 48)) ∧
    (g.st.get a.toNat = 1 → exec (.cstat d a) s = gives g (fld g.csts.sticky 1 10 * 2)) ∧
    (g.st.get a.toNat = 2 → exec (.cstat d a) s = gives g g.csts.last.toNat) ∧
    (g.st.get a.toNat = 3 → exec (.cstat d a) s = gives { g with csts := ⟨0, 0⟩ } (fld g.csts.sticky 1 10 * 2)) ∧
    (3 < (g.st.get a.toNat).toNat → g.st.wait = .none →
      exec (.cstat d a) s = .next (s.raise (.group k) (Cause.atWord 0x04 g.st.pc 0))))

/-- R149, R304, R498: EXIT ends a context at once, and a group with nothing outstanding after its weight has returned;
CCONT writes its record, arms the barrier or hands the record over as it stands, its weight then zero, and ends the group. -/
def Sys2Proof.Machine.GroupsEnd : Prop :=
  (∀ s c x ga, CtxIssues s c x ga →
    exec .exit s = .next (s.setCtx c { x with st := { x.st.flush with ended := true, wait := .none } })) ∧
  (∀ s k g w, GroupIssues s k g → g.noRun → g.aldPending = false → (g.queue 9).ents = [] →
    Answers (endGroup k false) ⟨s, []⟩ () w → exec .exit s = .next (s.after w)) ∧
  (∀ s k g w g', Tab.find s.groups k = some g → g.adopted = none →
    Answers (endGroup k false) ⟨s, []⟩ () w → Tab.find w.cur.groups k = some g' →
    g'.exited = true ∧ g'.st.ended = true ∧ g'.wgt = 0 ∧ g'.attach = 0 ∧ g'.opq = []) ∧
  (∀ s k g ga d a b w, GangIssues s k g ga → g.noRun → g.aldPending = false → (g.queue 9).ents = [] → g.settled = true →
    let x := (g.st.get a.toNat).toNat
    let r := (g.st.get d.toNat).toNat
    let pc := (g.st.get b.toNat).toNat
    let bar := x % 2 ^ 32
    let rec_ := contRecord pc g.attach.toNat g.st g.id.gidx
    let s1 := (s.store (spadKey (k / 65536) 0 + r) 128 rec_).setGroup k { g with attach := 0 }
    let v := Mem.read s1.mem (barKey (k / 65536) bar) 16
    x < 2 ^ 33 → r % 128 = 0 → r < 2 ^ 20 → r / 128 < 0xFFFF → pc < 2 ^ 48 → pc % 4 = 0 → bar % 16 = 0 →
    bar < 16 * ga.nbar → spadAt ga r 128 = some (0, r) → spadMode ga 0 r 128 = true → fld v 96 16 = 0xFFFF →
    (fld v 31 1 ≠ fld x 32 1 →
      Answers (endGroup k true) ⟨(s1.store (spadKey (k / 65536) 0 + r + 8) 8 0).setGang (k / 65536)
          { ga with handoffs := ga.handoffs ++ [Mem.read s1.mem (spadKey (k / 65536) 0 + r) 128] },
        [(spadKey (k / 65536) 0 + r + 8, 8, 0), (spadKey (k / 65536) 0 + r, 128, rec_)]⟩ () w →
      exec (.ccont d a b) s = .next (s.after w)) ∧
    (fld v 31 1 = fld x 32 1 → ∀ y, Answers (writeBar (k / 65536) bar (setFld v 96 16 (r / 128)))
        ⟨s1, [(spadKey (k / 65536) 0 + r, 128, rec_)]⟩ () y → Answers (endGroup k true) y () w →
      exec (.ccont d a b) s = .next (s.after w)))

/-- R305: a record that was handed off starts its group in the slot of the group that ended there, with the record's pc,
weight and registers; reserved bits that are not zero give it 0x20 at its first boundary. That it waits until that group's
entries have performed is the model's (log 82). -/
def Sys2Proof.Machine.ContinuationsStart : Prop :=
  ∀ (s : State) gang k ga v old, Tab.find s.gangs gang = some ga → s.instGoes ga.inst = true → ga.placed = true →
    ga.handoffs[k]? = some v →
    let gk := groupKey gang (fld v 640 16)
    Tab.find s.groups gk = some old → old.exited = true → old.awaits = true → (∀ q ∈ old.queues, q.2.ents = []) →
    let fresh := Group.start old.id (fld v 0 64) old.regcnt (fld (s.nodeRec ga) 248 6) (BitVec.ofNat 64 (fld v 64 64))
      ((upFrom 1 8).map (fun i => (i, BitVec.ofNat 64 (fld v (64 * i + 64) 64))))
    let s1 := (s.setGang gang { ga with handoffs := dropNth ga.handoffs k }).setGroup gk { fresh with xchgs := old.xchgs }
    (fld v 656 368 = 0 → exec (.continuationStart gang k) s = .next s1) ∧
    (fld v 656 368 ≠ 0 → exec (.continuationStart gang k) s = .next
      (s1.raise (.group gk) (Cause.atWord 0x20 (fld v 0 64) 0)))

/-- R495: take of an amount that WGT covers leaves the rest and gives a word of the same root; amount 0 halves; none is
given without weight, 0xA1, or beyond what a borrow could reach, 0x04. -/
def Sys2Proof.Machine.TakeMovesWeight : Prop :=
  ∀ (w : Work) k g a, GroupIssues w.cur k g →
    let n := amtOf g.wgt.toNat
    let m := if a = 0 then n / 2 else a
    (a ≤ 2 ^ 32 → (a = 0 → 2 ≤ n) → (a ≠ 0 → a + 1 ≤ n) →
      Answers (takeScalar k a) w (some (weightWord (rootOf g.wgt.toNat) (tagOf g.wgt.toNat) m))
        ⟨w.cur.setGroup k { g with wgt := BitVec.ofNat 64 (weightWord (rootOf g.wgt.toNat) (tagOf g.wgt.toNat) (n - m)) },
          w.stores⟩ ∧ m < n ∧ m + (n - m) = n) ∧
    (g.wgt = 0 → takeScalar k a w = .error (.raise (Cause.atWord 0xA1 g.st.pc 0)))

/-- R483, R485 to R489: SPAWN creates an instance, NDONE publishes one of its own outputs, STEPB waits and gives what
releases it, PRIO exchanges the priority, ERD and DIEQ read the energy account and the die set, BQPUSH appends to the
deque's hot end. -/
def Sys2Proof.Machine.TaskWords : Prop :=
  (∀ s k g ga l d a b x w1 n w2 g2, GangIssues s k g ga → Tab.find s.launches ga.launch = some l →
    (∀ y z, g.st.wait ≠ .borrow y z) → g.settled = true →
    let v := (g.st.get a.toNat).toNat
    fld v 16 16 = 0 → fld v 0 16 < l.nodes.length → s.poolOf ga.launch ga.die < 65536 →
    Answers (takeScalar k (g.st.get b.toNat).toNat) ⟨s, []⟩ (some x) w1 →
    Answers (createInst ga.launch (fld v 0 16) (fld v 32 32) ga.die ga.die (BitVec.ofNat 64 x) false) w1 n w2 →
    GroupIssues w2.cur k g2 →
    exec (.spawn d a b) s = .next (s.after ⟨w2.cur.wordDone k g2 g2.st.pc (g2.st.put d.toNat (BitVec.ofNat 64 n)), w2.stores⟩)) ∧
  (∀ s k g ga l a b key i w g1, GangIssues s k g ga → Tab.find s.launches ga.launch = some l → g.noRun → g.settled = true →
    let x := (g.st.get a.toNat).toNat
    ((g.st.get b.toNat = 0 ∧ key = ga.inst) ∨ (g.st.get b.toNat = 1 ∧ g.adopted = some key)) →
    fld x 2 30 = 0 → Tab.find s.insts key = some i →
    (8 + fld x 0 2, fld x 32 32) ∈ l.outputs i.node i.index →
    Answers (publish { s.portOf (.group k) with core := none } key (8 + fld x 0 2) (fld x 32 32)) ⟨s, []⟩ none w →
    GroupIssues w.cur k g1 →
    exec (.ndone a b) s = .next (s.after ⟨w.cur.wordDone k g1 g1.st.pc g1.st, w.stores⟩)) ∧
  (∀ s k g d v, GroupIssues s k g →
    (g.st.wait = .none → g.st.tmode = false → g.noRun → g.settled = true →
      exec (.stepb d) s = .next (s.setGroup k { g with st := { g.st.flush with wait := .stepb none } })) ∧
    (g.st.wait = .stepb (some v) → exec (.stepb d) s = .next (s.wordDone k g g.st.pc (g.st.put d.toNat v)))) ∧
  (∀ s k g ga d a, GangIssues s k g ga → (g.st.get a.toNat).toNat ≤ 63 →
    (s.privileged (.group k) = true ∨ (g.st.get a.toNat).toNat ≤ fld (s.nodeRec ga) 248 6) →
    exec (.prio d a) s = .next (s.wordDone k { g with prio := (g.st.get a.toNat).toNat } g.st.pc
      (g.st.put d.toNat (BitVec.ofNat 64 g.prio)))) ∧
  (∀ s k g ga d a, GangIssues s k g ga →
    let e := (s.die ga.die).energy
    let gives := fun (v : Int) => Host.Outcome.next (s.wordDone k g g.st.pc (g.st.put d.toNat (BitVec.ofInt 64 v)))
    (g.st.get a.toNat = 0 → exec (.erd d a) s = gives e.bal) ∧
    (g.st.get a.toNat = 1 → exec (.erd d a) s = gives (e.began + e.length - (s.die ga.die).clk)) ∧
    (g.st.get a.toNat = 2 → exec (.erd d a) s = gives e.budget) ∧
    (g.st.get a.toNat = 4 → exec (.erd d a) s = gives (((Tab.find s.insts ga.inst).map (fun i => i.debit)).getD 0)) ∧
    (4 < (g.st.get a.toNat).toNat → g.st.wait = .none →
      exec (.erd d a) s = .next (s.raise (.group k) (Cause.atWord 0x04 g.st.pc 0)))) ∧
  (∀ s k g ga l d a, GangIssues s k g ga → Tab.find s.launches ga.launch = some l →
    let gives := fun (v : Nat) => Host.Outcome.next (s.wordDone k g g.st.pc (g.st.put d.toNat (BitVec.ofNat 64 v)))
    (g.st.get a.toNat = 0 → exec (.dieq d a) s =
      gives (maskOf l.dieSet + l.dieSet.length * 2 ^ 8 + fld l.record 736 3 * 2 ^ 16 + fld l.record 739 3 * 2 ^ 24)) ∧
    (g.st.get a.toNat = 1 → exec (.dieq d a) s = gives (l.tether ga.die).deque.length) ∧
    (∀ n, n < 4 → (g.st.get a.toNat).toNat = 2 + n → exec (.dieq d a) s = gives (if n = ga.die then (l.tether ga.die).deque.length
      else if n ∈ l.dieSet then (Tab.getD (l.tether ga.die).heard n (0, 0, 0)).1 else 0))) ∧
  (∀ s k g ga l d a b xy w1 g1 x w2 n w3 g3 l3, GangIssues s k g ga → Tab.find s.launches ga.launch = some l →
    (∀ y z, g.st.wait ≠ .borrow y z) →
    let va := (g.st.get a.toNat).toNat
    let v := (g.st.get b.toNat).toNat
    Placed48 va 64 → (l.tether ga.die).deque.length < 4096 → fld v 16 16 = 0 → fld v 0 16 < l.nodes.length →
    Answers (readRec va 4) ⟨s, []⟩ xy w1 → GroupIssues w1.cur k g1 → g1.settled = true → g1.st = g.st →
    Answers (takeScalar k (g.st.get d.toNat).toNat) w1 (some x) w2 →
    Answers (createInst ga.launch (fld v 0 16) (fld v 32 32) ga.die ga.die 0 true) w2 n w3 →
    GroupIssues w3.cur k g3 → Tab.find w3.cur.launches ga.launch = some l3 →
    exec (.bqpush d a b) s = .next (s.after ⟨(w3.cur.setLaunch ga.launch (l3.setTether ga.die (fun t => { t with
      deque := t.deque ++ [⟨fld v 0 16, fld v 32 32, n, fld xy 0 16, fld xy 16 16, va, BitVec.ofNat 64 x⟩] }))).wordDone k g3
        g3.st.pc g3.st, w3.stores⟩))

/-- R490: BQPOP takes the newest entry of the die's deque with its weight and adopts its instance; on an empty deque with
MODE 1 it gives two zeros. -/
def Sys2Proof.Machine.BqpopTakesTheNewestEntry : Prop :=
  (∀ s k g ga l i d a e v, GangIssues s k g ga → Tab.find s.launches ga.launch = some l → g.st.wait = .none →
    g.settled = true → g.adopted = none → (g.st.get a.toNat).toNat ≤ 1 → d.toNat ≠ 0 → d.toNat ≠ 31 →
    (l.tether ga.die).deque.getLast? = some e → joinWeight g.wgt.toNat e.wgt.toNat = some v →
    Tab.find s.insts (instKey ga.launch e.inst) = some i →
    exec (.bqpop d a) s = .next
      ((((s.setLaunch ga.launch (l.setTether ga.die (fun t => { t with
          deque := t.deque.dropLast, lastBx := e.bx, lastBy := e.bk }))).setInst (instKey ga.launch e.inst)
          { i with phase := .running, die := ga.die }).dropCore (s.portOf (.group k))).wordDone k
        { g with wgt := BitVec.ofNat 64 v, adopted := some (instKey ga.launch e.inst) } g.st.pc
        ((g.st.put (d.toNat + 1) (BitVec.ofNat 64 (e.index * 2 ^ 32 + e.node))).put d.toNat (BitVec.ofNat 64 e.brec)))) ∧
  (∀ s k g ga l d a, GangIssues s k g ga → Tab.find s.launches ga.launch = some l → g.st.wait = .none → g.settled = true →
    g.adopted = none → g.st.get a.toNat = 1 → d.toNat ≠ 0 → d.toNat ≠ 31 → (l.tether ga.die).deque = [] →
    exec (.bqpop d a) s = .next (s.wordDone k g g.st.pc ((g.st.put (d.toNat + 1) 0).put d.toNat 0)))

/-- R503 to R508: QROOT makes a live root of 2^32 units, QRET issues its entry and gives the amount, QBORROW of a root on
its own die gets 2^24 units, QWAIT and QPOLL of a quiescent root answer. -/
def Sys2Proof.Machine.WeightWordsComplete : Prop :=
  (∀ s k g ga x d i, GangIssues s k g ga → Tab.find s.dies ga.die = some x → g.wgt = 0 → g.settled = true → i < 256 →
    (∀ j, j < i → ∃ r, Tab.find x.roots j = some r ∧ r.live = true) → (∀ r, Tab.find x.roots i = some r → r.live = false) →
    let gen := ((((Tab.find x.roots i).map (fun r => r.gen)).getD 0) + 1) % 2 ^ 32
    exec (.qroot d) s = .next ((s.setDie ga.die { x with
        roots := Tab.set x.roots i ⟨true, ga.launch, gen, 2 ^ 32, 0, []⟩ }).wordDone k
      { g with wgt := BitVec.ofNat 64 (weightWord (4 * i + ga.die) (gen % 64) (2 ^ 32)) } g.st.pc
      (g.st.put d.toNat (BitVec.ofNat 64 (4 * i + ga.die + gen * 2 ^ 32))))) ∧
  (∀ s k g ga d a b pl w1 g1 v w2 g2, GangIssues s k g ga → (∀ y z, g.st.wait ≠ .borrow y z) →
    Answers (wordPlace (s.portOf (.group k)) (g.st.get a.toNat).toNat) ⟨s, []⟩ (0, some pl) w1 → GroupIssues w1.cur k g1 →
    g1.settled = true → g1.st = g.st → w1.cur.roomFor k 9 = true →
    Answers (takeScalar k (g.st.get b.toNat).toNat) w1 (some v) w2 → GroupIssues w2.cur k g2 → w2.cur.roomFor k 9 = true →
    exec (.qsplit d a b) s = .next (s.after ⟨w2.cur.entryIssued k g2 9 (.deposit [(pl.pa, BitVec.ofNat 64 v)])
      (g2.st.put d.toNat (BitVec.ofNat 64 (amtOf v))), w2.stores⟩)) ∧
  (∀ s k g d a, GroupIssues s k g → g.settled = true → g.wgt ≠ 0 → s.roomFor k 9 = true →
    let w := g.wgt.toNat
    let n := (g.st.get a.toNat).toNat
    let amt := if n = 0 then amtOf w else n
    n ≤ amtOf w →
    exec (.qretW d a) s = .next (s.entryIssued k { g with wgt := BitVec.ofNat 64 (lessWeight w amt) } 9
      (.qretw (BitVec.ofNat 64 (weightWord (rootOf w) (tagOf w) amt))) (g.st.put d.toNat (BitVec.ofNat 64 amt)))) ∧
  (∀ s k g d a pl w1 g1, GroupIssues s k g →
    Answers (wordPlace (s.portOf (.group k)) (g.st.get a.toNat).toNat) ⟨s, []⟩ (0, some pl) w1 → GroupIssues w1.cur k g1 →
    g1.settled = true → w1.cur.roomFor k 9 = true →
    exec (.qretM d a) s = .next (s.after ⟨w1.cur.entryIssued k g1 9 (.qretm pl.pa)
      (g1.st.put d.toNat (BitVec.ofNat 64 (g1.queue 9).next.toNat)), w1.stores⟩)) ∧
  (∀ s k g d w g1, GroupIssues s k g → (∀ y z, g.st.wait ≠ .borrow y z) → g.settled = true → g.wgt ≠ 0 →
    amtOf g.wgt.toNat + 2 ^ 24 ≤ maxAmt → Answers (askRoot k (2 * k)) ⟨s, []⟩ (some true) w → GroupIssues w.cur k g1 →
    exec (.qborrow d) s = .next (s.after ⟨w.cur.wordDone k g1 g1.st.pc
      (g1.st.put d.toNat (BitVec.ofNat 64 (amtOf g1.wgt.toNat))), w.stores⟩)) ∧
  (∀ s k g ga d a r, GangIssues s k g ga → (∀ x y z, g.st.wait ≠ .qwait x y z) → g.settled = true →
    let h := (g.st.get a.toNat).toNat
    s.root (fld h 0 10) = some r → fld h 10 22 = 0 → r.launch = ga.launch → r.gen = fld h 32 32 → r.live = false →
    covers (s.clockOf ga.die) (s.clockOf (rootDie (fld h 0 10))) = true →
    exec (.qwait d a) s = .next ((s.dropCore (s.portOf (.group k))).wordDone k g g.st.pc
      (g.st.put d.toNat (BitVec.ofNat 64 r.issued))) ∧
    exec (.qpoll d a) s = .next ((s.dropCore (s.portOf (.group k))).wordDone k g g.st.pc (g.st.put d.toNat 0))) ∧
  (∀ s k g d a v w g1 x, GroupIssues s k g → (∀ y z, g.st.wait ≠ .borrow y z) → g.settled = true →
    (g.attach = 0 ∨ g.wgt = 0 ∨ sameRoot g.attach.toNat g.wgt.toNat = true) →
    Answers (takeScalar k (g.st.get a.toNat).toNat) ⟨s, []⟩ (some v) w → GroupIssues w.cur k g1 →
    joinWeight g.attach.toNat v = some x →
    exec (.qsend d a) s = .next (s.after ⟨w.cur.wordDone k { g1 with attach := BitVec.ofNat 64 x } g1.st.pc
      (g1.st.put d.toNat (BitVec.ofNat 64 (amtOf v))), w.stores⟩))

/-- R149, R304, R305, R498: groups end, and continuations start in their place. -/
def Obligations.GroupsEndAndContinue : Prop := GroupsEnd ∧ ContinuationsStart

/-- R296 to R302: the copy words issue their entries; batches are sealed, awaited and reported. -/
def Obligations.CopyWordsComplete : Prop := CopyWordsIssueAnEntry ∧ CopyBatchWordsComplete

/-- R483, R485 to R490: the words of instances, priorities, energy, die sets and deques. -/
def Obligations.TaskWordsComplete : Prop := TaskWords ∧ BqpopTakesTheNewestEntry

/-- R495, R503 to R508: take, and the words that make, split, return, borrow and send weight. -/
def Obligations.WeightMovesAndReturns : Prop := TakeMovesWeight ∧ WeightWordsComplete

/-! ## Scalar words of the engines -/

namespace Sys2Proof.Machine

/-- A flags word that DICE, BFILL, BSPILL, SFLUSH, SGRID and SRESOLVE take (R353): reserved bits zero, and the barrier it
names, if any, is one of the gang. -/
def FlagsOk (ga : Gang) (fl : Nat) : Prop :=
  fld fl 2 30 = 0 ∧ (bit fl 1 = false → fl < 2 ^ 32) ∧
  (bit fl 1 = true → fl / 2 ^ 32 % 16 = 0 ∧ fl / 2 ^ 32 < 16 * ga.nbar)

/-- DICE or BFILL has read its patch `r`, the bucket `brec` and then HANDLE `h`, and nothing it checks is wrong (R353). -/
def DiceReads (s : State) (k : Nat) (g : Group) (ga : Gang) (a b : BitVec 5) (r brec h : Nat) (w : Work) (g1 : Group) : Prop :=
  GangIssues s k g ga ∧ (∀ x y, g.st.wait ≠ .borrow x y) ∧ Placed48 (g.st.get a.toNat).toNat 64 ∧
  FlagsOk ga (g.st.get b.toNat).toNat ∧
  (∃ bva w1 w2 g2, ga.bucket = some bva ∧
    Answers (patchRecord (s.portOf (.group k)) (g.st.get a.toNat).toNat) ⟨s, []⟩ r w1 ∧
    Answers (bucketRec (s.portOf (.group k)) bva) w1 brec w2 ∧ GroupIssues w2.cur k g2 ∧ g2.settled = true ∧
    Answers (readHandle (s.portOf (.group k)) (g.st.get a.toNat).toNat) w2 h w) ∧
  patchOk r (splitNeeded r (fld brec 32 16) (fld brec 48 16)) = true ∧
  GroupIssues w.cur k g1 ∧ Tab.find w.cur.gangs (k / 65536) = some ga

end Sys2Proof.Machine

/-- R354: PATCH binds its bucket and budget and gives the slots owned. -/
def Sys2Proof.Machine.PatchBindsItsBucket : Prop :=
  ∀ s k g ga d a b, GangIssues s k g ga →
    let va := (g.st.get a.toNat).toNat
    let n := (g.st.get b.toNat).toNat
    let owned := (s.ownedBy (k / 65536)).length
    va % 64 = 0 → 0 < n → n ≤ 128 → (owned = 0 ∨ ga.bucket = none ∨ ga.bucket = some va) →
    exec (.patch d a b) s = .next ((s.setGang (k / 65536) { ga with
      bucket := some va
      budget := n }).wordDone k g g.st.pc (g.st.put d.toNat (BitVec.ofNat 64 owned)))

/-- R355, R359: DICE and BFILL complete as the decision of R349 says, with the entry when a slot is free or spilled for it. -/
def Sys2Proof.Machine.DiceAndBfillDecide : Prop :=
  ∀ s k g ga d a b r brec h w g1, DiceReads s k g ga a b r brec h w g1 →
    let va := (g.st.get a.toNat).toNat
    let fl := (g.st.get b.toNat).toNat
    let p := s.portOf (.group k)
    let rect := patchRect r (fld brec 32 16) (fld brec 48 16)
    let split := splitNeeded r (fld brec 32 16) (fld brec 48 16)
    let gives := fun (v : Work) (out : Nat) (sh : Bool) => Host.Outcome.next
      (s.after ⟨v.cur.wordDone k g1 g1.st.pc (g1.st.put d.toNat (BitVec.ofNat 64 (resultWord h out sh))), v.stores⟩)
    let entry := fun (v : Work) (g4 : Group) (out : Nat) (sh : Bool) (h1 : Nat) (op : EOp) => Host.Outcome.next
      (s.after ⟨v.cur.entryIssued k g4 3 op (g4.st.put d.toNat (BitVec.ofNat 64 (resultWord h1 out sh))), v.stores⟩)
    ((fld h 62 2 = 0 ∨ fld h 62 2 = 3) → exec (.bfill d a b) s = gives w 7 false) ∧
    (fld h 62 2 = 0 → rect = none → exec (.dice d a b) s = gives w 6 false) ∧
    (fld h 62 2 = 2 → fld h 0 48 = 0 → exec (.dice d a b) s = gives w 6 false ∧ exec (.bfill d a b) s = gives w 6 false) ∧
    (∀ key, fld h 62 2 = 1 → w.cur.handleSlot ga h = some key → (w.cur.slotAt key).oldGen = none →
      (w.cur.slotAt key).state ≠ .free → (w.cur.slotAt key).gen = fld h 16 32 →
      ((w.cur.slotAt key).owner = k / 65536 →
        exec (.dice d a b) s = gives w 0 (w.cur.shaded key) ∧ exec (.bfill d a b) s = gives w 0 (w.cur.shaded key)) ∧
      ((w.cur.slotAt key).owner ≠ k / 65536 → (w.cur.slotAt key).state ≠ .sampled →
        exec (.dice d a b) s = gives w 4 (w.cur.shaded key) ∧ exec (.bfill d a b) s = gives w 4 (w.cur.shaded key)) ∧
      ((w.cur.slotAt key).owner ≠ k / 65536 → (w.cur.slotAt key).state = .sampled → k / 65536 ∉ (w.cur.slotAt key).holders →
        let v : Work := ⟨w.cur.setSlot key { w.cur.slotAt key with
          holders := (w.cur.slotAt key).holders ++ [k / 65536] }, w.stores⟩
        exec (.dice d a b) s = gives v 1 true ∧ exec (.bfill d a b) s = gives v 1 true)) ∧
    (∀ x v, fld h 62 2 = 1 → w.cur.handleSlot ga h = none → w.cur.namedSlot ga.launch h = none →
      Answers (atomicWord p va 8 (fun x => x ||| 2 ^ 13)) w x v → GroupIssues v.cur k g1 →
      exec (.dice d a b) s = gives v 4 false ∧ exec (.bfill d a b) s = gives v 4 false) ∧
    (∀ key x v, fld h 62 2 = 1 → w.cur.handleSlot ga h = none → w.cur.namedSlot ga.launch h = some key →
      Answers (atomicWord p va 8 (fun x => x ||| 2 ^ 13)) w x v → GroupIssues v.cur k g1 →
      let u : Work := ⟨v.cur.setSlot key { v.cur.slotAt key with spillReq := true }, v.stores⟩
      exec (.dice d a b) s = gives u 4 (w.cur.shaded key) ∧ exec (.bfill d a b) s = gives u 4 (w.cur.shaded key)) ∧
    (∀ v, fld h 62 2 = 0 → rect ≠ none → split = true →
      Answers (splitPatch k d.toNat p (ga.bucket.getD 0) brec va r (splitAlongV r)) w () v →
      exec (.dice d a b) s = .next (s.after v)) ∧
    (∀ v, fld h 62 2 = 3 → 2 ≤ bkLeft brec →
      Answers (appendHalves k d.toNat p (ga.bucket.getD 0) (resultWord h 3 false) (fld h 0 48) none [0, 1]) w () v →
      exec (.dice d a b) s = .next (s.after v)) ∧
    (fld h 62 2 = 0 → rect ≠ none → split = false → w.cur.takeSlot (k / 65536) ga = none → bit fl 0 = true →
      exec (.dice d a b) s = gives w 5 false) ∧
    (∀ key victim gen w3 x w4 g4, fld h 62 2 = 0 → rect ≠ none → split = false →
      w.cur.takeSlot (k / 65536) ga = some (key, victim) →
      Answers (allocSlot (k / 65536) key victim (patchNu r) (patchNv r)) w gen w3 →
      Answers (atomicWord p va 8 (fun _ => handleOf key gen)) w3 x w4 → GroupIssues w4.cur k g4 →
      w4.cur.roomFor k 3 = true →
      exec (.dice d a b) s = entry w4 g4 0 false (handleOf key gen) (.dice va r key victim (fld brec 0 64) (flagBar fl))) ∧
    (∀ y w2 key victim gen w3 x w4 g2 g4, fld h 62 2 = 2 → fld h 0 48 ≠ 0 →
      Answers (readVA { p with core := none } fresh (fld h 0 48) 32) w y w2 →
      let hd := match y with
        | .ok v => v
        | .error _ => 0
      GroupIssues w2.cur k g2 → Tab.find w2.cur.gangs (k / 65536) = some ga →
      w2.cur.takeSlot (k / 65536) ga = some (key, victim) →
      Answers (allocSlot (k / 65536) key victim (hdNu hd) (hdNv hd)) w2 gen w3 →
      Answers (atomicWord p va 8 (fun _ => handleOf key gen)) w3 x w4 → GroupIssues w4.cur k g4 →
      w4.cur.roomFor k 3 = true →
      exec (.dice d a b) s = entry w4 g4 2 (hdSampled hd) (handleOf key gen)
        (.fill (fld h 0 48) key victim (fld brec 0 64) (flagBar fl)) ∧
      exec (.bfill d a b) s = exec (.dice d a b) s)

/-- R356: SPLIT splits a KIND 0 patch, and gives 7 for another. -/
def Sys2Proof.Machine.SplitHalvesAPatch : Prop :=
  ∀ s k g ga d a b bva r w1 brec w2 g2 h w g1, GangIssues s k g ga → (∀ x y, g.st.wait ≠ .borrow x y) →
    let va := (g.st.get a.toNat).toNat
    let dir := (g.st.get b.toNat).toNat
    let p := s.portOf (.group k)
    Placed48 va 64 → dir ≤ 2 → ga.bucket = some bva → Answers (patchRecord p va) ⟨s, []⟩ r w1 →
    Answers (bucketRec p bva) w1 brec w2 → patchOk r true = true → GroupIssues w2.cur k g2 → g2.settled = true →
    Answers (readHandle p va) w2 h w → GroupIssues w.cur k g1 →
    (h ≠ 0 → exec (.split d a b) s = .next (s.after
      ⟨w.cur.wordDone k g1 g1.st.pc (g1.st.put d.toNat (BitVec.ofNat 64 (resultWord h 7 (w.cur.handleS ga.launch h)))), w.stores⟩)) ∧
    (∀ v, h = 0 → Answers (splitPatch k d.toNat p bva brec va r (if dir = 2 then splitAlongV r else dir == 1)) w () v →
      exec (.split d a b) s = .next (s.after v))

/-- R357: GBOUND gives the rectangle of a patch, all ones where it is empty. -/
def Sys2Proof.Machine.GboundGivesTheRectangle : Prop :=
  ∀ s k g d a b r w g1, GroupIssues s k g →
    let va := (g.st.get a.toNat).toNat
    let sz := (g.st.get b.toNat).toNat
    Placed48 va 64 → fld sz 0 16 ≠ 0 → fld sz 16 16 ≠ 0 → sz < 2 ^ 32 →
    Answers (patchRecord (s.portOf (.group k)) va) ⟨s, []⟩ r w →
    patchOk r (splitNeeded r (fld sz 0 16) (fld sz 16 16)) = true → GroupIssues w.cur k g1 →
    let v := match patchRect r (fld sz 0 16) (fld sz 16 16) with
      | none => 2 ^ 64 - 1
      | some (x0, y0, x1, y1) => x0 + y0 * 2 ^ 16 + x1 * 2 ^ 32 + y1 * 2 ^ 48
    exec (.gbound d a b) s = .next (s.after ⟨w.cur.wordDone k g1 g1.st.pc (g1.st.put d.toNat (BitVec.ofNat 64 v)), w.stores⟩)

/-- R358: BSPILL issues its entry and gives the image. -/
def Sys2Proof.Machine.BspillIssuesItsEntry : Prop :=
  ∀ s k g ga d a b key image w g1, GangIssues s k g ga → g.settled = true → s.roomFor k 3 = true →
    let h := (g.st.get a.toNat).toNat
    let fl := (g.st.get b.toNat).toNat
    FlagsOk ga fl → s.usableSlot ga h = some key → (s.slotAt key).owner = k / 65536 → (s.slotAt key).state ≠ .spilling →
    (s.slotAt key).holders = [] → Answers (nextImage (s.portOf (.group k)) (k / 65536)) ⟨s, []⟩ (.ok (some image)) w →
    GroupIssues w.cur k g1 → w.cur.roomFor k 3 = true →
    exec (.bspill d a b) s = .next (s.after ⟨(w.cur.setSlot key { w.cur.slotAt key with state := .spilling }).entryIssued k g1 3
      (.spill key image (flagBar fl)) (g1.st.put d.toNat (BitVec.ofNat 64 image)), w.stores⟩)

/-- R354 to R359: PATCH binds its bucket and budget and gives the slots owned; DICE and BFILL complete as the decision of
R349 says, with the entry when a slot is free or spilled for it; SPLIT splits a KIND 0 patch; GBOUND gives the rectangle;
BSPILL issues its entry and gives the image. -/
def Sys2Proof.Machine.GeometryWordsComplete : Prop :=
  PatchBindsItsBucket ∧ DiceAndBfillDecide ∧ SplitHalvesAPatch ∧ GboundGivesTheRectangle ∧ BspillIssuesItsEntry

/-- R373 to R376: SPAT binds a sample pattern and gives its N; SFLUSH, SGRID and SRESOLVE issue an entry into queue Z with
that binding and give its sequence number. -/
def Sys2Proof.Machine.RasterWordsComplete : Prop :=
  (∀ s k g d a b h w1 r w2 g2, GroupIssues s k g →
    let va := (g.st.get a.toNat).toNat
    let sb := (g.st.get b.toNat).toNat
    let es := (upFrom 0 (patEntries h)).map (fun i => fld r (64 * i) 64)
    Placed48 va 8 → Placed48 sb 256 → Answers (spatRead va 64 false) ⟨s, []⟩ h w1 → patHeadOk h = true →
    Answers (spatRead (va + 64) (8 * patEntries h) false) w1 r w2 → es.all patEntOk = true → GroupIssues w2.cur k g2 →
    exec (.spat d a b) s = .next (s.after ⟨w2.cur.wordDone k { g2 with raster := some ⟨h, es, sb⟩ } g2.st.pc
      (g2.st.put d.toNat (BitVec.ofNat 64 (patSamples h))), w2.stores⟩)) ∧
  (∀ s k g ga d a b bind, GangIssues s k g ga → g.raster = some bind → s.roomFor k 4 = true →
    let v := (g.st.get a.toNat).toNat
    let fl := (g.st.get b.toNat).toNat
    let seq := g.st.put d.toNat (BitVec.ofNat 64 (g.queue 4).next.toNat)
    FlagsOk ga fl → bit fl 0 = false → (bit fl 1 = true → g.settled = true) →
    (v < 2 ^ 32 → exec (.sflush d a b) s = .next (s.entryIssued k g 4 (.sflush bind 0 0 (BitVec.ofNat 32 v) (flagBar fl)) seq)) ∧
    (Placed48 v 8 → exec (.sresolve d a b) s = .next (s.entryIssued k g 4 (.sresolve bind 0 0 v (flagBar fl)) seq))) ∧
  (∀ s k g ga d a b bind bva xy w g1 key, GangIssues s k g ga → g.raster = some bind → ga.bucket = some bva →
    let fl := (g.st.get b.toNat).toNat
    FlagsOk ga fl → bit fl 0 = false → Answers (readRec bva 4) ⟨s, []⟩ xy w →
    w.cur.usableSlot ga (g.st.get a.toNat).toNat = some key →
    ((w.cur.slotAt key).owner = k / 65536 ∨ k / 65536 ∈ (w.cur.slotAt key).holders) →
    inRect (w.cur.rectHead key) (fld xy 0 16) (fld xy 16 16) = true → GroupIssues w.cur k g1 → g1.settled = true →
    w.cur.roomFor k 4 = true →
    exec (.sgrid d a b) s = .next (s.after ⟨w.cur.entryIssued k g1 4
      (.sgrid bind (fld xy 0 16) (fld xy 16 16) key (k / 65536) (flagBar fl))
      (g1.st.put d.toNat (BitVec.ofNat 64 (g1.queue 4).next.toNat)), w.stores⟩)) ∧
  (∀ s k g ga d a b, GangIssues s k g ga → g.st.wait = .none → g.raster = none → (g.st.get a.toNat).toNat < 2 ^ 32 →
    FlagsOk ga (g.st.get b.toNat).toNat → exec (.sflush d a b) s = .next (s.raise (.group k) (Cause.atWord 0x04 g.st.pc 0)))

/-- R401, R405, R402, R439 to R442: BVHBIND and TEXBIND load a gang slot and give the triangle or level count; RCFADE
issues into queue Y; XFCLR, XDCMP and XDELTA issue into queue X. -/
def Obligations.BindingsAndSurfaceWordsComplete : Prop :=
  (∀ s k g ga d a b r w g1, GangIssues s k g ga →
    let va := (g.st.get a.toNat).toNat
    let i := (g.st.get b.toNat).toNat
    let gives := fun (ga1 : Gang) (v : Nat) => Host.Outcome.next (s.after
      ⟨(w.cur.setGang (k / 65536) ga1).wordDone k g1 g1.st.pc (g1.st.put d.toNat (BitVec.ofNat 64 v)), w.stores⟩)
    Placed48 va 64 → i ≤ 3 → Answers (readRec va 64) ⟨s, []⟩ r w → GroupIssues w.cur k g1 →
    (bvhOk r = true → exec (.bvhbind d a b) s = gives { ga with bvh := Tab.set ga.bvh i r } (bvhNtri r)) ∧
    (texOk r = true → exec (.texbind d a b) s = gives { ga with tex := Tab.set ga.tex i r } (texLvm1 r + 1))) ∧
  (∀ s k g ga d a b bvh, GangIssues s k g ga → g.settled = true → s.roomFor k 5 = true →
    let i := (g.st.get a.toNat).toNat
    let v := (g.st.get b.toNat).toNat
    i < 4 → Tab.find ga.bvh i = some bvh → bvhRclog bvh ≠ 0 → fld v 0 9 ≤ 256 → fld v 10 22 = 0 →
    (bit v 9 = false → v < 2 ^ 32) → (bit v 9 = true → v / 2 ^ 32 % 16 = 0 ∧ v / 2 ^ 32 < 16 * ga.nbar) →
    exec (.rcfade d a b) s = .next (s.entryIssued k g 5 (.rcfade bvh (fld v 0 9) (if bit v 9 then some (v / 2 ^ 32) else none))
      (g.st.put d.toNat (BitVec.ofNat 64 (g.queue 5).next.toNat)))) ∧
  (∀ s k g ga d a b r w g1, GangIssues s k g ga →
    let va := (g.st.get a.toNat).toNat
    let v := (g.st.get b.toNat).toNat
    Placed48 va 64 → Answers (tryRec (s.portOf (.group k)) va 64) ⟨s, []⟩ (.ok r) w → sfOk r = true →
    GroupIssues w.cur k g1 → w.cur.roomFor k 7 = true →
    let gives := fun (op : EOp) => Host.Outcome.next (s.after ⟨w.cur.entryIssued k g1 7 op g1.st, w.stores⟩)
    (fld v 0 32 + fld v 32 32 ≤ sfTiles r → exec (.xfclr a b) s = gives (.xfclr r (fld v 0 32) (fld v 32 32))) ∧
    (v < sfTiles r → exec (.xdcmp a b) s = gives (.xdcmp r v)) ∧
    (fld v 0 32 < sfTiles r → fld v 32 32 % 4 = 0 → (∃ x, spadAt ga (fld v 32 32) 256 = some x) →
      exec (.xdelta d a b) s = gives (.xdelta r (fld v 0 32) (fld v 32 32) (g.st.get d.toNat))))

/-- R456 to R460: KTWIN, KPEAL and KRST issue into queue K; KWAIT answers once its entry has completed; KSTAT reads the
queue, the status and the array, and 3 clears the status. -/
def Sys2Proof.Machine.CarillonWordsComplete : Prop :=
  (∀ s k g d a, GroupIssues s k g → s.roomFor k 8 = true →
    let v := (g.st.get a.toNat).toNat
    (16 ≤ v → v ≤ 1024 → exec (.ktwin d a) s = .next (s.entryIssued k g 8 (.ktwin v)
      (g.st.put d.toNat (BitVec.ofNat 64 (g.queue 8).next.toNat)))) ∧
    (0 < v → v < 4 → exec (.krst a) s = .next (s.entryIssued k g 8 (.krst (bit v 0) (bit v 1)) g.st))) ∧
  (∀ s k g d a, GroupIssues s k g → g.st.wait = .none → ((g.st.get a.toNat).toNat < 16 ∨ 1024 < (g.st.get a.toNat).toNat) →
    exec (.ktwin d a) s = .next (s.raise (.group k) (Cause.atWord 0x91 g.st.pc 0))) ∧
  (∀ s k g ga d a b x cells st w g1, GangIssues s k g ga →
    let src := (g.st.get a.toNat).toNat
    let v := (g.st.get b.toNat).toNat
    src < 2 ^ 32 → src % 64 = 0 → fld v 4 4 = 0 → fld v 9 23 = 0 → (bit v 8 = false → v < 2 ^ 32) →
    (bit v 8 = true → v / 2 ^ 32 % 16 = 0 ∧ v / 2 ^ 32 < 16 * ga.nbar) → spadAt ga src 4096 = some x →
    spadMode ga x.1 x.2 4096 = true → Answers (pealSectors (k / 65536) 128 src) ⟨s, []⟩ (.ok (cells, st)) w → st / 16 ≠ 3 →
    cells.all cellOk = true → GroupIssues w.cur k g1 → w.cur.roomFor k 8 = true →
    exec (.kpeal d a b) s = .next (s.after ⟨w.cur.entryIssued k g1 8
      (.kpeal src (fld v 0 4) (if bit v 8 then some (v / 2 ^ 32) else none))
      (g1.st.put d.toNat (BitVec.ofNat 64 (g1.queue 8).next.toNat)), w.stores⟩)) ∧
  (∀ s k g d a, GroupIssues s k g →
    let b := (g.st.get a.toNat).toNat
    let back := ((g.queue 8).next.toNat + 65536 - b) % 65536
    b < 65536 → 0 < back → back < 32768 → (∀ e ∈ (g.queue 8).ents, e.seq.toNat ≠ b) →
    exec (.kwait d a) s = .next (s.wordDone k g g.st.pc (g.st.put d.toNat (BitVec.ofNat 64 g.kvec.sts.last.toNat)))) ∧
  (∀ s k g ga d a, GangIssues s k g ga →
    let q := g.queue 8
    let c := s.carillon ga
    let gives := fun (g1 : Group) (v : Nat) => Host.Outcome.next (s.wordDone k g1 g.st.pc (g.st.put d.toNat (BitVec.ofNat 64 v)))
    (g.st.get a.toNat = 0 → exec (.kstat d a) s = gives g (q.mark.toNat + q.next.toNat * 2 ^ 16)) ∧
    (g.st.get a.toNat = 1 → exec (.kstat d a) s = gives g (fld g.kvec.sts.sticky 1 10 * 2)) ∧
    (g.st.get a.toNat = 2 → exec (.kstat d a) s = gives g g.kvec.sts.last.toNat) ∧
    (g.st.get a.toNat = 3 → exec (.kstat d a) s = gives { g with kvec := { g.kvec with sts := ⟨0, 0⟩ } } (fld g.kvec.sts.sticky 1 10 * 2)) ∧
    (g.st.get a.toNat = 4 → exec (.kstat d a) s = gives g (c.twin + c.loaded * 2 ^ 16)) ∧
    (4 < (g.st.get a.toNat).toNat → g.st.wait = .none →
      exec (.kstat d a) s = .next (s.raise (.group k) (Cause.atWord 0x04 g.st.pc 0))))

/-- R317 to R323: MSHAPE loads a slot with the based record; MLOADB, MMA, MMAC and MZERO issue an entry and change the
view of the cores their slot names, and the head of the queue takes the banks that are ready (log 87); MSTAT reads the queue and the status, clears it, and exchanges MRB. -/
def Sys2Proof.Machine.MatrixWordsComplete : Prop :=
  (∀ s c x ga sl a b r r1 w, CtxIssues s c x ga →
    let va := (x.st.get a.toNat).toNat
    BitVec.toNat sl ≤ 3 → Placed48 va 8 → Answers (readRec va 64) ⟨s, []⟩ r w →
    addBase r (x.st.get b.toNat).toNat = some r1 → matOk r1 = true → shCmask r / 2 ^ ga.cores = 0 →
    w.cur.issuer = some (.ctx c) →
    exec (.mshape sl a b) s = .next (s.after ⟨(w.cur.setCtx c { x with slots := Tab.set x.slots sl.toNat r1 }).unitDone (.ctx c)
      x.st.pc x.st, w.stores⟩)) ∧
  (∀ s c x ga k sl b r, CtxIssues s c x ga → s.ctxRoom c x ga = true → BitVec.toNat sl ≤ 3 → x.slot sl.toNat = some r →
    let v := (x.st.get (BitVec.toNat b)).toNat
    let gives := fun (y : Ctx) (op : EOp) (i : Instr) => ∃ v, Answers (takeBanks c) ⟨s.setCtx c (y.issued op), []⟩ () v ∧
      exec i s = .next (s.after ⟨v.cur.unitDone (.ctx c) x.st.pc x.st, v.stores⟩)
    let want := (shK r, shN r, shBfmt r)
    let live := fun (y : Ctx) => y.setViews r (fun j u => { u with accs := Tab.set u.accs k.toNat (accOf r j) })
    (BitVec.toNat k ≤ 3 → (shBbase r + v) % 2 ^ 64 % matSize (shBfmt r) = 0 →
      gives (x.setViews r (fun _ u => { u with tiles := Tab.set u.tiles k.toNat want }))
        (.mloadb k.toNat r v) (.mloadb k sl b)) ∧
    (k.toNat ≤ 7 → v < 8 → (∀ y ∈ namedCores r, Tab.find (x.viewOf y.2).tiles (v % 4) = some want) →
      (shAccdis r = true → (∀ y ∈ namedCores r, ∀ z ∈ spanChecks (x.viewOf y.2) k.toNat r, z.1 = false) →
        gives (live x) (.mma false k.toNat r (v % 4) (bit v 2)) (.mma k sl b) ∧
        gives (live x) (.mma true k.toNat r (v % 4) (bit v 2)) (.mmac k sl b)) ∧
      (shAccdis r = false → (∀ y ∈ namedCores r, ∀ z ∈ chainChecks (x.viewOf y.2) k.toNat r, z.1 = false) →
        gives x (.mma false k.toNat r (v % 4) (bit v 2)) (.mma k sl b) ∧
        gives x (.mma true k.toNat r (v % 4) (bit v 2)) (.mmac k sl b))) ∧
    (k.toNat ≤ 7 → v = 0 → (∀ y ∈ namedCores r, ∀ z ∈ spanChecks (x.viewOf y.2) k.toNat r, z.1 = false) →
      gives (live x) (.mzero k.toNat r false) (.mzero k sl b)) ∧
    (k.toNat ≤ 7 → v = 1 →
      gives (x.setViews r (fun _ u => { u with accs := Tab.del u.accs k.toNat })) (.mzero k.toNat r true) (.mzero k sl b))) ∧
  (∀ s c x ga d a b, CtxIssues s c x ga →
    let sel := x.st.get (BitVec.toNat b)
    let v := (x.st.get a.toNat).toNat
    let gives := fun (y : Ctx) (n : Nat) => Host.Outcome.next
      ((s.setCtx c y).unitDone (.ctx c) x.st.pc (x.st.put d.toNat (BitVec.ofNat 64 n)))
    let sticky := fld x.sts.sticky 1 10 * 2
    (sel = 0 → exec (.mstat d a b) s = gives x (x.queue.mark.toNat + x.queue.next.toNat * 2 ^ 16)) ∧
    (sel = 1 → exec (.mstat d a b) s = gives x sticky) ∧
    (sel = 2 → exec (.mstat d a b) s = gives x x.sts.last.toNat) ∧
    (sel = 3 → exec (.mstat d a b) s = gives { x with sts := ⟨0, 0⟩ } sticky) ∧
    (sel = 4 → (v = 0xFFFFFFFF ∨ (v % 16 = 0 ∧ v < 16 * ga.nbar ∧ v < 2 ^ 32)) →
      exec (.mstat d a b) s = gives { x with mrb := BitVec.ofNat 32 v } x.mrb.toNat)) ∧
  (∀ s c x ga k sl b, CtxIssues s c x ga → x.st.wait = .none → BitVec.toNat sl ≤ 3 → x.slot sl.toNat = none → BitVec.toNat k ≤ 3 →
    exec (.mloadb k sl b) s = .next (s.raise (.ctx c) (Cause.atWord 0x30 x.st.pc 0)))

/-- The scalar words of the geometry and raster engines complete. -/
def Obligations.GeometryAndRasterWordsComplete : Prop := GeometryWordsComplete ∧ RasterWordsComplete

/-- The scalar words of Carillon and of the control core complete. -/
def Obligations.CarillonAndMatrixWordsComplete : Prop := CarillonWordsComplete ∧ MatrixWordsComplete

/-! ## Lane arithmetic -/

namespace Sys2Proof.Machine

/-- A lane word issues in a fragment of a group's run. -/
def LaneIssues (s : State) (l : Lane) : Prop :=
  s.actor = .lane l.k l.fi ∧ Tab.find s.groups l.k = some l.g ∧ l.g.run.frags[l.fi]? = some l.fr

/-- The slots `rs` can be read for the threads `ts`: by thread, their values `xs`, and the group `g1` with the operand queues
popped (R82, R156, R166). -/
def Lane.Reads (s : State) (l : Lane) (w : LaneW) (ts : List Nat) (rs : List SlotReq) (xs : List (Nat × List Nat)) (g1 : Group) :
    Prop :=
  (∀ r ∈ rs, l.g.noReg r.code r.wide = false) ∧ ∃ cols qs, l.readSlots s w.imm.toNat ts rs l.g.opq = .ok (cols, qs) ∧
    xs = (upFrom 0 ts.length).map (fun i => (nth ts i 0, cols.map (fun c => nth c i 0))) ∧
    g1 = { l.g with opq := qs.map (fun q => (q.1, q.2.trim l.g.present)) }

/-- A lane word writes `f` of what it reads to D, in every thread that takes part, for every form of its operands and of D:
a register, a pair, a predicate or none; and goes on to the next word. Nothing else changes. -/
def LaneGives (mk : LaneW → Instr) (wide : LaneW → Bool) (rs : LaneW → List SlotReq)
    (f : Lane → LaneW → List (Nat × List Nat) → List (Nat × Nat)) : Prop :=
  ∀ s l w xs g1, LaneIssues s l → l.g.noReg w.d.toNat (wide w) = false → l.Reads s w (l.part w) (rs w) xs g1 →
    exec (mk w) s = .next (s.setGroup l.k ((g1.writeD w.d.toNat (wide w) (f l w xs)).laneNext l.fi))

/-- A result a thread from that thread's values. -/
def each (f : LaneW → List Nat → Nat) (l : Lane) (w : LaneW) (xs : List (Nat × List Nat)) : List (Nat × Nat) :=
  xs.map (fun x => (x.1, f w x.2))

/-- The group after a long-latency word whose results are known: written at once without lookahead, else pending in its
window (R89). -/
def Group.longDone (g : Group) (fi : Nat) (w : LaneW) (rs : List (Nat × Nat)) : Group :=
  if w.la = 0 then (g.writeD w.d.toNat false rs).laneNext fi
  else ({ g.openWindow fi w.la.toNat ⟨g.tags, true, resultWrites w.d.toNat false rs⟩ with tags := g.tags + 1 }).laneNext fi

/-- A long-latency lane word gives `f` of what it reads. -/
def LongGives (mk : LaneW → Instr) (rs : LaneW → List SlotReq) (f : LaneW → List Nat → Nat) : Prop :=
  ∀ s l w xs g1, LaneIssues s l → l.g.noReg w.d.toNat false = false → l.Reads s w (l.part w) (rs w) xs g1 →
    exec (mk w) s = .next (s.setGroup l.k (g1.longDone l.fi w (each f l w xs)))

/-- The one-slot and two-slot operands of an integer word. -/
def typed1 (w : LaneW) : List SlotReq := [slotT w.pty w.a]
/-- Two slots of the word's type. -/
def typed2 (w : LaneW) : List SlotReq := [slotT w.pty w.a, slotT w.pty w.b]
/-- One plain slot. -/
def plain1 (w : LaneW) : List SlotReq := [slot32 w.a]
/-- Two plain slots. -/
def plain2 (w : LaneW) : List SlotReq := [slot32 w.a, slot32 w.b]
/-- Three plain slots. -/
def plain3 (w : LaneW) : List SlotReq := [slot32 w.a, slot32 w.b, slot32 w.c]
/-- A single register. -/
def single (_ : LaneW) : Bool := false

end Sys2Proof.Machine

/-- R108, R109: an integer type reads its low bits, signed for a signed type; a result that is not saturated keeps its
residue, and a saturated one is the nearest value of the type. -/
def Sys2Proof.Machine.IntegerTypesWrapOrSaturate : Prop :=
  ∀ t x, 1 ≤ t → t ≤ 8 →
    (∀ n : Nat, tyMin t ≤ tyRead t n ∧ tyRead t n ≤ tyMax t ∧ (tyRead t n - n) % 2 ^ tyBits t = 0) ∧
    tyMax t - tyMin t = 2 ^ tyBits t - 1 ∧ tyMin t = (if t ≤ 4 then -(2 ^ (tyBits t - 1) : Int) else 0) ∧
    (tyRead t (tyPut t false x) - x) % 2 ^ tyBits t = 0 ∧
    (tyMin t ≤ x → x ≤ tyMax t → tyRead t (tyPut t true x) = x) ∧
    (x < tyMin t → tyRead t (tyPut t true x) = tyMin t) ∧ (tyMax t < x → tyRead t (tyPut t true x) = tyMax t)

/-- R80, R82, Table 3-5: a slot below 64 reads the thread's register or pair, 0x80 to 0x9F the broadcast scalar register,
0xFE IMM32, 0xFF zero; a pop takes the word at the thread's head and moves the head, a peek leaves it. -/
def Sys2Proof.Machine.SlotsReadTheirOperand : Prop :=
  (∀ (s : State) (l : Lane) imm r t,
    (r.code < 64 → l.plain s imm r t = (Tab.getD (l.g.thread t).v r.code 0).toNat +
      (if r.wide then (Tab.getD (l.g.thread t).v (r.code + 1) 0).toNat * 2 ^ 32 else 0)) ∧
    (0x80 < r.code → r.code ≤ 0x9F → l.plain s imm r t =
      (Tab.getD l.g.run.bcast (r.code - 0x80) 0).toNat % (if r.wide then 2 ^ 64 else 2 ^ 32)) ∧
    (r.code = 0x80 → l.plain s imm r t = 0) ∧
    (r.code = 0xFE → r.wide = false → l.plain s imm r t = imm) ∧
    (r.code = 0xFF → l.plain s imm r t = 0)) ∧
  (∀ (s : State) (l : Lane) imm r ts qs, (r.code < 0x40 ∨ 0x48 ≤ r.code) →
    l.readSlot s imm r ts qs = .ok (ts.map (l.plain s imm r), qs)) ∧
  (∀ (s : State) (l : Lane) imm r t ts qs x ys qs1, 0x40 ≤ r.code → r.code < 0x48 →
    (Tab.getD qs (r.code % 4) OpQ.empty).look t = some (some x) →
    l.readSlot s imm r ts (if r.code < 0x44 then Tab.set qs (r.code % 4)
      { Tab.getD qs (r.code % 4) OpQ.empty with
        heads := Tab.set (Tab.getD qs (r.code % 4) OpQ.empty).heads t ((Tab.getD qs (r.code % 4) OpQ.empty).head t + 1) }
      else qs) = .ok (ys, qs1) →
    l.readSlot s imm r (t :: ts) qs = .ok (x.toNat :: ys, qs1))

/-- R166 to R175, Tables 6-1 and 3-7: the integer lane words, moves and predicate words write the result of their rule in
every participating thread. -/
def Obligations.LaneIntegerWordsWriteTheirResult : Prop :=
  let t0 := fun (w : LaneW) (xs : List Nat) => tyRead w.pty (arg xs 0)
  let t1 := fun (w : LaneW) (xs : List Nat) => tyRead w.pty (arg xs 1)
  let wd := fun (w : LaneW) => wide64 w.pty
  let gives2 := fun (mk : LaneW → Instr) (f : Int → Int → Int) =>
    LaneGives mk wd typed2 (each (fun w xs => tyPut w.pty (satOf w) (f (t0 w xs) (t1 w xs))))
  let outTy := fun (w : LaneW) => if w.mod.getLsbD 0 then (if 1 ≤ w.pty ∧ w.pty ≤ 4 then 4 else 8) else w.pty
  gives2 .iadd (fun a b => a + b) ∧ gives2 .isub (fun a b => a - b) ∧ gives2 .imulh (fun a b => a * b / 2 ^ 32) ∧
  gives2 .imin (fun a b => min a b) ∧ gives2 .imax (fun a b => max a b) ∧
  gives2 .laneAnd (fun a b => ((a.toNat &&& b.toNat : Nat) : Int)) ∧
  gives2 .laneOr (fun a b => ((a.toNat ||| b.toNat : Nat) : Int)) ∧
  gives2 .laneXor (fun a b => ((a.toNat ^^^ b.toNat : Nat) : Int)) ∧
  LaneGives .imul (fun w => wide64 (outTy w)) typed2 (each (fun w xs => tyPut (outTy w) (satOf w) (t0 w xs * t1 w xs))) ∧
  LaneGives .imad (fun w => wide64 (outTy w)) (fun w => [slotT w.pty w.a, slotT w.pty w.b, slotT (outTy w) w.c])
    (each (fun w xs => tyPut (outTy w) (satOf w) (t0 w xs * t1 w xs + tyRead (outTy w) (arg xs 2)))) ∧
  LaneGives .iabs wd typed1 (each (fun w xs => tyPut w.pty (satOf w) ((t0 w xs).natAbs : Int))) ∧
  LaneGives .notL wd typed1 (each (fun w xs => tyPut w.pty (satOf w) (-t0 w xs - 1))) ∧
  LaneGives .laneShl wd (fun w => [slotT w.pty w.a, slot32 w.b])
    (each (fun w xs => tyPut w.pty false (t0 w xs * 2 ^ min (arg xs 1) (tyBits w.pty)))) ∧
  LaneGives .laneShr wd (fun w => [slotT w.pty w.a, slot32 w.b])
    (each (fun w xs => tyPut w.pty false (t0 w xs / 2 ^ min (arg xs 1) (tyBits w.pty)))) ∧
  LaneGives .laneSra wd (fun w => [slotT w.pty w.a, slot32 w.b])
    (each (fun w xs => tyPut w.pty false (t0 w xs / 2 ^ min (arg xs 1) (tyBits w.pty)))) ∧
  LaneGives .bfe single plain2 (each (fun w xs =>
    let o := arg xs 1 % 256
    let n := min (arg xs 1 / 256 % 256) (32 - o)
    if n = 0 then 0 else if 1 ≤ w.pty ∧ w.pty ≤ 4 then wrap 32 (sext n (fld (arg xs 0) o n)) else fld (arg xs 0) o n)) ∧
  LaneGives .bfi single plain3 (each (fun w xs =>
    let o := arg xs 2 % 256
    let n := min (arg xs 2 / 256 % 256) (32 - o)
    if n = 0 then arg xs 1 else setFld (arg xs 1) o n (arg xs 0))) ∧
  LaneGives .popc single typed1 (each (fun w xs => popcount (tyBits w.pty) (arg xs 0))) ∧
  LaneGives .clz single typed1 (each (fun w xs => clzN (tyBits w.pty) (arg xs 0))) ∧
  LaneGives .isetp single typed2 (each (fun w xs => b2n (condOf w.c.toNat (t0 w xs == t1 w xs) (decide (t0 w xs < t1 w xs))))) ∧
  LaneGives .mov wd typed1 (each (fun w xs => arg xs 0)) ∧
  (∀ s l w xs g1, LaneIssues s l → l.g.noReg w.d.toNat (wd w) = false → l.Reads s w l.active (typed2 w) xs g1 →
    exec (.laneSel w) s = .next (s.setGroup l.k ((g1.writeD w.d.toNat (wd w)
      (xs.map (fun x => (x.1, if l.guard w x.1 then arg x.2 0 else arg x.2 1)))).laneNext l.fi))) ∧
  (∀ s l w, LaneIssues s l →
    let p := fun (t i : Nat) => b2n ((l.g.thread t).pred (fld w.imm.toNat i 3))
    exec (.plop w) s = .next (s.setGroup l.k ((l.g.writeD w.d.toNat false ((l.part w).map (fun t =>
      (t, b2n (bit (fld w.imm.toNat 16 8) (4 * p t 0 + 2 * p t 4 + p t 8)))))).laneNext l.fi)))

/-- R115 to R122, R176 to R180: the FP32, pair and conversion lane words write the result of their rule; the long-latency
ones may leave it pending in their window. -/
def Obligations.LaneFloatingWordsWriteTheirResult : Prop :=
  let a := fun (w : LaneW) (xs : List Nat) => opA w (arg xs 0)
  let b := fun (w : LaneW) (xs : List Nat) => opB w (arg xs 1)
  let gives2 := fun (mk : LaneW → Instr) (f : LaneW → Nat → Nat → Nat) =>
    LaneGives mk single plain2 (each (fun w xs => f w (a w xs) (b w xs)))
  let long := fun (mk : LaneW → Instr) (f : LaneW → Nat → Nat) => LongGives mk plain1 (fun w xs => f w (a w xs))
  let d := decodeF fmt32
  gives2 .fadd (fun w x y => roundW w fmt32 (addF (rmOf w) (d x) (d y))) ∧
  gives2 .fsub (fun w x y => roundW w fmt32 (addF (rmOf w) (d x) (d y).neg)) ∧
  gives2 .fmul (fun w x y => roundW w fmt32 (mulF (d x) (d y))) ∧
  LaneGives .ffma single plain3 (each (fun w xs =>
    roundW w fmt32 (addF (rmOf w) (mulF (d (a w xs)) (d (b w xs))) (d (arg xs 2))))) ∧
  gives2 .fmin (fun w x y => minF fmt32 false x y) ∧ gives2 .fmax (fun w x y => minF fmt32 true x y) ∧
  gives2 .fsetp (fun w x y => b2n (fsetp w.c.toNat x y)) ∧
  LaneGives .frnd single plain1 (each (fun w xs => frnd (rmOf w) (a w xs))) ∧
  long .frcp (fun w x => frcp x) ∧ long .frsq (fun w x => frsq x) ∧
  long .fsqrt (fun w x => roundW w fmt32 (sqrtF (d x))) ∧ long .fexp2 (fun w x => fexp2 x) ∧
  long .flog2 (fun w x => flog2 x) ∧ long .fsin (fun w x => fsin x) ∧ long .fcos (fun w x => fcos x) ∧
  LaneGives .hadd2 single plain2 (each (fun w => pairs w (fun x y _ => addF (rmOf w) x y))) ∧
  LaneGives .hmul2 single plain2 (each (fun w => pairs w (fun x y _ => mulF x y))) ∧
  LaneGives .hfma2 single plain3 (each (fun w => pairs w (fun x y z => addF (rmOf w) (mulF x y) z))) ∧
  LaneGives .cvt (fun w => wide64 w.pty) (fun w => if w.pty = 14 ∨ w.pty = 15 then plain2 w else [slotT w.sty w.a])
    (each (fun w xs => if w.pty = 14 ∨ w.pty = 15 then convert w.pty 9 (rmOf w) (satOf w) (arg xs 0) +
      convert w.pty 9 (rmOf w) (satOf w) (arg xs 1) * 2 ^ 16 else convert w.pty w.sty (rmOf w) (satOf w) (arg xs 0)))

/-- R80, R82, R108, R109: what an operand slot reads, and what an integer type keeps. -/
def Obligations.LaneOperandsAndTypesRead : Prop := IntegerTypesWrapOrSaturate ∧ SlotsReadTheirOperand

/-! ## Lane words over the group, lane control and lane memory -/

namespace Sys2Proof.Machine

/-- The value in slot A of a thread that takes part. -/
def valueAt (xs : List (Nat × List Nat)) (t : Nat) : Option Nat := (xs.find? (fun x => x.1 == t)).map (fun x => arg x.2 0)

/-- The group with the issuing fragment at a lane PC (R194). -/
def Lane.goes (l : Lane) (pc : Int) : Group :=
  { l.g with run := { l.g.run with frags := setNth l.g.run.frags l.fi { l.fr with
    pc := pc
    wait := .none } } }

/-- A lane word issues whose windows have all ended: `l1` is its lane with their results written (R90). -/
def Closed (s : State) (l l1 : Lane) : Prop :=
  LaneIssues s l ∧ (∀ x ∈ l.fr.wins, l.g.coming x.1 = false) ∧ l1.k = l.k ∧ l1.fi = l.fi ∧
  l1.g = l.g.writeTags (l.fr.wins.map (fun x => x.1)) ∧ l1.g.run.frags[l.fi]? = some l1.fr

/-- The fragment's earlier .acq loads have performed (R226). -/
def Lane.acquired (l : Lane) : Prop := ∀ t ∈ l.fr.acqs, ∀ a ∈ l.g.laccs, a.tag ≠ t

end Sys2Proof.Machine

/-- R182 to R185: SHFL, VOTE, GRED, GSCAN, GDX and GDY give each participating thread its result over the participating
threads. -/
def Sys2Proof.Machine.GroupWordsCombineThreads : Prop :=
  LaneGives .shfl single plain2 (fun l w xs => xs.map (fun x =>
    let j := shflFrom w.c.toNat x.1 (arg x.2 1)
    (x.1, if 0 ≤ j then (valueAt xs j.toNat).getD (arg x.2 0) else arg x.2 0))) ∧
  (∀ s l w, LaneIssues s l → l.g.noReg w.d.toNat false = false →
    let ts := l.part w
    let yes := ts.filter (fun t => xor ((l.g.thread t).pred (w.imm.toNat % 8)) (bit w.imm.toNat 3))
    let r := if w.c = 0 then b2n (yes.length == ts.length) else if w.c = 1 then b2n (!yes.isEmpty) else maskOf yes
    exec (.vote w) s = .next (s.setGroup l.k ((l.g.writeD w.d.toNat false (ts.map (fun t => (t, r)))).laneNext l.fi))) ∧
  LaneGives .gred single plain1 (fun l w xs =>
    let ps := runningOf w.pty w.c.toNat (rmOf w) (xs.map (fun x => arg x.2 0))
    xs.map (fun x => (x.1, nth ps (ps.length - 1) 0))) ∧
  LaneGives .gscan single plain1 (fun l w xs =>
    let ps := runningOf w.pty (w.c.toNat % 8) (rmOf w) (xs.map (fun x => arg x.2 0))
    let out := if w.c.toNat < 8 then ps else reduceId w.pty (w.c.toNat % 8) :: ps
    (upFrom 0 xs.length).map (fun i => ((nth xs i (0, [])).1, nth out i 0))) ∧
  (∀ y : Bool, LaneGives (if y then .gdy else .gdx) single plain1 (fun l w xs => xs.map (fun x =>
    (x.1, ((diffPair l.g.linkWidth y (valueAt xs) x.1 (arg x.2 0)).map (fun p =>
      if w.pty = 9 then encodeF fmt32 (rmOf w) (addF (rmOf w) (decodeF fmt32 p.1) (decodeF fmt32 p.2).neg)
      else wrap 32 (sext 32 p.1 - sext 32 p.2))).getD 0)))) ∧
  (∀ s l w, LaneIssues s l → l.g.lacks (w.a.toNat + 2) = false → l.g.noReg w.d.toNat false = false →
    let ts := l.part w
    let value := fun (c t : Nat) => if ts.contains t then some (Tab.getD (l.g.thread t).v (w.a.toNat + c) 0).toNat else none
    let diff := fun (y : Bool) (t c : Nat) =>
      ((diffPair l.g.linkWidth y (value c) t ((value c t).getD 0)).map (fun p => fsub32 p.1 p.2)).getD 0
    exec (.gnorm w) s = .next (s.setGroup l.k (l.g.longDone l.fi w (ts.map (fun t => (t, octNormal (diff false t) (diff true t)))))))

/-- R186, R187, R64: XCHG waits for its partner with its values, tag and count; XCHG_MATCH of two groups that name each
other gives each thread its partner's value and goes on. -/
def Sys2Proof.Machine.ExchangesPairUp : Prop :=
  (∀ s l w xs g1 ga, LaneIssues s l → l.g.noReg w.d.toNat false = false → Tab.find s.gangs (l.k / 65536) = some ga →
    let word := l.plain s 0 (slot64 w.b) 0
    let key := word * 65536 + w.imm.toNat % 65536
    let n := Tab.getD l.g.xchgs key 0
    partnerOk (s.nodeRec ga) ga.gpc word = true → word ≠ s.whoWord (.group l.k) → l.g.settled = true →
    (∀ k g, s.partner ga.inst word = some k → Tab.find s.groups k = some g → g.exited = false) →
    l.Reads s w (l.part w) (plain1 w) xs g1 →
    exec (.xchg w) s = .next (s.setGroup l.k { g1 with
      xchgs := Tab.set g1.xchgs key (n + 1)
      run := { g1.run with frags := setNth g1.run.frags l.fi { l.fr with
        wait := .xchg word (w.imm.toNat % 65536) n w.d.toNat (xs.map (fun x => (x.1, BitVec.ofNat 32 (arg x.2 0)))) } } })) ∧
  (∀ (s : State) gk hk g h tag n t gi gd gv hi hd hv, Tab.find s.groups gk = some g → Tab.find s.groups hk = some h → gk ≠ hk →
    s.instOf (.group gk) = s.instOf (.group hk) → g.st.stopped = false → g.st.held = none → g.st.tmode = false →
    h.st.stopped = false → h.st.held = none → h.st.tmode = false →
    (g.exchanges (s.whoWord (.group hk))).filter (fun x => (h.exchanges (s.whoWord (.group gk))).contains x) = (tag, n) :: t →
    g.waiting (s.whoWord (.group hk)) tag n = some (gi, gd, gv) → h.waiting (s.whoWord (.group gk)) tag n = some (hi, hd, hv) →
    let mine := gv.map (fun x => (x.1, ((Tab.find hv x.1).getD x.2).toNat))
    let theirs := hv.map (fun x => (x.1, ((Tab.find gv x.1).getD x.2).toNat))
    exec (.xchgMatch gk hk) s = .next ((s.setGroup gk ((g.writeD gd false mine).laneNext gi)).setGroup hk
      ((h.writeD hd false theirs).laneNext hi)))

/-- R188 to R197: BRL and SWITCH go where every thread agrees, and split otherwise, with the first arm running; RECONV,
LLOOP, LLEXIT and LSTOP change the mask, the stack and the lane PC as their rules say; U raises 0x07 on divergence. -/
def Obligations.LaneControlWordsComplete : Prop :=
  (∀ s l l1 w, Closed s l l1 →
    let yes := l1.part w
    let no := l1.active.filter (fun t => !l1.guard w t)
    let goal := l1.fr.pc + w.imm.toInt
    (no = [] → exec (.brl w) s = .next (s.setGroup l.k (l1.goes goal))) ∧
    (no ≠ [] → yes = [] → exec (.brl w) s = .next (s.setGroup l.k (l1.g.laneNext l.fi))) ∧
    (no ≠ [] → yes ≠ [] → w.u = 0 → topmost l1 = true → exec (.brl w) s = .next (s.setGroup l.k { l1.g with run := { l1.g.run with
      root := some ⟨0, none, []⟩
      frags := [(maskW yes, goal), (maskW no, l1.fr.pc + 1)].map (fun a => { l1.fr with
        mask := a.1
        pc := a.2
        stack := []
        wait := .none }) } })) ∧
    (no ≠ [] → yes ≠ [] → w.u = 0 → topmost l1 = false → l1.g.run.depth + 2 ≤ 16 →
      exec (.brl w) s = .next (s.setGroup l.k { l1.g with run := { l1.g.run with frags := setNth l1.g.run.frags l.fi { l1.fr with
        mask := maskW yes
        pc := goal
        wait := .none
        stack := SEnt.pend (maskW no) (l1.fr.pc + 1) :: SEnt.join l1.fr.mask none :: l1.fr.stack } } }))) ∧
  (∀ s l l1 l2 w recs w2 vals w3, Closed s l l1 → l1.g.noReg w.a.toNat false = false →
    Answers (readTable l1 ((s.setGroup l.k l1.g).portOf (.group l.k)) (l1.fr.pc + w.imm.toInt) (upFrom 0 w.c.toNat))
      ⟨s.setGroup l.k l1.g, []⟩ recs w2 →
    Answers (readOps w (l1.part w) [slot32 w.a]) w2 vals w3 → LaneIssues w3.cur l2 → l2.k = l.k → l2.fi = l.fi →
    l2.active ≠ [] →
    let arm := fun (t : Nat) => ((valueAt vals t).map (fun v => switchArm v recs 0)).getD 8
    (∀ i, i < 8 → (∀ t ∈ l2.active, arm t = i) →
      exec (.switchL w) s = .next (s.after ⟨w3.cur.setGroup l.k (l2.goes (l1.fr.pc + (nth recs i (0, 0)).2)), w3.stores⟩)) ∧
    ((∀ t ∈ l2.active, arm t = 8) →
      exec (.switchL w) s = .next (s.after ⟨w3.cur.setGroup l.k (l2.g.laneNext l.fi), w3.stores⟩))) ∧
  (∀ s l l1 w, Closed s l l1 →
    (∀ st f d m c i t, l1.fr.stack = .loop st f d m c i :: t →
      exec (.reconv w) s = .next (s.setGroup l.k (l1.goes (l1.fr.pc + 1)))) ∧
    (l1.fr.stack = [] → l1.g.run.root = none → exec (.reconv w) s = .next (s.setGroup l.k (l1.goes (l1.fr.pc + 1)))) ∧
    (∀ r, l1.fr.stack = [] → l1.g.run.root = some r → exec (.reconv w) s = .next (s.setGroup l.k
      ({ l1.g with run := { l1.g.run with root := some { r with
        rc := some (match r.rc with | none => l1.fr.pc | some y => min y l1.fr.pc) } } }.resume l.fi l1.fr.mask))) ∧
    (∀ m x t, (l1.fr.stack = .pend m x :: t ∨ ∃ y, l1.fr.stack = .join m y :: t) → exec (.reconv w) s = .next (s.setGroup l.k
      ({ l1.g with run := { l1.g.run with frags := setNth l1.g.run.frags l.fi { l1.fr with
        stack := joinAt l1.fr.pc l1.fr.stack } } }.resume l.fi 0)))) ∧
  (∀ s l w xs g1, LaneIssues s l → l.g.noReg w.d.toNat false = false → l.Reads s w (l.part w) (plain1 w) xs g1 →
    let fin := l.fr.pc + w.imm.toInt
    let cnt : Tab Nat := l.active.map (fun t => (t, (valueAt xs t).getD 0))
    let go := (cnt.filter (fun c => !(c.2 == 0))).map (fun c => c.1)
    let l1 := { l with g := g1 }
    (w.u = 0 ∨ ∀ x ∈ cnt, ∀ y ∈ cnt, x.2 = y.2) →
    (go = [] → exec (.lloop w) s = .next (s.setGroup l.k (l1.goes (fin + 1)))) ∧
    (go ≠ [] → l.g.run.depth < 16 → loopCount l.fr.stack < 4 →
      exec (.lloop w) s = .next (s.setGroup l.k { g1.writeD w.d.toNat false (go.map (fun t => (t, 0))) with
        run := { g1.run with frags := setNth g1.run.frags l.fi { l.fr with
          mask := maskW go
          pc := l.fr.pc + 1
          wait := .none
          stack := SEnt.loop (l.fr.pc + 1) fin w.d.toNat (l.fr.mask &&& ~~~maskW go) cnt (l.active.map (fun t => (t, 0)))
            :: l.fr.stack } } }))) ∧
  (∀ s l w, LaneIssues s l → loopCount l.fr.stack ≠ 0 → (w.u = 0 ∨ l.part w = [] ∨ (l.part w).length = l.active.length) →
    let x := maskW (l.part w)
    let left := l.fr.mask &&& ~~~x
    let g1 := { l.g with run := { l.g.run with frags := setNth l.g.run.frags l.fi { l.fr with
      mask := left
      pc := l.fr.pc + 1
      wait := .none
      stack := leaveLoop x l.fr.stack } } }
    exec (.llexit w) s = .next (s.setGroup l.k (if left = 0 then g1.resume l.fi 0 else g1))) ∧
  (∀ s l l1 w, Closed s l l1 →
    exec (.lstop w) s = .next (s.setGroup l.k ({ l1.g with
      threads := l1.g.threads.map (fun (t : Nat × Thread) => if l1.active.contains t.1 then (t.1, { t.2 with fin := true }) else t)
      run := l1.g.run.without l1.fr.mask }.resume l.fi 0)))

/-- R224 to R229: loads, stores and atomics whose addresses pass their checks leave one access with each thread's address
and operands, in virtual space and in scratchpad; FQPUT and FQGET put and take the head of a FIFO bank. -/
def Obligations.LaneMemoryWordsIssueTheirAccess : Prop :=
  (∀ s l w ga (spad : Bool), LaneIssues s l → Tab.find s.gangs (l.k / 65536) = some ga → l.acquired →
    let acc := fun (g1 : Group) (kind : AccKind) (d : Option Nat) (ts : List AccThread) =>
      (⟨l.g.tags, kind, spad, w.pty, ordOf w, scopeOf w, polOf w, d, ts, false, g1.lastEnts, g1.aldsOut⟩ : LAcc)
    let fine := fun (ts : List AccThread) => ∀ t ∈ ts, accCause spad ga (tySize w.pty) t.addr = 0
    let leaves := fun (i : Instr) (a : LAcc) => ∃ g2, exec i s = .next (s.setGroup l.k g2) ∧ g2.tags = l.g.tags + 1 ∧
      g2.laccs = l.g.laccs ++ (if a.todo = [] then [] else [a]) ∧ g2.st = l.g.st ∧ g2.queues = l.g.queues ∧
      (a.dst ≠ none → ∃ p ∈ g2.lpend, p.tag = l.g.tags ∧ (p.ready = true ↔ a.todo = []))
    let data := fun (x : List Nat) (i : Nat) => arg x i % 2 ^ tyBits w.pty
    (∀ xs g1, l.g.noReg w.d.toNat (wide64 w.pty) = false → l.Reads s w (l.part w) [addrSlot spad w.a] xs g1 →
      let ts := xs.map (fun x => (⟨x.1, effAddr spad (arg x.2 0) w true, 0, 0⟩ : AccThread))
      fine ts → leaves (if spad then .ldx w else .ld w) (acc g1 .load (some w.d.toNat) ts)) ∧
    (∀ xs g1, l.Reads s w (l.part w) [addrSlot spad w.a, slotT w.pty w.b] xs g1 →
      let ts := (xs.filter (fun x => !((l.g.thread x.1).cls == .helper))).map (fun x =>
        (⟨x.1, effAddr spad (arg x.2 0) w true, data x.2 1, 0⟩ : AccThread))
      fine ts → leaves (if spad then .stx w else .st w) (acc g1 .store none ts)) ∧
    (∀ xs g1, l.g.noReg w.d.toNat (wide64 w.pty) = false →
      l.Reads s w (l.part w) ([addrSlot spad w.a, slotT w.pty w.b] ++ (if w.imm.toNat % 16 = 7 then [slotT w.pty w.c] else [])) xs g1 →
      let ts := (xs.filter (fun x => !((l.g.thread x.1).cls == .helper))).map (fun x =>
        (⟨x.1, effAddr spad (arg x.2 0) w false, data x.2 1, data x.2 2⟩ : AccThread))
      fine ts → leaves (if spad then .atomx w else .atom w) (acc g1 (.atomic (w.imm.toNat % 16)) (some w.d.toNat) ts))) ∧
  (∀ s l w ga hs, LaneIssues s l → Tab.find s.gangs (l.k / 65536) = some ga → l.acquired → l.g.settled = true →
    let pos := fld w.imm.toNat 0 3
    let h := fld w.imm.toNat 3 6
    let key := 512 * pos + h
    let q := Tab.getD ga.fifos key []
    Tab.getD ga.hold pos [] = hs → pos < ga.cores → h < hs.length → nth hs h 0 = 2 →
    (∀ xs g1, q.length < 64 → l.Reads s w (l.part w) (plain1 w) xs g1 →
      exec (.fqput w) s = .next ((s.setGang (l.k / 65536) { ga with fifos := Tab.set ga.fifos key (q ++ [(upFrom 0 32).map (fun t =>
        if (l.g.thread t).cls = .helper then 0 else BitVec.ofNat 32 ((valueAt xs t).getD 0))]) }).setGroup l.k (g1.laneNext l.fi))) ∧
    (∀ e rest, q = e :: rest → l.g.noReg w.d.toNat false = false →
      exec (.fqget w) s = .next ((s.setGang (l.k / 65536) { ga with fifos := Tab.set ga.fifos key rest }).setGroup l.k
        (l.g.longDone l.fi w ((l.part w).map (fun t => (t, (nth e t 0).toNat))))))) ∧
  (∀ (s : State) gk k g a t rest w1 v w2 g2, Tab.find s.groups gk = some g → g.laccs[k]? = some a → a.todo = t :: rest →
    g.laccs.find? (fun b => b.tag == a.tag) = some a →
    (∀ b ∈ g.laccs.takeWhile (fun b => !(b.tag == a.tag)), ∀ x ∈ b.todo, keepsOrder s (s.portOf (.group gk)) b x a t = false) →
    Answers (accCheck (s.portOf (.group gk)) gk g a) ⟨s, []⟩ true w1 →
    Answers (accOnce (s.portOf (.group gk)) (gk / 65536) a t) w1 (.ok v) w2 → Tab.find w2.cur.groups gk = some g2 →
    ∃ g3, exec (.laneMemoryAccessPerform gk k 1) s = .next (s.after ⟨w2.cur.setGroup gk g3, w2.stores⟩) ∧
      g3.laccs = (g2.laccs.map (fun b => if b.tag = a.tag then { b with todo := rest } else b)).filter (fun b => !b.todo.isEmpty) ∧
      (∀ d p, a.dst = some d → p ∈ g2.lpend → p.tag = a.tag → ∃ p1 ∈ g3.lpend, p1.tag = a.tag ∧ (rest = [] → p1.ready = true) ∧
        p1.writes = p.writes ++ resultWrites d (wide64 a.ty)
          [(t.tnum, if isInt a.ty then tyPut a.ty false (tyRead a.ty v) else v)]))

/-- R64, R182 to R187: the words that combine and exchange the values of threads and groups. -/
def Obligations.ThreadsExchangeValues : Prop := GroupWordsCombineThreads ∧ ExchangesPairUp

/-! ## Lane words of the engines -/

namespace Sys2Proof.Machine

/-- The word completes and its group has one more entry in queue q: `op`, with the queue's next sequence number. -/
def EntersQueue (s : State) (l : Lane) (q : Nat) (o : Host.Outcome State Fault Refusal) (op : EOp) : Prop :=
  ∃ g2 e, o = .next (s.tickOn.setGroup l.k g2) ∧ (g2.queue q).ents = (l.g.queue q).ents ++ [e] ∧ e.op = op ∧
    e.seq = (l.g.queue q).next ∧ (g2.queue q).next = (l.g.queue q).next + 1 ∧ g2.st = l.g.st ∧
    ∀ j, j ≠ q → g2.queue j = l.g.queue j

/-- As `EntersQueue` when a thread takes part; else the word only completes. -/
def EntersIf (some_ : Bool) (s : State) (l : Lane) (g1 : Group) (q : Nat) (o : Host.Outcome State Fault Refusal) (op : EOp) : Prop :=
  if some_ then EntersQueue s l q o op else o = .next (s.setGroup l.k (g1.laneNext l.fi))

/-- The operands that an entry takes of the threads `ts`: n registers from the one that slot A names. -/
def Lane.regArgs (l : Lane) (ts : List Nat) (a n : Nat) : List TArg := ts.map (fun t => l.targ t (l.regWords t a n))

/-- The operands that an entry takes of what a word reads. -/
def Lane.readArgs (l : Lane) (xs : List (Nat × List Nat)) : List TArg := xs.map (fun x => l.targ x.1 x.2)

/-- Queue q of the lane's group has room, whatever else of the group changes before the entry is issued (R21). -/
def State.roomy (s : State) (l : Lane) (q : Nat) : Prop :=
  s.roomFor l.k q = true ∧
  ∀ g2 : Group, g2.queues = l.g.queues → g2.id = l.g.id → (s.setGroup l.k g2).roomFor l.k q = true

/-- A lane word issues in a group of this gang, and queue q has room. -/
def LaneEnters (s : State) (l : Lane) (ga : Gang) (q : Nat) : Prop :=
  LaneIssues s l ∧ Tab.find s.gangs (l.k / 65536) = some ga ∧ s.roomy l q

/-- The barrier index in IMM32 is none or one of the gang (Table 15-2). -/
def BarIndexOk (w : LaneW) (ga : Gang) : Prop := fld w.imm.toNat 8 8 = 0xFF ∨ fld w.imm.toNat 8 8 < ga.nbar

end Sys2Proof.Machine

/-- R325 to R328: MFEED, MSCALE and MDRAIN of a MATRIX gang issue into queue M of their group; MFMT leaves its request for
the control core, and MFMT_REQUEST answers it with the field of the slot. -/
def Obligations.LaneMatrixWordsComplete : Prop :=
  (∀ s l ga w xs g1, LaneEnters s l ga 2 → bit (s.nodeRec ga) 247 = true →
    let helper := fun (t : Nat) => (l.g.thread t).cls == .helper
    (l.Reads s w (l.part w) (plain2 w) xs g1 → (∀ x ∈ xs, ∀ y ∈ xs, arg x.2 1 = arg y.2 1) →
      EntersQueue s l 2 (exec (.mfeed w) s) (.mfeed (w.imm.toNat % 128)
        ((upFrom 0 32).map (fun t => if helper t then 0 else BitVec.ofNat 32 ((valueAt xs t).getD 0)))
        (xs.head?.map (fun x => BitVec.ofNat 32 (arg x.2 1))))) ∧
    (l.Reads s w (l.part w) (plain1 w) xs g1 →
      EntersQueue s l 2 (exec (.mscale w) s) (.mscale
        ((xs.filter (fun x => !helper x.1 && decide (w.imm.toNat % 128 + x.1 ≤ 127))).map (fun x =>
          (w.imm.toNat % 128 + x.1, BitVec.ofNat 8 (arg x.2 0)))))) ∧
    (BarIndexOk w ga → EntersIf ((l.part w).any (fun t => !helper t)) s l l.g 2 (exec (.mdrain w) s)
      (.mdrain (fld w.imm.toNat 0 3) (bit w.imm.toNat 3) (bit w.imm.toNat 4) (satOf w) (rmOf w)
        (l.plain s w.imm.toNat (slot64 w.a) 0) (texBar w.imm.toNat)))) ∧
  (∀ s l ga w, LaneIssues s l → Tab.find s.gangs (l.k / 65536) = some ga → bit (s.nodeRec ga) 247 = true →
    l.g.noReg w.d.toNat false = false →
    ∃ g2, exec (.mfmt w) s = .next (s.setGroup l.k g2) ∧
      g2.fmts = l.g.fmts ++ [(l.g.tags, w.c.toNat, w.imm.toNat % 4, w.d.toNat, l.part w)] ∧ g2.queues = l.g.queues) ∧
  (∀ (s : State) gk tag g c t f sl d ts, Tab.find s.groups gk = some g → Tab.find s.ctxs (gk / 65536) = some c →
    g.fmts.find? (fun x => x.1 == tag) = some (t, f, sl, d, ts) →
    let v := ((c.slot sl).map (fun r => nth [shAfmt r, shBfmt r, shCfmt r, shM r, shN r, shK r, shCmask r] f 0)).getD 0
    exec (.mfmtRequest gk tag) s = .next (s.setGroup gk { g with
      fmts := g.fmts.filter (fun x => !(x.1 == tag))
      lpend := g.lpend.map (fun p => if p.tag = tag then { p with
        ready := true
        writes := p.writes ++ resultWrites d false (ts.map (fun t => (t, v))) } else p) }))

/-- R360, R361, R377 to R379: GREAD, GREAD.APRON and GWRITE issue into queue G, SCOVER, SREAD, SWRITE and SWRITE.Z into queue
Z, with the operands of the threads that take part. -/
def Obligations.LaneGridWordsComplete : Prop :=
  (∀ s l ga w key (apron : Bool), LaneEnters s l ga 3 →
    let m : GMap := ⟨l.plain s 0 (slot64 w.a) 0, sext 6 w.imm.toNat, sext 6 (w.imm.toNat / 256), fld w.imm.toNat 16 5 + 1⟩
    let sl := s.slotAt key
    l.g.lacks (w.d.toNat + 11) = false → w.psel = 7 → w.pneg = 0 → l.fr.mask.toNat = maskOf l.g.present →
    -1 ≤ m.col0 → m.col0 ≤ 17 → -1 ≤ m.row0 → m.row0 ≤ 17 → l.g.run.gmap = none → s.usableSlot ga m.handle = some key →
    EntersQueue s l 3 (exec (if apron then .greadApron w else .gread w) s) (.gread key m w.d.toNat
      (((upFrom 0 32).filter (fun t => !(m.cls sl.nu sl.nv apron t == .void))).map (fun t => (t, m.cls sl.nu sl.nv apron t == .helper)))
      l.g.tags)) ∧
  (∀ s l ga w key m, LaneEnters s l ga 3 →
    let words := bitsOf 12 w.imm.toNat
    let h := l.plain s 0 (slot64 w.b) 0
    l.g.lacks (w.a.toNat + words.foldl (fun a b => max a b) 0) = false → l.g.run.gmap = some m →
    fld h 16 32 = fld m.handle 16 32 → fld h 0 13 = fld m.handle 0 13 → s.usableSlot ga m.handle = some key →
    (s.slotAt key).owner = l.k / 65536 →
    EntersQueue s l 3 (exec (.gwrite w) s) (.gwrite key w.imm.toNat (s.slotAt key).nu
      (((l.part w).filter (fun t => (l.g.thread t).cls == .normal)).map (fun t =>
        (t, words.map (fun i => Tab.getD (l.g.thread t).v (w.a.toNat + i) 0)))) m)) ∧
  (∀ s l ga w xs g1 key b bva xy w1 l1, LaneEnters s l ga 4 → l.Reads s w (l.part w) (plain1 w) xs g1 → xs ≠ [] →
    l.g.lacks (w.d.toNat + 3) = false → l.g.raster = some b → ga.bucket = some bva →
    s.usableSlot ga (l.plain s 0 (slot64 w.b) 0) = some key →
    (∀ x ∈ xs, selectorOk (patSamples b.header) (some ((s.slotAt key).nu, (s.slotAt key).nv)) (arg x.2 0) = true) →
    Answers (readVA { (s.setGroup l.k g1).portOf (.group l.k) with core := none } fresh bva 4) ⟨s.setGroup l.k g1, []⟩ (.ok xy) w1 →
    LaneIssues w1.cur l1 → l1.k = l.k → l1.fi = l.fi → l1.g = g1 → w1.cur.roomy l1 4 →
    ∃ g2 e, exec (.scover w) s = .next (s.after ⟨w1.cur.tickOn.setGroup l.k g2, w1.stores⟩) ∧
      (g2.queue 4).ents = (l.g.queue 4).ents ++ [e] ∧
      e.op = .scover b (fld xy 0 16) (fld xy 16 16) key w.d.toNat (l.readArgs xs) l.g.tags) ∧
  (∀ s l ga w xs g1 b, LaneEnters s l ga 4 → l.g.raster = some b →
    (l.Reads s w (l.part w) (plain1 w) xs g1 → l.g.lacks (w.d.toNat + 3) = false →
      (∀ x ∈ xs, selectorOk (patSamples b.header) none (arg x.2 0) = true) →
      EntersIf (!xs.isEmpty) s l g1 4 (exec (.sread w) s) (.sread b w.d.toNat (l.readArgs xs) l.g.tags)) ∧
    (l.Reads s w (l.part w) [slot32 w.b] xs g1 → l.g.lacks (w.a.toNat + 3) = false →
      (∀ x ∈ xs, selectorOk (patSamples b.header) none (arg x.2 0) = true) →
      let args := xs.map (fun x => l.targ x.1 (arg x.2 0 :: l.regWords x.1 w.a.toNat 4))
      EntersIf (!xs.isEmpty) s l g1 4 (exec (.swrite w) s) (.swrite b false args l.g.tags) ∧
      EntersIf (!xs.isEmpty) s l g1 4 (exec (.swriteZ w) s) (.swrite b true args l.g.tags)))

/-- R391, R392, R395, R399, R400: TRACE, HITGET, RCLOOK and RCINS issue into queue Y; TRACE of helpers alone issues
no entry and has a miss for each to write; TRACE.SORT traces with every thread of its fragment and then meets, and with a root join open parks there. -/
def Obligations.LanternLaneWordsComplete : Prop :=
  (∀ s l ga w bvh, LaneEnters s l ga 5 → Tab.find ga.bvh (fld w.imm.toNat 0 2) = some bvh →
    let a := w.a.toNat
    let d := w.d.toNat
    let ts := l.part w
    let full := fun (t : Nat) => !((l.g.thread t).cls == .helper)
    (l.g.lacks (a + 7) = false → l.g.lacks (d + 3) = false →
      (ts.any full = true → EntersQueue s l 5 (exec (.trace w) s)
        (.trace bvh (bit w.imm.toNat 8) (bit w.imm.toNat 9) d (l.regArgs ts a 8) l.g.tags)) ∧
      (ts = [] → exec (.trace w) s = .next (s.setGroup l.k (l.g.laneNext l.fi))) ∧
      (ts ≠ [] → ts.any full = false → ∃ g2, exec (.trace w) s = .next (s.setGroup l.k g2) ∧ g2.threads = (l.g.laneNext l.fi).threads ∧
        g2.queues = l.g.queues ∧ g2.lpend = l.g.lpend.map (fun p => if p.tag = l.g.tags then { p with
          ready := true
          writes := p.writes ++ ts.flatMap (fun t => wordWrites t d (hitRecord4 none)) } else p) ++
          [⟨l.g.tags, true, ts.flatMap (fun t => wordWrites t d (hitRecord4 none))⟩])) ∧
    (∀ xs g1, l.Reads s w ts (plain1 w) xs g1 → l.g.lacks (d + 2) = false →
      EntersIf (!xs.isEmpty) s l g1 5 (exec (.hitget w) s)
        (.hitget bvh w.c.toNat d (xs.map (fun x => ({ l with g := g1 } : Lane).targ x.1 [arg x.2 0])) l.g.tags)) ∧
    (l.g.lacks (a + 5) = false → l.g.lacks (d + 1) = false → bvhRclog bvh ≠ 0 →
      EntersIf (!ts.isEmpty) s l l.g 5 (exec (.rclook w) s) (.rclook bvh d (l.regArgs ts a 6) l.g.tags)) ∧
    (l.g.lacks (a + 7) = false → bvhRclog bvh ≠ 0 →
      EntersIf (ts.any full) s l l.g 5 (exec (.rcins w) s) (.rcins bvh (l.regArgs (ts.filter full) a 8) l.g.tags))) ∧
  (∀ s l l1 ga w bvh, Closed s l l1 → Tab.find s.gangs (l.k / 65536) = some ga → Tab.find ga.bvh (fld w.imm.toNat 0 2) = some bvh →
    (∀ r, l1.g.run.root = some r → l1.fr.stack = [] → exec (.traceSort w) s = .next (s.setGroup l.k
      ({ l1.g with run := { l1.g.run with root := some (r.sortAt l1.fr.pc) } }.resume l.fi l1.fr.mask))) ∧
    (l1.g.run.root = none → l1.fr.stack = [] → l1.g.lacks (w.a.toNat + 7) = false → l1.g.lacks (w.d.toNat + 3) = false →
      (s.setGroup l.k l1.g).roomy l1 5 →
      (l1.active.any (fun t => !((l1.g.thread t).cls == .helper)) = true →
        EntersQueue s l1 5 (exec (.traceSort w) s) (.trace bvh (bit w.imm.toNat 8) (bit w.imm.toNat 9) w.d.toNat
          (l1.regArgs l1.active w.a.toNat 8) l1.g.tags)) ∧
      (l1.active.any (fun t => !((l1.g.thread t).cls == .helper)) = false →
        ∃ g2, exec (.traceSort w) s = .next (s.setGroup l.k g2) ∧ g2.sorts = l1.g.sorts + 1 ∧ g2.queues = l1.g.queues ∧
          (g2.run.frags[l.fi]?).map (fun f => f.wait) = some (.meeting (l1.g.sorts + 1) l1.fr.pc))))

/-- R414, R415, R427 to R431, R461, R462: TEX, TEXG, TEXLAT and TEXQ issue into queue H, the transform words into queue X,
KLAUNCH and KCAPT into queue K; a word in which no thread takes part only completes, but for KLAUNCH and KCAPT. -/
def Obligations.SamplerTransformAndCarillonLaneWordsComplete : Prop :=
  (∀ s l ga w desc, LaneEnters s l ga 6 → Tab.find ga.tex (fld w.imm.toNat 0 2) = some desc → BarIndexOk w ga →
    let n := !(l.part w).isEmpty
    let bar := texBar w.imm.toNat
    let a := w.a.toNat
    let d := w.d.toNat
    let tex := fun (form k : Nat) => EOp.tex desc form d (l.regArgs (l.part w) a k) bar l.g.tags
    (l.g.lacks (d + 4) = false →
      (l.g.lacks (a + 2) = false → EntersIf n s l l.g 6 (exec (.tex w) s) (tex 0 3)) ∧
      (l.g.lacks (a + 5) = false → EntersIf n s l l.g 6 (exec (.texg w) s) (tex 1 6)) ∧
      (l.g.lacks (a + 1) = false → EntersIf n s l l.g 6 (exec (.texlat w) s) (tex 2 2))) ∧
    (∀ xs g1, l.g.lacks (d + 3) = false → l.Reads s w (l.part w) (plain2 w) xs g1 →
      EntersIf (!xs.isEmpty) s l g1 6 (exec (.texq w) s) (.texq desc d (({ l with g := g1 } : Lane).readArgs xs) bar l.g.tags))) ∧
  (∀ s l ga w, LaneEnters s l ga 7 →
    let v := l.plain s 0 ⟨w.b.toNat, true, false⟩ 0
    let a := w.a.toNat
    let d := w.d.toNat
    let n := !(l.part w).isEmpty
    let wd := fld w.imm.toNat 0 5
    let none_ := (l.part w).map (fun t => l.targ t [])
    let colour := fun (kind : Nat) => EOp.colour kind v d (l.regArgs (l.part w) a 3) l.g.tags
    (Placed48 v 64 → l.g.lacks (a + 2) = false → l.g.lacks (d + 2) = false →
      EntersIf n s l l.g 7 (exec (.xmat w) s) (colour 1) ∧ EntersIf n s l l.g 7 (exec (.xlut1 w) s) (colour 2) ∧
      EntersIf n s l l.g 7 (exec (.xlut3 w) s) (colour 3)) ∧
    (8 ≤ wd → wd ≤ 16 →
      (l.g.lacks d = false → EntersIf n s l l.g 7 (exec (.xraw w) s) (.xraw v wd (bit w.imm.toNat 8) d none_ l.g.tags)) ∧
      (Placed48 v 4 → l.g.lacks d = false →
        EntersIf n s l l.g 7 (exec (.xunpk w) s) (.unpack v wd (bit w.imm.toNat 8) d none_ l.g.tags)) ∧
      (∀ xs g1, Placed48 v 4 → l.Reads s w (l.part w) (plain1 w) xs g1 →
        EntersIf (!xs.isEmpty) s l g1 7 (exec (.xpack w) s) (.pack v wd (({ l with g := g1 } : Lane).readArgs xs) l.g.tags)))) ∧
  (∀ s l ga w, LaneEnters s l ga 8 →
    (∀ xs g1, BarIndexOk w ga → l.Reads s w (l.part w) (plain1 w) xs g1 →
      EntersQueue s l 8 (exec (.klaunch w) s) (.klaunch (fld w.imm.toNat 0 4) (bit w.imm.toNat 4) (bit w.imm.toNat 5)
        (xs.map (fun x => (x.1, min (arg x.2 0) 0xFFFF))) (texBar w.imm.toNat))) ∧
    (l.g.lacks w.d.toNat = false →
      EntersQueue s l 8 (exec (.kcapt w) s) (.kcapt (bit w.imm.toNat 4) w.d.toNat (l.part w) l.g.tags)))

/-- R484, R510: SPAWN and QSEND of a lane take weight for each full thread in ascending order and give each the number of its
instance, or the amount deposited; a helper gets 0. -/
def Obligations.LaneSpawnAndSendComplete : Prop :=
  (∀ s l ga la w xs g1 rs w2 l2, LaneIssues s l → Tab.find s.gangs (l.k / 65536) = some ga → Tab.find s.launches ga.launch = some la →
    l.g.noReg w.d.toNat false = false → (∀ x y, l.fr.wait ≠ .borrow x y) → l.g.settled = true →
    l.Reads s w (l.part w) (plain2 w) xs g1 →
    let helper := fun (x : Nat × List Nat) => (l.g.thread x.1).cls == .helper
    let ys := xs.filter (fun x => !helper x)
    let node := w.imm.toNat % 65536
    node < la.nodes.length → s.poolOf ga.launch ga.die + ys.length ≤ 65536 →
    Answers (takeEach l (fun _ v x => createInst ga.launch node (arg v 0) ga.die ga.die (BitVec.ofNat 64 x) false) none ys [])
      ⟨s.setGroup l.k g1, []⟩ (some (rs, none)) w2 →
    LaneIssues w2.cur l2 → l2.k = l.k → l2.fi = l.fi →
    exec (.spawnLane w) s = .next (s.after ⟨w2.cur.setGroup l.k (l2.g.longDone l.fi w
      (rs ++ (xs.filter helper).map (fun x => (x.1, 0)))), w2.stores⟩)) ∧
  (∀ s l w xs g1 places w1 ws w2 l2, LaneIssues s l → l.g.noReg w.d.toNat false = false → (∀ x y, l.fr.wait ≠ .borrow x y) →
    l.g.settled = true → l.Reads s w (l.part w) [slot64 w.a, slot32 w.b] xs g1 →
    let helper := fun (x : Nat × List Nat) => (l.g.thread x.1).cls == .helper
    let ys := xs.filter (fun x => !helper x)
    let p := { (s.setGroup l.k g1).portOf (.group l.k) with core := none }
    Answers (ys.mapM (fun x => wordPlace p (arg x.2 0))) ⟨s.setGroup l.k g1, []⟩ places w1 → (∀ x ∈ places, x.1 = 0) →
    w1.cur.roomFor l.k 9 = true →
    Answers (takeEach l (fun _ _ w => pure w) none ys []) w1 (some (ws, none)) w2 → LaneIssues w2.cur l2 → l2.k = l.k → l2.fi = l.fi →
    w2.cur.roomFor l.k 9 = true →
    let pa := fun (t : Nat) => (((places.zip ys).find? (fun x => x.2.1 == t)).bind (fun x => x.1.2)).map (fun x => x.pa)
    let rs := ws.map (fun x => (x.1, amtOf x.2)) ++ (xs.filter helper).map (fun x => (x.1, 0))
    (ws ≠ [] → exec (.qsendLane w) s = .next (s.after ⟨w2.cur.tickOn.setGroup l.k ((l2.g.issued 9
      (.deposit (ws.map (fun x => ((pa x.1).getD 0, BitVec.ofNat 64 x.2)))) w2.cur.tick).longDone l.fi w rs), w2.stores⟩)) ∧
    (ws = [] → exec (.qsendLane w) s = .next (s.after ⟨w2.cur.setGroup l.k (l2.g.longDone l.fi w rs), w2.stores⟩)))

/-! ## Entries performing -/

namespace Sys2Proof.Machine

/-- The entry `e` heads queue q of a group, with the entries `t` behind it, and it may perform (R17, R20, R35, R268, R282). -/
def HeadPerforms (s : State) (k q : Nat) (g : Group) (e : Ent) (t : List Ent) : Prop :=
  Tab.find s.groups k = some g ∧ (g.queue q).ents = e :: t ∧ s.mayPerform k g (g.queue q) e = true ∧
  (e.started = true ∨ g.fenced q e = false) ∧ (e.started = true ∨ e.op.bar = none ∨ g.clearFor e = true)

/-- As `HeadPerforms` for queue X, when the core's pipe may take the entry (R419). -/
def PipePerforms (s : State) (k : Nat) (g : Group) (e : Ent) (t : List Ent) : Prop :=
  HeadPerforms s k 7 g e t ∧ Answers (pipeHead k) ⟨s, []⟩ (g, g.queue 7, e) ⟨s, []⟩

/-- As `HeadPerforms` for queue K, when the cluster's array may take the entry (R453). -/
def ArrayPerforms (s : State) (k : Nat) (g : Group) (e : Ent) (t : List Ent) : Prop :=
  HeadPerforms s k 8 g e t ∧ Answers (arrayHead k) ⟨s, []⟩ (g, g.queue 8, e) ⟨s, []⟩

/-- The entry `e` heads queue M of a gang's context, and it may perform. -/
def CtxHeadPerforms (s : State) (n : Nat) (c : Ctx) (g : Gang) (e : Ent) (t : List Ent) : Prop :=
  Tab.find s.ctxs n = some c ∧ Tab.find s.gangs n = some g ∧ c.queue.ents = e :: t ∧ c.queue.halt = none ∧
  s.instRuns g.inst = true ∧ c.st.stopped = false

/-- The group with the head of a queue changed. -/
def Group.headSet (g : Group) (q : Nat) (e : Ent) (t : List Ent) : Group :=
  { g with queues := Tab.set g.queues q { g.queue q with ents := e :: t } }

/-- The port of a group's engines. -/
def State.engine (s : State) (k : Nat) : Port := { s.portOf (.group k) with core := none }

/-- The port that the entry at the head of a group's queue has: its translations, and device pages only once it is clear of what
was issued before it (R265, R268). -/
def State.portAt (s : State) (k : Nat) (g : Group) (e : Ent) : Port := { s.engine k with held := e.xlat, clear := g.clearFor e }

/-- The head of queue q completes with the status it has gathered if its writes have reached their homes, and else waits for
that. -/
def Completes (k q : Nat) (w v : Work) : Prop :=
  (Answers (headReached k q) w false w ∧ v = w) ∨
  (∃ g e t word, Tab.find w.cur.groups k = some g ∧ (g.queue q).ents = e :: t ∧ Answers (headReached k q) w true w ∧
    Answers (complete k q (e.status.toNat / 16) (e.status.toNat % 16)) w word v)

/-- An entry of this kind that heads queue q performs whenever its work does, and the machine is as the work leaves it. -/
def Performs (q : Nat) (ev : Nat → Nat → Instr) (op : EOp) (work : State → Nat → Group → Ent → Nat → Act Unit) : Prop :=
  ∀ s k g e t n v, HeadPerforms s k q g e t → e.op = op → Answers (work s k g e n) ⟨s, []⟩ () v →
    exec (ev k n) s = .next (s.after v)

/-- As `Performs` for queue X and an entry that the pipe has taken. -/
def PipeWork (ev : Nat → Instr) (op : EOp) (work : State → Nat → Group → Ent → Act Unit) : Prop :=
  ∀ s k g e t v, PipePerforms s k g e t → e.started = true → e.op = op → Answers (work s k g e) ⟨s, []⟩ () v →
    exec (ev k) s = .next (s.after v)

end Sys2Proof.Machine

/-- R17, R24, R31, R249, R302: a head whose writes have reached their homes completes: it leaves its queue, MARK becomes the
number before that of the next entry, which is its own while none behind it was withdrawn, its status word joins the status of
its queue, and an entry with a barrier arrives there with that word. When an entry completes is the model's agenda (log 10). -/
def Obligations.EntriesComplete : Prop :=
  ∀ (w : Work) k q code aux g e t ga, HeadPerforms w.cur k q g e t → Tab.find w.cur.gangs (k / 65536) = some ga →
    w.cur.reached ga.die e.sent = true →
    let word := code * 2 ^ 24 + q * 2 ^ 20 + aux * 2 ^ 16 + e.seq.toNat
    let after := (t.head?.map (fun x => x.seq)).getD (g.queue q).next
    ∃ g2, (g2.queue q).ents = t ∧ (g2.queue q).mark = after - 1 ∧ (after = e.seq + 1 → (g2.queue q).mark = e.seq) ∧
      (g2.queue q).next = (g.queue q).next ∧
      (∀ j, j ≠ q → g2.queue j = g.queue j) ∧ g2.st = g.st ∧ g2.threads = g.threads ∧
      (q = 1 → g2.csts = g.csts.report word) ∧ (q = 7 → g2.xsts = g.xsts.report word) ∧ (q = 9 → g2.bsts = g.bsts.report word) ∧
      (q = 8 → g2.kvec = { g.kvec with sts := g.kvec.sts.report word }) ∧
      (e.op.bar = none → Answers (complete k q code aux) w word ⟨w.cur.setGroup k g2, w.stores⟩) ∧
      (∀ a v, e.op.bar = some a → Answers (arrive (k / 65536) a 1 word) ⟨w.cur.setGroup k g2, w.stores⟩ () v →
        Answers (complete k q code aux) w word v)

/-- R232, R293 to R297: entries of queues L and C perform sector by sector. -/
def Sys2Proof.Machine.RangeAndCopyEntriesPerform : Prop :=
  (∀ s k g e t fn a size n keep w1, HeadPerforms s k 0 g e t → e.op = .range fn a size →
    let p := { s.portAt k g e with core := (s.portOf (.group k)).core }
    let run := rangeRun k p fn keep a (size / 32) n e.pos
    (Answers run ⟨s, []⟩ false w1 → exec (.rangeMaintenancePerform ⟨k, n⟩ keep) s = .next (s.after w1)) ∧
    (∀ word v, Answers run ⟨s, []⟩ true w1 → Answers (complete k 0 0 0) w1 word v →
      exec (.rangeMaintenancePerform ⟨k, n⟩ keep) s = .next (s.after v))) ∧
  (∀ s k g e t kind r nd n w0 g0 e0 t0 w1, HeadPerforms s k 1 g e t → e.op = .copy kind r nd →
    (e.started = true ∨ s.copiesBegun k < 16) →
    let p := s.portAt k g e
    (kind = .gather → e.started = false → Answers (gatherStart k p r) ⟨s, []⟩ false w1 →
      exec (.copyEntryPerform k n) s = .next (s.after w1)) ∧
    (((kind ≠ .gather ∨ e.started = true) ∧ w0 = ⟨s, []⟩) ∨
        (kind = .gather ∧ e.started = false ∧ Answers (gatherStart k p r) ⟨s, []⟩ true w0) →
      Tab.find w0.cur.groups k = some g0 → (g0.queue 1).ents = e0 :: t0 →
      let els := copyEls kind r e0.buf
      let run := copyRun k p kind r els n ((copySectors els).drop e0.pos)
      let from_ : Work := ⟨w0.cur.setGroup k (g0.headSet 1 { e0 with started := true } t0), w0.stores⟩
      (Answers run from_ false w1 → exec (.copyEntryPerform k n) s = .next (s.after w1)) ∧
      (∀ v, Answers run from_ true w1 → bit r 146 = false → Completes k 1 w1 v →
        exec (.copyEntryPerform k n) s = .next (s.after v)) ∧
      (∀ g1 e1 t1 w2 word v, Answers run from_ true w1 → bit r 146 = true → Answers (headReached k 1) w1 true w1 →
        Tab.find w1.cur.groups k = some g1 → (g1.queue 1).ents = e1 :: t1 →
        Answers (publish p (w1.cur.instOf (.group k)) (8 + fld r 144 2) (fld r 160 32)) w1 none w2 →
        Answers (complete k 1 (e1.status.toNat / 16) (e1.status.toNat % 16)) w2 word v →
        exec (.copyEntryPerform k n) s = .next (s.after v))))

/-- R309, R318 to R330: entries of queue M perform, core by core or sector by sector. -/
def Sys2Proof.Machine.MatrixEntriesPerform : Prop :=
  (∀ s n c g e t tile r off w1 x w2 w3 w4 v, CtxHeadPerforms s n c g e t → e.op = .mloadb tile r off →
    let unload := forM (namedCores r) (fun x => modMatrix n x.2 (fun m => { m with tiles := Tab.del m.tiles tile }))
    Answers unload ⟨s, []⟩ () w1 →
    Answers (onCores (loadCore n (s.portOf (.ctx n)) tile r off) (namedCores r) 0) w1 x w2 →
    (∀ st, x = .ok st →
      let fresh := w2.cur.rewrite (fun y => (namedCores r).any (fun x => Sram.ofTile n x.2 tile y))
      Answers (ctxComplete n (st / 16) (st % 16)) ⟨fresh, w2.stores⟩ () w3 → Answers (takeBanks n) w3 () v →
      exec (.mloadbEntryPerform n) s = .next (s.after v)) ∧
    (∀ code a, x = .error (code, a) → Answers unload w2 () w4 → Answers (ctxHalt n code a) w4 () v →
      exec (.mloadbEntryPerform n) s = .next (s.after v))) ∧
  (∀ s n c0 g0 e0 t0 w0 c g e t acc bcast r tile keep acol bc w1 x w2 w3 w4 v, CtxHeadPerforms s n c0 g0 e0 t0 →
    Answers (takeBanks n) ⟨s, []⟩ () w0 → CtxHeadPerforms w0.cur n c g e t → e.op = .mma bcast acc r tile keep →
    (∀ f ∈ feedersOf bcast r, (Tab.find e.reads f).isSome) →
    let p := w0.cur.portOf (.ctx n)
    Answers (readScales p (shAcsa r) (shK r)) w0 (.ok (acol, bc)) w1 →
    let fixed := !(w1.cur.corrections == w0.cur.corrections)
    Answers (onCores (multiplyCore n p bcast acc r tile acol bc fixed) (namedCores r) 0) w1 x w2 →
    (∀ st, x = .ok st → Answers (forM (feedersOf bcast r) (fun f => modMatrix n f (fun m => { m with kept := keep }))) w2 () w3 →
      Answers (ctxComplete n (st / 16) (st % 16)) w3 () w4 → Answers (takeBanks n) w4 () v →
      exec (.mmaEntryPerform n) s = .next (s.after v)) ∧
    (∀ code a, x = .error (code, a) →
      Answers (forM (namedCores r) (fun x => modMatrix n x.2 (fun m => { m with accs := (g.matrixOf x.2).accs }))) w2 () w3 →
      Answers (ctxHalt n code a) w3 () v → exec (.mmaEntryPerform n) s = .next (s.after v))) ∧
  (∀ (w : Work) n g acc r tile j pos f bank acol, Tab.find w.cur.gangs n = some g → w.cur.sramBad = [] → w.cur.sramCorr = [] →
    let m := g.matrixOf pos
    let x := Tab.getD m.tiles tile ⟨shK r, shN r, shBfmt r, [], [], []⟩
    let a0 := Tab.getD m.accs acc (accOf r j)
    let y := productOf r x acol (bankRows bank r) a0.elems
    let m1 := { m with accs := Tab.set m.accs acc { (if shAccdis r then accOf r j else a0) with elems := y.1 } }
    shAfmt r ≠ 13 → badVote bank r = false →
    Answers (multiplyOn n acc r tile j pos (some (f, bank)) (bankRows bank r) acol false false) w (worse y.2 0)
      ⟨w.cur.setGang n { g with matrix := Tab.set g.matrix pos m1 }, w.stores⟩) ∧
  (∀ s n c g e t acc r free code w1 w2 w3 v, CtxHeadPerforms s n c g e t → e.op = .mzero acc r free →
    let named := fun (y : Sram) => (namedCores r).any (fun x => Sram.ofAcc n x.2 acc y)
    Answers (readWords g.die named) ⟨s, []⟩ code w1 →
    Answers (forM (namedCores r) (fun x => modMatrix n x.2 (fun m =>
      { m with accs := if free then Tab.del m.accs acc else Tab.set m.accs acc (accOf r x.1) }))) w1 () w2 →
    Answers (ctxComplete n (if code = 0 then 0 else 2) 0) ⟨w2.cur.rewrite named, w2.stores⟩ () w3 → Answers (takeBanks n) w3 () v →
    exec (.mzeroEntryPerform n) s = .next (s.after v)) ∧
  (∀ s k g e t ga row words fmt w1 word v, HeadPerforms s k 2 g e t → e.op = .mfeed row words fmt →
    Tab.find s.gangs (k / 65536) = some ga →
    let m := ga.matrixOf g.id.pos
    Tab.find m.fill.rows row = none →
    let m1 := m.setFill { m.fill with rows := Tab.set m.fill.rows row ⟨words, fmt⟩ }
    Answers (takeBanks (k / 65536)) ⟨s.setGang (k / 65536) { ga with matrix := Tab.set ga.matrix g.id.pos m1 }, []⟩ () w1 →
    Answers (complete k 2 0 0) w1 word v → exec (.mfeedEntryPerform k) s = .next (s.after v)) ∧
  (∀ s k g e t ga scales word v, HeadPerforms s k 2 g e t → e.op = .mscale scales → Tab.find s.gangs (k / 65536) = some ga →
    let m := ga.matrixOf g.id.pos
    (∀ x ∈ scales, Tab.find m.fill.rows x.1 = none) →
    let m1 := m.setFill { m.fill with scales := scales.foldl (fun t x => Tab.set t x.1 x.2) m.fill.scales }
    Answers (complete k 2 0 0) ⟨s.setGang (k / 65536) { ga with matrix := Tab.set ga.matrix g.id.pos m1 }, []⟩ word v →
    exec (.mscaleEntryPerform k) s = .next (s.after v)) ∧
  (∀ s k g e t ga acc spad zero sat rm base bar elems n w1 w2, HeadPerforms s k 2 g e t →
    e.op = .mdrain acc spad zero sat rm base bar → Tab.find s.gangs (k / 65536) = some ga →
    (∀ v, Tab.find (ga.matrixOf g.id.pos).accs acc = none → Answers (joinStatus k 2 0x40) ⟨s, []⟩ () w1 → Completes k 2 w1 v →
      exec (.mdrainEntryPerform ⟨k, n⟩ elems) s = .next (s.after v)) ∧
    (∀ a, Tab.find (ga.matrixOf g.id.pos).accs acc = some a →
      let zs := sortBy (fun x => x) (((drainBytes a spad base).map (fun x => x.1 / 32)).eraseDups)
      let run := drainRun k (s.portAt k g e) acc spad zero sat rm base n (zs.drop e.pos)
      Answers (forM (elems.filter (fun i => decide (i < a.m * a.n))) (drainTake k acc a))
        ⟨s.setGroup k (g.headSet 2 { e with started := true } t), []⟩ () w1 →
      (Answers run w1 false w2 → exec (.mdrainEntryPerform ⟨k, n⟩ elems) s = .next (s.after w2)) ∧
      (∀ v, Answers run w1 true w2 → Completes k 2 w2 v → exec (.mdrainEntryPerform ⟨k, n⟩ elems) s = .next (s.after v))))

/-- R341, R347, R349, R355 to R361: entries of queue G perform, and the engine spills slots by itself. -/
def Sys2Proof.Machine.GeometryEntriesPerform : Prop :=
  (∀ (w : Work) k key n, (w.cur.slotAt key).oldGen = none → Answers (victimFirst k key n) w true w) ∧
  (∀ s k g e t patch r key victim bucket bar n w0 w1 v, HeadPerforms s k 3 g e t → e.op = .dice patch r key victim bucket bar →
    (e.pos = 1024 → Answers (geoDone k) ⟨s, []⟩ () v → exec (.diceEntryPerform ⟨k, n⟩) s = .next (s.after v)) ∧
    (e.pos ≠ 1024 → Answers (victimFirst k key n) ⟨s, []⟩ false v → exec (.diceEntryPerform ⟨k, n⟩) s = .next (s.after v)) ∧
    (e.pos ≠ 1024 → Answers (victimFirst k key n) ⟨s, []⟩ true w0 →
      let sl := w0.cur.slotAt key
      let h := gridHeader patch r bucket sl.gen
      Answers (forM (gridRecords r sl.nu sl.nv) (fun x => poke (cupolaKey key + x.1) x.2.1 x.2.2))
        ⟨w0.cur.store (cupolaKey key) 512 h, (cupolaKey key, 512, h) :: w0.stores⟩ () w1 →
      let st := if (w1.cur.slotAt key).state == .spilling then SlotState.spilling else .ready
      Answers (geoDone k) ⟨w1.cur.setSlot key { w1.cur.slotAt key with state := st }, w1.stores⟩ () v →
      exec (.diceEntryPerform ⟨k, n⟩) s = .next (s.after v))) ∧
  (∀ s k g e t image key victim bucket bar n w0 g0 e0 t0 x w1 v, HeadPerforms s k 3 g e t → e.op = .fill image key victim bucket bar →
    (e.pos = 1024 → Answers (geoDone k) ⟨s, []⟩ () v → exec (.fillEntryPerform ⟨k, n⟩) s = .next (s.after v)) ∧
    (e.pos ≠ 1024 → Answers (victimFirst k key n) ⟨s, []⟩ false v → exec (.fillEntryPerform ⟨k, n⟩) s = .next (s.after v)) ∧
    (e.pos ≠ 1024 → Answers (victimFirst k key n) ⟨s, []⟩ true w0 → Tab.find w0.cur.groups k = some g0 →
      (g0.queue 3).ents = e0 :: t0 →
      let m := min n (512 - e0.pos)
      Answers (fillSectors k (w0.cur.portAt k g0 e0) key image m e0.pos) w0 x w1 →
      (∀ c a, x = some (c, a) → Answers (haltHead k 3 c a) w1 () v → exec (.fillEntryPerform ⟨k, n⟩) s = .next (s.after v)) ∧
      (∀ g1 e1 t1, x = none → Tab.find w1.cur.groups k = some g1 → (g1.queue 3).ents = e1 :: t1 →
        let s2 := w1.cur.setGroup k (g1.headSet 3 { e1 with pos := e0.pos + m } t1)
        (e0.pos + m ≠ 512 → exec (.fillEntryPerform ⟨k, n⟩) s = .next (s.after ⟨s2, w1.stores⟩)) ∧
        (∀ w2, e0.pos + m = 512 →
          let h := setFld (setFld (setFld (s2.gridHead key) 117 2 1) 192 32 (s2.slotAt key).gen) 224 32 (fld bucket 0 32)
          Answers (putHead key h) ⟨s2, w1.stores⟩ () w2 →
          let sl := w2.cur.slotAt key
          let st := if sl.state == .spilling then SlotState.spilling else if hdSampled h then .sampled else .ready
          Answers (geoDone k) ⟨w2.cur.setSlot key { sl with
            state := st
            nu := hdNu h
            nv := hdNv h }, w2.stores⟩ () v → exec (.fillEntryPerform ⟨k, n⟩) s = .next (s.after v))))) ∧
  (∀ s k g e t key image bar n w0 m sent st cause w1 w2 v, HeadPerforms s k 3 g e t → e.op = .spill key image bar →
    (e.pos = 1024 → Answers (geoDone k) ⟨s, []⟩ () v → exec (.spillEntryPerform k n) s = .next (s.after v)) ∧
    (e.pos ≠ 1024 → s.naming key = 1 → Answers (putHead key (setFld (s.gridHead key) 118 1 1)) ⟨s, []⟩ () w0 →
      let p := s.portAt k g e
      Answers (spillSectors p p.die key image (min n (512 - e.pos)) e.pos 0 [] 0) w0 (m, sent, st, cause) w1 →
      Answers (spillNote k m sent st) w1 () w2 →
      ∀ w3, Answers (setHead k 3 (fun x => { x with pos := e.pos + m })) w2 () w3 →
      (∀ c a, cause = some (c, a) → Answers (haltHead k 3 c a) w3 () v → exec (.spillEntryPerform k n) s = .next (s.after v)) ∧
      (cause = none → e.pos + m ≠ 512 → exec (.spillEntryPerform k n) s = .next (s.after w3)) ∧
      (∀ w4, cause = none → e.pos + m = 512 → Answers (spillEnd p key (2 ^ 63 + image % 2 ^ 48)) w3 none w4 →
        Answers (geoDone k) w4 () v → exec (.spillEntryPerform k n) s = .next (s.after v)))) ∧
  (∀ s key w, s.slotIdle key = true → (s.slotAt key).holders = [] → (s.slotAt key).oldGen = none → (s.slotAt key).failed = false →
    ((s.slotAt key).state = .sampled → hdRemain (s.gridHead key) = 0 → Answers (releaseSlot key) ⟨s, []⟩ () w →
      exec (.engineSpill key) s = .next (s.after w)) ∧
    (∀ n sent st, (s.slotAt key).state = .spilling →
      Answers (spillSlot (s.slotPort key) (slotPlace key).2.1 key) ⟨s.setSlot key { s.slotAt key with state := .spilling }, []⟩
        (n, sent, .done st) w → exec (.engineSpill key) s = .next (s.after w))) ∧
  (∀ s k g e t key m dst threads tag w1 word w2 v, HeadPerforms s k 3 g e t → e.op = .gread key m dst threads tag →
    s.gridReadyFor key e.born = true →
    let h := s.gridHead key
    Answers (resultReady k tag (threads.flatMap (fun x => (upFrom 0 12).map (fun i =>
      (x.1, dst + i, BitVec.ofNat 32 (nth (s.vertexWords key (hdNu h) (hdNv h) m x.1 x.2) i 0)))))) ⟨s, []⟩ () w1 →
    Answers (complete k 3 0 0) w1 word w2 → Answers (releaseSlot key) w2 () v →
    exec (.greadEntryPerform k) s = .next (s.after v)) ∧
  (∀ s k g e t key mask nu args m w1 word w2 v, HeadPerforms s k 3 g e t → e.op = .gwrite key mask nu args m →
    Answers (forM args (fun x => forM ((bitsOf 12 mask).zip x.2) (fun y =>
      poke (cupolaKey key + vertexOff nu (m.vertex x.1).1.toNat (m.vertex x.1).2.toNat + 4 * y.1) 4 y.2.toNat))) ⟨s, []⟩ () w1 →
    Answers (complete k 3 0 0) w1 word w2 → Answers (releaseSlot key) w2 () v →
    exec (.gwriteEntryPerform k) s = .next (s.after v))

/-- R222, R341, R372 to R382: entries of queue Z perform. -/
def Sys2Proof.Machine.RasterEntriesPerform : Prop :=
  (∀ s k g e t b x y depth bar n w1, HeadPerforms s k 4 g e t → e.op = .sflush b x y depth bar →
    let run := flushRun k (s.portAt k g e) b depth.toNat n e.pos
    let s1 := s.setGroup k (g.headSet 4 { e with started := true } t)
    (Answers run ⟨s1, []⟩ false w1 → exec (.sflushEntryPerform k n) s = .next (s.after w1)) ∧
    (∀ g1 e1 t1 ok v, Answers run ⟨s1, []⟩ true w1 → Tab.find w1.cur.groups k = some g1 → (g1.queue 4).ents = e1 :: t1 →
      (e1.pos < 512 * patSamples b.header → exec (.sflushEntryPerform k n) s = .next (s.after w1)) ∧
      (512 * patSamples b.header ≤ e1.pos → Answers (zDone k) w1 ok v → exec (.sflushEntryPerform k n) s = .next (s.after v)))) ∧
  (∀ s k g e t b bx bk key gang bar n, HeadPerforms s k 4 g e t → e.op = .sgrid b bx bk key gang bar →
    s.gridReadyFor key e.born = true →
    (∀ w1 v, e.pos = 65536 → Answers (zDone k) ⟨s, []⟩ true w1 → Answers (releaseSlot key) w1 () v →
      exec (.sgridEntryPerform ⟨k, n⟩) s = .next (s.after v)) ∧
    (∀ v, e.pos = 65536 → Answers (zDone k) ⟨s, []⟩ false v → exec (.sgridEntryPerform ⟨k, n⟩) s = .next (s.after v)) ∧
    (∀ slot w0 w1 w2 w3 w4 v, e.pos ≠ 65536 →
      let p := s.portAt k g e
      let h := s.gridHead key
      Answers (readSlot p.die key (hdNu h) (hdNv h)) ⟨s, []⟩ slot w0 →
      let rows := if s.badAt (cupolaKey key) 32 then [] else s.gridRows key (hdNu h) (hdNv h)
      let hits := if rows.isEmpty then ([], 0) else gridHits b bx bk h (hdNu h) (hdNv h) rows
      let best := bestHits hits.1
      let zs := sortBy (fun x => x) ((best.map (fun h => h.1 / 2)).eraseDups)
      let run := sampleRun k p b best n (zs.filter (fun z => decide (e.pos ≤ z)))
      Answers (zNote k 0 (worseSts slot hits.2) none) w0 () w1 →
      (Answers run w1 false w2 → exec (.sgridEntryPerform ⟨k, n⟩) s = .next (s.after w2)) ∧
      (Answers run w1 true w2 → Answers (markSampled key gang bx bk) w2 () w3 →
        Answers (setHead k 4 (fun e => { e with pos := 65536 })) w3 () w4 →
        (Answers (zDone k) w4 false v → exec (.sgridEntryPerform ⟨k, n⟩) s = .next (s.after v)) ∧
        (∀ w5, Answers (zDone k) w4 true w5 → Answers (releaseSlot key) w5 () v →
          exec (.sgridEntryPerform ⟨k, n⟩) s = .next (s.after v))))) ∧
  (∀ s k g e t b x y base bar n w1, HeadPerforms s k 4 g e t → e.op = .sresolve b x y base bar →
    let zs := sortBy (fun x => x) (((upFrom 0 32).flatMap (fun y => (upFrom 0 32).map (fun x =>
      (base + y * patPitch b.header + 8 * x) / 32))).eraseDups)
    let run := resolveRun k (s.portAt k g e) b base n (zs.drop e.pos)
    let s1 := s.setGroup k (g.headSet 4 { e with started := true } t)
    (Answers run ⟨s1, []⟩ false w1 → exec (.sresolveEntryPerform k n) s = .next (s.after w1)) ∧
    (∀ ok v, Answers run ⟨s1, []⟩ true w1 → Answers (zDone k) w1 ok v → exec (.sresolveEntryPerform k n) s = .next (s.after v))) ∧
  (∀ s k g e t b bx bk key dst args tag v, HeadPerforms s k 4 g e t → e.op = .scover b bx bk key dst args tag →
    s.gridReadyFor key e.born = true → Answers (scoverRun k key b bx bk dst tag args) ⟨s, []⟩ () v →
    exec (.scoverEntryPerform k) s = .next (s.after v)) ∧
  (∀ s k g e t b dst args tag n v, HeadPerforms s k 4 g e t → e.op = .sread b dst args tag →
    Answers (sreadRun k (s.portAt k g e) b dst tag n (args.drop e.pos)) ⟨s, []⟩ () v →
    exec (.sampleRecordEntryPerform ⟨k, n⟩) s = .next (s.after v)) ∧
  (∀ s k g e t b z args tag n w1, HeadPerforms s k 4 g e t → e.op = .swrite b z args tag →
    let mine := args.filter (fun t => !t.helper)
    let zs := sortBy (fun x => x) ((mine.map (fun t => b.selected (nth t.words 0 0).toNat / 32)).eraseDups)
    let run := swriteRun k (s.portAt k g e) b z mine n (zs.drop e.pos)
    (Answers run ⟨s, []⟩ (false, none) w1 → exec (.sampleRecordEntryPerform ⟨k, n⟩) s = .next (s.after w1)) ∧
    (∀ ok v, Answers run ⟨s, []⟩ (true, none) w1 → Answers (zDone k) w1 ok v →
      exec (.sampleRecordEntryPerform ⟨k, n⟩) s = .next (s.after v)) ∧
    (∀ x c i a v, Answers run ⟨s, []⟩ (x, some (c, i, a)) w1 → g.exited = true → Answers (haltHead k 4 c a) w1 () v →
      exec (.sampleRecordEntryPerform ⟨k, n⟩) s = .next (s.after v)) ∧
    (∀ x c i a w2 ok v, Answers run ⟨s, []⟩ (x, some (c, i, a)) w1 → g.exited = false →
      Answers (setHead k 4 (fun e => { e with pos := 32 })) w1 () w2 →
      Answers (zDone k) ⟨w2.cur.later (.group k) (Cause.ofThread c i a), w2.stores⟩ ok v →
      exec (.sampleRecordEntryPerform ⟨k, n⟩) s = .next (s.after v)))

/-- R232, R293 to R297, R309, R318 to R330: the entries of queues L, C and M perform.
When an entry performs, and how far in one turn, is the model's agenda (logs 10 and 57). -/
def Obligations.CopyAndMatrixWorkPerforms : Prop :=
  RangeAndCopyEntriesPerform ∧ MatrixEntriesPerform

/-- R341, R349, R355 to R362, R372 to R382: the entries of queues G and Z perform, and the engine spills slots by itself.
When an entry performs, and how far in one turn, is the model's agenda (logs 10 and 39). -/
def Obligations.GridWorkPerforms : Prop := GeometryEntriesPerform ∧ RasterEntriesPerform


/-- R391 to R404: entries of queue Y perform, thread by thread or slot by slot, and a group alone in its TRACE.SORT meeting leaves
it sorted. -/
def Sys2Proof.Machine.LanternEntriesPerform : Prop :=
  (∀ s k g e t bvh cb cf dst args tag n w1, HeadPerforms s k 5 g e t → e.op = .trace bvh cb cf dst args tag →
    let run := traceRun k (s.portAt k g e) bvh cb cf dst tag n (args.drop e.pos)
    (Answers run ⟨s, []⟩ false w1 → exec (.traceEntryPerform ⟨k, n⟩) s = .next (s.after w1)) ∧
    (∀ w2 word w3, Answers run ⟨s, []⟩ true w1 → Answers (resultReady k tag []) w1 () w2 → Answers (complete k 5 0 0) w2 word w3 →
      ((∀ f ∈ g.run.frags, ∀ x, f.wait ≠ .tracing x) → exec (.traceEntryPerform ⟨k, n⟩) s = .next (s.after w3)) ∧
      (∀ f x w4 v, f ∈ g.run.frags → f.wait = .tracing x → (∀ f ∈ g.run.frags, ∀ y ∈ f.wins, y.1 ≠ tag) →
        Answers (modGroup k (fun g => g.writeTags [tag])) w3 () w4 → Answers (sortTraced k) w4 () v →
        exec (.traceEntryPerform ⟨k, n⟩) s = .next (s.after v)))) ∧
  (∀ bvh sel dst args tag, Performs 5 (fun k n => .hitgetEntryPerform ⟨k, n⟩) (.hitget bvh sel dst args tag)
    (fun s k g e n => hitgetRun k (s.portAt k g e) bvh sel dst tag n (args.drop e.pos))) ∧
  (∀ bvh dst args tag, Performs 5 (fun k n => .rclookEntryPerform ⟨k, n⟩) (.rclook bvh dst args tag)
    (fun s k g e n => rclookRun k (s.portAt k g e) bvh dst tag n (args.drop e.pos))) ∧
  (∀ s k g e t bvh args tag n w1, HeadPerforms s k 5 g e t → e.op = .rcins bvh args tag →
    let run := rcinsRun k (s.portAt k g e) bvh n (args.drop e.pos)
    (Answers run ⟨s, []⟩ (false, none) w1 → exec (.rcinsEntryPerform ⟨k, n⟩) s = .next (s.after w1)) ∧
    (∀ v, Answers run ⟨s, []⟩ (true, none) w1 → Answers (yDone k) w1 () v → exec (.rcinsEntryPerform ⟨k, n⟩) s = .next (s.after v)) ∧
    (∀ x c i a v, Answers run ⟨s, []⟩ (x, some (c, i, a)) w1 → g.exited = true → Answers (haltHead k 5 c a) w1 () v →
      exec (.rcinsEntryPerform ⟨k, n⟩) s = .next (s.after v)) ∧
    (∀ x c i a w2 v, Answers run ⟨s, []⟩ (x, some (c, i, a)) w1 → g.exited = false →
      Answers (setHead k 5 (fun e => { e with pos := 32 })) w1 () w2 →
      Answers (yDone k) ⟨w2.cur.later (.group k) (Cause.ofThread c i a), w2.stores⟩ () v →
      exec (.rcinsEntryPerform ⟨k, n⟩) s = .next (s.after v))) ∧
  (∀ s k g e t bvh f bar n w1, HeadPerforms s k 5 g e t → e.op = .rcfade bvh f bar →
    let run := fadeRun k (s.portAt k g e) bvh f n e.pos
    let s1 := s.setGroup k (g.headSet 5 { e with started := true } t)
    (Answers run ⟨s1, []⟩ false w1 → exec (.rcfadeEntryPerform k n) s = .next (s.after w1)) ∧
    (∀ g1 e1 t1 v, Answers run ⟨s1, []⟩ true w1 → Tab.find w1.cur.groups k = some g1 → (g1.queue 5).ents = e1 :: t1 →
      (e1.pos < 2 ^ bvhRclog bvh → exec (.rcfadeEntryPerform k n) s = .next (s.after w1)) ∧
      (2 ^ bvhRclog bvh ≤ e1.pos → Answers (yDone k) w1 () v → exec (.rcfadeEntryPerform k n) s = .next (s.after v)))) ∧
  (∀ (s : State) gang pos regcnt n g x v, s.groups = [(groupKey gang 0, g)] → groupKey gang 0 / 65536 = gang → g.id.pos = pos →
    g.regcnt = regcnt → g.exited = false → g.sorts ≤ n → g.meetingAt n = some x → g.st.stopped = false →
    let all := g.movers.map (fun m => (m.1, m.2, g.thread m.1))
    let sorted := sortBy (fun m => m.2.1) all
    v = g.afterMeeting x ((all.map (fun m => m.1)).zip (sorted.map (fun m => m.2.2))) →
    exec (.traceSortMeeting gang pos regcnt n) s = .next (s.setGroup (groupKey gang 0) v))

/-- R410 to R417: entries of queue H perform: the reads made ahead, then the next threads. -/
def Sys2Proof.Machine.SamplerEntriesPerform : Prop :=
  (∀ s k g e t r form dst args bar tag ahead n w1 v, HeadPerforms s k 6 g e t → e.op = .tex r form dst args bar tag →
    let p := s.portAt k g e
    Answers (readAhead k p (fun t => texReads r form (t.words.map (fun x => x.toNat))) (args.drop e.pos) ahead) ⟨s, []⟩ () w1 →
    Answers (texRun k p r form dst tag args n (args.drop e.pos)) w1 () v →
    exec (.texEntryPerform ⟨k, ahead, n⟩) s = .next (s.after v)) ∧
  (∀ s k g e t r dst args bar tag ahead n w1 v, HeadPerforms s k 6 g e t → e.op = .texq r dst args bar tag →
    let p := s.portAt k g e
    Answers (readAhead k p (texqReads r) (args.drop e.pos) ahead) ⟨s, []⟩ () w1 →
    Answers (texqRun k p r dst tag n (args.drop e.pos)) w1 () v →
    exec (.texqEntryPerform ⟨k, ahead, n⟩) s = .next (s.after v)) ∧
  (∀ k p reads left (w : Work), Answers (readAhead k p reads left []) w () w)

/-- R419, R424 to R444: the pipe takes the entry of queue X whose turn it is, and goes on with the one it has. -/
def Sys2Proof.Machine.TransformEntriesPerform : Prop :=
  (∀ s k g e t, PipePerforms s k g e t → e.started = false →
    let taken := Host.Outcome.next (s.setGroup k (g.headSet 7 { e with started := true } t))
    ∀ i ∈ [Instr.colourTransformEntryPerform k, .packEntryPerform k, .xrawEntryPerform k, .xfclrEntryPerform k,
      .xdeltaEntryPerform k, .xdcmpEntryPerform k], exec i s = taken) ∧
  (∀ s k g e t kind a dst args tag w1, PipePerforms s k g e t → e.started = true → e.op = .colour kind a dst args tag →
    let p := s.portAt k g e
    (∀ r g1 e1 t1, e.buf = [] → Answers (readRange p fresh a 64) ⟨s, []⟩ (.ok r) w1 → xdOk kind r = true →
      Tab.find w1.cur.groups k = some g1 → (g1.queue 7).ents = e1 :: t1 →
      exec (.colourTransformEntryPerform k) s =
        .next (s.after ⟨w1.cur.setGroup k (g1.headSet 7 { e1 with buf := toBytes 64 r } t1), w1.stores⟩)) ∧
    (∀ r v, e.buf = [] → Answers (readRange p fresh a 64) ⟨s, []⟩ (.ok r) w1 → xdOk kind r = false →
      Answers (xFault k tag args 0x80 a) w1 () v → exec (.colourTransformEntryPerform k) s = .next (s.after v)) ∧
    (∀ c x v, e.buf = [] → Answers (readRange p fresh a 64) ⟨s, []⟩ (.error (c, x)) w1 → Answers (xFault k tag args c x) w1 () v →
      exec (.colourTransformEntryPerform k) s = .next (s.after v)) ∧
    (∀ v, e.buf ≠ [] → Answers (colourRun k p kind (ofBytes e.buf) dst tag args args [] 0) ⟨s, []⟩ () v →
      exec (.colourTransformEntryPerform k) s = .next (s.after v))) ∧
  (∀ a wd args tag, PipeWork .packEntryPerform (.pack a wd args tag) (fun s k g e => packRun k a wd tag args e)) ∧
  (∀ a wd sx dst args tag, PipeWork .packEntryPerform (.unpack a wd sx dst args tag) (fun s k g e => unpackRun k a wd sx dst tag args)) ∧
  (∀ a wd chain dst args tag, PipeWork .xrawEntryPerform (.xraw a wd chain dst args tag)
    (fun s k g e => rawRun k g a wd chain dst tag args)) ∧
  (∀ (w : Work) k g a wd dst tag args v, g.poison = true → Answers (rawEnd k dst tag args [] g.p0 g.p1 true 0xA1) w () v →
    Answers (rawRun k g a wd true dst tag args) w () v) ∧
  (∀ s k g e t r first count w1 v, PipePerforms s k g e t → e.started = true → e.op = .xfclr r first count →
    (count ≤ e.pos → Answers (xDone k) ⟨s, []⟩ () v → exec (.xfclrEntryPerform k) s = .next (s.after v)) ∧
    (e.pos < count →
      let a := sfModes r + first + e.pos
      let last := sfModes r + first + count
      let n := min (last - a) (32 - a % 32)
      let run := clearModes k (s.portAt k g e) last n a
      (Answers run ⟨s, []⟩ none w1 →
        (e.pos + n < count → exec (.xfclrEntryPerform k) s = .next (s.after w1)) ∧
        (count ≤ e.pos + n → Answers (xDone k) w1 () v → exec (.xfclrEntryPerform k) s = .next (s.after v))) ∧
      (∀ c x, Answers run ⟨s, []⟩ (some (c, x)) w1 → Answers (haltHead k 7 c x) w1 () v →
        exec (.xfclrEntryPerform k) s = .next (s.after v)))) ∧
  (∀ s k g e t r tile src mask w1 w2 w3 v, PipePerforms s k g e t → e.started = true → e.op = .xdelta r tile src mask →
    let p := s.portAt k g e
    let mode := havePieces k (memPiece p true) 0 [(sfModes r + tile, 1)]
    let data := havePieces k (memPiece p false) 1 (tilePieces r tile (Tab.getD e.reads 0 0 / 4))
    let from_ := havePieces k (spadPiece (k / 65536)) 16 (sectorPieces 10 src 256)
    (e.pos ≠ 0 → Answers (tileNext k p r tile e) ⟨s, []⟩ () v → exec (.xdeltaEntryPerform k) s = .next (s.after v)) ∧
    (e.pos = 0 → Answers mode ⟨s, []⟩ false w1 → exec (.xdeltaEntryPerform k) s = .next (s.after w1)) ∧
    (e.pos = 0 → Answers mode ⟨s, []⟩ true w1 → Answers data w1 false w2 → exec (.xdeltaEntryPerform k) s = .next (s.after w2)) ∧
    (e.pos = 0 → Answers mode ⟨s, []⟩ true w1 → Answers data w1 true w2 → Answers from_ w2 false w3 →
      exec (.xdeltaEntryPerform k) s = .next (s.after w3)) ∧
    (e.pos = 0 → Answers mode ⟨s, []⟩ true w1 → Answers data w1 true w2 → Answers from_ w2 true w3 →
      Answers (deltaMerge k p r tile src mask e) w3 () v → exec (.xdeltaEntryPerform k) s = .next (s.after v))) ∧
  (∀ s k g e t r tile w1 w2 w3 v, PipePerforms s k g e t → e.started = true → e.op = .xdcmp r tile →
    let p := s.portAt k g e
    let m := Tab.getD e.reads 0 0
    let mode := havePieces k (memPiece p true) 0 [(sfModes r + tile, 1)]
    (e.pos ≠ 0 → Answers (tileNext k p r tile e) ⟨s, []⟩ () v → exec (.xdcmpEntryPerform k) s = .next (s.after v)) ∧
    (e.pos = 0 → Answers mode ⟨s, []⟩ false w1 → exec (.xdcmpEntryPerform k) s = .next (s.after w1)) ∧
    (e.pos = 0 → Answers mode ⟨s, []⟩ true w1 →
      Answers (joinStatus k 7 (worseSts (pieceSt m) (if (tileLen (m / 4)).isNone then 0xA2 else 0))) w1 () w2 →
      ((tileLen (m / 4) = none ∨ m / 4 = 1) → Answers (tileDone k) w2 () v → exec (.xdcmpEntryPerform k) s = .next (s.after v)) ∧
      (tileLen (m / 4) ≠ none → m / 4 ≠ 1 →
        let data := havePieces k (memPiece p false) 1 (tilePieces r tile (m / 4))
        (Answers data w2 false w3 → exec (.xdcmpEntryPerform k) s = .next (s.after w3)) ∧
        (Answers data w2 true w3 → Answers (dcmpExpand k p r tile (m / 4) e) w3 () v →
          exec (.xdcmpEntryPerform k) s = .next (s.after v)))))

/-- R450 to R462, R497, R500 to R510: entries of queues K and B perform. -/
def Sys2Proof.Machine.CarillonAndBallastEntriesPerform : Prop :=
  (∀ s k g e t ga n w1 word v, ArrayPerforms s k g e t → e.op = .ktwin n → Tab.find s.gangs (k / 65536) = some ga →
    Answers (modCarillon ga (fun c => { c with twin := n })) ⟨s, []⟩ () w1 → Answers (complete k 8 0 0) w1 word v →
    exec (.ktwinEntryPerform k) s = .next (s.after v)) ∧
  (∀ s k g e t src slot bar n, ArrayPerforms s k g e t → e.op = .kpeal src slot bar →
    (∀ v, 128 ≤ e.pos → Answers (pealEnd k slot e) ⟨s, []⟩ () v → exec (.kpealEntryPerform ⟨k, n⟩) s = .next (s.after v)) ∧
    (∀ cells st w1 g1 e1 t1, e.pos < 128 →
      let m := min n (128 - e.pos)
      Answers (pealSectors (k / 65536) m (src + 32 * e.pos)) ⟨s, []⟩ (.ok (cells, st)) w1 →
      Tab.find w1.cur.groups k = some g1 → (g1.queue 8).ents = e1 :: t1 →
      exec (.kpealEntryPerform ⟨k, n⟩) s = .next (s.after ⟨w1.cur.setGroup k (g1.headSet 8 { e1 with
        started := true
        pos := e1.pos + m
        status := BitVec.ofNat 32 (worseSts e1.status.toNat st)
        buf := e1.buf ++ cells.flatMap (toBytes 2) } t1), w1.stores⟩)) ∧
    (∀ c w1 v, e.pos < 128 → Answers (pealSectors (k / 65536) (min n (128 - e.pos)) (src + 32 * e.pos)) ⟨s, []⟩ (.error c) w1 →
      Answers (haltHead k 8 c src) w1 () v → exec (.kpealEntryPerform ⟨k, n⟩) s = .next (s.after v))) ∧
  (∀ (w : Work) k slot e ga w1 word v, Tab.find w.cur.gangs (k / 65536) = some ga →
    let cells := (upFrom 0 2048).map (fun i => ofBytes ((e.buf.drop (2 * i)).take 2))
    let ok := cells.all cellOk
    Answers (modCarillon ga (fun c => { c with
      peals := Tab.set c.peals slot (if ok then cells else killPeal)
      loaded := c.loaded ||| 2 ^ slot })) w () w1 →
    let st := worseSts e.status.toNat (if ok then 0 else 0x41)
    Answers (complete k 8 (st / 16) (st % 16)) ⟨w1.cur.rewrite (w1.cur.pealWords ga slot), w1.stores⟩ word v →
    Answers (pealEnd k slot e) w () v) ∧
  (∀ s k g e t lv cv word v, ArrayPerforms s k g e t → e.op = .krst lv cv →
    let kv := { g.kvec with
      lv := if lv then [] else g.kvec.lv
      cv := if cv then [] else g.kvec.cv }
    let s1 := (s.setGroup k { g with kvec := kv }).rewrite (fun w => (lv && lvWords k 0 64 w) || (cv && cvWords k 0 w))
    Answers (complete k 8 0 0) ⟨s1, []⟩ word v → exec (.krstEntryPerform k) s = .next (s.after v)) ∧
  (∀ s k g e t peal half go vals bar st w1 word v, ArrayPerforms s k g e t → e.op = .klaunch peal half go vals bar →
    let s1 := (s.setGroup k { g with kvec := { g.kvec with lv := driveHalf g.kvec.lv half vals } }).rewrite (lvWords k (32 * b2n half) 32)
    Answers (if go then ring k peal else pure 0) ⟨s1, []⟩ st w1 → Answers (complete k 8 (st / 16) (st % 16)) w1 word v →
    exec (.klaunchEntryPerform k) s = .next (s.after v)) ∧
  (∀ (w : Work) k peal g ga, Tab.find w.cur.groups k = some g → Tab.find w.cur.gangs (k / 65536) = some ga →
    w.cur.sramBad = [] → w.cur.sramCorr = [] →
    let c := w.cur.carillon ga
    let cells := (upFrom 0 2048).map (fun i => nth (Tab.getD c.peals peal killPeal) i 0xA000)
    let kv := { g.kvec with
      lv := []
      cv := railTab (evaluate c.twin cells (fun i => Tab.getD g.kvec.lv i 0xFFFF)) }
    Answers (ring k peal) w 0 ⟨w.cur.setGroup k { g with kvec := kv }, w.stores⟩) ∧
  (∀ s k g e t ga half dst threads tag x w1 w2 word v, ArrayPerforms s k g e t → e.op = .kcapt half dst threads tag →
    Tab.find s.gangs (k / 65536) = some ga → Answers (readWords ga.die (cvRead k half threads)) ⟨s, []⟩ x w1 →
    let read := fun (t : Nat) =>
      let i := 32 * b2n half + t
      if s.sramBad.contains (.cv k i) then 0xFFFF else Tab.getD g.kvec.cv i 0xFFFF
    Answers (resultReady k tag (threads.map (fun t => (t, dst, BitVec.ofNat 32 (read t))))) w1 () w2 →
    Answers (complete k 8 x (if x = 3 then 2 else 0)) w2 word v → exec (.kcaptEntryPerform k) s = .next (s.after v)) ∧
  (∀ s k g e t adds w1, HeadPerforms s k 9 g e t → e.op = .deposit adds → e.wrote = e.pos →
    (Answers (depositRun k (s.dieOf k) (adds.drop e.pos)) ⟨s, []⟩ false w1 →
      exec (.ballastDepositPerform k) s = .next (s.after w1)) ∧
    (∀ g1 e1 t1 word v, Answers (depositRun k (s.dieOf k) (adds.drop e.pos)) ⟨s, []⟩ true w1 → Tab.find w1.cur.groups k = some g1 →
      (g1.queue 9).ents = e1 :: t1 → Answers (complete k 9 (e1.status.toNat / 16) (e1.status.toNat % 16)) w1 word v →
      exec (.ballastDepositPerform k) s = .next (s.after v))) ∧
  (∀ s k g e t x w1 word v, HeadPerforms s k 9 g e t → e.op = .qretw x →
    Answers (returnWeight (s.dieOf k) x.toNat) ⟨s, []⟩ () w1 → Answers (complete k 9 0 0) w1 word v →
    exec (.qretEntryPerform k) s = .next (s.after v)) ∧
  (∀ s k g e t pa w0 st old w1 w2 word v, HeadPerforms s k 9 g e t → e.op = .qretm pa →
    let die := s.dieOf k
    let home := homeOf (s.wordAt pa).target
    Answers (if home ≠ die ∧ home ≠ 4 then together die home else pure ()) ⟨s, []⟩ () w0 →
    let ok := fun (old : Nat) => match s.root (rootOf old) with
      | none => false
      | some r => r.live && r.launch == s.launchOf k && r.gen % 64 == tagOf old
    Answers (wordStep die pa (fun old => if old = 0 then (0, 0) else if ok old then (0, 0) else (old, 0x42))) w0 (st, old) w1 →
    Answers (if st ≠ 0x42 ∧ st ≠ 0x33 then returnWeight home old else pure ()) w1 () w2 →
    Answers (complete k 9 (st / 16) (st % 16)) w2 word v → exec (.qretEntryPerform k) s = .next (s.after v))

/-- The entries of queues Y, H, X, K and B perform.
When an entry performs is the model's agenda (log 10). -/
def Obligations.LaneEngineEntriesPerform : Prop :=
  LanternEntriesPerform ∧ SamplerEntriesPerform ∧ TransformEntriesPerform ∧ CarillonAndBallastEntriesPerform

/-! ## Messages of the links and of the host -/

namespace Sys2Proof.Machine

/-- The first message on the link from src to dst is `m`; `rest` is what the links hold without it (R513). -/
def Arrives (s : State) (src dst : Nat) (m : Msg) (rest : List Msg) : Prop :=
  s.linkUp src dst = true ∧ takeFirst (fun x => x.src == src && x.dst == dst) s.msgs = some (m, rest)

/-- As `Arrives`, when the receiver's clock covers the message's (R253). -/
def Comes (s : State) (src dst : Nat) (m : Msg) (rest : List Msg) : Prop :=
  Arrives s src dst m rest ∧ covers (s.clockOf dst) m.clock = true

/-- The machine with other messages on its links. -/
def State.onLinks (s : State) (ms : List Msg) : State := { s with msgs := ms }

/-- The machine with one more message on its links, the last to have been sent. -/
def State.posts (s : State) (m : Msg) : State := s.onLinks (s.msgs ++ [m])

/-- R496, R497, R500, R507: what the Ballast does with a message that comes. -/
def BallastMessagesAct : Prop :=
  ∀ s src dst m rest, Comes s src dst m rest →
    let s1 := s.onLinks rest
    (∀ root tag amt d r v, m.body = .ret root tag amt → Tab.find s.dies (rootDie root) = some d →
      Tab.find d.roots (root / 4) = some r →
      let s2 := s1.setDie (rootDie root) { d with roots := Tab.set d.roots (root / 4) { r with returned := r.returned + amt } }
      ((r.live = false ∨ r.gen % 64 ≠ tag) → exec (.returnMsg src dst) s = .next s1) ∧
      (r.live = true → r.gen % 64 = tag → r.returned + amt ≠ r.issued → exec (.returnMsg src dst) s = .next s2) ∧
      (r.live = true → r.gen % 64 = tag → Answers (settleRoot root) ⟨s2, []⟩ () v →
        exec (.returnMsg src dst) s = .next (s.after v))) ∧
    (∀ root tag launch who d r, m.body = .borrow root tag launch who → Tab.find s.dies (rootDie root) = some d →
      Tab.find d.roots (root / 4) = some r →
      let ok := r.live = true ∧ r.gen % 64 = tag ∧ r.launch = launch ∧ r.issued + 2 ^ 24 ≤ 2 ^ 63
      let s2 := s1.setDie (rootDie root) { d with roots := Tab.set d.roots (root / 4) { r with issued := r.issued + 2 ^ 24 } }
      (ok → exec (.borrowMsg src dst) s = .next (s2.posts ⟨dst, src, (s2.die dst).vclock, .grant root tag who⟩)) ∧
      (¬ok → exec (.borrowMsg src dst) s = .next (s1.posts ⟨dst, src, (s1.die dst).vclock, .refuse who⟩))) ∧
    (∀ root tag k n g x, m.body = .grant root tag (2 * k) → Tab.find s.groups k = some g → g.st.wait = .borrow none n →
      g.st.twait = .none → joinWeight g.wgt.toNat (weightWord root tag (2 ^ 24)) = some x →
      exec (.grantMsg src dst) s = .next (s1.setGroup k { g with
        wgt := BitVec.ofNat 64 x
        st := { g.st with wait := .borrow (some true) n } })) ∧
    (∀ k n g, m.body = .refuse (2 * k) → Tab.find s.groups k = some g → g.st.wait = .borrow none n → g.st.twait = .none →
      exec (.refuseMsg src dst) s = .next (s1.setGroup k { g with st := { g.st with wait := .borrow (some false) n } })) ∧
    (∀ k g, m.body = .refuse (2 * k + 1) → Tab.find s.groups k = some g →
      exec (.refuseMsg src dst) s = .next (s1.setGroup k { g with run := { g.run with
        frags := answerFrags false g.run.frags } })) ∧
    (∀ k pa w st w1, m.body = .deposit k pa w → Answers (Sys2Proof.Machine.deposit pa w.toNat) ⟨s1, []⟩ st w1 →
      (Tab.find w1.cur.groups k = none → exec (.depositMsg src dst) s = .next (s.after w1)) ∧
      (∀ g e t adds, Tab.find w1.cur.groups k = some g → (g.queue 9).ents = e :: t → e.op = .deposit adds →
        e.wrote = e.pos + 1 →
        let e1 := { e with
          pos := e.pos + 1
          wrote := e.pos + 1
          started := true
          status := BitVec.ofNat 32 (worseSts e.status.toNat st) }
        exec (.depositMsg src dst) s = .next (s.after ⟨w1.cur.setGroup k (g.headSet 9 e1 t), w1.stores⟩))) ∧
    (∀ root gen issued, m.body = .wake root gen issued →
      exec (.wakeMsg src dst) s = .next (s1.wakeRoot dst root gen issued))

/-- R479 to R481: what the Tether agents do with a message that comes. -/
def TetherMessagesAct : Prop :=
  ∀ s src dst m rest n l, Comes s src dst m rest → Tab.find s.launches n = some l →
    let s1 := s.onLinks rest
    let clk := (s.die dst).vclock
    (m.body = .stealRequest n → (l.tether dst).deque = [] →
      exec (.stealRequest src dst) s = .next (s1.posts ⟨dst, src, clk, .stealReply n⟩)) ∧
    (∀ e t, m.body = .stealRequest n → (l.tether dst).deque = e :: t →
      exec (.stealRequest src dst) s = .next ((s1.setLaunch n (l.setTether dst (fun x => { x with deque := t }))).posts
        ⟨dst, src, clk, .transfer n e⟩)) ∧
    (m.body = .stealReply n → exec (.stealReply src dst) s = .next (s1.setLaunch n (l.setTether dst (fun x => { x with
      stealing := false
      retryAt := ((s.die dst).clk + 256) % 2 ^ 64 })))) ∧
    (∀ e i, m.body = .transfer n e → l.state = 1 → (l.tether dst).deque.length < 4096 →
      Tab.find s.insts (instKey n e.inst) = some i →
      exec (.transferMsg src dst) s = .next ((s1.setLaunch n (l.setTether dst (fun x => { x with
        deque := x.deque ++ [e]
        stealing := false }))).setInst (instKey n e.inst) { i with die := dst })) ∧
    (∀ depth bx bk, m.body = .depth n depth bx bk →
      exec (.depthReport src dst) s = .next (s1.setLaunch n (l.setTether dst (fun x => { x with
        heard := Tab.set x.heard src (depth, bx, bk) }))))

/-- R251 to R253, R514, R516, R520: writes, notices, reads, replies and counts of the memory system, and what the host
hears. -/
def MemoryMessagesAct : Prop :=
  (∀ s src dst m rest block, Comes s src dst m rest → m.body = .read block →
    let clk := (s.die dst).vclock
    exec (.readMsg src dst) s = .next (((s.onLinks rest).readBlock dst block).posts
      ⟨dst, src, clk, .rdata block (Mem.read s.mem (256 * block) 256) clk (s.blockErrs block)⟩)) ∧
  (∀ s src dst m rest block data clk errs d, Arrives s src dst m rest → m.body = .rdata block data clk errs →
    Tab.find s.dies dst = some d →
    (covers d.vclock clk = true → exec (.rdataMsg src dst) s = .next ((s.onLinks rest).setDie dst { d with
      copies := d.copies.filter (fun x => !(x.block == block)) ++ [⟨block, data, d.clk, errs⟩]
      rdata := d.rdata.filter (fun x => !(x.1 == block)) })) ∧
    (covers d.vclock clk = false → exec (.rdataMsg src dst) s = .next ((s.onLinks rest).setDie dst { d with
      rdata := d.rdata ++ [(block, data, clk, errs)] }))) ∧
  (∀ s src dst m rest n, Arrives s src dst m rest → m.body = .ack n →
    (dst = 4 → exec (.ackMsg src dst) s = .next { s.onLinks rest with
      hostAcked := Tab.set s.hostAcked src (max n (Tab.getD s.hostAcked src 0)) }) ∧
    (∀ d, dst ≠ 4 → Tab.find s.dies dst = some d → exec (.ackMsg src dst) s = .next ((s.onLinks rest).setDie dst { d with
      acked := Tab.set d.acked src (max n (Tab.getD d.acked src 0)) }))) ∧
  (∀ s src dst m rest pa n v normal addr bytes, Arrives s src dst m rest → m.body = .write pa n v normal →
    (src ≠ 4 ∨ bytes = []) →
    exec (.writeMsg src dst addr bytes) s = .next { s.onLinks rest with inbox := s.inbox ++ [m] }) ∧
  (∀ s src dst m rest pa n, Arrives s src dst m rest → m.body = .notice pa n →
    exec (.noticeMsg src dst) s = .next { s.onLinks rest with inbox := s.inbox ++ [m] }) ∧
  (∀ s addr bytes, bytes ≠ [] → s.target addr = some .host → s.target (addr + bytes.length - 1) = some .host →
    exec (.writeMsg 4 4 addr bytes) s = .next (s.store addr bytes.length (ofBytes bytes))) ∧
  (∀ s dst addr bytes n w, bytes ≠ [] → dst ≠ 4 → s.hostMay dst addr bytes.length = true →
    Answers (sendShared 4 (some dst) (.write addr bytes.length (ofBytes bytes) true) addr bytes.length) ⟨s, []⟩ n w →
    exec (.writeMsg 4 dst addr bytes) s = .next (s.after w)) ∧
  (∀ s src dst m rest w v, takeFirst (fun x => x.src == src && x.dst == dst) s.inbox = some (m, rest) →
    Answers (applyShared m) ⟨{ s with inbox := rest }, []⟩ () w → Answers (takeReplies dst (w.cur.die dst).rdata) w () v →
    exec (.messageApply src dst) s = .next (s.after v)) ∧
  (∀ s die m rest tag v, Comes s die 4 m rest → m.body = .hostResponse tag v →
    exec (.hostRegisterResponse die) s = .next { s.onLinks rest with hostReads := s.hostReads ++ [(tag, v)] }) ∧
  (∀ s die m rest code arg, Comes s die 4 m rest → m.body = .event code arg →
    exec (.eventFlit die) s = .next { s.onLinks rest with hostEvents := s.hostEvents ++ [(die, code, arg)] })

end Sys2Proof.Machine

/-- R251 to R253, R479 to R481, R496, R497, R500, R507, R513, R516, R520: the first message of a link, once the receiver's
clock covers its own where that is asked, leaves the link and has its effect at the receiver, and nothing else.
When a message arrives is the model's agenda (log 10); what an acknowledgement counts is log 9's. -/
def Obligations.MessagesActOnArrival : Prop := BallastMessagesAct ∧ TetherMessagesAct ∧ MemoryMessagesAct

/-! ## Energy, power, temperature, links, and the agents that act by themselves -/

namespace Sys2Proof.Machine

/-- The machine after an EVENT of a code for which the manual gives no argument (R520). -/
def State.notified (s : State) (die code : Nat) : State :=
  s.tickOn.posts ⟨die, 4, (s.die die).vclock, .event code (Config.eventArg s.tick).toNat⟩

/-- R474, R475, R477, R523: energy periods, the power window, the temperature limits and cluster power. -/
def PowerEventsAct : Prop :=
  (∀ s die d, Tab.find s.dies die = some d → d.energy.length ≤ (d.clk + 2 ^ 64 - d.energy.began) % 2 ^ 64 →
    exec (.periodBoundary die) s = .next (s.setDie die { d with energy := { d.energy with
      bal := d.energy.budget + min 0 d.energy.bal
      budgetNow := d.energy.budget
      began := (d.energy.began + d.energy.length) % 2 ^ 64
      length := d.energy.period } })) ∧
  (∀ s die d mw, Tab.find s.dies die = some d →
    let past := (d.clk + 2 ^ 64 - d.energy.winBegan) % 2 ^ 64
    let nj := (d.energy.used + 2 ^ 64 - d.energy.winUsed) % 2 ^ 64
    1500000 ≤ past → mw < 2 ^ 32 → (mw = nj * 1500 / past ∨ mw = (nj * 1500 + past - 1) / past) →
    exec (.powerWindow die mw) s = .next (s.setDie die { d with
      pwr := mw
      powerHold := decide (650000 < mw)
      energy := { d.energy with
        winBegan := d.clk
        winUsed := d.energy.used } })) ∧
  (∀ s die d sensor (temp : Int), Tab.find s.dies die = some d → sensor < 17 → 1760 ≤ temp → temp < 32768 → d.thermalHold = false →
    exec (.thermalWarning die sensor temp) s = .next ((s.setDie die { d with
      temps := Tab.set d.temps sensor temp
      thermalHold := true }).notified die 4)) ∧
  (∀ s die d temps, Tab.find s.dies die = some d → temps.length = 17 → (∀ t ∈ temps, -32768 ≤ t ∧ t < 1680) →
    exec (.thermalRecovery die temps) s = .next (s.setDie die { d with
      temps := (upFrom 0 17).zip temps
      thermalHold := false })) ∧
  (∀ s die d sensor (temp : Int), Tab.find s.dies die = some d → sensor < 17 → 2000 ≤ temp → temp < 32768 →
    exec (.thermalFreeze die sensor temp) s = .next { s.setDie die { d with temps := Tab.set d.temps sensor temp } with
      frozen := true }) ∧
  (∀ s die d cl, Tab.find s.dies die = some d → cl < 16 →
    exec (.clusterPowerUp die cl) s = .next (s.setDie die { d with
      clusters := Tab.set d.clusters cl { Tab.getD d.clusters cl .off with powered := true } }))

/-- R288, R512, R513, R515: freeze and thaw of the package, training, loss and retry of links, dropped flits. -/
def LinkAndFreezeEventsAct : Prop :=
  (∀ s, exec .freeze s = .next { s with frozen := true } ∧ exec .freezeCommand s = .next { s with frozen := true } ∧
    exec .thaw s = .next { s with frozen := false } ∧ exec .thawCommand s = .next { s with frozen := false }) ∧
  (∀ s die d width rate, Tab.find s.dies die = some d → rate ∈ [32, 16, 12, 8, 4] → 0 < width → width ≤ 16 →
    exec (.linkTraining die 0 width rate) s = .next (s.setDie die { d with
      links := Tab.set d.links 0 { d.link 0 with
        state := 2
        width := width
        rate := rate
        downAt := none } })) ∧
  (∀ s die k d d2 width rate, Tab.find s.dies die = some d → 0 < k → k < 4 → Tab.find s.dies (die ^^^ k) = some d2 →
    rate ∈ [32, 16, 12, 8, 4] → 0 < width → width ≤ 64 →
    let up (l : Link) : Link := { l with state := 2, width := width, rate := rate, downAt := none }
    exec (.linkTraining die k width rate) s = .next ((s.setDie die { d with links := Tab.set d.links k (up (d.link k)) }).setDie
      (die ^^^ k) { d2 with links := Tab.set d2.links k (up (d2.link k)) })) ∧
  (∀ s die d, Tab.find s.dies die = some d → (d.link 0).state = 2 →
    exec (.linkDown die 0) s = .next (s.setDie die { d with
      links := Tab.set d.links 0 { d.link 0 with
        state := 0
        downAt := some d.clk } })) ∧
  (∀ s die k d since, Tab.find s.dies die = some d → (d.link k).downAt = some since →
    15000000 ≤ (d.clk + 2 ^ 64 - since) % 2 ^ 64 →
    exec (.linkLost die k) s = .next { s.tickOn with
      hostEvents := s.hostEvents ++ [(die, 6, (Config.eventArg s.tick).toNat)]
      frozen := true }) ∧
  (∀ s die d weight, Tab.find s.dies die = some d →
    exec (.droppedFlit die weight) s = .next (s.setDie die { d with lerr := (d.lerr + 1) % 2 ^ 64 })) ∧
  (∀ s die k n d, Tab.find s.dies die = some d → s.hasLink die k = true →
    exec (.flitRetry die k n) s = .next (s.setDie die { d with
      links := Tab.set d.links k { d.link k with retry := ((d.link k).retry + n) % 2 ^ 64 } }))

/-- R479, R480, R497: accumulators forward, idle dies steal and agents report. -/
def AgentEventsAct : Prop :=
  (∀ s die k d a, Tab.find s.dies die = some d → d.accums[k]? = some a → 256 ≤ (d.clk + 2 ^ 64 - a.since) % 2 ^ 64 →
    exec (.accumulatorForward die k) s = .next ((s.setDie die { d with accums := d.accums.filter (fun x => !(x == a)) }).posts
      ⟨die, rootDie a.root, d.vclock, .ret a.root a.tag a.sum⟩)) ∧
  (∀ s die n l v, Tab.find s.launches n = some l → l.state = 1 → (Tab.find l.dies die).isSome = true → s.tetherIdle l n die = true →
    (l.tether die).stealing = false → reached64 (s.die die).clk (l.tether die).retryAt = true → l.victim die = some v →
    let t := (s.setLaunch n (l.setTether die (fun t => { t with stealing := true }))).posts
      ⟨die, v, (s.die die).vclock, .stealRequest n⟩
    exec (.tetherSteal die n) s = .next t ∧ exec (.stealRetry die n) s = .next t) ∧
  (∀ s die n l other, Tab.find s.launches n = some l → l.state = 1 → l.out = false → (Tab.find l.dies die).isSome = true →
    l.dieSet.filter (fun d => !(d == die)) = [other] →
    let t := l.tether die
    let ran := ((s.die die).clk + 2 ^ 64 - t.start) % 2 ^ 64
    let cold := (t.deque.head?.map (fun e => (e.bx, e.bk))).getD (0, 0)
    1024 * t.reports ≤ ran →
    exec (.depthReportSend die n) s = .next ((s.setLaunch n (l.setTether die (fun t => { t with
      reports := ran / 1024 + 1 }))).posts ⟨die, other, (s.die die).vclock, .depth n t.deque.length cold.1 cold.2⟩))

end Sys2Proof.Machine

/-- R288, R474, R475, R477, R479, R480, R497, R512, R513, R515, R523: what happens without an instruction: periods and
power windows, temperatures, freeze and thaw, links, accumulators and the Tether agents.
What these events measure comes with them (logs 2 and 10). -/
def Obligations.UnitsActByThemselves : Prop := PowerEventsAct ∧ LinkAndFreezeEventsAct ∧ AgentEventsAct

/-! ## What the host does -/

namespace Sys2Proof.Machine

/-- The host's access reaches a die: its link is up and the die has applied what the host's clock covers (R514). -/
def HostReaches (s : State) (die : Nat) : Prop :=
  s.hasDie die = true ∧ s.linkUp 4 die = true ∧ covers (s.die die).vclock s.hostClock = true

/-- The machine after a write of n bytes of a die's registers. -/
def State.wroteReg (s : State) (die off n v : Nat) : State := (s.regWrite die off n (v % 2 ^ (8 * n))).setMem s.mem

/-- A die with other host registers. -/
def Die.hostSet (d : Die) (h : HostRegs) : Die := { d with host := h }

/-- The machine when a die's command completes: it is no longer busy, and the host is told (R529). -/
def State.commandEnds (s : State) (die : Nat) (d : Die) : State :=
  (s.setDie die (d.hostSet { d.host with hcmd := none })).notified die 3

/-- The machine when a die's command names nothing that it can act on (R529). -/
def State.commandFails (s : State) (die : Nat) (d : Die) : State :=
  s.commandEnds die (d.hostSet { d.host with cmdbad := true })

/-- The machine when a launch's streams stop for a switch (R282). -/
def State.switching (s : State) (n : Nat) (l : Launch) : State :=
  let t := s.setLaunch n { l with stopping := true }
  (t.setStopped (t.gangsIn n) true).setMem s.mem

/-- R223, R516, R517, R522, R528, R529: the host's reads and writes of registers, aligned or not, and what the writes that
have behaviour of their own do. -/
def HostRegisterAccessesComplete : Prop :=
  (∀ s die off size val tag, HostReaches s die → size ∈ [1, 2, 4, 8] → off < 2 ^ 43 →
    let clk := (s.die die).vclock
    exec (.hostRegisterRequest die false off size val tag) s = .next (s.posts ⟨die, 4, clk,
      .hostResponse tag (if off % size = 0 then s.regRead die off size else 0)⟩) ∧
    exec (.hostRegisterRequest die true off size val tag) s = .next
      ((if off % size = 0 then s.wroteReg die off size val else s).posts ⟨die, 4, clk, .hostResponse tag 0⟩)) ∧
  (∀ s die off size val, HostReaches s die → size ∈ [1, 2, 4, 8] → off < 2 ^ 43 →
    off / 8 * 8 ∉ [0x10, 0x368, 0x1008, 0x8010, 0x8040] →
    exec (.registerWrite die off size val) s = .next (if off % size = 0 then s.wroteReg die off size val else s)) ∧
  (∀ s die val d, HostReaches s die → Tab.find s.dies die = some d → d.boot.opened = true → d.host.lqtail < 2 ^ 32 →
    let ahead := (val % 2 ^ 64 + 2 ^ 32 - d.host.lqhead) % 2 ^ 32
    exec (.lqtailWrite die val) s = .next (s.setDie die (d.hostSet (if 1 ≤ ahead ∧ ahead ≤ 2 ^ d.host.lqctl then
      { d.host with lqtail := val % 2 ^ 32 } else { d.host with tailbad := true })))) ∧
  (∀ s die val d, HostReaches s die → Tab.find s.dies die = some d → d.boot.opened = true →
    exec (.mcclr die val) s = .next (s.setDie die { d with
      mc := if val % 2 = 1 then { McRegs.reset with wcwait := d.mc.wcwait } else d.mc })) ∧
  (∀ s die val d, HostReaches s die → Tab.find s.dies die = some d → d.boot.opened = true → d.host.hcmd = none →
    (val % 256 = 0 ∨ 5 < val % 256) →
    exec (.hcmdNotAccepted die val) s = .next (s.setDie die (d.hostSet { d.host with cmdbad := true }))) ∧
  (∀ s die d, HostReaches s die → Tab.find s.dies die = some d → d.boot.attBusy = false →
    exec (.attestationQuote die) s = .next (s.setDie die { d with boot := { d.boot with
      attBusy := true
      attNonce := d.boot.nonce } }))

/-- R521, R522: the ROM reads, checks and measures the image, a quote is written, and reset leaves every unit as reset and
the package's memory zero, with the host's own memory as it was. -/
def BootAndResetComplete : Prop :=
  (∀ s die d w1 d1, Tab.find s.dies die = some d → d.boot.bootReq = true →
    Answers (bootRead die d.boot.bootaddr 1024) ⟨s, []⟩ none w1 → Tab.find w1.cur.dies die = some d1 →
    exec (.boot die) s = .next (s.after ⟨w1.cur.setDie die { d1 with boot := { d.boot with
      bootReq := false
      bootsts := 6 } }, w1.stores⟩)) ∧
  (∀ s die d h w1 b w2 d2, Tab.find s.dies die = some d → d.boot.bootReq = true →
    Answers (bootRead die d.boot.bootaddr 1024) ⟨s, []⟩ (some h) w1 →
    Answers (bootRead die (d.boot.bootaddr + 1024) (ofBytes ((h.drop 8).take 8))) w1 (some b) w2 →
    Tab.find w2.cur.dies die = some d2 →
    let code := (bootCheck die h b).1
    let good := { d.boot with
      bootReq := false
      bootsts := 1
      fwver := ofBytes ((h.drop 4).take 4)
      mr := ofBytes (sha256 (toBytes 32 d.boot.mr ++ (bootCheck die h b).2)) }
    exec (.boot die) s = .next (s.after ⟨w2.cur.setDie die { d2 with
      boot := if code = 1 then good else { d.boot with bootReq := false, bootsts := code } }, w2.stores⟩)) ∧
  (∀ s die d, Tab.find s.dies die = some d → d.boot.attBusy = true →
    exec (.quoteReady die) s = .next ((s.setDie die { d with boot := { d.boot with
      attBusy := false
      quote := Config.quote die (ofBytes (quoteDigest die d.boot)) s.tick % 2 ^ 3072 } }).tickOn.notified die 5)) ∧
  (∀ s form, ∃ t, exec (.resetAll form) s = .next t ∧ t.groups = [] ∧ t.ctxs = [] ∧ t.gangs = [] ∧ t.insts = [] ∧
    t.launches = [] ∧ t.slots = [] ∧ t.msgs = [] ∧ t.frozen = false ∧ t.form = (if form ≤ 2 then form else s.form) ∧
    (∀ d x, Tab.find t.dies d = some x → x = Die.reset) ∧
    (∀ k, Mem.get t.mem k = if 2 ^ 47 ≤ k ∧ k < 2 ^ 47 + 2 ^ 45 then Mem.get s.mem k else 0))

/-- R279, R282, R478, R517, R519, R525, R529: the host's launch records and commands. -/
def HostCommandsComplete : Prop :=
  (∀ s die d r w1, Tab.find s.dies die = some d → d.boot.bootsts = 1 → d.host.lqhead ≠ d.host.lqtail →
    let addr := d.host.lqbase + 128 * (d.host.lqhead % 2 ^ d.host.lqctl)
    Answers (physRead die addr 128) ⟨s, []⟩ r w1 →
    ∀ d1, Tab.find w1.cur.dies die = some d1 →
    let s1 := w1.cur.setDie die (d1.hostSet { d1.host with lqhead := (d1.host.lqhead + 1) % 2 ^ 32 })
    (∀ first t, bitsOf 4 (fld r 750 4) = first :: t → first ≠ die →
      exec (.launchRecord die) s = .next (s.after ⟨s1, w1.stores⟩)) ∧
    (∀ v, bitsOf 4 (fld r 750 4) = [] → Answers (writeState die addr 3 0xB0) ⟨s1, w1.stores⟩ () v →
      exec (.launchRecord die) s = .next (s.after v)) ∧
    (∀ t w2 v, bitsOf 4 (fld r 750 4) = die :: t → Answers (readLaunch die d.host.lqhead addr r) ⟨s1, w1.stores⟩ none w2 →
      Answers (writeState die addr 3 0xB0) w2 () v → exec (.launchRecord die) s = .next (s.after v)) ∧
    (∀ t l w2, bitsOf 4 (fld r 750 4) = die :: t → Answers (readLaunch die d.host.lqhead addr r) ⟨s1, w1.stores⟩ (some l) w2 →
      exec (.launchRecord die) s = .next (s.after ⟨{ w2.cur.setLaunch w2.cur.nextLaunch l with
        nextLaunch := w2.cur.nextLaunch + 1 }, w2.stores⟩))) ∧
  (∀ s die d arg, Tab.find s.dies die = some d →
    let named := s.named die (fld arg 0 32)
    (∀ n l, d.host.hcmd = some (4, arg) → named = some (n, l) →
      exec (.withdrawCmd die) s = .next ((s.setLaunch n { l with
        withdraw := if l.withdraw.contains die then l.withdraw else l.withdraw ++ [die] }).commandEnds die d)) ∧
    (d.host.hcmd = some (4, arg) → named = none → exec (.withdrawCmd die) s = .next (s.commandFails die d)) ∧
    (∀ n l, d.host.hcmd = some (3, arg) → named = some (n, l) → (l.state = 0 ∨ l.out = true) →
      exec (.switchCmd die) s = .next (s.commandEnds die d)) ∧
    (∀ n l, d.host.hcmd = some (3, arg) → named = some (n, l) → l.state ≠ 0 → l.out = false → l.stopping = false →
      Tab.find s.launches n = some l → exec (.switchCmd die) s = .next (s.switching n l)) ∧
    (d.host.hcmd = some (3, arg) → named = none → exec (.switchCmd die) s = .next (s.commandFails die d)) ∧
    (d.host.hcmd = some (2, arg) → named = none → exec (.abortCmd die) s = .next (s.commandFails die d)) ∧
    (∀ n l, d.host.hcmd = some (2, arg) → named = some (n, l) → l.stopping = false → l.out = false → l.state = 1 →
      Tab.find s.launches n = some l → exec (.abortCmd die) s = .next (s.switching n l)) ∧
    (∀ n l w1 w2 w3 v, d.host.hcmd = some (2, arg) → named = some (n, l) →
      (l.stopping = true ∨ l.out = true ∨ l.state ≠ 1) → (l.out = true ∨ s.saveReady (s.gangsIn n) = true) →
      Answers (forM s.insts (fun i => freeBlock n i.2)) ⟨s, []⟩ () w1 →
      Answers (endLaunch n 4) ⟨(w1.cur.discardLaunch n).setMem w1.cur.mem, w1.stores⟩ () w2 →
      Answers (forM (s.switchers l ++ s.resumers n) commandDone) w2 () w3 → Answers (commandDone die) w3 () v →
      exec (.abortCmd die) s = .next (s.after v)) ∧
    (∀ w v, d.host.hcmd = some (5, arg) →
      let s1 := s.setDie die { d with clusters := d.clusters.map (fun (c : Nat × Cluster) => (c.1, { c.2 with tlb := [] })) }
      Answers (observeAll (fun i => i.die == die && i.phase == .pool) (fun w => w.2.2) s.insts) ⟨s1, []⟩ () w →
      Answers (commandDone die) w () v → exec (.tlbinvCmd die) s = .next (s.after v))) ∧
  (∀ s die d arg, Tab.find s.dies die = some d → d.host.hcmd = some (1, arg) →
    (∀ i ∈ s.insts, i.2.die = die → ∀ p, i.2.park = some p → p.resuming = none) →
    let b := fld arg 0 40 * 256
    (s.parkedAt die b = none → exec (.resumeCmd die) s = .next (s.commandFails die d)) ∧
    (∀ key i p mode w1, s.parkedAt die b = some (key, i) → i.park = some p → Answers (physRead die (b + 20) 1) ⟨s, []⟩ mode w1 →
      (∀ v, mode ≠ 0xFF → p.permits mode = false → Answers (commandBad die) w1 () v →
        exec (.resumeCmd die) s = .next (s.after v)) ∧
      (∀ l w2 w3 v, mode ≠ 0xFF → p.permits mode = true → Tab.find w1.cur.launches i.launch = some l → l.state = 1 →
        l.out = false → l.stopping = false → Answers (blockState die b 1) w1 () w2 →
        Answers (modInst key (fun i => { i with park := some { p with resuming := some mode } })) w2 () w3 →
        Answers (finishResume key) w3 () v → exec (.resumeCmd die) s = .next (s.after v)) ∧
      (∀ w2 w3 w4 v, mode = 0xFF →
        let gangs := w1.cur.gangsOf key
        Answers (modInst key (fun i => { i with
          phase := .aborted
          park := none
          unstarted := [] })) w1 () w2 →
        Answers (dropFailed gangs w2.cur.slots) w2 () w3 →
        Answers (blockState die b 3) ⟨(w3.cur.abandon gangs).setMem w3.cur.mem, w3.stores⟩ () w4 →
        Answers (commandDone die) w4 () v → exec (.resumeCmd die) s = .next (s.after v))))

end Sys2Proof.Machine

/-- R521, R522, R529: the host's accesses to the register region act on it and are answered.
The host's requests come with the event (log 2). -/
def Obligations.HostRegistersReadAndWrite : Prop := HostRegisterAccessesComplete

/-- R223, R279, R525, R528: boot, quotes, commands of the whole machine and reset.
Fused values and signatures are opaque constants (log 11); reset of the outside is log 31's. -/
def Obligations.MachineBootsAndResets : Prop := BootAndResetComplete

/-- R279, R282, R478, R517, R519, R525, R529: launch records are read and the host's commands act.
When a command ends is logs 18, 20 and 21's reading. -/
def Obligations.HostCommandsAct : Prop := HostCommandsComplete

/-! ## Launches, gangs and partitions -/

namespace Sys2Proof.Machine

/-- R39, R50, R472 to R476, R478, R519: a launch starts, an instance is dispatched, a gang is admitted. -/
def LaunchAndDispatchComplete : Prop :=
  (∀ s n l w1 w2 v, Tab.find s.launches n = some l → l.state = 0 →
    let free := s.freeDies l
    let ds := free.take (fld l.record 739 3)
    fld l.record 736 3 ≤ free.length →
    let l1 := { l with
      state := 1
      dies := ds
      since := (s.die l.home).clk
      tethers := ds.map (fun d => (d.1, Tether.fresh (s.die d.1).clk)) }
    Answers (writeState l.home l.addr 1 0) ⟨(s.takeParts n ds).setLaunch n l1, []⟩ () w1 →
    Answers (startNodes n (ds.map (fun d => d.1)) l.nodes 0) w1 () w2 → Answers (endCheck n) w2 () v →
    exec (.launchStart n) s = .next (s.after v)) ∧
  (∀ s die key d i l x w1 d1 i1, Tab.find s.dies die = some d → Tab.find s.insts key = some i →
    Tab.find s.launches i.launch = some l → i.die = die → i.readyAt.isSome = true → i.admitted = false → i.park = none →
    l.state = 1 → l.out = false → l.stopping = false → d.powerHold = false → d.thermalHold = false →
    (∀ j ∈ s.insts, j.2.die = die → j.2.readyAt.isSome = true → j.2.admitted = false → s.placing j.2.launch = true →
      s.dispatchBefore j (key, i) = false) →
    Answers (readHome (s.schedPort i.launch die) (s.estimateAt i.launch i.node) 4) ⟨s, []⟩ (.ok x) w1 →
    s.admits i (nodePrio (s.instNode key)) x = true → Tab.find w1.cur.dies die = some d1 → Tab.find w1.cur.insts key = some i1 →
    exec (.dispatchInstance die key) s = .next (s.after ⟨(w1.cur.setDie die { d1 with
      energy := { d1.energy with bal := d1.energy.bal - x } }).setInst key { i1 with
        admitted := true
        debit := x }, w1.stores⟩)) ∧
  (∀ s die key d i l n ln, Tab.find s.dies die = some d → Tab.find s.insts key = some i →
    Tab.find s.launches i.launch = some l → i.die = die → i.readyAt.isSome = true → i.admitted = false → i.park = none →
    l.state = 1 → l.out = true → s.outranks l die = true → s.lowestRanked die = some n → s.placing n = true →
    Tab.find s.launches n = some ln →
    exec (.dispatchInstance die key) s = .next (s.switching n ln)) ∧
  (∀ s n l, Tab.find s.launches n = some l → s.placing n = true →
    let slice := fld l.record 768 32
    slice ≠ 0 → slice * 1500 ≤ ((s.die l.home).clk + 2 ^ 64 - l.since) % 2 ^ 64 →
    (∃ x ∈ s.launches, x.2.state = 1 ∧ x.2.out = true ∧ fld x.2.record 743 4 = fld l.record 743 4 ∧
      ∃ i ∈ s.insts, i.2.launch = x.1 ∧ i.2.readyAt.isSome = true ∧ (Tab.find l.dies i.2.die).isSome = true) →
    exec (.timeSliceExpiry n) s = .next (s.switching n l)) ∧
  (∀ s inst x y z cl v, Answers (reserve inst x y z (some cl)) ⟨s, []⟩ () v →
    exec (.gangAdmission inst x y z cl false) s = .next (s.after v)) ∧
  (∀ s inst x y z cl r w v, s.resvOf inst x y z = some r → r.cluster = cl → Answers (commitGang inst x y z) ⟨s, []⟩ () w →
    Answers (finishResume inst) w () v → exec (.gangAdmission inst x y z cl true) s = .next (s.after v)) ∧
  (∀ s inst x y z r v, s.resvOf inst x y z = some r → r.held = false → r.retryAt ≤ (s.die r.die).clk →
    Answers (reserve inst x y z none) ⟨s, []⟩ () v → exec (.admissionRetry inst x y z) s = .next (s.after v)) ∧
  (∀ (s : State) key x y z i l cl w (only : Option Nat), s.wantsPlace key x y z = true → Tab.find s.insts key = some i →
    Tab.find s.launches i.launch = some l → s.placeFor l (s.instNode key) i.die = some (cl, w) →
    (only = none ∨ only = some cl) → s.resvOf key x y z = none → s.resvs = [] →
    s.windowFits [] (s.instNode key) i.die cl w = true → s.heldBack key i = false →
    Answers (reserve key x y z only) ⟨s, []⟩ () ⟨{ s with resvs := [⟨key, x, y, z, i.die, cl, w, true, 0, 0⟩] }, []⟩)

/-- R22, R41, R55, R56, R68, R277, R282, R283, R468, R476, R478, R525, R526, R530: gangs and instances retire, step
boundaries are passed, partitions are switched out and in, and parked instances are written out. -/
def GangsAndInstancesEnd : Prop :=
  (∀ s n g w1 w2, Tab.find s.gangs n = some g → g.retired = false → g.placed = true → s.instGoes g.inst = true →
    s.gangDone n = true → s.contHeld n g = false → g.handoffs = [] → Answers (endHolds n) ⟨s, []⟩ () w1 →
    Answers (retireSlots (s.ownedBy n)) w1 () w2 →
    (w2.cur.ownedBy n ≠ [] → exec (.gangRetire n) s = .next (s.after w2)) ∧
    (∀ g2, w2.cur.ownedBy n = [] → Tab.find w2.cur.gangs n = some g2 →
      exec (.gangRetire n) s = .next (s.after ⟨(w2.cur.setGang n { g2 with
        placed := false
        retired := true }).gate g.die g.cluster, w2.stores⟩))) ∧
  (∀ s launch number i, let key := instKey launch number
    Tab.find s.insts key = some i → i.phase = .running → i.bucket = false → i.park = none → i.unstarted = [] →
    s.gangsOf key = [] → s.placing i.launch = true →
    (∀ w1 w2 w3 w4 v, Answers (publishRest (s.schedPort i.launch i.die) key) ⟨s, []⟩ none w1 →
      Answers (settleEnergy i (w1.cur.energyOf i)) w1 () w2 → Answers (returnWeight i.die i.wgt.toNat) w2 () w3 →
      Answers (modInst key (fun i => { i with
        phase := .retired
        wgt := 0 })) w3 () w4 → Answers (endCheck i.launch) w4 () v →
      exec (.instanceRetire launch number) s = .next (s.after v)) ∧
    (∀ c va w1, Answers (publishRest (s.schedPort i.launch i.die) key) ⟨s, []⟩ (some (c, va)) w1 →
      let cause := { Cause.zero with
        code := c
        addr := va }
      exec (.instanceRetire launch number) s = .next (s.after
        ⟨w1.cur.park key 8 cause (2 ^ 64 - 1) ⟨true, cause, 0, 0, [], 0⟩, w1.stores⟩))) ∧
  (∀ s n l w1 w2 l2, s.placing n = true → Tab.find s.launches n = some l →
    (∀ g ∈ s.groupsIn n, g.2.exited = true ∨ g.2.atStep = true) → (∃ g ∈ s.groupsIn n, g.2.atStep = true) →
    (Answers (withdrawAll n l.dieSet.reverse) ⟨s, []⟩ false w1 → exec (.stepBoundary n) s = .next (s.after w1)) ∧
    (Answers (withdrawAll n l.dieSet.reverse) ⟨s, []⟩ true w1 → Answers (addDies n 4) w1 () w2 →
      Tab.find w2.cur.launches n = some l2 →
      exec (.stepBoundary n) s = .next (s.after ⟨w2.cur.releaseSteps n (maskOf l2.dieSet)
        ((s.groupsIn n).map (fun g => (g.1, s.dieOf g.1))), w2.stores⟩))) ∧
  (∀ s n l v, Tab.find s.launches n = some l → l.state = 1 → l.stopping = true → l.out = false →
    let gangs := s.gangsIn n
    s.saveReady gangs = true →
    let s1 := (s.settleAll gangs).maskAll l gangs
    let s2 := s1.setLaunch n { l with
      out := true
      stopping := false }
    let away (r : Resv) : Resv := { r with retryAt := r.retryAt - (s2.die r.die).clk }
    let s3 := { s2 with resvs := s2.resvs.map (fun (r : Resv) => if r.inst / 2 ^ 32 = n then away r else r) }
    Answers (forM (s.switchers l) commandDone) ⟨((s3.freeParts n).gateAll l.dies).setMem s.mem, []⟩ () v →
    exec (.preemption n) s = .next (s.after v)) ∧
  (∀ s n l parts, Tab.find s.launches n = some l → l.state = 1 → l.out = true → s.partsOk l parts = true →
    (∀ x ∈ s.gangs, x.2.launch = n → (Tab.find s.insts x.2.inst).isSome = true) →
    ∃ t l1, exec (.partitionResume n parts) s = .next t ∧ Tab.find t.launches n = some l1 ∧ l1.out = false ∧ l1.dies = parts ∧
      l1.nodes = l.nodes ∧ l1.record = l.record ∧ t.mem = s.mem ∧
      ∀ key, (Tab.find t.insts key).map (fun (i : Inst) => { i with shares := [] }) =
        (Tab.find s.insts key).map (fun (i : Inst) => { i with shares := [] })) ∧
  (∀ s inst img i p l d, Tab.find s.insts inst = some i → i.park = some p → Tab.find s.launches i.launch = some l →
    p.block = none → l.out = false → s.saveReady (s.gangsOf inst) = true → Tab.find s.dies i.die = some d →
    d.host.fqwait = false →
    let size := if p.reason = 8 then 0 else img.length
    let place := placeBlock (fld l.record 448 64) (fld l.record 512 32) (192 + size) s.blocks
    let ring := d.host.fqbase + 16 * (d.host.fqtail % 2 ^ d.host.fqctl)
    let used := (d.host.fqtail + 2 ^ 32 - d.host.fqhead) % 2 ^ 32
    (place = none → exec (.parkBlockWrite inst img) s = .next (s.setDie i.die (d.hostSet { d.host with parkfull := true }))) ∧
    (∀ a, place = some a → 2 ^ d.host.fqctl ≤ used →
      exec (.parkBlockWrite inst img) s = .next (s.setDie i.die (d.hostSet { d.host with fqfull := true }))) ∧
    (∀ a, place = some a → used < 2 ^ d.host.fqctl → s.target ring = none →
      exec (.parkBlockWrite inst img) s = .next (s.setDie i.die (d.hostSet { d.host with
        fqbad := true
        fqwait := true }))) ∧
    (∀ a w1 w2 w3 w4 d4 i5 w6 v, place = some a → used < 2 ^ d.host.fqctl → (s.target ring).isSome = true → p.reason ≠ 8 →
      let s0 := (s.settleAll (s.gangsOf inst)).maskAll l (s.gangsOf inst)
      Answers (physWrite i.die a 64 (blockHeader i p size)) ⟨s0.setMem s.mem, []⟩ () w1 →
      Answers (physWrite i.die (a + 64) 128 (w1.cur.parkWords inst p)) w1 () w2 →
      Answers (physWrite i.die (a + 192) size (ofBytes img)) w2 () w3 →
      Answers (physWrite i.die ring 16 (faultEntry i p a)) w3 () w4 → Tab.find w4.cur.dies i.die = some d4 →
      let s5 := w4.cur.setDie i.die (d4.hostSet { d4.host with fqtail := (d4.host.fqtail + 1) % 2 ^ 32 })
      Tab.find s5.insts inst = some i5 →
      let s6 := s5.setInst inst { i5 with
        phase := .parked
        park := some { p with
          block := some a
          isize := size } }
      let loose (r : Resv) : Resv := { r with held := false }
      let s7 := { s6 with resvs := s6.resvs.map (fun (r : Resv) => if r.inst == inst then loose r else r) }
      Answers (vacate (s.gangsOf inst)) ⟨s7, w4.stores⟩ () w6 → Answers (notify i.die 2) w6 () v →
      exec (.parkBlockWrite inst img) s = .next (s.after v)))

end Sys2Proof.Machine

/-- R39, R50, R472 to R476, R478, R519: launches start, instances are dispatched, gangs are admitted.
When these steps take place is the model's agenda (log 10); the debit is log 24's reading. -/
def Obligations.LaunchesDispatchTheirInstances : Prop := LaunchAndDispatchComplete

/-- R22, R41, R55, R56, R68, R277, R282, R283, R468, R476, R478, R525, R526, R530: gangs and instances retire, and partitions are
switched.
When these steps take place is the model's agenda (log 10); the image written is log 16's. -/
def Obligations.GangsAndInstancesRetire : Prop := GangsAndInstancesEnd

/-! ## Encoding, steps and frames -/

namespace Sys2Proof.Machine

/-- An encoded instruction is read back from its word: every well-formed instruction, scalar and lane, every operand. -/
def EncodedReadsBack (i : Instr) : Prop := ∀ n w, encode i = some (n, w) → decodeTableWord n w = some i

/-- The storage key a write of a port goes to at once: nothing for a write that is refused or that travels to another
site. -/
def State.writeKey (s : State) (p : Port) (va : Nat) : Option Nat :=
  match s.translate p va with
  | .leaf pte lg pa =>
    match s.target pa with
    | some (.gddr d) => if d = p.die then some pa else none
    | some (.scratch d off) => if d = p.die then s.scratchKey d off else none
    | some .host => some pa
    | _ => none
  | _ => none

/-- The write at a virtual address is of another die's register region: what that die was sent before lands first. -/
def State.farDevice (s : State) (p : Port) (va : Nat) : Prop :=
  ∃ pte lg pa d off, s.translate p va = .leaf pte lg pa ∧ s.target pa = some (.device d off) ∧ d ≠ p.die

/-- The word of a 4-byte fetch lies in storage of the fetching die, executable and without an error mark. -/
def State.fetchable (s : State) (p : Port) (va pa : Nat) : Prop :=
  ∃ pte lg, s.translate p va = .leaf pte lg pa ∧ s.target pa = some (.gddr p.die) ∧ bit pte 4 = true ∧
    s.walked p va = s ∧ s.badAt pa 4 = false ∧ s.corrAt pa 4 = false

/-- What a scalar word changes of its stream at most: the registers of its destinations, flag f, the pc, the loops, and what
completing resets; nothing else of the machine. -/
def ScalarFrame (s t : State) (u : Who) (st : Stream) (ds : List Nat) (f : Option Nat) : Prop :=
  ∃ st1, t = s.setStream u st1 ∧ t.stream u = some st1 ∧ (∀ n, n ∉ ds → st1.get n = st.get n) ∧
    (∀ n, f ≠ some n → st1.flag n = st.flag n) ∧ (∀ a, Mem.get t.mem a = Mem.get s.mem a) ∧
    { st1 with
      regs := st.regs
      bank := st.bank
      flags := st.flags
      pc := st.pc
      loops := st.loops
      lc := st.lc
      wait := st.wait
      age := st.age
      due := st.due } = st

/-- An instruction that completes keeps all but these registers and this flag (see `ScalarFrame`). -/
def KeepsBut (i : Instr) (ds : List Nat) (f : Option Nat) : Prop :=
  ∀ s u st t, Issues s u st → exec i s = .next t → ScalarFrame s t u st ds f

/-- A register form keeps all but s_D. -/
def RegKeeps (mk : BitVec 5 → BitVec 5 → BitVec 5 → Instr) : Prop := ∀ d a b, KeepsBut (mk d a b) [d.toNat] none

/-- An immediate form keeps all but s_D. -/
def ImmKeeps (mk : BitVec 5 → BitVec 5 → BitVec 16 → Instr) : Prop := ∀ d a i, KeepsBut (mk d a i) [d.toNat] none

/-- What a lane word that writes D changes at most of its group: register d of the participating threads and its pair, or
predicate d, the loop registers of the fragment's loops, the fragment, and the operand queues it pops; nothing else of the
machine. -/
def LaneKeeps (mk : LaneW → Instr) (wide : LaneW → Bool) (rs : LaneW → List SlotReq) : Prop :=
  ∀ s l w xs g1 t, LaneIssues s l → l.g.noReg w.d.toNat (wide w) = false → l.Reads s w (l.part w) (rs w) xs g1 →
    exec (mk w) s = .next t →
    ∃ g2, t = s.setGroup l.k g2 ∧ (∀ a, Mem.get t.mem a = Mem.get s.mem a) ∧
      { g2 with
        threads := l.g.threads
        run := l.g.run
        opq := l.g.opq } = l.g ∧
      { g2.run with frags := l.g.run.frags } = l.g.run ∧ (∀ j, j ≠ l.fi → g2.run.frags[j]? = l.g.run.frags[j]?) ∧
      ∀ n x, Tab.find l.g.threads n = some x → ∃ y, Tab.find g2.threads n = some y ∧
        y.tid = x.tid ∧ y.cls = x.cls ∧ y.fin = x.fin ∧ (w.d.toNat < 64 ∨ 72 ≤ w.d.toNat ∨ n ∉ l.part w → y.p = x.p) ∧
        ∀ r, (∀ st f d m c i, SEnt.loop st f d m c i ∈ l.fr.stack → d ≠ r) →
          (n ∉ l.part w ∨ (r ≠ w.d.toNat ∧ (wide w = true → r ≠ w.d.toNat + 1))) → Tab.getD y.v r 0 = Tab.getD x.v r 0

end Sys2Proof.Machine

/-- R68 to R93: decoding the encoding of any well-formed instruction gives it back, every operand at every value. -/
def Obligations.EncodedInstructionsDecode : Prop := ∀ i : Instr, i.wellFormed = true → EncodedReadsBack i

/-- R68 to R93: a word that decodes is the encoding of its instruction, which is well formed: no two words mean one
instruction, and no bit of a word is dropped. -/
def Obligations.DecodedWordsEncode : Prop :=
  ∀ w i, (decodeTableWord 32 w = some i → i.wellFormed = true ∧ encode i = some (32, w % 2 ^ 32)) ∧
    (decodeTableWord 96 w = some i → i.wellFormed = true ∧ encode i = some (96, w % 2 ^ 96))

/-- R70 to R79, Tables 3-2 to 3-9: words written out from their encodings decode to the instruction they stand for, and words
with a lookahead that their instruction does not take do not decode. -/
def Obligations.WordsDecodeAsTheSpecEncodes : Prop :=
  decodeTableWord 32 0x04642800 = some (.add 3 4 5) ∧
  decodeTableWord 32 0x857FFFF0 = some (.brClear 1 1 (-16)) ∧
  decodeTableWord 32 0x4C240801 = some (.ast 1 4 2 1) ∧
  decodeTableWord 32 0x50A00C00 = some (.loopSreg 5 3) ∧
  decodeTableWord 32 0xC3000030 = some (.frec 24 0) ∧
  decodeTableWord 32 0xC4043080 = some (.barInit 4 6) ∧
  decodeTableWord 32 0xC8640000 = some (.copy 3 4) ∧
  decodeTableWord 32 0xF0804830 = some (.mmac 4 0 9) ∧
  decodeTableWord 32 0xCC642820 = some (.dice 3 4 5) ∧
  decodeTableWord 32 0xD0642810 = some (.sgrid 3 4 5) ∧
  decodeTableWord 32 0xD4642800 = some (.bvhbind 3 4 5) ∧
  decodeTableWord 32 0xD4642880 = some (.texbind 3 4 5) ∧
  decodeTableWord 32 0xD9445800 = some (.xdelta 10 4 11) ∧
  decodeTableWord 32 0xDC642810 = some (.kpeal 3 4 5) ∧
  decodeTableWord 32 0xE0642850 = some (.bqpush 3 4 5) ∧
  decodeTableWord 32 0xE4C00000 = some (.qroot 6) ∧
  decodeTableWord 96 0x14074102FE02000300000005 = some (.isetp ⟨0, 0, 7, 0, 65, 0x2, 0xfe, 0x2, 0x0, 0x3, 0x5⟩) ∧
  decodeTableWord 96 0x500900000000000000000005 = some (.brl ⟨0, 1, 1, 0, 0, 0x0, 0x0, 0x0, 0x0, 0x0, 0x5⟩) ∧
  decodeTableWord 96 0x603706020000600700000040 = some (.ld ⟨3, 0, 7, 0, 6, 0x2, 0x0, 0x0, 0x60, 0x7, 0x40⟩) ∧
  decodeTableWord 96 0x70077F400100000000000003 = some (.mfeed ⟨0, 0, 7, 0, 127, 0x40, 0x1, 0x0, 0x0, 0x0, 0x3⟩) ∧
  decodeTableWord 96 0x780708860001000000063F3F = some (.greadApron ⟨0, 0, 7, 0, 8, 0x86, 0x0, 0x1, 0x0, 0x0, 0x63f3f⟩) ∧
  decodeTableWord 96 0x82077F040201000000000000 = some (.swriteZ ⟨0, 0, 7, 0, 127, 0x4, 0x2, 0x1, 0x0, 0x0, 0x0⟩) ∧
  decodeTableWord 96 0x884714080000000000000000 = some (.trace ⟨4, 0, 7, 0, 20, 0x8, 0x0, 0x0, 0x0, 0x0, 0x0⟩) ∧
  decodeTableWord 32 0xD4642880 = some (.texbind 3 4 5) ∧
  decodeTableWord 96 0x9B070A00870000000000000C = some (.xraw ⟨0, 0, 7, 0, 10, 0x0, 0x87, 0x0, 0x0, 0x0, 0xc⟩) ∧
  decodeTableWord 96 0xA10703000000000000000000 = some (.kcapt ⟨0, 0, 7, 0, 3, 0x0, 0x0, 0x0, 0x0, 0x0, 0x0⟩) ∧
  decodeTableWord 96 0xA8070502FF00000000000007 = some (.spawnLane ⟨0, 0, 7, 0, 5, 0x2, 0xff, 0x0, 0x0, 0x0, 0x7⟩) ∧
  decodeTableWord 96 0xA9070602FF00000000000000 = some (.qsendLane ⟨0, 0, 7, 0, 6, 0x2, 0xff, 0x0, 0x0, 0x0, 0x0⟩) ∧
  decodeTableWord 32 0x04642801 = none ∧ decodeTableWord 96 0x232287018940820900000000 = none

/-- R4, R89, R93, R286, R288: a step of a frozen package lets a turn that does not thaw pass without effect; otherwise an
event runs as it is, and a stream that may go on fetches the word at its pc, which runs if it decodes.
The turn is the model's own (logs 1 and 10). -/
def Obligations.StepRunsTheIssuedInstruction : Prop :=
  (∀ s : State, s.agenda = [] → step s = .next s) ∧
  (∀ (s : State) t rest, s.agenda = t :: rest → s.frozen = true → thaws t.act = false → step s = .next { s with agenda := rest }) ∧
  (∀ (s : State) (t : Turn) rest, s.agenda = t :: rest → (s.frozen = true → thaws t.act = true) →
    ((s.begin t rest).outranked t.act = true ∨ (s.begin t rest).boundaryFirst t.act = true) → step s = .next (s.begin t rest)) ∧
  (∀ (s : State) (t : Turn) i rest, s.agenda = t :: rest → t.act = .event i → (s.frozen = true → thaws t.act = true) →
    (s.begin t rest).boundaryFirst t.act = false → step s = exec i (s.begin t rest)) ∧
  (∀ (s : State) (t : Turn) k (ctl : Bool) rest st w i w1 st1, s.frozen = false →
    t.act = (if ctl then .control k else .scalar k) →
    let u := if ctl then Who.ctx k else .group k
    let s0 := s.begin t rest
    s.agenda = t :: rest → s0.outranked t.act = false → s0.boundaryFirst t.act = false → s0.stream u = some st → st.ended = false → st.stopped = false → st.held = none → st.dueNow = [] →
    st.pc % 4 = 0 → decodeFor ctl w = .ok i →
    (st.wait = .none → s0.broken u st.pc = false →
      Answers (fetchWords (s0.portOf u) 1 st.pc) ⟨s0.setStream u st.tick, []⟩ (.ok w) w1 → w1.cur.stream u = some st1 →
      step s = exec i ((w1.cur.setStream u { st1 with word := w }).setMem (storeAll s0.mem w1.stores))) ∧
    (st.wait ≠ .none → st.word = w → step s = exec i (s0.setStream u st))) ∧
  (∀ (s : State) (t : Turn) k fi rest g fr g1 w i w1 g2 f2, s.frozen = false → t.act = .lane k fi →
    let s0 := s.begin t rest
    s.agenda = t :: rest → s0.outranked t.act = false → s0.boundaryFirst t.act = false → Tab.find s0.groups k = some g → g.st.stopped = false → g.st.held = none → g.st.tmode = false →
    g.run.active = true → g.st.dueNow = [] → g.run.frags[fi]? = some fr → fr.wait = .none → g.tickFrag fi = some g1 →
    decodeLane w = .ok i →
    Answers (fetchWords { s0.portOf (.group k) with core := none } 3 (s0.laneAddr (.group k) fr.pc)) ⟨s0.setGroup k g1, []⟩
      (.ok w) w1 → Tab.find w1.cur.groups k = some g2 → g2.run.frags[fi]? = some f2 →
    let f3 := { f2 with
      word := w
      age := 0 }
    let r3 := { g2.run with frags := setNth g2.run.frags fi f3 }
    step s = exec i ((w1.cur.setGroup k { g2 with run := r3 }).setMem (storeAll s0.mem w1.stores))) ∧
  (∀ (s : State) p va pa, s.fetchable p va pa →
    Answers (fetchWords p 1 va) ⟨s, []⟩ (.ok (Mem.read s.mem pa 4)) ⟨s, []⟩)

/-- R6, R213: every step keeps the memory in its canonical form.
The form is the model's own (log 4). -/
def Obligations.EveryStepKeepsMemoryCanonical : Prop := ∀ s t : State, Safe s → step s = .next t → Safe t

/-- R45, R216, R260, R475, R521, Tables 7-7, 18-2, 20-5 and 20-7: reset is a safe state in every form of supply, each die's
registers hold the stated values, and no launch runs; a group that starts holds the stated values.
The form of supply at reset and what an unlisted byte reads are the model's (logs 4 and 5). -/
def Obligations.ResetHoldsTheStatedValues : Prop :=
  Safe State.reset ∧ (∀ form, Safe (State.resetForm form)) ∧
  (∀ form d, d ∈ diesOf form →
    let s := State.resetForm form
    let x := s.die d
    s.hasDie d = true ∧ s.launches = [] ∧ s.groups = [] ∧ s.frozen = false ∧ x.wmask = 0 ∧
    x.mc.wcwait = 64 ∧ x.mc.blocks = 0 ∧ x.mc.corrected = 0 ∧ x.mc.uncorrected = 0 ∧
    x.energy.en = false ∧ x.energy.clmax = 16 ∧ x.energy.budget = 0 ∧ x.energy.period = 1500000 ∧ x.energy.bal = 0 ∧
    x.host.lqbase = 0 ∧ x.host.lqctl = 4 ∧ x.host.lqtail = 0 ∧ x.host.lqhead = 0 ∧ x.host.fqctl = 4 ∧ x.host.hcmd = none ∧
    x.host.hmlim = 0 ∧ x.boot.bootaddr = 0 ∧ x.boot.bootsts = 0 ∧ x.boot.fwver = 0 ∧ x.boot.mr = 0 ∧
    (∀ off, 0x1000 ≤ off → s.reg64 d off = 0)) ∧
  (∀ (id : GroupId) pc n prio w,
    let g := Group.start id pc n prio w []
    g.st.pc = pc ∧ g.st.hmask = 0x7FFF ∧ g.st.tmode = false ∧ g.st.rstack = [] ∧ g.st.loops = [] ∧ g.wgt = w ∧ g.prio = prio ∧
    (∀ r, g.st.get r = 0) ∧ (∀ f, g.st.flag f = ⟨false, false, false, false⟩) ∧ g.amask = 0xFFFFFFFF ∧ g.astr = 1 ∧
    g.run.active = false ∧ (∀ t, t < 32 → (g.thread t).tid = t + 32 * id.gidx ∧ (g.thread t).p = 0 ∧
      ∀ r, Tab.getD (g.thread t).v r 0 = 0))

/-- No instruction is refused, and one that faults does so because the actor of the turn names no stream. -/
def Obligations.NothingIsRefused : Prop :=
  ∀ (i : Instr) (s : State), (∀ r, exec i s ≠ .refused r) ∧ (∀ f, exec i s = .fault f → f = .noStream)

/-- R133, R138 to R148: a scalar word of the register, immediate, comparison, branch or hint forms changes its destination,
its flag and the pc, and what completing resets: nothing else of its stream, no byte of memory and no other unit. -/
def Obligations.ScalarWordsKeepTheRest : Prop :=
  RegKeeps .add ∧ RegKeeps .sub ∧ RegKeeps .mul ∧ RegKeeps .mulhI64 ∧ RegKeeps .mulhN64 ∧ RegKeeps .andS ∧ RegKeeps .orS ∧
  RegKeeps .xorS ∧ RegKeeps .shl ∧ RegKeeps .shr ∧ RegKeeps .sra ∧ RegKeeps .minI64 ∧ RegKeeps .minN64 ∧ RegKeeps .maxI64 ∧
  RegKeeps .maxN64 ∧ (∀ h : BitVec 3, RegKeeps (fun d a b => .lea d a b h)) ∧
  (∀ (f : BitVec 2) (c : BitVec 3), RegKeeps (fun d a b => .sel d a b f c)) ∧
  ImmKeeps .addImm ∧ ImmKeeps .mulImm ∧ ImmKeeps .andImm ∧ ImmKeeps .orImm ∧ ImmKeeps .xorImm ∧
  (∀ (d a : BitVec 5) (i : BitVec 16), i.toNat < 64 → KeepsBut (.shlImm d a i) [d.toNat] none ∧
    KeepsBut (.shrImm d a i) [d.toNat] none ∧ KeepsBut (.sraImm d a i) [d.toNat] none) ∧
  (∀ (d : BitVec 5) (h : BitVec 2) (i : BitVec 16), KeepsBut (.movi d i) [d.toNat] none ∧ KeepsBut (.movhi d h i) [d.toNat] none) ∧
  (∀ (f a b : BitVec 5) (i : BitVec 16), f.toNat < 4 → KeepsBut (.cmp f a b) [] (some f.toNat) ∧
    KeepsBut (.tst f a b) [] (some f.toNat) ∧ KeepsBut (.cmpImm f a i) [] (some f.toNat)) ∧
  (∀ (f c : BitVec 2) (o : BitVec 22), KeepsBut (.brSet f c o) [] none ∧ KeepsBut (.brClear f c o) [] none ∧
    KeepsBut (.jmp o) [] none) ∧
  KeepsBut .nop [] none ∧ KeepsBut .yield [] none

/-- R154, R201, R212, R241: an SST changes no byte but those at the storage of its address, which take the low bytes of s_D,
and none at once where the write travels to another die; its registers and flags stay. -/
def Obligations.ScalarStoresKeepTheRest : Prop :=
  ∀ s u st d b z o t, Safe s → Issues s u st → (∀ a f, st.wait ≠ .barWait a f) →
    let va := st.smAddr b z o
    let n := 2 ^ z.toNat
    exec (.sst d b z o) s = .next t → ¬ s.farDevice (s.portOf u) va →
    (∀ a, (∀ k, s.writeKey (s.portOf u) va = some k → a < k ∨ k + n ≤ a) → Mem.get t.mem a = Mem.get s.mem a) ∧
    (∀ k r w, s.writeKey (s.portOf u) va = some k → va < 2 ^ 48 → va % n = 0 →
      (∀ j, u = .group j → ((Tab.find s.groups j).map Group.aldPending) = some false) →
      Answers (streamWrite u (s.portOf u) va n ((st.get d.toNat).toNat % 2 ^ (8 * n))) ⟨s, []⟩ (.ok r) w →
      Mem.read t.mem k n = (st.get d.toNat).toNat % 2 ^ (8 * n) ∧
      ∃ st1, t.stream u = some st1 ∧ st1.regs = st.regs ∧ st1.bank = st.bank ∧ st1.flags = st.flags ∧ st1.tmode = st.tmode)

/-- R80, R165, R194: an arithmetic lane word changes the registers or the predicate of D in the threads that take part, the
registers of the loops it ends, its fragment and the queues it pops: no other thread, register or predicate, and no byte of
memory. -/
def Obligations.LaneWordsKeepTheRest : Prop :=
  let wd := fun (w : LaneW) => wide64 w.pty
  let shift := fun (w : LaneW) => [slotT w.pty w.a, slot32 w.b]
  LaneKeeps .iadd wd typed2 ∧ LaneKeeps .isub wd typed2 ∧ LaneKeeps .imulh wd typed2 ∧ LaneKeeps .imin wd typed2 ∧
  LaneKeeps .imax wd typed2 ∧ LaneKeeps .laneAnd wd typed2 ∧ LaneKeeps .laneOr wd typed2 ∧ LaneKeeps .laneXor wd typed2 ∧
  LaneKeeps .iabs wd typed1 ∧ LaneKeeps .notL wd typed1 ∧ LaneKeeps .mov wd typed1 ∧ LaneKeeps .laneShl wd shift ∧
  LaneKeeps .laneShr wd shift ∧ LaneKeeps .laneSra wd shift ∧ LaneKeeps .bfe single plain2 ∧ LaneKeeps .bfi single plain3 ∧
  LaneKeeps .popc single typed1 ∧ LaneKeeps .clz single typed1 ∧ LaneKeeps .isetp single typed2 ∧
  LaneKeeps .fadd single plain2 ∧ LaneKeeps .fsub single plain2 ∧ LaneKeeps .fmul single plain2 ∧ LaneKeeps .ffma single plain3 ∧
  LaneKeeps .fmin single plain2 ∧ LaneKeeps .fmax single plain2 ∧ LaneKeeps .fsetp single plain2 ∧ LaneKeeps .frnd single plain1 ∧
  LaneKeeps .hadd2 single plain2 ∧ LaneKeeps .hmul2 single plain2 ∧ LaneKeeps .hfma2 single plain3 ∧
  LaneKeeps .shfl single plain2 ∧ LaneKeeps .gred single plain1 ∧ LaneKeeps .gscan single plain1 ∧
  LaneKeeps .gdx single plain1 ∧ LaneKeeps .gdy single plain1

/-! ## Forms that complete in states given by their own fields -/

namespace Sys2Proof.Machine

/-- The entry `e` heads queue q of group k, with the entries `t` behind it: its queue has not halted, its group and instance
run, no QFENCE holds it, it arrives at no barrier, and what it has written has reached its homes. -/
def LastTurn (s : State) (k q : Nat) (g : Group) (ga : Gang) (e : Ent) (t : List Ent) : Prop :=
  Tab.find s.groups k = some g ∧ Tab.find s.gangs (k / 65536) = some ga ∧ (g.queue q).ents = e :: t ∧
  (g.queue q).halt = none ∧ s.instRuns ga.inst = true ∧ g.st.stopped = false ∧
  (e.started = true ∨ g.fenced q e = false) ∧ e.op.bar = none ∧ s.reached ga.die e.sent = true

/-- The instruction completes, and the head of queue q of group k has left its queue, which leaves `t`; the group's other queues
and its stream are as they were. -/
def Leaves (s : State) (k q : Nat) (g : Group) (t : List Ent) (i : Instr) : Prop :=
  ∃ s1 g1, exec i s = .next s1 ∧ Tab.find s1.groups k = some g1 ∧ (g1.queue q).ents = t ∧
    (∀ j, j ≠ q → g1.queue j = g.queue j) ∧ g1.st = g.st

/-- An entry of this kind that heads queue q with this little left to do is done in its next turn. -/
def Ends (q : Nat) (op : EOp) (when : State → Nat → Group → Gang → Ent → Prop) (i : Nat → Instr) : Prop :=
  ∀ s k g ga e t, LastTurn s k q g ga e t → e.op = op → when s k g ga e → Leaves s k q g t (i k)

/-- No other group is on the machine, and the entry has begun. -/
def Sole (s : State) (k : Nat) (g : Group) (e : Ent) : Prop := s.groups = [(k, g)] ∧ e.started = true

/-- An uncached page of the port's die that its cluster's translations hold gives these bytes, without an error. -/
def State.plainAt (s : State) (p : Port) (va n : Nat) : Prop :=
  va < 2 ^ 48 ∧ ∃ x, s.kept p va = some x ∧ bit x.pte 2 = true ∧ fld x.pte 6 2 = 1 ∧ s.target (x.pa va) = some (.gddr p.die) ∧
    s.badAt (x.pa va) n = false ∧ s.corrAt (x.pa va) n = false

/-- The one entry of a context's queue completes. -/
def CtxLeaves (s : State) (n : Nat) (c : Ctx) (e : Ent) (i : Instr) : Prop :=
  ∃ s1 c1, exec i s = .next s1 ∧ Tab.find s1.ctxs n = some c1 ∧ c1.queue.ents = [] ∧ c1.queue.mark = e.seq ∧ c1.st = c.st

end Sys2Proof.Machine

/-- R232, R293, R325 to R327: entries of queues L, C and M with nothing left to write, and those that need only their row. -/
def Sys2Proof.Machine.RangeCopyAndFeedEntriesEnd : Prop :=
  (∀ fn a size n keep, Ends 0 (.range fn a size) (fun s k g ga e => size / 32 ≤ e.pos)
    (fun k => .rangeMaintenancePerform ⟨k, n⟩ keep)) ∧
  (∀ kind r nd n, Ends 1 (.copy kind r nd)
    (fun s k g ga e => e.started = true ∧ bit r 146 = false ∧ (copySectors (copyEls kind r e.buf)).length ≤ e.pos)
    (fun k => .copyEntryPerform k n)) ∧
  (∀ row words fmt, Ends 2 (.mfeed row words fmt)
    (fun s k g ga e => Tab.find (ga.matrixOf g.id.pos).fill.rows row = none ∧
      ∀ c, Tab.find s.ctxs (k / 65536) = some c → c.queue.ents = [])
    (fun k => .mfeedEntryPerform k)) ∧
  (∀ scales, Ends 2 (.mscale scales)
    (fun s k g ga e => ∀ x ∈ scales, Tab.find (ga.matrixOf g.id.pos).fill.rows x.1 = none)
    (fun k => .mscaleEntryPerform k)) ∧
  (∀ acc spad zero sat rm base bar elems n, Ends 2 (.mdrain acc spad zero sat rm base bar)
    (fun s k g ga e => Tab.find (ga.matrixOf g.id.pos).accs acc = none)
    (fun k => .mdrainEntryPerform ⟨k, n⟩ elems))

/-- R318, R320, R322: the one entry of a context's queue completes: MLOADB over plain memory without scales, an MMA or MMAC fed by
rows once its banks are taken, and MZERO. -/
def Sys2Proof.Machine.ContextEntriesEnd : Prop :=
  ∀ s n c g e, CtxHeadPerforms s n c g e [] → e.report = none →
    (∀ tile r off, e.op = .mloadb tile r off → shBrsa r = 0 → shBcsa r = 0 →
      (∀ x ∈ namedCores r, ∀ i < shK r, ∀ j < shN r, s.plainAt (s.portOf (.ctx n))
        (elemVA ((shBbase r + off) % 2 ^ 64) ((i : Int) * shBrs r + (((x.1 % 4) * shN r + j) * shBes r * matSize (shBfmt r) : Nat)))
        (matSize (shBfmt r))) →
      CtxLeaves s n c e (.mloadbEntryPerform n)) ∧
    (∀ bcast acc r tile keep, e.op = .mma bcast acc r tile keep → shAsrc r = false → shAcsa r = 0 →
      (∀ f ∈ feedersOf bcast r, (Tab.find e.reads f).isSome) → s.sramBad = [] → s.sramCorr = [] →
      CtxLeaves s n c e (.mmaEntryPerform n)) ∧
    (∀ acc r free, e.op = .mzero acc r free → CtxLeaves s n c e (.mzeroEntryPerform n))

/-- R341, R347 to R349, R358 to R361, R372 to R382: entries of queues G and Z whose grid or records stand, and a sampled slot that no
one needs, which the engine frees. -/
def Sys2Proof.Machine.GridEntriesEnd : Prop :=
  (∀ patch r key victim bucket bar n, Ends 3 (.dice patch r key victim bucket bar) (fun s k g ga e => e.pos = 1024)
    (fun k => .diceEntryPerform ⟨k, n⟩)) ∧
  (∀ image key victim bucket bar n, Ends 3 (.fill image key victim bucket bar) (fun s k g ga e => e.pos = 1024)
    (fun k => .fillEntryPerform ⟨k, n⟩)) ∧
  (∀ key image bar n, Ends 3 (.spill key image bar) (fun s k g ga e => e.pos = 1024) (fun k => .spillEntryPerform k n)) ∧
  (∀ key m dst threads tag, Ends 3 (.gread key m dst threads tag)
    (fun s k g ga e => s.gridReadyFor key e.born = true ∧ (s.slotAt key).state ≠ .sampled) (fun k => .greadEntryPerform k)) ∧
  (∀ key mask nu args m, Ends 3 (.gwrite key mask nu args m) (fun s k g ga e => (s.slotAt key).state ≠ .sampled)
    (fun k => .gwriteEntryPerform k)) ∧
  (∀ b x y depth bar n, Ends 4 (.sflush b x y depth bar) (fun s k g ga e => 512 * patSamples b.header ≤ e.pos)
    (fun k => .sflushEntryPerform k n)) ∧
  (∀ b bx bk key gang bar n, Ends 4 (.sgrid b bx bk key gang bar)
    (fun s k g ga e => s.gridReadyFor key e.born = true ∧ (s.slotAt key).state ≠ .sampled ∧ e.pos = 65536)
    (fun k => .sgridEntryPerform ⟨k, n⟩)) ∧
  (∀ b x y base bar n, Ends 4 (.sresolve b x y base bar) (fun s k g ga e => 1024 ≤ e.pos) (fun k => .sresolveEntryPerform k n)) ∧
  (∀ b bx bk key dst tag, Ends 4 (.scover b bx bk key dst [] tag)
    (fun s k g ga e => s.gridReadyFor key e.born = true ∧ (s.slotAt key).state ≠ .sampled) (fun k => .scoverEntryPerform k)) ∧
  (∀ b dst args tag n, Ends 4 (.sread b dst args tag) (fun s k g ga e => args.length ≤ e.pos)
    (fun k => .sampleRecordEntryPerform ⟨k, n⟩)) ∧
  (∀ b z args tag n, Ends 4 (.swrite b z args tag) (fun s k g ga e => args.length ≤ e.pos)
    (fun k => .sampleRecordEntryPerform ⟨k, n⟩)) ∧
  (∀ s key x, s.slotIdle key = true → (s.slotAt key).holders = [] → (s.slotAt key).oldGen = none →
    (s.slotAt key).failed = false → (s.slotAt key).state = .sampled → hdRemain (s.gridHead key) = 0 →
    let p := s.slotPort key
    let va := hdPatch (s.gridHead key)
    va < 2 ^ 48 → s.kept p va = some x → bit x.pte 2 = true → bit x.pte 3 = true → bit x.pte 5 = true → fld x.pte 6 2 = 1 →
    s.target (x.pa va) = some (.gddr p.die) → s.badAt (x.pa va) 8 = false → s.corrAt (x.pa va) 8 = false →
    s.toldOf p.die (x.pa va) 8 = false →
    ∃ t, exec (.engineSpill key) s = .next t ∧ (t.slotAt key).state = .free ∧ (t.slotAt key).gen = (s.slotAt key).gen)

/-- R391 to R404, R410 to R417, R424 to R444, R456 to R462, R504, R505: entries of queues Y, H, X, K and B with nothing left to
do, and those that need only the array. -/
def Sys2Proof.Machine.LaneEngineEntriesEnd : Prop :=
  (∀ bvh cb cf dst args tag n, Ends 5 (.trace bvh cb cf dst args tag)
    (fun s k g ga e => args.length ≤ e.pos ∧ ∀ f ∈ g.run.frags, ∀ x, f.wait ≠ .tracing x) (fun k => .traceEntryPerform ⟨k, n⟩)) ∧
  (∀ bvh sel dst args tag n, Ends 5 (.hitget bvh sel dst args tag) (fun s k g ga e => args.length ≤ e.pos)
    (fun k => .hitgetEntryPerform ⟨k, n⟩)) ∧
  (∀ bvh dst args tag n, Ends 5 (.rclook bvh dst args tag) (fun s k g ga e => args.length ≤ e.pos)
    (fun k => .rclookEntryPerform ⟨k, n⟩)) ∧
  (∀ bvh args tag n, Ends 5 (.rcins bvh args tag) (fun s k g ga e => args.length ≤ e.pos) (fun k => .rcinsEntryPerform ⟨k, n⟩)) ∧
  (∀ bvh f bar n, Ends 5 (.rcfade bvh f bar) (fun s k g ga e => 2 ^ bvhRclog bvh ≤ e.pos) (fun k => .rcfadeEntryPerform k n)) ∧
  (∀ r form dst args bar tag n, Ends 6 (.tex r form dst args bar tag) (fun s k g ga e => args.length ≤ e.pos)
    (fun k => .texEntryPerform ⟨k, [], n⟩)) ∧
  (∀ r dst args bar tag n, Ends 6 (.texq r dst args bar tag) (fun s k g ga e => args.length ≤ e.pos)
    (fun k => .texqEntryPerform ⟨k, [], n⟩)) ∧
  (∀ kind a dst tag, Ends 7 (.colour kind a dst [] tag) (fun s k g ga e => Sole s k g e ∧ e.buf ≠ [])
    (fun k => .colourTransformEntryPerform k)) ∧
  (∀ a wd args tag, Ends 7 (.pack a wd args tag) (fun s k g ga e => Sole s k g e ∧ (packBits wd args).1 = 0)
    (fun k => .packEntryPerform k)) ∧
  (∀ a wd dst args tag, Ends 7 (.xraw a wd true dst args tag) (fun s k g ga e => Sole s k g e ∧ g.poison = true)
    (fun k => .xrawEntryPerform k)) ∧
  (∀ r first count, Ends 7 (.xfclr r first count) (fun s k g ga e => Sole s k g e ∧ count ≤ e.pos)
    (fun k => .xfclrEntryPerform k)) ∧
  (∀ r tile src mask, Ends 7 (.xdelta r tile src mask) (fun s k g ga e => Sole s k g e ∧ (e.buf.length - 1) / 32 + 1 < e.pos)
    (fun k => .xdeltaEntryPerform k)) ∧
  (∀ r tile, Ends 7 (.xdcmp r tile) (fun s k g ga e => Sole s k g e ∧ (e.buf.length - 1) / 32 + 1 < e.pos)
    (fun k => .xdcmpEntryPerform k)) ∧
  (∀ v, Ends 8 (.ktwin v) (fun s k g ga e => s.groups = [(k, g)]) (fun k => .ktwinEntryPerform k)) ∧
  (∀ src slot bar n, Ends 8 (.kpeal src slot bar) (fun s k g ga e => s.groups = [(k, g)] ∧ 128 ≤ e.pos)
    (fun k => .kpealEntryPerform ⟨k, n⟩)) ∧
  (∀ lv cv, Ends 8 (.krst lv cv) (fun s k g ga e => s.groups = [(k, g)]) (fun k => .krstEntryPerform k)) ∧
  (∀ peal half go vals bar, Ends 8 (.klaunch peal half go vals bar)
    (fun s k g ga e => s.groups = [(k, g)] ∧ s.sramBad = [] ∧ s.sramCorr = []) (fun k => .klaunchEntryPerform k)) ∧
  (∀ half dst threads tag, Ends 8 (.kcapt half dst threads tag)
    (fun s k g ga e => s.groups = [(k, g)] ∧ s.sramBad = [] ∧ s.sramCorr = []) (fun k => .kcaptEntryPerform k)) ∧
  (∀ adds, Ends 9 (.deposit adds) (fun s k g ga e => adds.length ≤ e.pos ∧ e.wrote = e.pos) (fun k => .ballastDepositPerform k)) ∧
  (∀ w, Ends 9 (.qretw w) (fun s k g ga e => amtOf w.toNat = 0) (fun k => .qretEntryPerform k))

/-- R231, R271, R355 to R359: TRAP raises 0x0C, BANKCFG and L2CFG that change nothing give the old mode and mask, and the words of a
grid answer as its HANDLE says. -/
def Sys2Proof.Machine.ModeAndGridWordsAnswer : Prop :=
  (∀ s u st n, Issues s u st → st.wait = .none →
    exec (.trap n) s = .next (s.raise u ⟨0x0C, 0, 0, 0, n.toNat, st.pc, 0, 0, 0, 0⟩)) ∧
  (∀ s k g ga d a b, GangIssues s k g ga → g.st.tmode = false → g.noRun → g.settled = true →
    let x := (g.st.get a.toNat).toNat
    let hs := Tab.getD ga.hold (x % 8) []
    x < 2 ^ 9 → x % 8 < ga.cores → x / 8 < hs.length → nth hs (x / 8) 0 ≤ 2 →
    (x % 8 = 0 → 16 * ga.nbar ≤ 8192 * (x / 8)) → (g.st.get b.toNat).toNat = nth hs (x / 8) 0 →
    exec (.bankcfg d a b) s = .next (s.wordDone k g g.st.pc (g.st.put d.toNat (BitVec.ofNat 64 (nth hs (x / 8) 0))))) ∧
  (∀ s k g ga x d a, GangIssues s k g ga → s.privileged (.group k) = true → g.settled = true → Tab.find s.dies ga.die = some x →
    x.wmask < 2 ^ 16 → popcount 16 x.wmask ≤ 12 → (g.st.get a.toNat).toNat = x.wmask →
    exec (.l2cfg d a) s = .next ((s.setDie ga.die x).wordDone k g g.st.pc (g.st.put d.toNat (BitVec.ofNat 64 x.wmask)))) ∧
  (∀ s k g ga d a b r brec h w g1, DiceReads s k g ga a b r brec h w g1 →
    let gives := fun (out : Nat) => Host.Outcome.next
      (s.after ⟨w.cur.wordDone k g1 g1.st.pc (g1.st.put d.toNat (BitVec.ofNat 64 (resultWord h out false))), w.stores⟩)
    (fld h 62 2 = 0 → exec (.bfill d a b) s = gives 7) ∧
    (fld h 62 2 = 2 → fld h 0 48 = 0 → exec (.dice d a b) s = gives 6 ∧ exec (.bfill d a b) s = gives 6))

/-- R231, R232, R271, R293, R318 to R327, R341, R347 to R361, R372 to R382, R391 to R404, R410 to R417, R424 to R444, R456 to
R462, R504, R505: forms that complete in states that their own fields describe: TRAP, the words of bank modes, of grids and of
rasters, and every entry on its last turn. When an entry takes its turn is the model's agenda (log 10). -/
def Obligations.FormsCompleteFromTheirState : Prop :=
  ModeAndGridWordsAnswer ∧ PatchBindsItsBucket ∧ SplitHalvesAPatch ∧ GboundGivesTheRectangle ∧ BspillIssuesItsEntry ∧
  RasterWordsComplete ∧ RangeCopyAndFeedEntriesEnd ∧ ContextEntriesEnd ∧ GridEntriesEnd ∧ LaneEngineEntriesEnd
end

