-- ==== Sys2Proof/Laws/Tab.lean ====
section
/-! SUPPORT. The laws of the plain tables: what is read after a value is put at a key or a key is removed. -/

set_option linter.unusedVariables false

namespace Sys2Proof.Tab

variable {α : Type}

@[simp] theorem find_set_same (t : Tab α) (k : Nat) (a : α) : Tab.find (Tab.set t k a) k = some a := by
  induction t with
  | nil => simp [Tab.set, Tab.find]
  | cons p t ih =>
    obtain ⟨i, b⟩ := p
    simp only [Tab.set]
    split
    · simp [Tab.find]
    · split
      · simp [Tab.find]
      · rename_i h
        simp [Tab.find, h, ih]

theorem find_set_ne (t : Tab α) {k j : Nat} (a : α) (h : j ≠ k) : Tab.find (Tab.set t k a) j = Tab.find t j := by
  induction t with
  | nil => simp [Tab.set, Tab.find, Ne.symm h]
  | cons p t ih =>
    obtain ⟨i, b⟩ := p
    simp only [Tab.set]
    split
    · simp [Tab.find, Ne.symm h]
    · split
      · rename_i hi
        subst hi
        simp [Tab.find, Ne.symm h]
      · by_cases hi : i = j <;> simp [Tab.find, hi, ih]

theorem find_set (t : Tab α) (k j : Nat) (a : α) :
    Tab.find (Tab.set t k a) j = if j = k then some a else Tab.find t j := by
  split
  · subst j
    simp
  · exact find_set_ne t a ‹_›

@[simp] theorem getD_set_same (t : Tab α) (k : Nat) (a d : α) : Tab.getD (Tab.set t k a) k d = a := by
  simp [Tab.getD]

theorem getD_set_ne (t : Tab α) {k j : Nat} (a d : α) (h : j ≠ k) : Tab.getD (Tab.set t k a) j d = Tab.getD t j d := by
  simp [Tab.getD, find_set_ne t a h]

/-- The later of two values put at one key stays. -/
@[simp] theorem set_set (t : Tab α) (k : Nat) (a b : α) : Tab.set (Tab.set t k a) k b = Tab.set t k b := by
  induction t with
  | nil => simp [Tab.set]
  | cons p t ih =>
    obtain ⟨i, c⟩ := p
    by_cases h1 : k < i
    · simp [Tab.set, h1]
    · by_cases h2 : i = k
      · simp [Tab.set, h2]
      · simp [Tab.set, h1, h2, ih]

@[simp] theorem find_del_same (t : Tab α) (k : Nat) : Tab.find (Tab.del t k) k = none := by
  induction t with
  | nil => rfl
  | cons p t ih =>
    obtain ⟨i, b⟩ := p
    by_cases h : i = k <;> simp [Tab.del, Tab.find, h, ih]

theorem find_del_ne (t : Tab α) {k j : Nat} (h : j ≠ k) : Tab.find (Tab.del t k) j = Tab.find t j := by
  induction t with
  | nil => rfl
  | cons p t ih =>
    obtain ⟨i, b⟩ := p
    by_cases hi : i = k
    · subst hi
      simp [Tab.del, Tab.find, Ne.symm h, ih]
    · by_cases hj : i = j
      · subst hj
        simp [Tab.del, Tab.find, hi]
      · simp [Tab.del, Tab.find, hi, hj, ih]

end Sys2Proof.Tab
end

