-- ==== Sys2Proof/Laws/State.lean ====
section
/-! SUPPORT. The machine's record updates: one lemma per field per update, and how updates of one record and of the memory
combine, so that no later proof unfolds an update. -/

set_option linter.unusedVariables false

namespace Sys2Proof.Machine

open Sys2Proof

/-! ## Fields after an update -/

section

variable (s : State)

@[simp] theorem setMem_form (m : List Host.Cell) : (s.setMem m).form = s.form := rfl
@[simp] theorem setMem_frozen (m : List Host.Cell) : (s.setMem m).frozen = s.frozen := rfl
@[simp] theorem setMem_mem (m : List Host.Cell) : (s.setMem m).mem = m := rfl
@[simp] theorem setMem_bad (m : List Host.Cell) : (s.setMem m).bad = s.bad := rfl
@[simp] theorem setMem_corr (m : List Host.Cell) : (s.setMem m).corr = s.corr := rfl
@[simp] theorem setMem_sramBad (m : List Host.Cell) : (s.setMem m).sramBad = s.sramBad := rfl
@[simp] theorem setMem_sramCorr (m : List Host.Cell) : (s.setMem m).sramCorr = s.sramCorr := rfl
@[simp] theorem setMem_dies (m : List Host.Cell) : (s.setMem m).dies = s.dies := rfl
@[simp] theorem setMem_launches (m : List Host.Cell) : (s.setMem m).launches = s.launches := rfl
@[simp] theorem setMem_insts (m : List Host.Cell) : (s.setMem m).insts = s.insts := rfl
@[simp] theorem setMem_gangs (m : List Host.Cell) : (s.setMem m).gangs = s.gangs := rfl
@[simp] theorem setMem_groups (m : List Host.Cell) : (s.setMem m).groups = s.groups := rfl
@[simp] theorem setMem_ctxs (m : List Host.Cell) : (s.setMem m).ctxs = s.ctxs := rfl
@[simp] theorem setMem_resvs (m : List Host.Cell) : (s.setMem m).resvs = s.resvs := rfl
@[simp] theorem setMem_slots (m : List Host.Cell) : (s.setMem m).slots = s.slots := rfl
@[simp] theorem setMem_msgs (m : List Host.Cell) : (s.setMem m).msgs = s.msgs := rfl
@[simp] theorem setMem_inbox (m : List Host.Cell) : (s.setMem m).inbox = s.inbox := rfl
@[simp] theorem setMem_hostClock (m : List Host.Cell) : (s.setMem m).hostClock = s.hostClock := rfl
@[simp] theorem setMem_hostAcked (m : List Host.Cell) : (s.setMem m).hostAcked = s.hostAcked := rfl
@[simp] theorem setMem_hostEvents (m : List Host.Cell) : (s.setMem m).hostEvents = s.hostEvents := rfl
@[simp] theorem setMem_hostReads (m : List Host.Cell) : (s.setMem m).hostReads = s.hostReads := rfl
@[simp] theorem setMem_nextLaunch (m : List Host.Cell) : (s.setMem m).nextLaunch = s.nextLaunch := rfl
@[simp] theorem setMem_nextGang (m : List Host.Cell) : (s.setMem m).nextGang = s.nextGang := rfl
@[simp] theorem setMem_tick (m : List Host.Cell) : (s.setMem m).tick = s.tick := rfl
@[simp] theorem setMem_corrSeen (m : List Host.Cell) : (s.setMem m).corrSeen = s.corrSeen := rfl
@[simp] theorem setMem_actor (m : List Host.Cell) : (s.setMem m).actor = s.actor := rfl
@[simp] theorem setMem_agenda (m : List Host.Cell) : (s.setMem m).agenda = s.agenda := rfl

@[simp] theorem setGroup_form (k : Nat) (x : Group) : (s.setGroup k x).form = s.form := rfl
@[simp] theorem setGroup_frozen (k : Nat) (x : Group) : (s.setGroup k x).frozen = s.frozen := rfl
@[simp] theorem setGroup_mem (k : Nat) (x : Group) : (s.setGroup k x).mem = s.mem := rfl
@[simp] theorem setGroup_bad (k : Nat) (x : Group) : (s.setGroup k x).bad = s.bad := rfl
@[simp] theorem setGroup_corr (k : Nat) (x : Group) : (s.setGroup k x).corr = s.corr := rfl
@[simp] theorem setGroup_sramBad (k : Nat) (x : Group) : (s.setGroup k x).sramBad = s.sramBad := rfl
@[simp] theorem setGroup_sramCorr (k : Nat) (x : Group) : (s.setGroup k x).sramCorr = s.sramCorr := rfl
@[simp] theorem setGroup_dies (k : Nat) (x : Group) : (s.setGroup k x).dies = s.dies := rfl
@[simp] theorem setGroup_launches (k : Nat) (x : Group) : (s.setGroup k x).launches = s.launches := rfl
@[simp] theorem setGroup_insts (k : Nat) (x : Group) : (s.setGroup k x).insts = s.insts := rfl
@[simp] theorem setGroup_gangs (k : Nat) (x : Group) : (s.setGroup k x).gangs = s.gangs := rfl
@[simp] theorem setGroup_groups (k : Nat) (x : Group) : (s.setGroup k x).groups = Tab.set s.groups k x := rfl
@[simp] theorem setGroup_ctxs (k : Nat) (x : Group) : (s.setGroup k x).ctxs = s.ctxs := rfl
@[simp] theorem setGroup_resvs (k : Nat) (x : Group) : (s.setGroup k x).resvs = s.resvs := rfl
@[simp] theorem setGroup_slots (k : Nat) (x : Group) : (s.setGroup k x).slots = s.slots := rfl
@[simp] theorem setGroup_msgs (k : Nat) (x : Group) : (s.setGroup k x).msgs = s.msgs := rfl
@[simp] theorem setGroup_inbox (k : Nat) (x : Group) : (s.setGroup k x).inbox = s.inbox := rfl
@[simp] theorem setGroup_hostClock (k : Nat) (x : Group) : (s.setGroup k x).hostClock = s.hostClock := rfl
@[simp] theorem setGroup_hostAcked (k : Nat) (x : Group) : (s.setGroup k x).hostAcked = s.hostAcked := rfl
@[simp] theorem setGroup_hostEvents (k : Nat) (x : Group) : (s.setGroup k x).hostEvents = s.hostEvents := rfl
@[simp] theorem setGroup_hostReads (k : Nat) (x : Group) : (s.setGroup k x).hostReads = s.hostReads := rfl
@[simp] theorem setGroup_nextLaunch (k : Nat) (x : Group) : (s.setGroup k x).nextLaunch = s.nextLaunch := rfl
@[simp] theorem setGroup_nextGang (k : Nat) (x : Group) : (s.setGroup k x).nextGang = s.nextGang := rfl
@[simp] theorem setGroup_tick (k : Nat) (x : Group) : (s.setGroup k x).tick = s.tick := rfl
@[simp] theorem setGroup_corrSeen (k : Nat) (x : Group) : (s.setGroup k x).corrSeen = s.corrSeen := rfl
@[simp] theorem setGroup_actor (k : Nat) (x : Group) : (s.setGroup k x).actor = s.actor := rfl
@[simp] theorem setGroup_agenda (k : Nat) (x : Group) : (s.setGroup k x).agenda = s.agenda := rfl

@[simp] theorem setCtx_form (k : Nat) (x : Ctx) : (s.setCtx k x).form = s.form := rfl
@[simp] theorem setCtx_frozen (k : Nat) (x : Ctx) : (s.setCtx k x).frozen = s.frozen := rfl
@[simp] theorem setCtx_mem (k : Nat) (x : Ctx) : (s.setCtx k x).mem = s.mem := rfl
@[simp] theorem setCtx_bad (k : Nat) (x : Ctx) : (s.setCtx k x).bad = s.bad := rfl
@[simp] theorem setCtx_corr (k : Nat) (x : Ctx) : (s.setCtx k x).corr = s.corr := rfl
@[simp] theorem setCtx_sramBad (k : Nat) (x : Ctx) : (s.setCtx k x).sramBad = s.sramBad := rfl
@[simp] theorem setCtx_sramCorr (k : Nat) (x : Ctx) : (s.setCtx k x).sramCorr = s.sramCorr := rfl
@[simp] theorem setCtx_dies (k : Nat) (x : Ctx) : (s.setCtx k x).dies = s.dies := rfl
@[simp] theorem setCtx_launches (k : Nat) (x : Ctx) : (s.setCtx k x).launches = s.launches := rfl
@[simp] theorem setCtx_insts (k : Nat) (x : Ctx) : (s.setCtx k x).insts = s.insts := rfl
@[simp] theorem setCtx_gangs (k : Nat) (x : Ctx) : (s.setCtx k x).gangs = s.gangs := rfl
@[simp] theorem setCtx_groups (k : Nat) (x : Ctx) : (s.setCtx k x).groups = s.groups := rfl
@[simp] theorem setCtx_ctxs (k : Nat) (x : Ctx) : (s.setCtx k x).ctxs = Tab.set s.ctxs k x := rfl
@[simp] theorem setCtx_resvs (k : Nat) (x : Ctx) : (s.setCtx k x).resvs = s.resvs := rfl
@[simp] theorem setCtx_slots (k : Nat) (x : Ctx) : (s.setCtx k x).slots = s.slots := rfl
@[simp] theorem setCtx_msgs (k : Nat) (x : Ctx) : (s.setCtx k x).msgs = s.msgs := rfl
@[simp] theorem setCtx_inbox (k : Nat) (x : Ctx) : (s.setCtx k x).inbox = s.inbox := rfl
@[simp] theorem setCtx_hostClock (k : Nat) (x : Ctx) : (s.setCtx k x).hostClock = s.hostClock := rfl
@[simp] theorem setCtx_hostAcked (k : Nat) (x : Ctx) : (s.setCtx k x).hostAcked = s.hostAcked := rfl
@[simp] theorem setCtx_hostEvents (k : Nat) (x : Ctx) : (s.setCtx k x).hostEvents = s.hostEvents := rfl
@[simp] theorem setCtx_hostReads (k : Nat) (x : Ctx) : (s.setCtx k x).hostReads = s.hostReads := rfl
@[simp] theorem setCtx_nextLaunch (k : Nat) (x : Ctx) : (s.setCtx k x).nextLaunch = s.nextLaunch := rfl
@[simp] theorem setCtx_nextGang (k : Nat) (x : Ctx) : (s.setCtx k x).nextGang = s.nextGang := rfl
@[simp] theorem setCtx_tick (k : Nat) (x : Ctx) : (s.setCtx k x).tick = s.tick := rfl
@[simp] theorem setCtx_corrSeen (k : Nat) (x : Ctx) : (s.setCtx k x).corrSeen = s.corrSeen := rfl
@[simp] theorem setCtx_actor (k : Nat) (x : Ctx) : (s.setCtx k x).actor = s.actor := rfl
@[simp] theorem setCtx_agenda (k : Nat) (x : Ctx) : (s.setCtx k x).agenda = s.agenda := rfl

@[simp] theorem setGang_form (k : Nat) (x : Gang) : (s.setGang k x).form = s.form := rfl
@[simp] theorem setGang_frozen (k : Nat) (x : Gang) : (s.setGang k x).frozen = s.frozen := rfl
@[simp] theorem setGang_mem (k : Nat) (x : Gang) : (s.setGang k x).mem = s.mem := rfl
@[simp] theorem setGang_bad (k : Nat) (x : Gang) : (s.setGang k x).bad = s.bad := rfl
@[simp] theorem setGang_corr (k : Nat) (x : Gang) : (s.setGang k x).corr = s.corr := rfl
@[simp] theorem setGang_sramBad (k : Nat) (x : Gang) : (s.setGang k x).sramBad = s.sramBad := rfl
@[simp] theorem setGang_sramCorr (k : Nat) (x : Gang) : (s.setGang k x).sramCorr = s.sramCorr := rfl
@[simp] theorem setGang_dies (k : Nat) (x : Gang) : (s.setGang k x).dies = s.dies := rfl
@[simp] theorem setGang_launches (k : Nat) (x : Gang) : (s.setGang k x).launches = s.launches := rfl
@[simp] theorem setGang_insts (k : Nat) (x : Gang) : (s.setGang k x).insts = s.insts := rfl
@[simp] theorem setGang_gangs (k : Nat) (x : Gang) : (s.setGang k x).gangs = Tab.set s.gangs k x := rfl
@[simp] theorem setGang_groups (k : Nat) (x : Gang) : (s.setGang k x).groups = s.groups := rfl
@[simp] theorem setGang_ctxs (k : Nat) (x : Gang) : (s.setGang k x).ctxs = s.ctxs := rfl
@[simp] theorem setGang_resvs (k : Nat) (x : Gang) : (s.setGang k x).resvs = s.resvs := rfl
@[simp] theorem setGang_slots (k : Nat) (x : Gang) : (s.setGang k x).slots = s.slots := rfl
@[simp] theorem setGang_msgs (k : Nat) (x : Gang) : (s.setGang k x).msgs = s.msgs := rfl
@[simp] theorem setGang_inbox (k : Nat) (x : Gang) : (s.setGang k x).inbox = s.inbox := rfl
@[simp] theorem setGang_hostClock (k : Nat) (x : Gang) : (s.setGang k x).hostClock = s.hostClock := rfl
@[simp] theorem setGang_hostAcked (k : Nat) (x : Gang) : (s.setGang k x).hostAcked = s.hostAcked := rfl
@[simp] theorem setGang_hostEvents (k : Nat) (x : Gang) : (s.setGang k x).hostEvents = s.hostEvents := rfl
@[simp] theorem setGang_hostReads (k : Nat) (x : Gang) : (s.setGang k x).hostReads = s.hostReads := rfl
@[simp] theorem setGang_nextLaunch (k : Nat) (x : Gang) : (s.setGang k x).nextLaunch = s.nextLaunch := rfl
@[simp] theorem setGang_nextGang (k : Nat) (x : Gang) : (s.setGang k x).nextGang = s.nextGang := rfl
@[simp] theorem setGang_tick (k : Nat) (x : Gang) : (s.setGang k x).tick = s.tick := rfl
@[simp] theorem setGang_corrSeen (k : Nat) (x : Gang) : (s.setGang k x).corrSeen = s.corrSeen := rfl
@[simp] theorem setGang_actor (k : Nat) (x : Gang) : (s.setGang k x).actor = s.actor := rfl
@[simp] theorem setGang_agenda (k : Nat) (x : Gang) : (s.setGang k x).agenda = s.agenda := rfl

@[simp] theorem setLaunch_form (k : Nat) (x : Launch) : (s.setLaunch k x).form = s.form := rfl
@[simp] theorem setLaunch_frozen (k : Nat) (x : Launch) : (s.setLaunch k x).frozen = s.frozen := rfl
@[simp] theorem setLaunch_mem (k : Nat) (x : Launch) : (s.setLaunch k x).mem = s.mem := rfl
@[simp] theorem setLaunch_bad (k : Nat) (x : Launch) : (s.setLaunch k x).bad = s.bad := rfl
@[simp] theorem setLaunch_corr (k : Nat) (x : Launch) : (s.setLaunch k x).corr = s.corr := rfl
@[simp] theorem setLaunch_sramBad (k : Nat) (x : Launch) : (s.setLaunch k x).sramBad = s.sramBad := rfl
@[simp] theorem setLaunch_sramCorr (k : Nat) (x : Launch) : (s.setLaunch k x).sramCorr = s.sramCorr := rfl
@[simp] theorem setLaunch_dies (k : Nat) (x : Launch) : (s.setLaunch k x).dies = s.dies := rfl
@[simp] theorem setLaunch_launches (k : Nat) (x : Launch) : (s.setLaunch k x).launches = Tab.set s.launches k x := rfl
@[simp] theorem setLaunch_insts (k : Nat) (x : Launch) : (s.setLaunch k x).insts = s.insts := rfl
@[simp] theorem setLaunch_gangs (k : Nat) (x : Launch) : (s.setLaunch k x).gangs = s.gangs := rfl
@[simp] theorem setLaunch_groups (k : Nat) (x : Launch) : (s.setLaunch k x).groups = s.groups := rfl
@[simp] theorem setLaunch_ctxs (k : Nat) (x : Launch) : (s.setLaunch k x).ctxs = s.ctxs := rfl
@[simp] theorem setLaunch_resvs (k : Nat) (x : Launch) : (s.setLaunch k x).resvs = s.resvs := rfl
@[simp] theorem setLaunch_slots (k : Nat) (x : Launch) : (s.setLaunch k x).slots = s.slots := rfl
@[simp] theorem setLaunch_msgs (k : Nat) (x : Launch) : (s.setLaunch k x).msgs = s.msgs := rfl
@[simp] theorem setLaunch_inbox (k : Nat) (x : Launch) : (s.setLaunch k x).inbox = s.inbox := rfl
@[simp] theorem setLaunch_hostClock (k : Nat) (x : Launch) : (s.setLaunch k x).hostClock = s.hostClock := rfl
@[simp] theorem setLaunch_hostAcked (k : Nat) (x : Launch) : (s.setLaunch k x).hostAcked = s.hostAcked := rfl
@[simp] theorem setLaunch_hostEvents (k : Nat) (x : Launch) : (s.setLaunch k x).hostEvents = s.hostEvents := rfl
@[simp] theorem setLaunch_hostReads (k : Nat) (x : Launch) : (s.setLaunch k x).hostReads = s.hostReads := rfl
@[simp] theorem setLaunch_nextLaunch (k : Nat) (x : Launch) : (s.setLaunch k x).nextLaunch = s.nextLaunch := rfl
@[simp] theorem setLaunch_nextGang (k : Nat) (x : Launch) : (s.setLaunch k x).nextGang = s.nextGang := rfl
@[simp] theorem setLaunch_tick (k : Nat) (x : Launch) : (s.setLaunch k x).tick = s.tick := rfl
@[simp] theorem setLaunch_corrSeen (k : Nat) (x : Launch) : (s.setLaunch k x).corrSeen = s.corrSeen := rfl
@[simp] theorem setLaunch_actor (k : Nat) (x : Launch) : (s.setLaunch k x).actor = s.actor := rfl
@[simp] theorem setLaunch_agenda (k : Nat) (x : Launch) : (s.setLaunch k x).agenda = s.agenda := rfl

@[simp] theorem setInst_form (k : Nat) (x : Inst) : (s.setInst k x).form = s.form := rfl
@[simp] theorem setInst_frozen (k : Nat) (x : Inst) : (s.setInst k x).frozen = s.frozen := rfl
@[simp] theorem setInst_mem (k : Nat) (x : Inst) : (s.setInst k x).mem = s.mem := rfl
@[simp] theorem setInst_bad (k : Nat) (x : Inst) : (s.setInst k x).bad = s.bad := rfl
@[simp] theorem setInst_corr (k : Nat) (x : Inst) : (s.setInst k x).corr = s.corr := rfl
@[simp] theorem setInst_sramBad (k : Nat) (x : Inst) : (s.setInst k x).sramBad = s.sramBad := rfl
@[simp] theorem setInst_sramCorr (k : Nat) (x : Inst) : (s.setInst k x).sramCorr = s.sramCorr := rfl
@[simp] theorem setInst_dies (k : Nat) (x : Inst) : (s.setInst k x).dies = s.dies := rfl
@[simp] theorem setInst_launches (k : Nat) (x : Inst) : (s.setInst k x).launches = s.launches := rfl
@[simp] theorem setInst_insts (k : Nat) (x : Inst) : (s.setInst k x).insts = Tab.set s.insts k x := rfl
@[simp] theorem setInst_gangs (k : Nat) (x : Inst) : (s.setInst k x).gangs = s.gangs := rfl
@[simp] theorem setInst_groups (k : Nat) (x : Inst) : (s.setInst k x).groups = s.groups := rfl
@[simp] theorem setInst_ctxs (k : Nat) (x : Inst) : (s.setInst k x).ctxs = s.ctxs := rfl
@[simp] theorem setInst_resvs (k : Nat) (x : Inst) : (s.setInst k x).resvs = s.resvs := rfl
@[simp] theorem setInst_slots (k : Nat) (x : Inst) : (s.setInst k x).slots = s.slots := rfl
@[simp] theorem setInst_msgs (k : Nat) (x : Inst) : (s.setInst k x).msgs = s.msgs := rfl
@[simp] theorem setInst_inbox (k : Nat) (x : Inst) : (s.setInst k x).inbox = s.inbox := rfl
@[simp] theorem setInst_hostClock (k : Nat) (x : Inst) : (s.setInst k x).hostClock = s.hostClock := rfl
@[simp] theorem setInst_hostAcked (k : Nat) (x : Inst) : (s.setInst k x).hostAcked = s.hostAcked := rfl
@[simp] theorem setInst_hostEvents (k : Nat) (x : Inst) : (s.setInst k x).hostEvents = s.hostEvents := rfl
@[simp] theorem setInst_hostReads (k : Nat) (x : Inst) : (s.setInst k x).hostReads = s.hostReads := rfl
@[simp] theorem setInst_nextLaunch (k : Nat) (x : Inst) : (s.setInst k x).nextLaunch = s.nextLaunch := rfl
@[simp] theorem setInst_nextGang (k : Nat) (x : Inst) : (s.setInst k x).nextGang = s.nextGang := rfl
@[simp] theorem setInst_tick (k : Nat) (x : Inst) : (s.setInst k x).tick = s.tick := rfl
@[simp] theorem setInst_corrSeen (k : Nat) (x : Inst) : (s.setInst k x).corrSeen = s.corrSeen := rfl
@[simp] theorem setInst_actor (k : Nat) (x : Inst) : (s.setInst k x).actor = s.actor := rfl
@[simp] theorem setInst_agenda (k : Nat) (x : Inst) : (s.setInst k x).agenda = s.agenda := rfl

@[simp] theorem setDie_form (k : Nat) (x : Die) : (s.setDie k x).form = s.form := rfl
@[simp] theorem setDie_frozen (k : Nat) (x : Die) : (s.setDie k x).frozen = s.frozen := rfl
@[simp] theorem setDie_mem (k : Nat) (x : Die) : (s.setDie k x).mem = s.mem := rfl
@[simp] theorem setDie_bad (k : Nat) (x : Die) : (s.setDie k x).bad = s.bad := rfl
@[simp] theorem setDie_corr (k : Nat) (x : Die) : (s.setDie k x).corr = s.corr := rfl
@[simp] theorem setDie_sramBad (k : Nat) (x : Die) : (s.setDie k x).sramBad = s.sramBad := rfl
@[simp] theorem setDie_sramCorr (k : Nat) (x : Die) : (s.setDie k x).sramCorr = s.sramCorr := rfl
@[simp] theorem setDie_dies (k : Nat) (x : Die) : (s.setDie k x).dies = Tab.set s.dies k x := rfl
@[simp] theorem setDie_launches (k : Nat) (x : Die) : (s.setDie k x).launches = s.launches := rfl
@[simp] theorem setDie_insts (k : Nat) (x : Die) : (s.setDie k x).insts = s.insts := rfl
@[simp] theorem setDie_gangs (k : Nat) (x : Die) : (s.setDie k x).gangs = s.gangs := rfl
@[simp] theorem setDie_groups (k : Nat) (x : Die) : (s.setDie k x).groups = s.groups := rfl
@[simp] theorem setDie_ctxs (k : Nat) (x : Die) : (s.setDie k x).ctxs = s.ctxs := rfl
@[simp] theorem setDie_resvs (k : Nat) (x : Die) : (s.setDie k x).resvs = s.resvs := rfl
@[simp] theorem setDie_slots (k : Nat) (x : Die) : (s.setDie k x).slots = s.slots := rfl
@[simp] theorem setDie_msgs (k : Nat) (x : Die) : (s.setDie k x).msgs = s.msgs := rfl
@[simp] theorem setDie_inbox (k : Nat) (x : Die) : (s.setDie k x).inbox = s.inbox := rfl
@[simp] theorem setDie_hostClock (k : Nat) (x : Die) : (s.setDie k x).hostClock = s.hostClock := rfl
@[simp] theorem setDie_hostAcked (k : Nat) (x : Die) : (s.setDie k x).hostAcked = s.hostAcked := rfl
@[simp] theorem setDie_hostEvents (k : Nat) (x : Die) : (s.setDie k x).hostEvents = s.hostEvents := rfl
@[simp] theorem setDie_hostReads (k : Nat) (x : Die) : (s.setDie k x).hostReads = s.hostReads := rfl
@[simp] theorem setDie_nextLaunch (k : Nat) (x : Die) : (s.setDie k x).nextLaunch = s.nextLaunch := rfl
@[simp] theorem setDie_nextGang (k : Nat) (x : Die) : (s.setDie k x).nextGang = s.nextGang := rfl
@[simp] theorem setDie_tick (k : Nat) (x : Die) : (s.setDie k x).tick = s.tick := rfl
@[simp] theorem setDie_corrSeen (k : Nat) (x : Die) : (s.setDie k x).corrSeen = s.corrSeen := rfl
@[simp] theorem setDie_actor (k : Nat) (x : Die) : (s.setDie k x).actor = s.actor := rfl
@[simp] theorem setDie_agenda (k : Nat) (x : Die) : (s.setDie k x).agenda = s.agenda := rfl

@[simp] theorem setSlot_form (k : Nat) (x : Slot) : (s.setSlot k x).form = s.form := rfl
@[simp] theorem setSlot_frozen (k : Nat) (x : Slot) : (s.setSlot k x).frozen = s.frozen := rfl
@[simp] theorem setSlot_mem (k : Nat) (x : Slot) : (s.setSlot k x).mem = s.mem := rfl
@[simp] theorem setSlot_bad (k : Nat) (x : Slot) : (s.setSlot k x).bad = s.bad := rfl
@[simp] theorem setSlot_corr (k : Nat) (x : Slot) : (s.setSlot k x).corr = s.corr := rfl
@[simp] theorem setSlot_sramBad (k : Nat) (x : Slot) : (s.setSlot k x).sramBad = s.sramBad := rfl
@[simp] theorem setSlot_sramCorr (k : Nat) (x : Slot) : (s.setSlot k x).sramCorr = s.sramCorr := rfl
@[simp] theorem setSlot_dies (k : Nat) (x : Slot) : (s.setSlot k x).dies = s.dies := rfl
@[simp] theorem setSlot_launches (k : Nat) (x : Slot) : (s.setSlot k x).launches = s.launches := rfl
@[simp] theorem setSlot_insts (k : Nat) (x : Slot) : (s.setSlot k x).insts = s.insts := rfl
@[simp] theorem setSlot_gangs (k : Nat) (x : Slot) : (s.setSlot k x).gangs = s.gangs := rfl
@[simp] theorem setSlot_groups (k : Nat) (x : Slot) : (s.setSlot k x).groups = s.groups := rfl
@[simp] theorem setSlot_ctxs (k : Nat) (x : Slot) : (s.setSlot k x).ctxs = s.ctxs := rfl
@[simp] theorem setSlot_resvs (k : Nat) (x : Slot) : (s.setSlot k x).resvs = s.resvs := rfl
@[simp] theorem setSlot_slots (k : Nat) (x : Slot) : (s.setSlot k x).slots = Tab.set s.slots k x := rfl
@[simp] theorem setSlot_msgs (k : Nat) (x : Slot) : (s.setSlot k x).msgs = s.msgs := rfl
@[simp] theorem setSlot_inbox (k : Nat) (x : Slot) : (s.setSlot k x).inbox = s.inbox := rfl
@[simp] theorem setSlot_hostClock (k : Nat) (x : Slot) : (s.setSlot k x).hostClock = s.hostClock := rfl
@[simp] theorem setSlot_hostAcked (k : Nat) (x : Slot) : (s.setSlot k x).hostAcked = s.hostAcked := rfl
@[simp] theorem setSlot_hostEvents (k : Nat) (x : Slot) : (s.setSlot k x).hostEvents = s.hostEvents := rfl
@[simp] theorem setSlot_hostReads (k : Nat) (x : Slot) : (s.setSlot k x).hostReads = s.hostReads := rfl
@[simp] theorem setSlot_nextLaunch (k : Nat) (x : Slot) : (s.setSlot k x).nextLaunch = s.nextLaunch := rfl
@[simp] theorem setSlot_nextGang (k : Nat) (x : Slot) : (s.setSlot k x).nextGang = s.nextGang := rfl
@[simp] theorem setSlot_tick (k : Nat) (x : Slot) : (s.setSlot k x).tick = s.tick := rfl
@[simp] theorem setSlot_corrSeen (k : Nat) (x : Slot) : (s.setSlot k x).corrSeen = s.corrSeen := rfl
@[simp] theorem setSlot_actor (k : Nat) (x : Slot) : (s.setSlot k x).actor = s.actor := rfl
@[simp] theorem setSlot_agenda (k : Nat) (x : Slot) : (s.setSlot k x).agenda = s.agenda := rfl

@[simp] theorem tickOn_form : (s.tickOn).form = s.form := rfl
@[simp] theorem tickOn_frozen : (s.tickOn).frozen = s.frozen := rfl
@[simp] theorem tickOn_mem : (s.tickOn).mem = s.mem := rfl
@[simp] theorem tickOn_bad : (s.tickOn).bad = s.bad := rfl
@[simp] theorem tickOn_corr : (s.tickOn).corr = s.corr := rfl
@[simp] theorem tickOn_sramBad : (s.tickOn).sramBad = s.sramBad := rfl
@[simp] theorem tickOn_sramCorr : (s.tickOn).sramCorr = s.sramCorr := rfl
@[simp] theorem tickOn_dies : (s.tickOn).dies = s.dies := rfl
@[simp] theorem tickOn_launches : (s.tickOn).launches = s.launches := rfl
@[simp] theorem tickOn_insts : (s.tickOn).insts = s.insts := rfl
@[simp] theorem tickOn_gangs : (s.tickOn).gangs = s.gangs := rfl
@[simp] theorem tickOn_groups : (s.tickOn).groups = s.groups := rfl
@[simp] theorem tickOn_ctxs : (s.tickOn).ctxs = s.ctxs := rfl
@[simp] theorem tickOn_resvs : (s.tickOn).resvs = s.resvs := rfl
@[simp] theorem tickOn_slots : (s.tickOn).slots = s.slots := rfl
@[simp] theorem tickOn_msgs : (s.tickOn).msgs = s.msgs := rfl
@[simp] theorem tickOn_inbox : (s.tickOn).inbox = s.inbox := rfl
@[simp] theorem tickOn_hostClock : (s.tickOn).hostClock = s.hostClock := rfl
@[simp] theorem tickOn_hostAcked : (s.tickOn).hostAcked = s.hostAcked := rfl
@[simp] theorem tickOn_hostEvents : (s.tickOn).hostEvents = s.hostEvents := rfl
@[simp] theorem tickOn_hostReads : (s.tickOn).hostReads = s.hostReads := rfl
@[simp] theorem tickOn_nextLaunch : (s.tickOn).nextLaunch = s.nextLaunch := rfl
@[simp] theorem tickOn_nextGang : (s.tickOn).nextGang = s.nextGang := rfl
@[simp] theorem tickOn_tick : (s.tickOn).tick = s.tick + 1 := rfl
@[simp] theorem tickOn_corrSeen : (s.tickOn).corrSeen = s.corrSeen := rfl
@[simp] theorem tickOn_actor : (s.tickOn).actor = s.actor := rfl
@[simp] theorem tickOn_agenda : (s.tickOn).agenda = s.agenda := rfl

@[simp] theorem store_form (k n v : Nat) : (s.store k n v).form = s.form := rfl
@[simp] theorem store_frozen (k n v : Nat) : (s.store k n v).frozen = s.frozen := rfl
@[simp] theorem store_mem (k n v : Nat) : (s.store k n v).mem = Mem.put s.mem k n v := rfl
@[simp] theorem store_bad (k n v : Nat) :
    (s.store k n v).bad = s.bad.filter (fun x => !(decide (k ≤ 32 * x) && decide (32 * x + 32 ≤ k + n))) := rfl
@[simp] theorem store_corr (k n v : Nat) :
    (s.store k n v).corr = s.corr.filter (fun x => !(decide (k ≤ 32 * x) && decide (32 * x + 32 ≤ k + n))) := rfl
@[simp] theorem store_dies (k n v : Nat) : (s.store k n v).dies = s.dies := rfl
@[simp] theorem store_launches (k n v : Nat) : (s.store k n v).launches = s.launches := rfl
@[simp] theorem store_insts (k n v : Nat) : (s.store k n v).insts = s.insts := rfl
@[simp] theorem store_gangs (k n v : Nat) : (s.store k n v).gangs = s.gangs := rfl
@[simp] theorem store_groups (k n v : Nat) : (s.store k n v).groups = s.groups := rfl
@[simp] theorem store_ctxs (k n v : Nat) : (s.store k n v).ctxs = s.ctxs := rfl
@[simp] theorem store_resvs (k n v : Nat) : (s.store k n v).resvs = s.resvs := rfl
@[simp] theorem store_slots (k n v : Nat) : (s.store k n v).slots = s.slots := rfl
@[simp] theorem store_msgs (k n v : Nat) : (s.store k n v).msgs = s.msgs := rfl
@[simp] theorem store_inbox (k n v : Nat) : (s.store k n v).inbox = s.inbox := rfl
@[simp] theorem store_hostClock (k n v : Nat) : (s.store k n v).hostClock = s.hostClock := rfl
@[simp] theorem store_hostAcked (k n v : Nat) : (s.store k n v).hostAcked = s.hostAcked := rfl
@[simp] theorem store_hostEvents (k n v : Nat) : (s.store k n v).hostEvents = s.hostEvents := rfl
@[simp] theorem store_hostReads (k n v : Nat) : (s.store k n v).hostReads = s.hostReads := rfl
@[simp] theorem store_nextLaunch (k n v : Nat) : (s.store k n v).nextLaunch = s.nextLaunch := rfl
@[simp] theorem store_nextGang (k n v : Nat) : (s.store k n v).nextGang = s.nextGang := rfl
@[simp] theorem store_tick (k n v : Nat) : (s.store k n v).tick = s.tick := rfl
@[simp] theorem store_corrSeen (k n v : Nat) : (s.store k n v).corrSeen = s.corrSeen := rfl
@[simp] theorem store_actor (k n v : Nat) : (s.store k n v).actor = s.actor := rfl
@[simp] theorem store_agenda (k n v : Nat) : (s.store k n v).agenda = s.agenda := rfl

end

/-! ## Updates one after another -/

section

variable (s : State) (m m' : List Host.Cell)

@[simp] theorem setMem_self : s.setMem s.mem = s := rfl
@[simp] theorem setMem_setMem : (s.setMem m).setMem m' = s.setMem m' := rfl
@[simp] theorem setGroup_setMem (k : Nat) (x : Group) : (s.setGroup k x).setMem m = (s.setMem m).setGroup k x := rfl
@[simp] theorem setCtx_setMem (k : Nat) (x : Ctx) : (s.setCtx k x).setMem m = (s.setMem m).setCtx k x := rfl
@[simp] theorem setGang_setMem (k : Nat) (x : Gang) : (s.setGang k x).setMem m = (s.setMem m).setGang k x := rfl
@[simp] theorem setLaunch_setMem (k : Nat) (x : Launch) : (s.setLaunch k x).setMem m = (s.setMem m).setLaunch k x := rfl
@[simp] theorem setInst_setMem (k : Nat) (x : Inst) : (s.setInst k x).setMem m = (s.setMem m).setInst k x := rfl
@[simp] theorem setDie_setMem (k : Nat) (x : Die) : (s.setDie k x).setMem m = (s.setMem m).setDie k x := rfl
@[simp] theorem setSlot_setMem (k : Nat) (x : Slot) : (s.setSlot k x).setMem m = (s.setMem m).setSlot k x := rfl
@[simp] theorem tickOn_setMem : (s.tickOn).setMem m = (s.setMem m).tickOn := rfl

@[simp] theorem setGroup_setGroup (k : Nat) (x y : Group) : (s.setGroup k x).setGroup k y = s.setGroup k y := by
  simp [State.setGroup, Tab.set_set]

@[simp] theorem setCtx_setCtx (k : Nat) (x y : Ctx) : (s.setCtx k x).setCtx k y = s.setCtx k y := by
  simp [State.setCtx, Tab.set_set]

@[simp] theorem setGang_setGang (k : Nat) (x y : Gang) : (s.setGang k x).setGang k y = s.setGang k y := by
  simp [State.setGang, Tab.set_set]

@[simp] theorem setLaunch_setLaunch (k : Nat) (x y : Launch) : (s.setLaunch k x).setLaunch k y = s.setLaunch k y := by
  simp [State.setLaunch, Tab.set_set]

@[simp] theorem setInst_setInst (k : Nat) (x y : Inst) : (s.setInst k x).setInst k y = s.setInst k y := by
  simp [State.setInst, Tab.set_set]

@[simp] theorem setDie_setDie (k : Nat) (x y : Die) : (s.setDie k x).setDie k y = s.setDie k y := by
  simp [State.setDie, Tab.set_set]

@[simp] theorem setSlot_setSlot (k : Nat) (x y : Slot) : (s.setSlot k x).setSlot k y = s.setSlot k y := by
  simp [State.setSlot, Tab.set_set]

end

/-! ## What reads only other fields -/

section

variable (s : State)

@[simp] theorem setMem_issuer (m : List Host.Cell) : (s.setMem m).issuer = s.issuer := rfl
@[simp] theorem setMem_gangOf (m : List Host.Cell) (u : Who) : (s.setMem m).gangOf u = s.gangOf u := rfl
@[simp] theorem setMem_stream (m : List Host.Cell) (u : Who) : (s.setMem m).stream u = s.stream u := rfl
@[simp] theorem setMem_debugOf (m : List Host.Cell) (u : Who) : (s.setMem m).debugOf u = s.debugOf u := rfl
@[simp] theorem setMem_stepped (m : List Host.Cell) (u : Who) (y : Nat) (st : Stream) :
    (s.setMem m).stepped u y st = s.stepped u y st := rfl
@[simp] theorem setMem_launchRec (m : List Host.Cell) (l : Nat) : (s.setMem m).launchRec l = s.launchRec l := rfl
@[simp] theorem setMem_die (m : List Host.Cell) (d : Nat) : (s.setMem m).die d = s.die d := rfl

@[simp] theorem setGroup_issuer (k : Nat) (x : Group) : (s.setGroup k x).issuer = s.issuer := rfl
@[simp] theorem setGroup_gangOf (k : Nat) (x : Group) (u : Who) : (s.setGroup k x).gangOf u = s.gangOf u := rfl
@[simp] theorem setGroup_debugOf (k : Nat) (x : Group) (u : Who) : (s.setGroup k x).debugOf u = s.debugOf u := rfl
@[simp] theorem setGroup_stepped (k : Nat) (x : Group) (u : Who) (y : Nat) (st : Stream) :
    (s.setGroup k x).stepped u y st = s.stepped u y st := rfl
@[simp] theorem setGroup_launchRec (k : Nat) (x : Group) (l : Nat) : (s.setGroup k x).launchRec l = s.launchRec l := rfl
@[simp] theorem setGroup_die (k : Nat) (x : Group) (d : Nat) : (s.setGroup k x).die d = s.die d := rfl

@[simp] theorem setCtx_issuer (k : Nat) (x : Ctx) : (s.setCtx k x).issuer = s.issuer := rfl
@[simp] theorem setCtx_gangOf (k : Nat) (x : Ctx) (u : Who) : (s.setCtx k x).gangOf u = s.gangOf u := rfl
@[simp] theorem setCtx_debugOf (k : Nat) (x : Ctx) (u : Who) : (s.setCtx k x).debugOf u = s.debugOf u := rfl
@[simp] theorem setCtx_stepped (k : Nat) (x : Ctx) (u : Who) (y : Nat) (st : Stream) :
    (s.setCtx k x).stepped u y st = s.stepped u y st := rfl
@[simp] theorem setCtx_launchRec (k : Nat) (x : Ctx) (l : Nat) : (s.setCtx k x).launchRec l = s.launchRec l := rfl
@[simp] theorem setCtx_die (k : Nat) (x : Ctx) (d : Nat) : (s.setCtx k x).die d = s.die d := rfl

@[simp] theorem setGang_issuer (k : Nat) (x : Gang) : (s.setGang k x).issuer = s.issuer := rfl
@[simp] theorem setGang_stream (k : Nat) (x : Gang) (u : Who) : (s.setGang k x).stream u = s.stream u := rfl
@[simp] theorem setGang_launchRec (k : Nat) (x : Gang) (l : Nat) : (s.setGang k x).launchRec l = s.launchRec l := rfl
@[simp] theorem setGang_die (k : Nat) (x : Gang) (d : Nat) : (s.setGang k x).die d = s.die d := rfl

@[simp] theorem setLaunch_issuer (k : Nat) (x : Launch) : (s.setLaunch k x).issuer = s.issuer := rfl
@[simp] theorem setLaunch_gangOf (k : Nat) (x : Launch) (u : Who) : (s.setLaunch k x).gangOf u = s.gangOf u := rfl
@[simp] theorem setLaunch_stream (k : Nat) (x : Launch) (u : Who) : (s.setLaunch k x).stream u = s.stream u := rfl
@[simp] theorem setLaunch_debugOf (k : Nat) (x : Launch) (u : Who) : (s.setLaunch k x).debugOf u = s.debugOf u := rfl
@[simp] theorem setLaunch_stepped (k : Nat) (x : Launch) (u : Who) (y : Nat) (st : Stream) :
    (s.setLaunch k x).stepped u y st = s.stepped u y st := rfl
@[simp] theorem setLaunch_die (k : Nat) (x : Launch) (d : Nat) : (s.setLaunch k x).die d = s.die d := rfl

@[simp] theorem setInst_issuer (k : Nat) (x : Inst) : (s.setInst k x).issuer = s.issuer := rfl
@[simp] theorem setInst_gangOf (k : Nat) (x : Inst) (u : Who) : (s.setInst k x).gangOf u = s.gangOf u := rfl
@[simp] theorem setInst_stream (k : Nat) (x : Inst) (u : Who) : (s.setInst k x).stream u = s.stream u := rfl
@[simp] theorem setInst_debugOf (k : Nat) (x : Inst) (u : Who) : (s.setInst k x).debugOf u = s.debugOf u := rfl
@[simp] theorem setInst_stepped (k : Nat) (x : Inst) (u : Who) (y : Nat) (st : Stream) :
    (s.setInst k x).stepped u y st = s.stepped u y st := rfl
@[simp] theorem setInst_launchRec (k : Nat) (x : Inst) (l : Nat) : (s.setInst k x).launchRec l = s.launchRec l := rfl
@[simp] theorem setInst_die (k : Nat) (x : Inst) (d : Nat) : (s.setInst k x).die d = s.die d := rfl

@[simp] theorem setDie_issuer (k : Nat) (x : Die) : (s.setDie k x).issuer = s.issuer := rfl
@[simp] theorem setDie_gangOf (k : Nat) (x : Die) (u : Who) : (s.setDie k x).gangOf u = s.gangOf u := rfl
@[simp] theorem setDie_stream (k : Nat) (x : Die) (u : Who) : (s.setDie k x).stream u = s.stream u := rfl
@[simp] theorem setDie_launchRec (k : Nat) (x : Die) (l : Nat) : (s.setDie k x).launchRec l = s.launchRec l := rfl

@[simp] theorem setSlot_issuer (k : Nat) (x : Slot) : (s.setSlot k x).issuer = s.issuer := rfl
@[simp] theorem setSlot_gangOf (k : Nat) (x : Slot) (u : Who) : (s.setSlot k x).gangOf u = s.gangOf u := rfl
@[simp] theorem setSlot_stream (k : Nat) (x : Slot) (u : Who) : (s.setSlot k x).stream u = s.stream u := rfl
@[simp] theorem setSlot_debugOf (k : Nat) (x : Slot) (u : Who) : (s.setSlot k x).debugOf u = s.debugOf u := rfl
@[simp] theorem setSlot_stepped (k : Nat) (x : Slot) (u : Who) (y : Nat) (st : Stream) :
    (s.setSlot k x).stepped u y st = s.stepped u y st := rfl
@[simp] theorem setSlot_launchRec (k : Nat) (x : Slot) (l : Nat) : (s.setSlot k x).launchRec l = s.launchRec l := rfl
@[simp] theorem setSlot_die (k : Nat) (x : Slot) (d : Nat) : (s.setSlot k x).die d = s.die d := rfl

@[simp] theorem tickOn_issuer : (s.tickOn).issuer = s.issuer := rfl
@[simp] theorem tickOn_gangOf (u : Who) : (s.tickOn).gangOf u = s.gangOf u := rfl
@[simp] theorem tickOn_stream (u : Who) : (s.tickOn).stream u = s.stream u := rfl
@[simp] theorem tickOn_debugOf (u : Who) : (s.tickOn).debugOf u = s.debugOf u := rfl
@[simp] theorem tickOn_stepped (u : Who) (y : Nat) (st : Stream) :
    (s.tickOn).stepped u y st = s.stepped u y st := rfl
@[simp] theorem tickOn_launchRec (l : Nat) : (s.tickOn).launchRec l = s.launchRec l := rfl
@[simp] theorem tickOn_die (d : Nat) : (s.tickOn).die d = s.die d := rfl

@[simp] theorem store_issuer (k n v : Nat) : (s.store k n v).issuer = s.issuer := rfl
@[simp] theorem store_gangOf (k n v : Nat) (u : Who) : (s.store k n v).gangOf u = s.gangOf u := rfl
@[simp] theorem store_stream (k n v : Nat) (u : Who) : (s.store k n v).stream u = s.stream u := rfl
@[simp] theorem store_debugOf (k n v : Nat) (u : Who) : (s.store k n v).debugOf u = s.debugOf u := rfl
@[simp] theorem store_stepped (k n v : Nat) (u : Who) (y : Nat) (st : Stream) :
    (s.store k n v).stepped u y st = s.stepped u y st := rfl
@[simp] theorem store_launchRec (k n v : Nat) (l : Nat) : (s.store k n v).launchRec l = s.launchRec l := rfl
@[simp] theorem store_die (k n v : Nat) (d : Nat) : (s.store k n v).die d = s.die d := rfl

@[simp] theorem setGroup_stream (k : Nat) (x : Group) : (s.setGroup k x).stream (.group k) = some x.st := by
  simp [State.stream]
@[simp] theorem setCtx_stream (k : Nat) (x : Ctx) : (s.setCtx k x).stream (.ctx k) = some x.st := by
  simp [State.stream]
@[simp] theorem setGroup_stream_ctx (k c : Nat) (x : Group) : (s.setGroup k x).stream (.ctx c) = s.stream (.ctx c) := rfl
@[simp] theorem setCtx_stream_group (k g : Nat) (x : Ctx) : (s.setCtx k x).stream (.group g) = s.stream (.group g) := rfl

end

/-! ## Streams -/

section

variable {s : State}

theorem stream_group {k : Nat} {g : Group} (h : Tab.find s.groups k = some g) : s.stream (.group k) = some g.st := by
  simp [State.stream, h]

theorem stream_ctx {k : Nat} {c : Ctx} (h : Tab.find s.ctxs k = some c) : s.stream (.ctx k) = some c.st := by
  simp [State.stream, h]

theorem setStream_group {k : Nat} {g : Group} (h : Tab.find s.groups k = some g) (st : Stream) :
    s.setStream (.group k) st = s.setGroup k { g with st := st } := by
  simp [State.setStream, h]

theorem setStream_ctx {k : Nat} {c : Ctx} (h : Tab.find s.ctxs k = some c) (st : Stream) :
    s.setStream (.ctx k) st = s.setCtx k { c with st := st } := by
  simp [State.setStream, h]

/-- Putting a stream back gives that stream. -/
theorem setStream_stream {u : Who} {st : Stream} (h : s.stream u = some st) (t : Stream) :
    (s.setStream u t).stream u = some t := by
  cases u with
  | group k =>
    cases hg : Tab.find s.groups k with
    | none => simp [State.stream, hg] at h
    | some g => simp [setStream_group hg, State.stream]
  | ctx k =>
    cases hc : Tab.find s.ctxs k with
    | none => simp [State.stream, hc] at h
    | some c => simp [setStream_ctx hc, State.stream]

/-- The later of two streams stays. -/
theorem setStream_setStream (u : Who) (t t' : Stream) : (s.setStream u t).setStream u t' = s.setStream u t' := by
  cases u with
  | group k =>
    cases hg : Tab.find s.groups k with
    | none => simp [State.setStream, hg]
    | some g => simp [State.setStream, hg]
  | ctx k =>
    cases hc : Tab.find s.ctxs k with
    | none => simp [State.setStream, hc]
    | some c => simp [State.setStream, hc]

@[simp] theorem setStream_form (s : State) (u : Who) (st : Stream) : (s.setStream u st).form = s.form := by
  cases u <;> (simp only [State.setStream]; split <;> rfl)

@[simp] theorem setStream_frozen (s : State) (u : Who) (st : Stream) : (s.setStream u st).frozen = s.frozen := by
  cases u <;> (simp only [State.setStream]; split <;> rfl)

@[simp] theorem setStream_mem (s : State) (u : Who) (st : Stream) : (s.setStream u st).mem = s.mem := by
  cases u <;> (simp only [State.setStream]; split <;> rfl)

@[simp] theorem setStream_bad (s : State) (u : Who) (st : Stream) : (s.setStream u st).bad = s.bad := by
  cases u <;> (simp only [State.setStream]; split <;> rfl)

@[simp] theorem setStream_corr (s : State) (u : Who) (st : Stream) : (s.setStream u st).corr = s.corr := by
  cases u <;> (simp only [State.setStream]; split <;> rfl)

@[simp] theorem setStream_sramBad (s : State) (u : Who) (st : Stream) : (s.setStream u st).sramBad = s.sramBad := by
  cases u <;> (simp only [State.setStream]; split <;> rfl)

@[simp] theorem setStream_sramCorr (s : State) (u : Who) (st : Stream) : (s.setStream u st).sramCorr = s.sramCorr := by
  cases u <;> (simp only [State.setStream]; split <;> rfl)

@[simp] theorem setStream_corrSeen (s : State) (u : Who) (st : Stream) : (s.setStream u st).corrSeen = s.corrSeen := by
  cases u <;> (simp only [State.setStream]; split <;> rfl)

@[simp] theorem setStream_dies (s : State) (u : Who) (st : Stream) : (s.setStream u st).dies = s.dies := by
  cases u <;> (simp only [State.setStream]; split <;> rfl)

@[simp] theorem setStream_launches (s : State) (u : Who) (st : Stream) : (s.setStream u st).launches = s.launches := by
  cases u <;> (simp only [State.setStream]; split <;> rfl)

@[simp] theorem setStream_insts (s : State) (u : Who) (st : Stream) : (s.setStream u st).insts = s.insts := by
  cases u <;> (simp only [State.setStream]; split <;> rfl)

@[simp] theorem setStream_gangs (s : State) (u : Who) (st : Stream) : (s.setStream u st).gangs = s.gangs := by
  cases u <;> (simp only [State.setStream]; split <;> rfl)

@[simp] theorem setStream_resvs (s : State) (u : Who) (st : Stream) : (s.setStream u st).resvs = s.resvs := by
  cases u <;> (simp only [State.setStream]; split <;> rfl)

@[simp] theorem setStream_slots (s : State) (u : Who) (st : Stream) : (s.setStream u st).slots = s.slots := by
  cases u <;> (simp only [State.setStream]; split <;> rfl)

@[simp] theorem setStream_msgs (s : State) (u : Who) (st : Stream) : (s.setStream u st).msgs = s.msgs := by
  cases u <;> (simp only [State.setStream]; split <;> rfl)

@[simp] theorem setStream_inbox (s : State) (u : Who) (st : Stream) : (s.setStream u st).inbox = s.inbox := by
  cases u <;> (simp only [State.setStream]; split <;> rfl)

@[simp] theorem setStream_hostClock (s : State) (u : Who) (st : Stream) : (s.setStream u st).hostClock = s.hostClock := by
  cases u <;> (simp only [State.setStream]; split <;> rfl)

@[simp] theorem setStream_hostAcked (s : State) (u : Who) (st : Stream) : (s.setStream u st).hostAcked = s.hostAcked := by
  cases u <;> (simp only [State.setStream]; split <;> rfl)

@[simp] theorem setStream_hostEvents (s : State) (u : Who) (st : Stream) : (s.setStream u st).hostEvents = s.hostEvents := by
  cases u <;> (simp only [State.setStream]; split <;> rfl)

@[simp] theorem setStream_hostReads (s : State) (u : Who) (st : Stream) : (s.setStream u st).hostReads = s.hostReads := by
  cases u <;> (simp only [State.setStream]; split <;> rfl)

@[simp] theorem setStream_nextLaunch (s : State) (u : Who) (st : Stream) : (s.setStream u st).nextLaunch = s.nextLaunch := by
  cases u <;> (simp only [State.setStream]; split <;> rfl)

@[simp] theorem setStream_nextGang (s : State) (u : Who) (st : Stream) : (s.setStream u st).nextGang = s.nextGang := by
  cases u <;> (simp only [State.setStream]; split <;> rfl)

@[simp] theorem setStream_tick (s : State) (u : Who) (st : Stream) : (s.setStream u st).tick = s.tick := by
  cases u <;> (simp only [State.setStream]; split <;> rfl)

@[simp] theorem setStream_actor (s : State) (u : Who) (st : Stream) : (s.setStream u st).actor = s.actor := by
  cases u <;> (simp only [State.setStream]; split <;> rfl)

@[simp] theorem setStream_agenda (s : State) (u : Who) (st : Stream) : (s.setStream u st).agenda = s.agenda := by
  cases u <;> (simp only [State.setStream]; split <;> rfl)

@[simp] theorem setStream_setMem (s : State) (u : Who) (st : Stream) (m : List Host.Cell) :
    (s.setStream u st).setMem m = (s.setMem m).setStream u st := by
  cases u <;> (simp only [State.setStream]; split <;> simp_all [State.setMem, State.setGroup, State.setCtx])

theorem setGroup_tickOn (s : State) (k : Nat) (g : Group) : (s.setGroup k g).tickOn = s.tickOn.setGroup k g := rfl

@[simp] theorem setStream_issuer (s : State) (v : Who) (st : Stream) : (s.setStream v st).issuer = s.issuer := by
  simp [State.issuer]

end

end Sys2Proof.Machine
end

