-- ==== Sys2Proof/Laws/Act.lean ====
section
/-! SUPPORT. How a meaning's computation runs: one equation for each of its building blocks, so that no proof unfolds the
state monad. -/

set_option linter.unusedVariables false

namespace Sys2Proof.Machine

open Sys2Proof

section

variable {α β : Type} (w : Work) (s : State)

@[simp] theorem run_pure (a : α) : (pure a : Act α) w = .ok (a, w) := rfl

@[simp] theorem run_bind (m : Act α) (f : α → Act β) :
    (m >>= f) w = match m w with
      | .ok (a, v) => f a v
      | .error e => .error e := by
  show StateT.bind m f w = _
  unfold StateT.bind
  cases m w with
  | ok p => rfl
  | error e => rfl

@[simp] theorem run_map (m : Act α) (f : α → β) :
    (f <$> m) w = match m w with
      | .ok (a, v) => .ok (f a, v)
      | .error e => .error e := by
  show StateT.map f m w = _
  unfold StateT.map
  cases h : m w with
  | ok p => simp [bind, Except.bind, h, pure, Except.pure]
  | error e => simp [bind, Except.bind, h]

@[simp] theorem run_now : now w = .ok (w.cur, w) := rfl

@[simp] theorem run_get : (get : Act Work) w = .ok (w, w) := rfl

@[simp] theorem run_upd (f : State → State) :
    upd f w = .ok ((), ⟨(f w.cur).setMem w.cur.mem, w.stores⟩) := rfl

@[simp] theorem run_halt (e : Stop) : (halt e : Act α) w = .error e := rfl

@[simp] theorem run_throw (e : Stop) : (throw e : Act α) w = .error e := rfl

@[simp] theorem run_stall : (stall : Act α) w = .error .stall := rfl

@[simp] theorem run_ite (c : Prop) [Decidable c] (a b : Act α) : (if c then a else b) w = if c then a w else b w := by
  split <;> rfl

@[simp] theorem run_poke (k n v : Nat) : poke k n v w = .ok ((), ⟨w.cur.store k n v, (k, n, v) :: w.stores⟩) := rfl

@[simp] theorem run_guardA (b : Bool) : guardA b w = if b then .ok ((), w) else .error .stall := by
  cases b <;> rfl

@[simp] theorem run_need_some (a : α) : (need (some a) : Act α) w = .ok (a, w) := rfl

@[simp] theorem run_need_none : (need none : Act α) w = .error .stall := rfl

/-- A computation that answers leads to the next state. -/
theorem perform_ok {m : Act Unit} {v : Work} (h : m ⟨s, []⟩ = .ok ((), v)) :
    perform m s = .next (v.cur.setMem (storeAll s.mem v.stores)) := by
  simp [perform, h]

/-- A computation that stops leaves the machine as the stop says. -/
theorem perform_stop {m : Act Unit} {e : Stop} {t : State} (h : m ⟨s, []⟩ = .error e) (ht : s.halted e = some t) :
    perform m s = .next t := by
  simp [perform, h, ht]

/-- What a meaning answers, said once: its own effect, the state of its stop, or the fault of a missing stream. -/
theorem perform_cases (m : Act Unit) :
    (∃ v, m ⟨s, []⟩ = .ok ((), v) ∧ perform m s = .next (v.cur.setMem (storeAll s.mem v.stores))) ∨
    (∃ e t, m ⟨s, []⟩ = .error e ∧ s.halted e = some t ∧ perform m s = .next t) ∨
    (∃ e, m ⟨s, []⟩ = .error e ∧ s.halted e = none ∧ perform m s = .fault .noStream) := by
  unfold perform
  cases h : m ⟨s, []⟩ with
  | ok p => exact .inl ⟨p.2, by simp⟩
  | error e =>
    cases ht : s.halted e with
    | some t => exact .inr (.inl ⟨e, t, by simp [ht]⟩)
    | none => exact .inr (.inr ⟨e, by simp [ht]⟩)

/-- A word that needs only its stream ends as its stream says. -/
theorem onStream_eq {s : State} {u : Who} {st : Stream} (h : s.issuer = some u) (hs : s.stream u = some st)
    (f : Stream → Flow) :
    onStream f s = match f st with
      | .next t => .next (s.setStream u (s.stepped u st.pc t.complete))
      | .jump t pc => .next (s.setStream u (s.stepped u st.pc (t.jump pc)))
      | .raise code => .next (s.raise u (Cause.atWord code st.pc 0)) := by
  cases hf : f st <;> simp [onStream, h, hs, hf]

/-! ## The issuing stream -/

@[simp] theorem run_me {u : Who} (h : w.cur.issuer = some u) : me w = .ok (u, w) := by
  simp [me, h]

theorem run_myStream {u : Who} {st : Stream} (h : w.cur.issuer = some u) (hs : w.cur.stream u = some st) :
    myStream w = .ok (st, w) := by
  simp [myStream, run_me w h, hs]

@[simp] theorem run_getGroup {k : Nat} {g : Group} (h : Tab.find w.cur.groups k = some g) :
    getGroup k w = .ok (g, w) := by
  simp [getGroup, h]

@[simp] theorem run_putGroup (k : Nat) (g : Group) : putGroup k g w = .ok ((), ⟨w.cur.setGroup k g, w.stores⟩) := by
  simp [putGroup]

@[simp] theorem run_modGroup {k : Nat} {g : Group} (h : Tab.find w.cur.groups k = some g) (f : Group → Group) :
    modGroup k f w = .ok ((), ⟨w.cur.setGroup k (f g), w.stores⟩) := by
  simp [modGroup, h]

@[simp] theorem run_getGang {k : Nat} {g : Gang} (h : Tab.find w.cur.gangs k = some g) : getGang k w = .ok (g, w) := by
  simp [getGang, h]

@[simp] theorem run_putGang (k : Nat) (g : Gang) : putGang k g w = .ok ((), ⟨w.cur.setGang k g, w.stores⟩) := by
  simp [putGang]

@[simp] theorem run_modGang {k : Nat} {g : Gang} (h : Tab.find w.cur.gangs k = some g) (f : Gang → Gang) :
    modGang k f w = .ok ((), ⟨w.cur.setGang k (f g), w.stores⟩) := by
  simp [modGang, h]

@[simp] theorem run_getCtx {k : Nat} {c : Ctx} (h : Tab.find w.cur.ctxs k = some c) : getCtx k w = .ok (c, w) := by
  simp [getCtx, h]

@[simp] theorem run_putCtx (k : Nat) (c : Ctx) : putCtx k c w = .ok ((), ⟨w.cur.setCtx k c, w.stores⟩) := by
  simp [putCtx]

@[simp] theorem run_modCtx {k : Nat} {c : Ctx} (h : Tab.find w.cur.ctxs k = some c) (f : Ctx → Ctx) :
    modCtx k f w = .ok ((), ⟨w.cur.setCtx k (f c), w.stores⟩) := by
  simp [modCtx, h]

@[simp] theorem run_getLaunch {k : Nat} {l : Launch} (h : Tab.find w.cur.launches k = some l) :
    getLaunch k w = .ok (l, w) := by
  simp [getLaunch, h]

@[simp] theorem run_putLaunch (k : Nat) (l : Launch) : putLaunch k l w = .ok ((), ⟨w.cur.setLaunch k l, w.stores⟩) := by
  simp [putLaunch]

@[simp] theorem run_modLaunch {k : Nat} {l : Launch} (h : Tab.find w.cur.launches k = some l) (f : Launch → Launch) :
    modLaunch k f w = .ok ((), ⟨w.cur.setLaunch k (f l), w.stores⟩) := by
  simp [modLaunch, h]

@[simp] theorem run_getInst {k : Nat} {i : Inst} (h : Tab.find w.cur.insts k = some i) : getInst k w = .ok (i, w) := by
  simp [getInst, h]

@[simp] theorem run_putInst (k : Nat) (i : Inst) : putInst k i w = .ok ((), ⟨w.cur.setInst k i, w.stores⟩) := by
  simp [putInst]

@[simp] theorem run_modInst {k : Nat} {i : Inst} (h : Tab.find w.cur.insts k = some i) (f : Inst → Inst) :
    modInst k f w = .ok ((), ⟨w.cur.setInst k (f i), w.stores⟩) := by
  simp [modInst, h]

@[simp] theorem run_getDie {k : Nat} {d : Die} (h : Tab.find w.cur.dies k = some d) : getDie k w = .ok (d, w) := by
  simp [getDie, h]

@[simp] theorem run_putDie (k : Nat) (d : Die) : putDie k d w = .ok ((), ⟨w.cur.setDie k d, w.stores⟩) := by
  simp [putDie]

@[simp] theorem run_modDie {k : Nat} {d : Die} (h : Tab.find w.cur.dies k = some d) (f : Die → Die) :
    modDie k f w = .ok ((), ⟨w.cur.setDie k (f d), w.stores⟩) := by
  simp [modDie, h]

end

/-! ## The issuing unit, whichever it is -/

section

variable {w : Work} {u : Who} {st : Stream}

theorem put_pc (st : Stream) (n : Nat) (v : W64) : (st.put n v).pc = st.pc := by
  unfold Stream.put
  split
  · rfl
  · split <;> rfl

theorem run_unitSreg (h : w.cur.issuer = some u) (hs : w.cur.stream u = some st) (n : Nat) :
    sreg n w = .ok ((st.get n).toNat, w) := by
  simp [sreg, run_myStream w h hs]

theorem run_unitPutStream (h : w.cur.issuer = some u) (t : Stream) :
    putStream t w = .ok ((), ⟨w.cur.setStream u t, w.stores⟩) := by
  simp [putStream, h]

theorem run_unitFinish (h : w.cur.issuer = some u) (hs : w.cur.stream u = some st) :
    finish w = .ok ((), ⟨w.cur.setStream u (w.cur.stepped u st.pc st.complete), w.stores⟩) := by
  simp [finish, run_myStream w h hs, h]

/-- Stepping reads only the partition's debug registers. -/
theorem setStream_stepped (s : State) (u v : Who) (t : Stream) (y : Nat) (x : Stream) :
    (s.setStream v t).stepped u y x = s.stepped u y x := by
  simp only [State.stepped, State.debugOf, State.gangOf, State.die, setStream_gangs, setStream_dies]
  rfl

theorem run_unitFinishWith (h : w.cur.issuer = some u) (hs : w.cur.stream u = some st) (d v : Nat) :
    finishWith d v w = .ok ((), ⟨w.cur.setStream u
      (w.cur.stepped u st.pc (st.put d (BitVec.ofNat 64 v)).complete), w.stores⟩) := by
  have hp : (⟨w.cur.setStream u (st.put d (BitVec.ofNat 64 v)), w.stores⟩ : Work).cur.stream u
      = some (st.put d (BitVec.ofNat 64 v)) := setStream_stream hs _
  simp [finishWith, setSreg, run_myStream w h hs, run_unitPutStream h,
    run_unitFinish (w := ⟨w.cur.setStream u (st.put d (BitVec.ofNat 64 v)), w.stores⟩) (by simpa using h) hp,
    setStream_setStream, setStream_stepped, put_pc]

end

/-! ## Raising -/

section

variable {s : State} {w : Work} {u : Who} {st : Stream}

@[simp] theorem run_raiseAt {α : Type} (h : w.cur.issuer = some u) (hs : w.cur.stream u = some st) (code addr : Nat) :
    (raiseAt code addr : Act α) w = .error (.raise (Cause.atWord code st.pc addr)) := by
  simp [raiseAt, run_myStream w h hs]

@[simp] theorem run_raise {α : Type} (h : w.cur.issuer = some u) (hs : w.cur.stream u = some st) (code : Nat) :
    (raise code : Act α) w = .error (.raise (Cause.atWord code st.pc 0)) := by
  simp [raise, run_raiseAt h hs]

/-- A unit that does not sleep in BAR.WAIT is taken out of no wait. -/
theorem leaveWait_eq (hs : s.stream u = some st) (hw : ∀ b, st.wait ≠ .barWait b none) : s.leaveWait u = s := by
  unfold State.leaveWait State.waiterStore
  rw [hs]
  dsimp only
  split
  · rfl
  · rename_i h
    split at h
    · exact absurd ‹_› (hw _)
    · simp at h

/-- A cause of the issuing word reaches its unit. -/
theorem stop_raise (h : s.issuer = some u) (hs : s.stream u = some st) (hw : ∀ b, st.wait ≠ .barWait b none) (c : Cause) :
    s.stop (.raise c) = some (s.raise u c) := by
  simp [State.stop, State.raiseIssuer, h, leaveWait_eq hs hw]

theorem perform_raise {m : Act Unit} {c : Cause} (hm : m ⟨s, []⟩ = .error (.raise c)) (h : s.issuer = some u)
    (hs : s.stream u = some st) (hw : ∀ b, st.wait ≠ .barWait b none) : perform m s = .next (s.raise u c) :=
  perform_stop s hm (stop_raise h hs hw c)

/-- The lowest cause of a list of checks, if one holds. -/
theorem run_check_ok {l : List (Bool × Nat)} (h : l.filter (fun x => x.1) = []) : check l w = .ok ((), w) := by
  simp [check, h]

/-- With no check there is no cause. -/
@[simp] theorem check_nil : check [] = pure () := rfl

/-- A check that does not hold raises nothing. -/
@[simp] theorem check_cons {b : Bool} (h : b = false) (c : Nat) (l : List (Bool × Nat)) : check ((b, c) :: l) = check l := by
  subst h
  rfl

end

/-! ## The issuing group -/

section

variable {w : Work} {k : Nat} {g : Group}

@[simp] theorem run_myGroup (h : w.cur.issuer = some (.group k)) : myGroup w = .ok (k, w) := by
  simp [myGroup, h]

@[simp] theorem run_groupStream (h : w.cur.issuer = some (.group k)) (hg : Tab.find w.cur.groups k = some g) :
    myStream w = .ok (g.st, w) := run_myStream w h (stream_group hg)

@[simp] theorem run_groupPutStream (h : w.cur.issuer = some (.group k)) (hg : Tab.find w.cur.groups k = some g)
    (st : Stream) : putStream st w = .ok ((), ⟨w.cur.setGroup k { g with st := st }, w.stores⟩) := by
  simp [putStream, h, setStream_group hg]

@[simp] theorem run_groupSreg (h : w.cur.issuer = some (.group k)) (hg : Tab.find w.cur.groups k = some g) (n : Nat) :
    sreg n w = .ok ((g.st.get n).toNat, w) := by
  simp [sreg, run_groupStream h hg]

@[simp] theorem run_groupFinish (h : w.cur.issuer = some (.group k)) (hg : Tab.find w.cur.groups k = some g) :
    finish w = .ok ((), ⟨w.cur.setGroup k { g with st := w.cur.stepped (.group k) g.st.pc g.st.complete }, w.stores⟩) := by
  simp [finish, run_groupStream h hg, h, setStream_group hg]

@[simp] theorem run_groupFinishWith (h : w.cur.issuer = some (.group k)) (hg : Tab.find w.cur.groups k = some g) (d v : Nat) :
    finishWith d v w = .ok ((), ⟨w.cur.setGroup k { g with
      st := w.cur.stepped (.group k) g.st.pc (g.st.put d (BitVec.ofNat 64 v)).complete }, w.stores⟩) := by
  have hp : (g.st.put d (BitVec.ofNat 64 v)).pc = g.st.pc := by
    unfold Stream.put
    split
    · rfl
    · split <;> rfl
  simp [finishWith, setSreg, run_groupStream h hg, run_groupPutStream h hg, finish, h, setStream_group, hp, State.stream]

end

end Sys2Proof.Machine
end

