-- ==== Sys2Proof/Laws/Exec.lean ====
section
/-! SUPPORT. Which meaning each instruction has, one equation an instruction, so that no proof unfolds the dispatch. -/

set_option linter.unusedVariables false

namespace Sys2Proof.Machine

open Sys2Proof

variable (s : State)

@[simp] theorem exec_add (d : BitVec 5) (a : BitVec 5) (b : BitVec 5) :
    exec (.add d a b) s = Sys2Proof.Machine.execAdd d a b s := rfl
@[simp] theorem exec_sub (d : BitVec 5) (a : BitVec 5) (b : BitVec 5) :
    exec (.sub d a b) s = Sys2Proof.Machine.execSub d a b s := rfl
@[simp] theorem exec_mul (d : BitVec 5) (a : BitVec 5) (b : BitVec 5) :
    exec (.mul d a b) s = Sys2Proof.Machine.execMul d a b s := rfl
@[simp] theorem exec_mulhI64 (d : BitVec 5) (a : BitVec 5) (b : BitVec 5) :
    exec (.mulhI64 d a b) s = Sys2Proof.Machine.execMulhI64 d a b s := rfl
@[simp] theorem exec_mulhN64 (d : BitVec 5) (a : BitVec 5) (b : BitVec 5) :
    exec (.mulhN64 d a b) s = Sys2Proof.Machine.execMulhN64 d a b s := rfl
@[simp] theorem exec_andS (d : BitVec 5) (a : BitVec 5) (b : BitVec 5) :
    exec (.andS d a b) s = Sys2Proof.Machine.execAndS d a b s := rfl
@[simp] theorem exec_orS (d : BitVec 5) (a : BitVec 5) (b : BitVec 5) :
    exec (.orS d a b) s = Sys2Proof.Machine.execOrS d a b s := rfl
@[simp] theorem exec_xorS (d : BitVec 5) (a : BitVec 5) (b : BitVec 5) :
    exec (.xorS d a b) s = Sys2Proof.Machine.execXorS d a b s := rfl
@[simp] theorem exec_shl (d : BitVec 5) (a : BitVec 5) (b : BitVec 5) :
    exec (.shl d a b) s = Sys2Proof.Machine.execShl d a b s := rfl
@[simp] theorem exec_shr (d : BitVec 5) (a : BitVec 5) (b : BitVec 5) :
    exec (.shr d a b) s = Sys2Proof.Machine.execShr d a b s := rfl
@[simp] theorem exec_sra (d : BitVec 5) (a : BitVec 5) (b : BitVec 5) :
    exec (.sra d a b) s = Sys2Proof.Machine.execSra d a b s := rfl
@[simp] theorem exec_minI64 (d : BitVec 5) (a : BitVec 5) (b : BitVec 5) :
    exec (.minI64 d a b) s = Sys2Proof.Machine.execMinI64 d a b s := rfl
@[simp] theorem exec_minN64 (d : BitVec 5) (a : BitVec 5) (b : BitVec 5) :
    exec (.minN64 d a b) s = Sys2Proof.Machine.execMinN64 d a b s := rfl
@[simp] theorem exec_maxI64 (d : BitVec 5) (a : BitVec 5) (b : BitVec 5) :
    exec (.maxI64 d a b) s = Sys2Proof.Machine.execMaxI64 d a b s := rfl
@[simp] theorem exec_maxN64 (d : BitVec 5) (a : BitVec 5) (b : BitVec 5) :
    exec (.maxN64 d a b) s = Sys2Proof.Machine.execMaxN64 d a b s := rfl
@[simp] theorem exec_cmp (f : BitVec 5) (a : BitVec 5) (b : BitVec 5) :
    exec (.cmp f a b) s = Sys2Proof.Machine.execCmp f a b s := rfl
@[simp] theorem exec_tst (f : BitVec 5) (a : BitVec 5) (b : BitVec 5) :
    exec (.tst f a b) s = Sys2Proof.Machine.execTst f a b s := rfl
@[simp] theorem exec_lea (d : BitVec 5) (a : BitVec 5) (b : BitVec 5) (s1 : BitVec 3) :
    exec (.lea d a b s1) s = Sys2Proof.Machine.execLea d a b s1 s := rfl
@[simp] theorem exec_sel (d : BitVec 5) (a : BitVec 5) (b : BitVec 5) (f : BitVec 2) (c : BitVec 3) :
    exec (.sel d a b f c) s = Sys2Proof.Machine.execSel d a b f c s := rfl
@[simp] theorem exec_addImm (d : BitVec 5) (a : BitVec 5) (i : BitVec 16) :
    exec (.addImm d a i) s = Sys2Proof.Machine.execAddImm d a i s := rfl
@[simp] theorem exec_andImm (d : BitVec 5) (a : BitVec 5) (i : BitVec 16) :
    exec (.andImm d a i) s = Sys2Proof.Machine.execAndImm d a i s := rfl
@[simp] theorem exec_orImm (d : BitVec 5) (a : BitVec 5) (i : BitVec 16) :
    exec (.orImm d a i) s = Sys2Proof.Machine.execOrImm d a i s := rfl
@[simp] theorem exec_xorImm (d : BitVec 5) (a : BitVec 5) (i : BitVec 16) :
    exec (.xorImm d a i) s = Sys2Proof.Machine.execXorImm d a i s := rfl
@[simp] theorem exec_shlImm (d : BitVec 5) (a : BitVec 5) (i : BitVec 16) :
    exec (.shlImm d a i) s = Sys2Proof.Machine.execShlImm d a i s := rfl
@[simp] theorem exec_shrImm (d : BitVec 5) (a : BitVec 5) (i : BitVec 16) :
    exec (.shrImm d a i) s = Sys2Proof.Machine.execShrImm d a i s := rfl
@[simp] theorem exec_sraImm (d : BitVec 5) (a : BitVec 5) (i : BitVec 16) :
    exec (.sraImm d a i) s = Sys2Proof.Machine.execSraImm d a i s := rfl
@[simp] theorem exec_mulImm (d : BitVec 5) (a : BitVec 5) (i : BitVec 16) :
    exec (.mulImm d a i) s = Sys2Proof.Machine.execMulImm d a i s := rfl
@[simp] theorem exec_cmpImm (f : BitVec 5) (a : BitVec 5) (i : BitVec 16) :
    exec (.cmpImm f a i) s = Sys2Proof.Machine.execCmpImm f a i s := rfl
@[simp] theorem exec_movi (d : BitVec 5) (i : BitVec 16) :
    exec (.movi d i) s = Sys2Proof.Machine.execMovi d i s := rfl
@[simp] theorem exec_movhi (d : BitVec 5) (h : BitVec 2) (i : BitVec 16) :
    exec (.movhi d h i) s = Sys2Proof.Machine.execMovhi d h i s := rfl
@[simp] theorem exec_gets (d : BitVec 5) (n : BitVec 16) :
    exec (.gets d n) s = Sys2Proof.Machine.execGets d n s := rfl
@[simp] theorem exec_sets (a : BitVec 5) (n : BitVec 16) :
    exec (.sets a n) s = Sys2Proof.Machine.execSets a n s := rfl
@[simp] theorem exec_sld (d : BitVec 5) (b : BitVec 5) (l : BitVec 4) (s1 : BitVec 2) (o : BitVec 10) :
    exec (.sld d b l s1 o) s = Sys2Proof.Machine.execSld d b l s1 o s := rfl
@[simp] theorem exec_sst (d : BitVec 5) (b : BitVec 5) (s1 : BitVec 2) (o : BitVec 10) :
    exec (.sst d b s1 o) s = Sys2Proof.Machine.execSst d b s1 o s := rfl
@[simp] theorem exec_ald (x : BitVec 1) (k : BitVec 2) (b : BitVec 5) (s1 : BitVec 2) (o : BitVec 10) :
    exec (.ald x k b s1 o) s = Sys2Proof.Machine.execAld x k b s1 o s := rfl
@[simp] theorem exec_ast (v : BitVec 5) (b : BitVec 5) (s1 : BitVec 2) (o : BitVec 10) :
    exec (.ast v b s1 o) s = Sys2Proof.Machine.execAst v b s1 o s := rfl
@[simp] theorem exec_loopImm (e : BitVec 10) (c : BitVec 10) :
    exec (.loopImm e c) s = Sys2Proof.Machine.execLoopImm e c s := rfl
@[simp] theorem exec_loopSreg (a : BitVec 5) (e : BitVec 10) :
    exec (.loopSreg a e) s = Sys2Proof.Machine.execLoopSreg a e s := rfl
@[simp] theorem exec_lrunImm (l : BitVec 20) :
    exec (.lrunImm l) s = Sys2Proof.Machine.execLrunImm l s := rfl
@[simp] theorem exec_lrunSreg (a : BitVec 5) (l : BitVec 20) :
    exec (.lrunSreg a l) s = Sys2Proof.Machine.execLrunSreg a l s := rfl
@[simp] theorem exec_fence (s1 : BitVec 3) :
    exec (.fence s1) s = Sys2Proof.Machine.execFence s1 s := rfl
@[simp] theorem exec_qfence (m : BitVec 10) :
    exec (.qfence m) s = Sys2Proof.Machine.execQfence m s := rfl
@[simp] theorem exec_trap (u : BitVec 16) :
    exec (.trap u) s = Sys2Proof.Machine.execTrap u s := rfl
@[simp] theorem exec_brSet (f : BitVec 2) (c : BitVec 2) (o : BitVec 22) :
    exec (.brSet f c o) s = Sys2Proof.Machine.execBrSet f c o s := rfl
@[simp] theorem exec_brClear (f : BitVec 2) (c : BitVec 2) (o : BitVec 22) :
    exec (.brClear f c o) s = Sys2Proof.Machine.execBrClear f c o s := rfl
@[simp] theorem exec_jmp (o : BitVec 22) :
    exec (.jmp o) s = Sys2Proof.Machine.execJmp o s := rfl
@[simp] theorem exec_call (o : BitVec 22) :
    exec (.call o) s = Sys2Proof.Machine.execCall o s := rfl
@[simp] theorem exec_nop :
    exec .nop s = Sys2Proof.Machine.execNop s := rfl
@[simp] theorem exec_exit :
    exec .exit s = Sys2Proof.Machine.execExit s := rfl
@[simp] theorem exec_yield :
    exec .yield s = Sys2Proof.Machine.execYield s := rfl
@[simp] theorem exec_sleep (a : BitVec 5) :
    exec (.sleep a) s = Sys2Proof.Machine.execSleep a s := rfl
@[simp] theorem exec_lsync :
    exec .lsync s = Sys2Proof.Machine.execLsync s := rfl
@[simp] theorem exec_jmpr (a : BitVec 5) :
    exec (.jmpr a) s = Sys2Proof.Machine.execJmpr a s := rfl
@[simp] theorem exec_ret :
    exec .ret s = Sys2Proof.Machine.execRet s := rfl
@[simp] theorem exec_lexit :
    exec .lexit s = Sys2Proof.Machine.execLexit s := rfl
@[simp] theorem exec_reggive (d : BitVec 5) (a : BitVec 5) :
    exec (.reggive d a) s = Sys2Proof.Machine.execReggive d a s := rfl
@[simp] theorem exec_regclaim (d : BitVec 5) (a : BitVec 5) :
    exec (.regclaim d a) s = Sys2Proof.Machine.execRegclaim d a s := rfl
@[simp] theorem exec_tretRegion :
    exec .tretRegion s = Sys2Proof.Machine.execTretRegion s := rfl
@[simp] theorem exec_tretAgain :
    exec .tretAgain s = Sys2Proof.Machine.execTretAgain s := rfl
@[simp] theorem exec_tretNext :
    exec .tretNext s = Sys2Proof.Machine.execTretNext s := rfl
@[simp] theorem exec_cause (d : BitVec 5) (a : BitVec 5) :
    exec (.cause d a) s = Sys2Proof.Machine.execCause d a s := rfl
@[simp] theorem exec_regn :
    exec .regn s = Sys2Proof.Machine.execRegn s := rfl
@[simp] theorem exec_frec (d : BitVec 5) (a : BitVec 5) :
    exec (.frec d a) s = Sys2Proof.Machine.execFrec d a s := rfl
@[simp] theorem exec_susp (a : BitVec 5) :
    exec (.susp a) s = Sys2Proof.Machine.execSusp a s := rfl
@[simp] theorem exec_mwait (d : BitVec 5) (a : BitVec 5) (b : BitVec 5) :
    exec (.mwait d a b) s = Sys2Proof.Machine.execMwait d a b s := rfl
@[simp] theorem exec_bankcfg (d : BitVec 5) (a : BitVec 5) (b : BitVec 5) :
    exec (.bankcfg d a b) s = Sys2Proof.Machine.execBankcfg d a b s := rfl
@[simp] theorem exec_discard (a : BitVec 5) (b : BitVec 5) :
    exec (.discard a b) s = Sys2Proof.Machine.execDiscard a b s := rfl
@[simp] theorem exec_flush (a : BitVec 5) (b : BitVec 5) :
    exec (.flush a b) s = Sys2Proof.Machine.execFlush a b s := rfl
@[simp] theorem exec_inval (a : BitVec 5) (b : BitVec 5) :
    exec (.inval a b) s = Sys2Proof.Machine.execInval a b s := rfl
@[simp] theorem exec_pref (a : BitVec 5) (b : BitVec 5) :
    exec (.pref a b) s = Sys2Proof.Machine.execPref a b s := rfl
@[simp] theorem exec_l2cfg (d : BitVec 5) (a : BitVec 5) :
    exec (.l2cfg d a) s = Sys2Proof.Machine.execL2cfg d a s := rfl
@[simp] theorem exec_barInit (a : BitVec 5) (b : BitVec 5) :
    exec (.barInit a b) s = Sys2Proof.Machine.execBarInit a b s := rfl
@[simp] theorem exec_barArrive (d : BitVec 5) (a : BitVec 5) (b : BitVec 5) :
    exec (.barArrive d a b) s = Sys2Proof.Machine.execBarArrive d a b s := rfl
@[simp] theorem exec_barWait (d : BitVec 5) (a : BitVec 5) (b : BitVec 5) :
    exec (.barWait d a b) s = Sys2Proof.Machine.execBarWait d a b s := rfl
@[simp] theorem exec_barTest (d : BitVec 5) (a : BitVec 5) (b : BitVec 5) :
    exec (.barTest d a b) s = Sys2Proof.Machine.execBarTest d a b s := rfl
@[simp] theorem exec_copy (d : BitVec 5) (a : BitVec 5) :
    exec (.copy d a) s = Sys2Proof.Machine.execCopy d a s := rfl
@[simp] theorem exec_gcopy (d : BitVec 5) (a : BitVec 5) :
    exec (.gcopy d a) s = Sys2Proof.Machine.execGcopy d a s := rfl
@[simp] theorem exec_mcopy (d : BitVec 5) (a : BitVec 5) (b : BitVec 5) :
    exec (.mcopy d a b) s = Sys2Proof.Machine.execMcopy d a b s := rfl
@[simp] theorem exec_cseal (d : BitVec 5) :
    exec (.cseal d) s = Sys2Proof.Machine.execCseal d s := rfl
@[simp] theorem exec_cwaitUpto (a : BitVec 5) :
    exec (.cwaitUpto a) s = Sys2Proof.Machine.execCwaitUpto a s := rfl
@[simp] theorem exec_cwaitLeft (a : BitVec 5) :
    exec (.cwaitLeft a) s = Sys2Proof.Machine.execCwaitLeft a s := rfl
@[simp] theorem exec_ccont (d : BitVec 5) (a : BitVec 5) (b : BitVec 5) :
    exec (.ccont d a b) s = Sys2Proof.Machine.execCcont d a b s := rfl
@[simp] theorem exec_cstat (d : BitVec 5) (a : BitVec 5) :
    exec (.cstat d a) s = Sys2Proof.Machine.execCstat d a s := rfl
@[simp] theorem exec_patch (d : BitVec 5) (a : BitVec 5) (b : BitVec 5) :
    exec (.patch d a b) s = Sys2Proof.Machine.execPatch d a b s := rfl
@[simp] theorem exec_split (d : BitVec 5) (a : BitVec 5) (b : BitVec 5) :
    exec (.split d a b) s = Sys2Proof.Machine.execSplit d a b s := rfl
@[simp] theorem exec_dice (d : BitVec 5) (a : BitVec 5) (b : BitVec 5) :
    exec (.dice d a b) s = Sys2Proof.Machine.execDice d a b s := rfl
@[simp] theorem exec_gbound (d : BitVec 5) (a : BitVec 5) (b : BitVec 5) :
    exec (.gbound d a b) s = Sys2Proof.Machine.execGbound d a b s := rfl
@[simp] theorem exec_bspill (d : BitVec 5) (a : BitVec 5) (b : BitVec 5) :
    exec (.bspill d a b) s = Sys2Proof.Machine.execBspill d a b s := rfl
@[simp] theorem exec_bfill (d : BitVec 5) (a : BitVec 5) (b : BitVec 5) :
    exec (.bfill d a b) s = Sys2Proof.Machine.execBfill d a b s := rfl
@[simp] theorem exec_spat (d : BitVec 5) (a : BitVec 5) (b : BitVec 5) :
    exec (.spat d a b) s = Sys2Proof.Machine.execSpat d a b s := rfl
@[simp] theorem exec_sgrid (d : BitVec 5) (a : BitVec 5) (b : BitVec 5) :
    exec (.sgrid d a b) s = Sys2Proof.Machine.execSgrid d a b s := rfl
@[simp] theorem exec_sflush (d : BitVec 5) (a : BitVec 5) (b : BitVec 5) :
    exec (.sflush d a b) s = Sys2Proof.Machine.execSflush d a b s := rfl
@[simp] theorem exec_sresolve (d : BitVec 5) (a : BitVec 5) (b : BitVec 5) :
    exec (.sresolve d a b) s = Sys2Proof.Machine.execSresolve d a b s := rfl
@[simp] theorem exec_bvhbind (d : BitVec 5) (a : BitVec 5) (b : BitVec 5) :
    exec (.bvhbind d a b) s = Sys2Proof.Machine.execBvhbind d a b s := rfl
@[simp] theorem exec_rcfade (d : BitVec 5) (a : BitVec 5) (b : BitVec 5) :
    exec (.rcfade d a b) s = Sys2Proof.Machine.execRcfade d a b s := rfl
@[simp] theorem exec_texbind (d : BitVec 5) (a : BitVec 5) (b : BitVec 5) :
    exec (.texbind d a b) s = Sys2Proof.Machine.execTexbind d a b s := rfl
@[simp] theorem exec_xdelta (d : BitVec 5) (a : BitVec 5) (b : BitVec 5) :
    exec (.xdelta d a b) s = Sys2Proof.Machine.execXdelta d a b s := rfl
@[simp] theorem exec_xdcmp (a : BitVec 5) (b : BitVec 5) :
    exec (.xdcmp a b) s = Sys2Proof.Machine.execXdcmp a b s := rfl
@[simp] theorem exec_xfclr (a : BitVec 5) (b : BitVec 5) :
    exec (.xfclr a b) s = Sys2Proof.Machine.execXfclr a b s := rfl
@[simp] theorem exec_ktwin (d : BitVec 5) (a : BitVec 5) :
    exec (.ktwin d a) s = Sys2Proof.Machine.execKtwin d a s := rfl
@[simp] theorem exec_kpeal (d : BitVec 5) (a : BitVec 5) (b : BitVec 5) :
    exec (.kpeal d a b) s = Sys2Proof.Machine.execKpeal d a b s := rfl
@[simp] theorem exec_krst (a : BitVec 5) :
    exec (.krst a) s = Sys2Proof.Machine.execKrst a s := rfl
@[simp] theorem exec_kwait (d : BitVec 5) (a : BitVec 5) :
    exec (.kwait d a) s = Sys2Proof.Machine.execKwait d a s := rfl
@[simp] theorem exec_kstat (d : BitVec 5) (a : BitVec 5) :
    exec (.kstat d a) s = Sys2Proof.Machine.execKstat d a s := rfl
@[simp] theorem exec_spawn (d : BitVec 5) (a : BitVec 5) (b : BitVec 5) :
    exec (.spawn d a b) s = Sys2Proof.Machine.execSpawn d a b s := rfl
@[simp] theorem exec_ndone (a : BitVec 5) (b : BitVec 5) :
    exec (.ndone a b) s = Sys2Proof.Machine.execNdone a b s := rfl
@[simp] theorem exec_stepb (d : BitVec 5) :
    exec (.stepb d) s = Sys2Proof.Machine.execStepb d s := rfl
@[simp] theorem exec_prio (d : BitVec 5) (a : BitVec 5) :
    exec (.prio d a) s = Sys2Proof.Machine.execPrio d a s := rfl
@[simp] theorem exec_erd (d : BitVec 5) (a : BitVec 5) :
    exec (.erd d a) s = Sys2Proof.Machine.execErd d a s := rfl
@[simp] theorem exec_bqpush (d : BitVec 5) (a : BitVec 5) (b : BitVec 5) :
    exec (.bqpush d a b) s = Sys2Proof.Machine.execBqpush d a b s := rfl
@[simp] theorem exec_bqpop (d : BitVec 5) (a : BitVec 5) :
    exec (.bqpop d a) s = Sys2Proof.Machine.execBqpop d a s := rfl
@[simp] theorem exec_dieq (d : BitVec 5) (a : BitVec 5) :
    exec (.dieq d a) s = Sys2Proof.Machine.execDieq d a s := rfl
@[simp] theorem exec_qroot (d : BitVec 5) :
    exec (.qroot d) s = Sys2Proof.Machine.execQroot d s := rfl
@[simp] theorem exec_qsplit (d : BitVec 5) (a : BitVec 5) (b : BitVec 5) :
    exec (.qsplit d a b) s = Sys2Proof.Machine.execQsplit d a b s := rfl
@[simp] theorem exec_qretW (d : BitVec 5) (a : BitVec 5) :
    exec (.qretW d a) s = Sys2Proof.Machine.execQretW d a s := rfl
@[simp] theorem exec_qretM (d : BitVec 5) (a : BitVec 5) :
    exec (.qretM d a) s = Sys2Proof.Machine.execQretM d a s := rfl
@[simp] theorem exec_qborrow (d : BitVec 5) :
    exec (.qborrow d) s = Sys2Proof.Machine.execQborrow d s := rfl
@[simp] theorem exec_qwait (d : BitVec 5) (a : BitVec 5) :
    exec (.qwait d a) s = Sys2Proof.Machine.execQwait d a s := rfl
@[simp] theorem exec_qpoll (d : BitVec 5) (a : BitVec 5) :
    exec (.qpoll d a) s = Sys2Proof.Machine.execQpoll d a s := rfl
@[simp] theorem exec_qsend (d : BitVec 5) (a : BitVec 5) :
    exec (.qsend d a) s = Sys2Proof.Machine.execQsend d a s := rfl
@[simp] theorem exec_mshape (s1 : BitVec 5) (a : BitVec 5) (b : BitVec 5) :
    exec (.mshape s1 a b) s = Sys2Proof.Machine.execMshape s1 a b s := rfl
@[simp] theorem exec_mloadb (t : BitVec 5) (s1 : BitVec 5) (b : BitVec 5) :
    exec (.mloadb t s1 b) s = Sys2Proof.Machine.execMloadb t s1 b s := rfl
@[simp] theorem exec_mma (c : BitVec 5) (s1 : BitVec 5) (b : BitVec 5) :
    exec (.mma c s1 b) s = Sys2Proof.Machine.execMma c s1 b s := rfl
@[simp] theorem exec_mmac (c : BitVec 5) (s1 : BitVec 5) (b : BitVec 5) :
    exec (.mmac c s1 b) s = Sys2Proof.Machine.execMmac c s1 b s := rfl
@[simp] theorem exec_mzero (c : BitVec 5) (s1 : BitVec 5) (b : BitVec 5) :
    exec (.mzero c s1 b) s = Sys2Proof.Machine.execMzero c s1 b s := rfl
@[simp] theorem exec_mstat (d : BitVec 5) (a : BitVec 5) (b : BitVec 5) :
    exec (.mstat d a b) s = Sys2Proof.Machine.execMstat d a b s := rfl
@[simp] theorem exec_iadd (w : LaneW) :
    exec (.iadd w) s = Sys2Proof.Machine.execIadd w s := rfl
@[simp] theorem exec_isub (w : LaneW) :
    exec (.isub w) s = Sys2Proof.Machine.execIsub w s := rfl
@[simp] theorem exec_imul (w : LaneW) :
    exec (.imul w) s = Sys2Proof.Machine.execImul w s := rfl
@[simp] theorem exec_imad (w : LaneW) :
    exec (.imad w) s = Sys2Proof.Machine.execImad w s := rfl
@[simp] theorem exec_imulh (w : LaneW) :
    exec (.imulh w) s = Sys2Proof.Machine.execImulh w s := rfl
@[simp] theorem exec_iabs (w : LaneW) :
    exec (.iabs w) s = Sys2Proof.Machine.execIabs w s := rfl
@[simp] theorem exec_imin (w : LaneW) :
    exec (.imin w) s = Sys2Proof.Machine.execImin w s := rfl
@[simp] theorem exec_imax (w : LaneW) :
    exec (.imax w) s = Sys2Proof.Machine.execImax w s := rfl
@[simp] theorem exec_laneAnd (w : LaneW) :
    exec (.laneAnd w) s = Sys2Proof.Machine.execLaneAnd w s := rfl
@[simp] theorem exec_laneOr (w : LaneW) :
    exec (.laneOr w) s = Sys2Proof.Machine.execLaneOr w s := rfl
@[simp] theorem exec_laneXor (w : LaneW) :
    exec (.laneXor w) s = Sys2Proof.Machine.execLaneXor w s := rfl
@[simp] theorem exec_notL (w : LaneW) :
    exec (.notL w) s = Sys2Proof.Machine.execNotL w s := rfl
@[simp] theorem exec_laneShl (w : LaneW) :
    exec (.laneShl w) s = Sys2Proof.Machine.execLaneShl w s := rfl
@[simp] theorem exec_laneShr (w : LaneW) :
    exec (.laneShr w) s = Sys2Proof.Machine.execLaneShr w s := rfl
@[simp] theorem exec_laneSra (w : LaneW) :
    exec (.laneSra w) s = Sys2Proof.Machine.execLaneSra w s := rfl
@[simp] theorem exec_bfe (w : LaneW) :
    exec (.bfe w) s = Sys2Proof.Machine.execBfe w s := rfl
@[simp] theorem exec_bfi (w : LaneW) :
    exec (.bfi w) s = Sys2Proof.Machine.execBfi w s := rfl
@[simp] theorem exec_popc (w : LaneW) :
    exec (.popc w) s = Sys2Proof.Machine.execPopc w s := rfl
@[simp] theorem exec_clz (w : LaneW) :
    exec (.clz w) s = Sys2Proof.Machine.execClz w s := rfl
@[simp] theorem exec_isetp (w : LaneW) :
    exec (.isetp w) s = Sys2Proof.Machine.execIsetp w s := rfl
@[simp] theorem exec_mov (w : LaneW) :
    exec (.mov w) s = Sys2Proof.Machine.execMov w s := rfl
@[simp] theorem exec_laneSel (w : LaneW) :
    exec (.laneSel w) s = Sys2Proof.Machine.execLaneSel w s := rfl
@[simp] theorem exec_plop (w : LaneW) :
    exec (.plop w) s = Sys2Proof.Machine.execPlop w s := rfl
@[simp] theorem exec_fadd (w : LaneW) :
    exec (.fadd w) s = Sys2Proof.Machine.execFadd w s := rfl
@[simp] theorem exec_fsub (w : LaneW) :
    exec (.fsub w) s = Sys2Proof.Machine.execFsub w s := rfl
@[simp] theorem exec_fmul (w : LaneW) :
    exec (.fmul w) s = Sys2Proof.Machine.execFmul w s := rfl
@[simp] theorem exec_ffma (w : LaneW) :
    exec (.ffma w) s = Sys2Proof.Machine.execFfma w s := rfl
@[simp] theorem exec_fmin (w : LaneW) :
    exec (.fmin w) s = Sys2Proof.Machine.execFmin w s := rfl
@[simp] theorem exec_fmax (w : LaneW) :
    exec (.fmax w) s = Sys2Proof.Machine.execFmax w s := rfl
@[simp] theorem exec_fsetp (w : LaneW) :
    exec (.fsetp w) s = Sys2Proof.Machine.execFsetp w s := rfl
@[simp] theorem exec_frnd (w : LaneW) :
    exec (.frnd w) s = Sys2Proof.Machine.execFrnd w s := rfl
@[simp] theorem exec_frcp (w : LaneW) :
    exec (.frcp w) s = Sys2Proof.Machine.execFrcp w s := rfl
@[simp] theorem exec_frsq (w : LaneW) :
    exec (.frsq w) s = Sys2Proof.Machine.execFrsq w s := rfl
@[simp] theorem exec_fsqrt (w : LaneW) :
    exec (.fsqrt w) s = Sys2Proof.Machine.execFsqrt w s := rfl
@[simp] theorem exec_fexp2 (w : LaneW) :
    exec (.fexp2 w) s = Sys2Proof.Machine.execFexp2 w s := rfl
@[simp] theorem exec_flog2 (w : LaneW) :
    exec (.flog2 w) s = Sys2Proof.Machine.execFlog2 w s := rfl
@[simp] theorem exec_fsin (w : LaneW) :
    exec (.fsin w) s = Sys2Proof.Machine.execFsin w s := rfl
@[simp] theorem exec_fcos (w : LaneW) :
    exec (.fcos w) s = Sys2Proof.Machine.execFcos w s := rfl
@[simp] theorem exec_hadd2 (w : LaneW) :
    exec (.hadd2 w) s = Sys2Proof.Machine.execHadd2 w s := rfl
@[simp] theorem exec_hmul2 (w : LaneW) :
    exec (.hmul2 w) s = Sys2Proof.Machine.execHmul2 w s := rfl
@[simp] theorem exec_hfma2 (w : LaneW) :
    exec (.hfma2 w) s = Sys2Proof.Machine.execHfma2 w s := rfl
@[simp] theorem exec_cvt (w : LaneW) :
    exec (.cvt w) s = Sys2Proof.Machine.execCvt w s := rfl
@[simp] theorem exec_shfl (w : LaneW) :
    exec (.shfl w) s = Sys2Proof.Machine.execShfl w s := rfl
@[simp] theorem exec_vote (w : LaneW) :
    exec (.vote w) s = Sys2Proof.Machine.execVote w s := rfl
@[simp] theorem exec_gred (w : LaneW) :
    exec (.gred w) s = Sys2Proof.Machine.execGred w s := rfl
@[simp] theorem exec_gscan (w : LaneW) :
    exec (.gscan w) s = Sys2Proof.Machine.execGscan w s := rfl
@[simp] theorem exec_gdx (w : LaneW) :
    exec (.gdx w) s = Sys2Proof.Machine.execGdx w s := rfl
@[simp] theorem exec_gdy (w : LaneW) :
    exec (.gdy w) s = Sys2Proof.Machine.execGdy w s := rfl
@[simp] theorem exec_xchg (w : LaneW) :
    exec (.xchg w) s = Sys2Proof.Machine.execXchg w s := rfl
@[simp] theorem exec_brl (w : LaneW) :
    exec (.brl w) s = Sys2Proof.Machine.execBrl w s := rfl
@[simp] theorem exec_switchL (w : LaneW) :
    exec (.switchL w) s = Sys2Proof.Machine.execSwitchL w s := rfl
@[simp] theorem exec_reconv (w : LaneW) :
    exec (.reconv w) s = Sys2Proof.Machine.execReconv w s := rfl
@[simp] theorem exec_lloop (w : LaneW) :
    exec (.lloop w) s = Sys2Proof.Machine.execLloop w s := rfl
@[simp] theorem exec_llexit (w : LaneW) :
    exec (.llexit w) s = Sys2Proof.Machine.execLlexit w s := rfl
@[simp] theorem exec_lstop (w : LaneW) :
    exec (.lstop w) s = Sys2Proof.Machine.execLstop w s := rfl
@[simp] theorem exec_ld (w : LaneW) :
    exec (.ld w) s = Sys2Proof.Machine.execLd w s := rfl
@[simp] theorem exec_st (w : LaneW) :
    exec (.st w) s = Sys2Proof.Machine.execSt w s := rfl
@[simp] theorem exec_ldx (w : LaneW) :
    exec (.ldx w) s = Sys2Proof.Machine.execLdx w s := rfl
@[simp] theorem exec_stx (w : LaneW) :
    exec (.stx w) s = Sys2Proof.Machine.execStx w s := rfl
@[simp] theorem exec_atom (w : LaneW) :
    exec (.atom w) s = Sys2Proof.Machine.execAtom w s := rfl
@[simp] theorem exec_atomx (w : LaneW) :
    exec (.atomx w) s = Sys2Proof.Machine.execAtomx w s := rfl
@[simp] theorem exec_fqput (w : LaneW) :
    exec (.fqput w) s = Sys2Proof.Machine.execFqput w s := rfl
@[simp] theorem exec_fqget (w : LaneW) :
    exec (.fqget w) s = Sys2Proof.Machine.execFqget w s := rfl
@[simp] theorem exec_mfeed (w : LaneW) :
    exec (.mfeed w) s = Sys2Proof.Machine.execMfeed w s := rfl
@[simp] theorem exec_mscale (w : LaneW) :
    exec (.mscale w) s = Sys2Proof.Machine.execMscale w s := rfl
@[simp] theorem exec_mdrain (w : LaneW) :
    exec (.mdrain w) s = Sys2Proof.Machine.execMdrain w s := rfl
@[simp] theorem exec_mfmt (w : LaneW) :
    exec (.mfmt w) s = Sys2Proof.Machine.execMfmt w s := rfl
@[simp] theorem exec_gread (w : LaneW) :
    exec (.gread w) s = Sys2Proof.Machine.execGread w s := rfl
@[simp] theorem exec_greadApron (w : LaneW) :
    exec (.greadApron w) s = Sys2Proof.Machine.execGreadApron w s := rfl
@[simp] theorem exec_gwrite (w : LaneW) :
    exec (.gwrite w) s = Sys2Proof.Machine.execGwrite w s := rfl
@[simp] theorem exec_gnorm (w : LaneW) :
    exec (.gnorm w) s = Sys2Proof.Machine.execGnorm w s := rfl
@[simp] theorem exec_scover (w : LaneW) :
    exec (.scover w) s = Sys2Proof.Machine.execScover w s := rfl
@[simp] theorem exec_sread (w : LaneW) :
    exec (.sread w) s = Sys2Proof.Machine.execSread w s := rfl
@[simp] theorem exec_swrite (w : LaneW) :
    exec (.swrite w) s = Sys2Proof.Machine.execSwrite w s := rfl
@[simp] theorem exec_swriteZ (w : LaneW) :
    exec (.swriteZ w) s = Sys2Proof.Machine.execSwriteZ w s := rfl
@[simp] theorem exec_trace (w : LaneW) :
    exec (.trace w) s = Sys2Proof.Machine.execTrace w s := rfl
@[simp] theorem exec_traceSort (w : LaneW) :
    exec (.traceSort w) s = Sys2Proof.Machine.execTraceSort w s := rfl
@[simp] theorem exec_hitget (w : LaneW) :
    exec (.hitget w) s = Sys2Proof.Machine.execHitget w s := rfl
@[simp] theorem exec_rclook (w : LaneW) :
    exec (.rclook w) s = Sys2Proof.Machine.execRclook w s := rfl
@[simp] theorem exec_rcins (w : LaneW) :
    exec (.rcins w) s = Sys2Proof.Machine.execRcins w s := rfl
@[simp] theorem exec_tex (w : LaneW) :
    exec (.tex w) s = Sys2Proof.Machine.execTex w s := rfl
@[simp] theorem exec_texg (w : LaneW) :
    exec (.texg w) s = Sys2Proof.Machine.execTexg w s := rfl
@[simp] theorem exec_texq (w : LaneW) :
    exec (.texq w) s = Sys2Proof.Machine.execTexq w s := rfl
@[simp] theorem exec_texlat (w : LaneW) :
    exec (.texlat w) s = Sys2Proof.Machine.execTexlat w s := rfl
@[simp] theorem exec_xmat (w : LaneW) :
    exec (.xmat w) s = Sys2Proof.Machine.execXmat w s := rfl
@[simp] theorem exec_xlut1 (w : LaneW) :
    exec (.xlut1 w) s = Sys2Proof.Machine.execXlut1 w s := rfl
@[simp] theorem exec_xlut3 (w : LaneW) :
    exec (.xlut3 w) s = Sys2Proof.Machine.execXlut3 w s := rfl
@[simp] theorem exec_xraw (w : LaneW) :
    exec (.xraw w) s = Sys2Proof.Machine.execXraw w s := rfl
@[simp] theorem exec_xpack (w : LaneW) :
    exec (.xpack w) s = Sys2Proof.Machine.execXpack w s := rfl
@[simp] theorem exec_xunpk (w : LaneW) :
    exec (.xunpk w) s = Sys2Proof.Machine.execXunpk w s := rfl
@[simp] theorem exec_klaunch (w : LaneW) :
    exec (.klaunch w) s = Sys2Proof.Machine.execKlaunch w s := rfl
@[simp] theorem exec_kcapt (w : LaneW) :
    exec (.kcapt w) s = Sys2Proof.Machine.execKcapt w s := rfl
@[simp] theorem exec_spawnLane (w : LaneW) :
    exec (.spawnLane w) s = Sys2Proof.Machine.execSpawnLane w s := rfl
@[simp] theorem exec_qsendLane (w : LaneW) :
    exec (.qsendLane w) s = Sys2Proof.Machine.execQsendLane w s := rfl
@[simp] theorem exec_longLatencyResultWrite (unit : Nat) (who : Nat) (k : Nat) :
    exec (.longLatencyResultWrite unit who k) s = Sys2Proof.Machine.execLongLatencyResultWrite unit who k s := rfl
@[simp] theorem exec_aldReadsPerform (g : Nat) (q : Nat) (k : Nat) :
    exec (.aldReadsPerform g q k) s = Sys2Proof.Machine.execAldReadsPerform g q k s := rfl
@[simp] theorem exec_laneMemoryAccessPerform (g : Nat) (k : Nat) (n : Nat) :
    exec (.laneMemoryAccessPerform g k n) s = Sys2Proof.Machine.execLaneMemoryAccessPerform g k n s := rfl
@[simp] theorem exec_rangeMaintenancePerform (part : Part) (keep : List Nat) :
    exec (.rangeMaintenancePerform part keep) s = Sys2Proof.Machine.execRangeMaintenancePerform part keep s := rfl
@[simp] theorem exec_copyEntryPerform (g : Nat) (n : Nat) :
    exec (.copyEntryPerform g n) s = Sys2Proof.Machine.execCopyEntryPerform g n s := rfl
@[simp] theorem exec_continuationStart (gang : Nat) (k : Nat) :
    exec (.continuationStart gang k) s = Sys2Proof.Machine.execContinuationStart gang k s := rfl
@[simp] theorem exec_mloadbEntryPerform (gang : Nat) :
    exec (.mloadbEntryPerform gang) s = Sys2Proof.Machine.execMloadbEntryPerform gang s := rfl
@[simp] theorem exec_mmaEntryPerform (gang : Nat) :
    exec (.mmaEntryPerform gang) s = Sys2Proof.Machine.execMmaEntryPerform gang s := rfl
@[simp] theorem exec_mzeroEntryPerform (gang : Nat) :
    exec (.mzeroEntryPerform gang) s = Sys2Proof.Machine.execMzeroEntryPerform gang s := rfl
@[simp] theorem exec_mfeedEntryPerform (g : Nat) :
    exec (.mfeedEntryPerform g) s = Sys2Proof.Machine.execMfeedEntryPerform g s := rfl
@[simp] theorem exec_mscaleEntryPerform (g : Nat) :
    exec (.mscaleEntryPerform g) s = Sys2Proof.Machine.execMscaleEntryPerform g s := rfl
@[simp] theorem exec_mdrainEntryPerform (part : Part) (elems : List Nat) :
    exec (.mdrainEntryPerform part elems) s = Sys2Proof.Machine.execMdrainEntryPerform part elems s := rfl
@[simp] theorem exec_mfmtRequest (g : Nat) (tag : Nat) :
    exec (.mfmtRequest g tag) s = Sys2Proof.Machine.execMfmtRequest g tag s := rfl
@[simp] theorem exec_diceEntryPerform (part : Part) :
    exec (.diceEntryPerform part) s = Sys2Proof.Machine.execDiceEntryPerform part s := rfl
@[simp] theorem exec_fillEntryPerform (part : Part) :
    exec (.fillEntryPerform part) s = Sys2Proof.Machine.execFillEntryPerform part s := rfl
@[simp] theorem exec_spillEntryPerform (g : Nat) (n : Nat) :
    exec (.spillEntryPerform g n) s = Sys2Proof.Machine.execSpillEntryPerform g n s := rfl
@[simp] theorem exec_engineSpill (slot : Nat) :
    exec (.engineSpill slot) s = Sys2Proof.Machine.execEngineSpill slot s := rfl
@[simp] theorem exec_greadEntryPerform (g : Nat) :
    exec (.greadEntryPerform g) s = Sys2Proof.Machine.execGreadEntryPerform g s := rfl
@[simp] theorem exec_gwriteEntryPerform (g : Nat) :
    exec (.gwriteEntryPerform g) s = Sys2Proof.Machine.execGwriteEntryPerform g s := rfl
@[simp] theorem exec_sflushEntryPerform (g : Nat) (n : Nat) :
    exec (.sflushEntryPerform g n) s = Sys2Proof.Machine.execSflushEntryPerform g n s := rfl
@[simp] theorem exec_sgridEntryPerform (part : Part) :
    exec (.sgridEntryPerform part) s = Sys2Proof.Machine.execSgridEntryPerform part s := rfl
@[simp] theorem exec_sresolveEntryPerform (g : Nat) (n : Nat) :
    exec (.sresolveEntryPerform g n) s = Sys2Proof.Machine.execSresolveEntryPerform g n s := rfl
@[simp] theorem exec_scoverEntryPerform (g : Nat) :
    exec (.scoverEntryPerform g) s = Sys2Proof.Machine.execScoverEntryPerform g s := rfl
@[simp] theorem exec_sampleRecordEntryPerform (part : Part) :
    exec (.sampleRecordEntryPerform part) s = Sys2Proof.Machine.execSampleRecordEntryPerform part s := rfl
@[simp] theorem exec_traceEntryPerform (part : Part) :
    exec (.traceEntryPerform part) s = Sys2Proof.Machine.execTraceEntryPerform part s := rfl
@[simp] theorem exec_traceSortMeeting (gang : Nat) (pos : Nat) (regcnt : Nat) (n : Nat) :
    exec (.traceSortMeeting gang pos regcnt n) s = Sys2Proof.Machine.execTraceSortMeeting gang pos regcnt n s := rfl
@[simp] theorem exec_hitgetEntryPerform (part : Part) :
    exec (.hitgetEntryPerform part) s = Sys2Proof.Machine.execHitgetEntryPerform part s := rfl
@[simp] theorem exec_rclookEntryPerform (part : Part) :
    exec (.rclookEntryPerform part) s = Sys2Proof.Machine.execRclookEntryPerform part s := rfl
@[simp] theorem exec_rcinsEntryPerform (part : Part) :
    exec (.rcinsEntryPerform part) s = Sys2Proof.Machine.execRcinsEntryPerform part s := rfl
@[simp] theorem exec_rcfadeEntryPerform (g : Nat) (n : Nat) :
    exec (.rcfadeEntryPerform g n) s = Sys2Proof.Machine.execRcfadeEntryPerform g n s := rfl
@[simp] theorem exec_texEntryPerform (part : ReadPart) :
    exec (.texEntryPerform part) s = Sys2Proof.Machine.execTexEntryPerform part s := rfl
@[simp] theorem exec_texqEntryPerform (part : ReadPart) :
    exec (.texqEntryPerform part) s = Sys2Proof.Machine.execTexqEntryPerform part s := rfl
@[simp] theorem exec_colourTransformEntryPerform (g : Nat) :
    exec (.colourTransformEntryPerform g) s = Sys2Proof.Machine.execColourTransformEntryPerform g s := rfl
@[simp] theorem exec_packEntryPerform (g : Nat) :
    exec (.packEntryPerform g) s = Sys2Proof.Machine.execPackEntryPerform g s := rfl
@[simp] theorem exec_xrawEntryPerform (g : Nat) :
    exec (.xrawEntryPerform g) s = Sys2Proof.Machine.execXrawEntryPerform g s := rfl
@[simp] theorem exec_xfclrEntryPerform (g : Nat) :
    exec (.xfclrEntryPerform g) s = Sys2Proof.Machine.execXfclrEntryPerform g s := rfl
@[simp] theorem exec_xdeltaEntryPerform (g : Nat) :
    exec (.xdeltaEntryPerform g) s = Sys2Proof.Machine.execXdeltaEntryPerform g s := rfl
@[simp] theorem exec_xdcmpEntryPerform (g : Nat) :
    exec (.xdcmpEntryPerform g) s = Sys2Proof.Machine.execXdcmpEntryPerform g s := rfl
@[simp] theorem exec_ktwinEntryPerform (g : Nat) :
    exec (.ktwinEntryPerform g) s = Sys2Proof.Machine.execKtwinEntryPerform g s := rfl
@[simp] theorem exec_kpealEntryPerform (part : Part) :
    exec (.kpealEntryPerform part) s = Sys2Proof.Machine.execKpealEntryPerform part s := rfl
@[simp] theorem exec_krstEntryPerform (g : Nat) :
    exec (.krstEntryPerform g) s = Sys2Proof.Machine.execKrstEntryPerform g s := rfl
@[simp] theorem exec_klaunchEntryPerform (g : Nat) :
    exec (.klaunchEntryPerform g) s = Sys2Proof.Machine.execKlaunchEntryPerform g s := rfl
@[simp] theorem exec_kcaptEntryPerform (g : Nat) :
    exec (.kcaptEntryPerform g) s = Sys2Proof.Machine.execKcaptEntryPerform g s := rfl
@[simp] theorem exec_ballastDepositPerform (g : Nat) :
    exec (.ballastDepositPerform g) s = Sys2Proof.Machine.execBallastDepositPerform g s := rfl
@[simp] theorem exec_qretEntryPerform (g : Nat) :
    exec (.qretEntryPerform g) s = Sys2Proof.Machine.execQretEntryPerform g s := rfl
@[simp] theorem exec_takeCause (unit : Nat) (who : Nat) :
    exec (.takeCause unit who) s = Sys2Proof.Machine.execTakeCause unit who s := rfl
@[simp] theorem exec_parkBlockWrite (inst : Nat) (img : List (BitVec 8)) :
    exec (.parkBlockWrite inst img) s = Sys2Proof.Machine.execParkBlockWrite inst img s := rfl
@[simp] theorem exec_softError (unit : Nat) (who : Nat) :
    exec (.softError unit who) s = Sys2Proof.Machine.execSoftError unit who s := rfl
@[simp] theorem exec_sleepExpire (unit : Nat) (who : Nat) :
    exec (.sleepExpire unit who) s = Sys2Proof.Machine.execSleepExpire unit who s := rfl
@[simp] theorem exec_mwaitWake (unit : Nat) (who : Nat) :
    exec (.mwaitWake unit who) s = Sys2Proof.Machine.execMwaitWake unit who s := rfl
@[simp] theorem exec_xchgMatch (g : Nat) (h : Nat) :
    exec (.xchgMatch g h) s = Sys2Proof.Machine.execXchgMatch g h s := rfl
@[simp] theorem exec_translationWalk (die : Nat) (cl : Nat) (root : Nat) (va : Nat) (alt : Nat) (victim : Nat) :
    exec (.translationWalk die cl root va alt victim) s = Sys2Proof.Machine.execTranslationWalk die cl root va alt victim s := rfl
@[simp] theorem exec_cacheLineExpire (die : Nat) (cl : Nat) (core : Nat) (block : Nat) :
    exec (.cacheLineExpire die cl core block) s = Sys2Proof.Machine.execCacheLineExpire die cl core block s := rfl
@[simp] theorem exec_writeCombineTimeout (die : Nat) (block : Nat) (secs : Nat) :
    exec (.writeCombineTimeout die block secs) s = Sys2Proof.Machine.execWriteCombineTimeout die block secs s := rfl
@[simp] theorem exec_gangAdmission (inst : Nat) (x : Nat) (y : Nat) (z : Nat) (cl : Nat) (commit : Bool) :
    exec (.gangAdmission inst x y z cl commit) s = Sys2Proof.Machine.execGangAdmission inst x y z cl commit s := rfl
@[simp] theorem exec_admissionRetry (inst : Nat) (x : Nat) (y : Nat) (z : Nat) :
    exec (.admissionRetry inst x y z) s = Sys2Proof.Machine.execAdmissionRetry inst x y z s := rfl
@[simp] theorem exec_gangRetire (gang : Nat) :
    exec (.gangRetire gang) s = Sys2Proof.Machine.execGangRetire gang s := rfl
@[simp] theorem exec_instanceRetire (launch : Nat) (number : Nat) :
    exec (.instanceRetire launch number) s = Sys2Proof.Machine.execInstanceRetire launch number s := rfl
@[simp] theorem exec_dispatchInstance (die : Nat) (inst : Nat) :
    exec (.dispatchInstance die inst) s = Sys2Proof.Machine.execDispatchInstance die inst s := rfl
@[simp] theorem exec_launchStart (launch : Nat) :
    exec (.launchStart launch) s = Sys2Proof.Machine.execLaunchStart launch s := rfl
@[simp] theorem exec_stepBoundary (launch : Nat) :
    exec (.stepBoundary launch) s = Sys2Proof.Machine.execStepBoundary launch s := rfl
@[simp] theorem exec_preemption (launch : Nat) :
    exec (.preemption launch) s = Sys2Proof.Machine.execPreemption launch s := rfl
@[simp] theorem exec_partitionResume (launch : Nat) (parts : List (Nat × List Nat)) :
    exec (.partitionResume launch parts) s = Sys2Proof.Machine.execPartitionResume launch parts s := rfl
@[simp] theorem exec_clusterPowerUp (die : Nat) (cl : Nat) :
    exec (.clusterPowerUp die cl) s = Sys2Proof.Machine.execClusterPowerUp die cl s := rfl
@[simp] theorem exec_periodBoundary (die : Nat) :
    exec (.periodBoundary die) s = Sys2Proof.Machine.execPeriodBoundary die s := rfl
@[simp] theorem exec_powerWindow (die : Nat) (mw : Nat) :
    exec (.powerWindow die mw) s = Sys2Proof.Machine.execPowerWindow die mw s := rfl
@[simp] theorem exec_thermalWarning (die : Nat) (sensor : Nat) (temp : Int) :
    exec (.thermalWarning die sensor temp) s = Sys2Proof.Machine.execThermalWarning die sensor temp s := rfl
@[simp] theorem exec_thermalRecovery (die : Nat) (temps : List Int) :
    exec (.thermalRecovery die temps) s = Sys2Proof.Machine.execThermalRecovery die temps s := rfl
@[simp] theorem exec_thermalFreeze (die : Nat) (sensor : Nat) (temp : Int) :
    exec (.thermalFreeze die sensor temp) s = Sys2Proof.Machine.execThermalFreeze die sensor temp s := rfl
@[simp] theorem exec_accumulatorForward (die : Nat) (k : Nat) :
    exec (.accumulatorForward die k) s = Sys2Proof.Machine.execAccumulatorForward die k s := rfl
@[simp] theorem exec_tetherSteal (die : Nat) (launch : Nat) :
    exec (.tetherSteal die launch) s = Sys2Proof.Machine.execTetherSteal die launch s := rfl
@[simp] theorem exec_stealRetry (die : Nat) (launch : Nat) :
    exec (.stealRetry die launch) s = Sys2Proof.Machine.execStealRetry die launch s := rfl
@[simp] theorem exec_depthReportSend (die : Nat) (launch : Nat) :
    exec (.depthReportSend die launch) s = Sys2Proof.Machine.execDepthReportSend die launch s := rfl
@[simp] theorem exec_writeMsg (src : Nat) (dst : Nat) (addr : Nat) (bytes : List (BitVec 8)) :
    exec (.writeMsg src dst addr bytes) s = Sys2Proof.Machine.execWriteMsg src dst addr bytes s := rfl
@[simp] theorem exec_noticeMsg (src : Nat) (dst : Nat) :
    exec (.noticeMsg src dst) s = Sys2Proof.Machine.execNoticeMsg src dst s := rfl
@[simp] theorem exec_readMsg (src : Nat) (dst : Nat) :
    exec (.readMsg src dst) s = Sys2Proof.Machine.execReadMsg src dst s := rfl
@[simp] theorem exec_rdataMsg (src : Nat) (dst : Nat) :
    exec (.rdataMsg src dst) s = Sys2Proof.Machine.execRdataMsg src dst s := rfl
@[simp] theorem exec_ackMsg (src : Nat) (dst : Nat) :
    exec (.ackMsg src dst) s = Sys2Proof.Machine.execAckMsg src dst s := rfl
@[simp] theorem exec_messageApply (src : Nat) (dst : Nat) :
    exec (.messageApply src dst) s = Sys2Proof.Machine.execMessageApply src dst s := rfl
@[simp] theorem exec_returnMsg (src : Nat) (dst : Nat) :
    exec (.returnMsg src dst) s = Sys2Proof.Machine.execReturnMsg src dst s := rfl
@[simp] theorem exec_borrowMsg (src : Nat) (dst : Nat) :
    exec (.borrowMsg src dst) s = Sys2Proof.Machine.execBorrowMsg src dst s := rfl
@[simp] theorem exec_grantMsg (src : Nat) (dst : Nat) :
    exec (.grantMsg src dst) s = Sys2Proof.Machine.execGrantMsg src dst s := rfl
@[simp] theorem exec_refuseMsg (src : Nat) (dst : Nat) :
    exec (.refuseMsg src dst) s = Sys2Proof.Machine.execRefuseMsg src dst s := rfl
@[simp] theorem exec_depositMsg (src : Nat) (dst : Nat) :
    exec (.depositMsg src dst) s = Sys2Proof.Machine.execDepositMsg src dst s := rfl
@[simp] theorem exec_transferMsg (src : Nat) (dst : Nat) :
    exec (.transferMsg src dst) s = Sys2Proof.Machine.execTransferMsg src dst s := rfl
@[simp] theorem exec_wakeMsg (src : Nat) (dst : Nat) :
    exec (.wakeMsg src dst) s = Sys2Proof.Machine.execWakeMsg src dst s := rfl
@[simp] theorem exec_stealRequest (src : Nat) (dst : Nat) :
    exec (.stealRequest src dst) s = Sys2Proof.Machine.execStealRequest src dst s := rfl
@[simp] theorem exec_stealReply (src : Nat) (dst : Nat) :
    exec (.stealReply src dst) s = Sys2Proof.Machine.execStealReply src dst s := rfl
@[simp] theorem exec_depthReport (src : Nat) (dst : Nat) :
    exec (.depthReport src dst) s = Sys2Proof.Machine.execDepthReport src dst s := rfl
@[simp] theorem exec_hostRegisterRequest (die : Nat) (wr : Bool) (offset : Nat) (size : Nat) (val : Nat) (tag : Nat) :
    exec (.hostRegisterRequest die wr offset size val tag) s = Sys2Proof.Machine.execHostRegisterRequest die wr offset size val tag s := rfl
@[simp] theorem exec_hostRegisterResponse (die : Nat) :
    exec (.hostRegisterResponse die) s = Sys2Proof.Machine.execHostRegisterResponse die s := rfl
@[simp] theorem exec_eventFlit (die : Nat) :
    exec (.eventFlit die) s = Sys2Proof.Machine.execEventFlit die s := rfl
@[simp] theorem exec_lqtailWrite (die : Nat) (val : Nat) :
    exec (.lqtailWrite die val) s = Sys2Proof.Machine.execLqtailWrite die val s := rfl
@[simp] theorem exec_launchRecord (die : Nat) :
    exec (.launchRecord die) s = Sys2Proof.Machine.execLaunchRecord die s := rfl
@[simp] theorem exec_resumeCmd (die : Nat) :
    exec (.resumeCmd die) s = Sys2Proof.Machine.execResumeCmd die s := rfl
@[simp] theorem exec_abortCmd (die : Nat) :
    exec (.abortCmd die) s = Sys2Proof.Machine.execAbortCmd die s := rfl
@[simp] theorem exec_switchCmd (die : Nat) :
    exec (.switchCmd die) s = Sys2Proof.Machine.execSwitchCmd die s := rfl
@[simp] theorem exec_withdrawCmd (die : Nat) :
    exec (.withdrawCmd die) s = Sys2Proof.Machine.execWithdrawCmd die s := rfl
@[simp] theorem exec_tlbinvCmd (die : Nat) :
    exec (.tlbinvCmd die) s = Sys2Proof.Machine.execTlbinvCmd die s := rfl
@[simp] theorem exec_mcclr (die : Nat) (val : Nat) :
    exec (.mcclr die val) s = Sys2Proof.Machine.execMcclr die val s := rfl
@[simp] theorem exec_registerWrite (die : Nat) (offset : Nat) (size : Nat) (val : Nat) :
    exec (.registerWrite die offset size val) s = Sys2Proof.Machine.execRegisterWrite die offset size val s := rfl
@[simp] theorem exec_boot (die : Nat) :
    exec (.boot die) s = Sys2Proof.Machine.execBoot die s := rfl
@[simp] theorem exec_attestationQuote (die : Nat) :
    exec (.attestationQuote die) s = Sys2Proof.Machine.execAttestationQuote die s := rfl
@[simp] theorem exec_quoteReady (die : Nat) :
    exec (.quoteReady die) s = Sys2Proof.Machine.execQuoteReady die s := rfl
@[simp] theorem exec_resetAll (form : Nat) :
    exec (.resetAll form) s = Sys2Proof.Machine.execResetAll form s := rfl
@[simp] theorem exec_linkTraining (die : Nat) (k : Nat) (width : Nat) (rate : Nat) :
    exec (.linkTraining die k width rate) s = Sys2Proof.Machine.execLinkTraining die k width rate s := rfl
@[simp] theorem exec_linkLost (die : Nat) (k : Nat) :
    exec (.linkLost die k) s = Sys2Proof.Machine.execLinkLost die k s := rfl
@[simp] theorem exec_freeze :
    exec .freeze s = Sys2Proof.Machine.execFreeze s := rfl
@[simp] theorem exec_freezeCommand :
    exec .freezeCommand s = Sys2Proof.Machine.execFreezeCommand s := rfl
@[simp] theorem exec_thaw :
    exec .thaw s = Sys2Proof.Machine.execThaw s := rfl
@[simp] theorem exec_thawCommand :
    exec .thawCommand s = Sys2Proof.Machine.execThawCommand s := rfl
@[simp] theorem exec_timeSliceExpiry (launch : Nat) :
    exec (.timeSliceExpiry launch) s = Sys2Proof.Machine.execTimeSliceExpiry launch s := rfl
@[simp] theorem exec_hcmdNotAccepted (die : Nat) (val : Nat) :
    exec (.hcmdNotAccepted die val) s = Sys2Proof.Machine.execHcmdNotAccepted die val s := rfl
@[simp] theorem exec_linkDown (die : Nat) (k : Nat) :
    exec (.linkDown die k) s = Sys2Proof.Machine.execLinkDown die k s := rfl
@[simp] theorem exec_droppedFlit (die : Nat) (weight : Nat) :
    exec (.droppedFlit die weight) s = Sys2Proof.Machine.execDroppedFlit die weight s := rfl
@[simp] theorem exec_flitRetry (die : Nat) (k : Nat) (n : Nat) :
    exec (.flitRetry die k n) s = Sys2Proof.Machine.execFlitRetry die k n s := rfl

end Sys2Proof.Machine
end

