-- ==== Sys2Proof/Laws/Queues.lean ====
section
/-! SUPPORT. What the queue operations do: issuing an entry, its head, its completion and halt; and the small operations
that a word of a group or a context begins with. -/

set_option linter.unusedVariables false

namespace Sys2Proof.Machine

open Sys2Proof

/-! ## Small operations -/

section

variable {w : Work} {u : Who} {k : Nat} {g : Group} {ga : Gang}

@[simp] theorem run_myPort (h : w.cur.issuer = some u) : myPort w = .ok (w.cur.portOf u, w) := by
  simp [myPort, h]

@[simp] theorem run_myGang (h : w.cur.issuer = some u) (hg : Tab.find w.cur.gangs u.gang = some ga) :
    myGang w = .ok ((u.gang, ga), w) := by
  simp [myGang, h, State.gangOf, hg]

/-- A group's word of the gang that its number names. -/
@[simp] theorem run_myGangGroup (h : w.cur.issuer = some (.group k)) (hg : Tab.find w.cur.gangs (k / 65536) = some ga) :
    myGang w = .ok ((k / 65536, ga), w) := run_myGang h hg

theorem run_waitSettled (h : w.cur.issuer = some (.group k)) (hg : Tab.find w.cur.groups k = some g)
    (hs : g.settled = true) : waitSettled w = .ok ((), w) := by
  simp only [Group.settled, Bool.and_eq_true, Bool.not_eq_true', List.isEmpty_iff] at hs
  simp [waitSettled, commits, h, hg, hs]

@[simp] theorem run_discard {α : Type} (m : Act α) (w : Work) :
    (discard m) w = match m w with
      | .ok (_, v) => .ok ((), v)
      | .error e => .error e := by
  unfold discard
  exact run_map w m _

end

/-! ## Issuing -/

/-- An entry is issued when its pool has room. -/
theorem run_issueEntry {w : Work} {k q : Nat} {op : EOp} {g : Group} (hr : w.cur.roomFor k q = true)
    (hg : Tab.find w.cur.groups k = some g) :
    issueEntry k q op w = .ok ((g.queue q).next.toNat, ⟨w.cur.tickOn.setGroup k (g.issued q op w.cur.tick), w.stores⟩) := by
  simp [issueEntry, hr, hg, setGroup_tickOn]

section

variable (g : Group) (q : Nat) (op : EOp) (born : Nat)

@[simp] theorem issued_st : (g.issued q op born).st = g.st := rfl
@[simp] theorem issued_batches : (g.issued q op born).batches = g.batches := rfl
@[simp] theorem issued_raster : (g.issued q op born).raster = g.raster := rfl
@[simp] theorem issued_queue : (g.issued q op born).queue q =
    { g.queue q with
      next := (g.queue q).next + 1
      ents := (g.queue q).ents ++ [g.entry q op born] } := by
  simp [Group.issued, Group.queue]

end

/-- The head of a queue, when it may perform. -/
theorem run_headOf {w : Work} {k q : Nat} {g : Group} {e : Ent} {t : List Ent} (hg : Tab.find w.cur.groups k = some g)
    (he : (g.queue q).ents = e :: t) (hm : w.cur.mayPerform k g (g.queue q) e = true)
    (hf : (e.started || !g.fenced q e) = true) (hc : (e.started || e.op.bar.isNone || g.clearFor e) = true) :
    headOf k q w = .ok ((g, g.queue q, e), w) := by
  simp only [headOf, hc, run_bind, run_now, run_getGroup w hg, run_guardA, he, hm, Bool.true_or, if_true, List.head?_cons,
    run_need_some, hf, run_pure]

end Sys2Proof.Machine
end

