-- ==== Sys2Proof/Laws/Lane.lean ====
section
/-! SUPPORT. What the operations of a lane word do: the issuing fragment, its operands, its results and its completion. -/

set_option linter.unusedVariables false

namespace Sys2Proof.Machine

open Sys2Proof

section

variable {w : Work} {l : Lane}

/-- The issuing fragment is the one that the turn's actor names. -/
theorem run_myLane (ha : w.cur.actor = .lane l.k l.fi) (hg : Tab.find w.cur.groups l.k = some l.g)
    (hf : l.g.run.frags[l.fi]? = some l.fr) : myLane w = .ok (l, w) := by
  simp [myLane, ha, hg, hf]

theorem run_checkD (ha : w.cur.actor = .lane l.k l.fi) (hg : Tab.find w.cur.groups l.k = some l.g)
    (hf : l.g.run.frags[l.fi]? = some l.fr) {x : LaneW} {wide : Bool} (hn : l.g.noReg x.d.toNat wide = false) :
    checkD x wide w = .ok ((), w) := by
  simp [checkD, run_myLane ha hg hf, hn]

/-- Slots that can be read give their values, and their pops are committed. -/
theorem run_readOps (ha : w.cur.actor = .lane l.k l.fi) (hg : Tab.find w.cur.groups l.k = some l.g)
    (hf : l.g.run.frags[l.fi]? = some l.fr) {x : LaneW} {ts : List Nat} {rs : List SlotReq} {cols : List (List Nat)}
    {qs : Tab OpQ} (hn : rs.any (fun r => l.g.noReg r.code r.wide) = false)
    (hq : l.readSlots w.cur x.imm.toNat ts rs l.g.opq = .ok (cols, qs)) :
    readOps x ts rs w = .ok ((upFrom 0 ts.length).map (fun i => (nth ts i 0, cols.map (fun c => nth c i 0))),
      ⟨w.cur.setGroup l.k { l.g with opq := qs.map (fun q => (q.1, q.2.trim l.g.present)) }, w.stores⟩) := by
  simp only [readOps, run_bind, run_myLane ha hg hf, hn, Bool.false_eq_true, ite_false, run_pure, run_now, hq, run_putGroup]

theorem run_laneResult (ha : w.cur.actor = .lane l.k l.fi) (hg : Tab.find w.cur.groups l.k = some l.g)
    (hf : l.g.run.frags[l.fi]? = some l.fr) (x : LaneW) (wide : Bool) (rs : List (Nat × Nat)) :
    laneResult x wide rs w = .ok ((), ⟨w.cur.setGroup l.k ((l.g.writeD x.d.toNat wide rs).laneNext l.fi), w.stores⟩) := by
  simp [laneResult, run_myLane ha hg hf]

theorem run_laneDone (ha : w.cur.actor = .lane l.k l.fi) (hg : Tab.find w.cur.groups l.k = some l.g)
    (hf : l.g.run.frags[l.fi]? = some l.fr) : laneDone w = .ok ((), ⟨w.cur.setGroup l.k (l.g.laneNext l.fi), w.stores⟩) := by
  simp [laneDone, run_myLane ha hg hf, run_modGroup w hg]

theorem run_laneLater (ha : w.cur.actor = .lane l.k l.fi) (hg : Tab.find w.cur.groups l.k = some l.g)
    (hf : l.g.run.frags[l.fi]? = some l.fr) (x : LaneW) :
    laneLater x w = .ok (l.g.tags, ⟨w.cur.setGroup l.k
      ({ l.g.openWindow l.fi x.la.toNat ⟨l.g.tags, false, []⟩ with tags := l.g.tags + 1 }.laneNext l.fi), w.stores⟩) := by
  simp [laneLater, run_myLane ha hg hf]

theorem run_closeLane (ha : w.cur.actor = .lane l.k l.fi) (hg : Tab.find w.cur.groups l.k = some l.g)
    (hf : l.g.run.frags[l.fi]? = some l.fr) (hc : (l.fr.wins.map (fun x => x.1)).any l.g.coming = false) :
    closeLane w = .ok ((), ⟨w.cur.setGroup l.k (l.g.writeTags (l.fr.wins.map (fun x => x.1))), w.stores⟩) := by
  simp only [closeLane, run_bind, run_myLane ha hg hf, hc, run_guardA, Bool.not_false, ite_true, run_putGroup]

/-- Checks of which none holds raise nothing. -/
theorem run_checkLane {cs : List (Bool × Nat)} (h : cs.filter (fun x => x.1) = []) : checkLane l cs w = .ok ((), w) := by
  simp [checkLane, h]

end

end Sys2Proof.Machine
end

