-- ==== Sys2Proof/Laws/Mem.lean ====
section
/-! SUPPORT. The memory: what is read after a byte is written, and that every operation keeps the canonical form. -/

set_option linter.unusedVariables false

namespace Sys2Proof.Machine

open Sys2Proof

/-! ## The canonical form -/

theorem wfFrom_mono {m : List Host.Cell} {lo hi : Nat} (h : Mem.wfFrom hi m = true) (hl : lo ≤ hi) :
    Mem.wfFrom lo m = true := by
  cases m with
  | nil => rfl
  | cons c t =>
    obtain ⟨a, b⟩ := c
    simp only [Mem.wfFrom, Bool.and_eq_true, decide_eq_true_eq] at h ⊢
    exact ⟨⟨by omega, h.1.2⟩, h.2⟩

theorem wfFrom_set {m : List Host.Cell} {lo k : Nat} {b : Byte} (h : Mem.wfFrom lo m = true) (hk : lo ≤ k) :
    Mem.wfFrom lo (Mem.set m k b) = true := by
  induction m generalizing lo with
  | nil => by_cases hb : b = 0#8 <;> simp [Mem.set, Mem.wfFrom, hb, hk]
  | cons c t ih =>
    obtain ⟨a, c⟩ := c
    simp only [Mem.wfFrom, Bool.and_eq_true, decide_eq_true_eq] at h
    simp only [Mem.set]
    by_cases h1 : k < a
    · by_cases hb : b = 0#8
      · simpa [h1, hb, Mem.wfFrom] using h
      · have h2 : k + 1 ≤ a := h1
        have h3 := h.1.2
        simp only [Bool.not_eq_true', beq_eq_false_iff_ne, ne_eq] at h3
        simpa [h1, hb, Mem.wfFrom, hk, h2, h.2] using h3
    · by_cases h2 : a = k
      · subst h2
        by_cases hb : b = 0#8
        · simpa [hb] using wfFrom_mono h.2 (by omega : lo ≤ a + 1)
        · simp [hb, Mem.wfFrom, hk, h.2]
      · have h3 : a + 1 ≤ k := by omega
        simp only [h1, h2, if_false, Mem.wfFrom, Bool.and_eq_true, decide_eq_true_eq]
        exact ⟨h.1, ih h.2 h3⟩

theorem wfFrom_filter {m : List Host.Cell} {lo : Nat} (f : Host.Cell → Bool) (h : Mem.wfFrom lo m = true) :
    Mem.wfFrom lo (m.filter f) = true := by
  induction m generalizing lo with
  | nil => rfl
  | cons c t ih =>
    obtain ⟨a, b⟩ := c
    simp only [Mem.wfFrom, Bool.and_eq_true, decide_eq_true_eq] at h
    by_cases hf : f (a, b) = true
    · simp only [List.filter_cons, hf, if_true, Mem.wfFrom, Bool.and_eq_true, decide_eq_true_eq]
      exact ⟨h.1, ih h.2⟩
    · simpa [List.filter_cons, hf] using ih (wfFrom_mono h.2 (by omega : lo ≤ a + 1))

theorem wf_set {m : List Host.Cell} (k : Nat) (b : Byte) (h : Mem.wf m = true) : Mem.wf (Mem.set m k b) = true :=
  wfFrom_set h (Nat.zero_le k)

theorem wf_filter {m : List Host.Cell} (f : Host.Cell → Bool) (h : Mem.wf m = true) : Mem.wf (m.filter f) = true :=
  wfFrom_filter f h

theorem wf_write {m : List Host.Cell} (k n v : Nat) (h : Mem.wf m = true) : Mem.wf (Mem.write m k n v) = true := by
  induction n generalizing m k v with
  | zero => exact h
  | succ n ih => exact ih (k + 1) (v / 256) (wf_set k _ h)

theorem wf_clear {m : List Host.Cell} (k n : Nat) (h : Mem.wf m = true) : Mem.wf (Mem.clear m k n) = true := wf_filter _ h

theorem wf_put {m : List Host.Cell} (k n v : Nat) (h : Mem.wf m = true) : Mem.wf (Mem.put m k n v) = true := by
  unfold Mem.put
  split
  · exact wf_clear k n h
  · exact wf_write k n v h

theorem wf_storeAll {m : List Host.Cell} (l : List (Nat × Nat × Nat)) (h : Mem.wf m = true) :
    Mem.wf (storeAll m l) = true := by
  induction l with
  | nil => exact h
  | cons x t ih => exact wf_put x.1 x.2.1 x.2.2 ih

/-- The memory at reset has the canonical form. -/
theorem reset_wf : Mem.wf State.reset.mem = true := rfl

/-! ## What is read after a byte is written -/

/-- A byte below every listed address reads as an unlisted one. -/
theorem get_below {m : List Host.Cell} {lo k : Nat} (h : Mem.wfFrom lo m = true) (hk : k < lo) : Mem.get m k = 0 := by
  induction m generalizing lo with
  | nil => rfl
  | cons c t ih =>
    obtain ⟨a, b⟩ := c
    simp only [Mem.wfFrom, Bool.and_eq_true, decide_eq_true_eq] at h
    have : a ≠ k := by omega
    simp only [Mem.get, this, if_false]
    exact ih h.2 (by omega)

theorem get_set {m : List Host.Cell} {lo : Nat} (h : Mem.wfFrom lo m = true) (k : Nat) (b : Byte) (a : Nat) :
    Mem.get (Mem.set m k b) a = if a = k then b else Mem.get m a := by
  induction m generalizing lo with
  | nil =>
    by_cases hb : b = 0#8 <;> by_cases ha : k = a <;> simp [Mem.set, Mem.get, hb, ha, eq_comm]
  | cons c t ih =>
    obtain ⟨x, c⟩ := c
    simp only [Mem.wfFrom, Bool.and_eq_true, decide_eq_true_eq] at h
    have below : ∀ y, y ≤ x → Mem.get t y = 0 := fun y hy => get_below h.2 (by omega)
    have hi := ih h.2
    simp only [Mem.set]
    by_cases h1 : k < x
    · by_cases hb : b = 0#8
      · by_cases ha : a = k
        · subst ha
          have hx : x ≠ a := by omega
          simp [h1, hb, Mem.get, hx, below a (by omega)]
        · simp [h1, hb, ha]
      · by_cases ha : a = k
        · subst ha
          simp [h1, hb, Mem.get]
        · simp [h1, hb, ha, Mem.get, Ne.symm ha]
    · by_cases h2 : x = k
      · subst h2
        by_cases hb : b = 0#8
        · by_cases ha : a = x
          · subst ha
            simp [hb, below a (Nat.le_refl a)]
          · simp [hb, ha, Mem.get, Ne.symm ha]
        · by_cases ha : a = x
          · subst ha
            simp [hb, Mem.get]
          · simp [hb, ha, Mem.get, Ne.symm ha]
      · simp only [h1, h2, if_false, Mem.get]
        by_cases ha : x = a
        · subst ha
          simp [h2]
        · simp [ha, hi]

/-! ## Updates that leave the memory alone -/

@[simp] theorem setStopped_mem (s : State) (gs : List Nat) (b : Bool) : (s.setStopped gs b).mem = s.mem := rfl

theorem settleLanes_mem (s : State) (u : Who) : (s.settleLanes u).mem = s.mem := by
  cases u <;> simp only [State.settleLanes]
  split <;> rfl

theorem park_mem (s : State) (inst reason : Nat) (c : Cause) (who : Nat) (f : FaultRec) :
    (s.park inst reason c who f).mem = s.mem := by
  unfold State.park
  split
  · rfl
  · split <;> rfl

theorem take_mem (s : State) (u : Who) : (s.take u).mem = s.mem := by
  unfold State.take
  split
  · rfl
  · split
    · rfl
    · split
      · rfl
      · dsimp only
        split <;> simp only [park_mem, setStream_mem]

/-- Raising a cause stores nothing. -/
theorem raise_mem (s : State) (u : Who) (c : Cause) : (s.raise u c).mem = s.mem := by
  unfold State.raise
  split
  · rfl
  · split
    · rfl
    · simp only [apply_ite State.mem, take_mem, settleLanes_mem, setStream_mem, ite_self]

theorem clearWait_mem (s : State) (u : Who) : (s.clearWait u).mem = s.mem := by
  unfold State.clearWait
  split
  · rfl
  · exact setStream_mem _ _ _

/-! ## Meanings -/

theorem leaveWait_wf {s : State} (u : Who) (h : Mem.wf s.mem = true) : Mem.wf (s.leaveWait u).mem = true := by
  unfold State.leaveWait
  split
  · exact h
  · exact wf_put _ _ _ h

theorem raiseIssuer_wf {s : State} (c : Cause) (h : Mem.wf s.mem = true) : Mem.wf (s.raiseIssuer c).mem = true := by
  unfold State.raiseIssuer
  split
  · exact h
  · rw [raise_mem]
    exact leaveWait_wf _ h

/-- However a meaning ends without its effect, the memory keeps its form. -/
theorem stop_wf {s t : State} {e : Stop} (h : Mem.wf s.mem = true) (ht : s.stop e = some t) : Mem.wf t.mem = true := by
  cases e <;> simp only [State.stop, Option.some.injEq] at ht
  case stall => exact ht ▸ h
  case raise c => exact ht ▸ raiseIssuer_wf c h
  case raiseBad c d =>
    refine ht ▸ raiseIssuer_wf c ?_
    unfold State.countBad
    split <;> exact h
  case wait x =>
    subst ht
    unfold State.setWait
    repeat' split
    all_goals first
      | exact h
      | rwa [setStream_mem]
  case laneWait x =>
    subst ht
    unfold State.setLaneWait
    repeat' split
    all_goals exact h
  case read d b =>
    subst ht
    unfold State.sendRead
    split <;> exact h
  case dead => cases ht

theorem setWait_wf {s : State} (x : Wait) (h : Mem.wf s.mem = true) : Mem.wf (s.setWait x).mem = true :=
  stop_wf (e := .wait x) h rfl

theorem setLaneWait_wf {s : State} (x : FWait) (h : Mem.wf s.mem = true) : Mem.wf (s.setLaneWait x).mem = true :=
  stop_wf (e := .laneWait x) h rfl

theorem tryAgain_wf {s : State} (h : Mem.wf s.mem = true) : Mem.wf s.tryAgain.mem = true := by
  unfold State.tryAgain
  repeat' split
  all_goals first
    | exact h
    | exact setWait_wf _ h
    | exact setLaneWait_wf _ h

theorem halted_wf {s t : State} {e : Stop} (h : Mem.wf s.mem = true) (ht : s.halted e = some t) : Mem.wf t.mem = true := by
  unfold State.halted at ht
  split at ht
  · cases ht
    exact tryAgain_wf h
  · cases ht
    exact stop_wf (e := .read _ _) (tryAgain_wf h) rfl
  · exact stop_wf h ht

/-- A meaning that answers a next state keeps the memory's form. -/
theorem perform_wf {m : Act Unit} {s t : State} (h : Mem.wf s.mem = true) (ht : perform m s = .next t) :
    Mem.wf t.mem = true := by
  unfold perform at ht
  split at ht
  · cases ht
    exact wf_storeAll _ h
  · split at ht
    · cases ht
      exact halted_wf h ‹_›
    · cases ht

theorem onStream_wf {f : Stream → Flow} {s t : State} (h : Mem.wf s.mem = true) (ht : onStream f s = .next t) :
    Mem.wf t.mem = true := by
  unfold onStream at ht
  repeat' split at ht
  all_goals first
    | (cases ht; simpa only [setStream_mem, raise_mem] using h)
    | cases ht

end Sys2Proof.Machine
end

