-- ==== Sys2Proof/Tests/Slice0.lean ====
section
/-! SUPPORT. Tests: words of the spec decode, ill-formed instructions are refused, one step of an instruction on a small state
gives what the manual says, and every statement's hypotheses are met by some state. -/

set_option linter.unusedVariables false
set_option maxRecDepth 8000
set_option Elab.async false

namespace Sys2Proof.Tests

open Sys2Proof Sys2Proof.Machine

/-! ## Decoding

Words written out from the encodings of the spec: the words that its chapters work out, and for the other instructions the
fields of the opcode table or of Table 3-4 with the opcodes of Table 3-9. -/

/-- Whether each word decodes to its instruction. -/
def decodes (nbits : Nat) (l : List (Nat × Instr)) : Bool := l.all (fun x => decide (decodeTableWord nbits x.1 = some x.2))

theorem test_decode_scalar_arithmetic : decodes 32 [
    (0x04642800, .add 3 4 5),
    (0x04432010, .sub 2 3 4),
    (0x07AE3820, .mul 0x1d 0xe 7),
    (0x07AE3830, .mulhI64 0x1d 0xe 7),
    (0x07AE3840, .mulhN64 0x1d 0xe 7),
    (0x07AE3850, .andS 0x1d 0xe 7),
    (0x07AE3860, .orS 0x1d 0xe 7),
    (0x07AE3870, .xorS 0x1d 0xe 7),
    (0x07AE3880, .shl 0x1d 0xe 7),
    (0x07AE3890, .shr 0x1d 0xe 7),
    (0x07AE38A0, .sra 0x1d 0xe 7),
    (0x07AE38B0, .minI64 0x1d 0xe 7),
    (0x07AE38C0, .minN64 0x1d 0xe 7),
    (0x07AE38D0, .maxI64 0x1d 0xe 7),
    (0x07AE38E0, .maxN64 0x1d 0xe 7),
    (0x042320F0, .cmp 1 3 4),
    (0x04432100, .tst 2 3 4),
    (0x04C429B0, .lea 6 4 5 3),
    (0x04642D20, .sel 3 4 5 2 2)] = true := by decide +kernel

theorem test_decode_scalar_immediates : decodes 32 [
    (0x0FAE0007, .addImm 0x1d 0xe 7),
    (0x13AE0007, .andImm 0x1d 0xe 7),
    (0x17AE0007, .orImm 0x1d 0xe 7),
    (0x1BAE0007, .xorImm 0x1d 0xe 7),
    (0x1C64003F, .shlImm 3 4 0x3f),
    (0x20640001, .shrImm 3 4 1),
    (0x2464001F, .sraImm 3 4 0x1f),
    (0x2BAE0007, .mulImm 0x1d 0xe 7),
    (0x2C23FFFB, .cmpImm 1 3 (-5)),
    (0x3060FFFF, .movi 3 0xffff),
    (0x3462BEEF, .movhi 3 2 0xbeef),
    (0x3BA0000E, .gets 0x1d 0xe),
    (0x3C000030, .sets 0 0x30)] = true := by decide +kernel

theorem test_decode_scalar_memory_and_flow : decodes 32 [
    (0x40A42C01, .sld 5 4 2 3 1),
    (0x44A40FFF, .sst 5 4 3 0x3ff),
    (0x48040800, .ald 0 0 4 2 0),
    (0x4C240801, .ast 1 4 2 1),
    (0x50100808, .loopImm 2 8),
    (0x50A00C00, .loopSreg 5 3),
    (0x54100000, .lrunImm 0),
    (0x546ABCDE, .lrunSreg 3 0xabcde),
    (0x58000005, .fence 5),
    (0x5C0003FF, .qfence 0x3ff),
    (0x60000012, .trap 0x12),
    (0x837FFFF0, .brSet 3 1 0x3ffff0),
    (0x857FFFF0, .brClear 1 1 (-16)),
    (0x883FFFFF, .jmp 0x3fffff),
    (0x8C000020, .call 32),
    (0x08000000, .nop),
    (0x08000010, .exit),
    (0x08000020, .yield),
    (0x081D0030, .sleep 0x1d),
    (0x08000040, .lsync),
    (0x08070050, .jmpr 7),
    (0x08000060, .ret),
    (0x08000070, .lexit),
    (0x0BAE0080, .reggive 0x1d 0xe),
    (0x0BAE0090, .regclaim 0x1d 0xe)] = true := by decide +kernel

theorem test_decode_partition_words : decodes 32 [
    (0xC0000000, .tretRegion),
    (0xC0200000, .tretAgain),
    (0xC0400000, .tretNext),
    (0xC0640010, .cause 3 4),
    (0xC0000020, .regn),
    (0xC3000030, .frec 24 0),
    (0xC0190040, .susp 25)] = true := by decide +kernel

theorem test_decode_memory_words : decodes 32 [
    (0xC7AE3800, .mwait 0x1d 0xe 7),
    (0xC7AE3810, .bankcfg 0x1d 0xe 7),
    (0xC41D7020, .discard 0x1d 0xe),
    (0xC41D7030, .flush 0x1d 0xe),
    (0xC41D7040, .inval 0x1d 0xe),
    (0xC41D7050, .pref 0x1d 0xe),
    (0xC7AE0060, .l2cfg 0x1d 0xe),
    (0xC4043080, .barInit 4 6),
    (0xC4E43090, .barArrive 7 4 6),
    (0xC7AE38A0, .barWait 0x1d 0xe 7),
    (0xC7AE38B0, .barTest 0x1d 0xe 7)] = true := by decide +kernel

theorem test_decode_copy_words : decodes 32 [
    (0xC8640000, .copy 3 4),
    (0xCBAE0010, .gcopy 0x1d 0xe),
    (0xC8642820, .mcopy 3 4 5),
    (0xCBA00030, .cseal 0x1d),
    (0xC81D0040, .cwaitUpto 0x1d),
    (0xC81D0050, .cwaitLeft 0x1d),
    (0xC8C42860, .ccont 6 4 5),
    (0xCBAE0070, .cstat 0x1d 0xe)] = true := by decide +kernel

theorem test_decode_geometry_and_raster_words : decodes 32 [
    (0xCFAE3800, .patch 0x1d 0xe 7),
    (0xCFAE3810, .split 0x1d 0xe 7),
    (0xCC642820, .dice 3 4 5),
    (0xCFAE3830, .gbound 0x1d 0xe 7),
    (0xCFAE3840, .bspill 0x1d 0xe 7),
    (0xCFAE3850, .bfill 0x1d 0xe 7),
    (0xD3AE3800, .spat 0x1d 0xe 7),
    (0xD0642810, .sgrid 3 4 5),
    (0xD3AE3820, .sflush 0x1d 0xe 7),
    (0xD3AE3830, .sresolve 0x1d 0xe 7)] = true := by decide +kernel

theorem test_decode_engine_words : decodes 32 [
    (0xD4642800, .bvhbind 3 4 5),
    (0xD7AE3810, .rcfade 0x1d 0xe 7),
    (0xD4642880, .texbind 3 4 5),
    (0xD9445800, .xdelta 10 4 11),
    (0xD81D7010, .xdcmp 0x1d 0xe),
    (0xD81D7020, .xfclr 0x1d 0xe),
    (0xDFAE0000, .ktwin 0x1d 0xe),
    (0xDC642810, .kpeal 3 4 5),
    (0xDC1D0020, .krst 0x1d),
    (0xDFAE0030, .kwait 0x1d 0xe),
    (0xDFAE0040, .kstat 0x1d 0xe)] = true := by decide +kernel

theorem test_decode_task_words : decodes 32 [
    (0xE3AE3800, .spawn 0x1d 0xe 7),
    (0xE01D7010, .ndone 0x1d 0xe),
    (0xE3A00020, .stepb 0x1d),
    (0xE3AE0030, .prio 0x1d 0xe),
    (0xE3AE0040, .erd 0x1d 0xe),
    (0xE0642850, .bqpush 3 4 5),
    (0xE3AE0060, .bqpop 0x1d 0xe),
    (0xE3AE0070, .dieq 0x1d 0xe)] = true := by decide +kernel

theorem test_decode_weight_words : decodes 32 [
    (0xE4C00000, .qroot 6),
    (0xE7AE3810, .qsplit 0x1d 0xe 7),
    (0xE7AE0020, .qretW 0x1d 0xe),
    (0xE7AE0820, .qretM 0x1d 0xe),
    (0xE7A00030, .qborrow 0x1d),
    (0xE7AE0040, .qwait 0x1d 0xe),
    (0xE7AE0050, .qpoll 0x1d 0xe),
    (0xE7AE0060, .qsend 0x1d 0xe)] = true := by decide +kernel

theorem test_decode_matrix_words : decodes 32 [
    (0xF0052000, .mshape 0 5 4),
    (0xF0203010, .mloadb 1 0 6),
    (0xF0015020, .mma 0 1 0xa),
    (0xF0804830, .mmac 4 0 9),
    (0xF0430040, .mzero 2 3 0),
    (0xF0E04050, .mstat 7 0 8)] = true := by decide +kernel

theorem test_decode_lane_integer_words : decodes 96 [
    (0x0107098AFE00080312345678, .iadd ⟨0, 0, 7, 0, 9, 0x8a, 0xfe, 0x0, 0x8, 0x3, 0x12345678⟩),
    (0x0202BF013F00000500000000, .isub ⟨0, 0, 2, 1, 63, 0x1, 0x3f, 0x0, 0x0, 0x5, 0x0⟩),
    (0x030702040600090700000000, .imul ⟨0, 0, 7, 0, 2, 0x4, 0x6, 0x0, 0x9, 0x7, 0x0⟩),
    (0x040702040608010300000000, .imad ⟨0, 0, 7, 0, 2, 0x4, 0x6, 0x8, 0x1, 0x3, 0x0⟩),
    (0x05070204FF00000700000000, .imulh ⟨0, 0, 7, 0, 2, 0x4, 0xff, 0x0, 0x0, 0x7, 0x0⟩),
    (0x060702040000000400000000, .iabs ⟨0, 0, 7, 0, 2, 0x4, 0x0, 0x0, 0x0, 0x4, 0x0⟩),
    (0x070702040600000100000000, .imin ⟨0, 0, 7, 0, 2, 0x4, 0x6, 0x0, 0x0, 0x1, 0x0⟩),
    (0x080702040600000200000000, .imax ⟨0, 0, 7, 0, 2, 0x4, 0x6, 0x0, 0x0, 0x2, 0x0⟩),
    (0x090701020300000700000000, .laneAnd ⟨0, 0, 7, 0, 1, 0x2, 0x3, 0x0, 0x0, 0x7, 0x0⟩),
    (0x0A0701020300000700000000, .laneOr ⟨0, 0, 7, 0, 1, 0x2, 0x3, 0x0, 0x0, 0x7, 0x0⟩),
    (0x0B0702040600000800000000, .laneXor ⟨0, 0, 7, 0, 2, 0x4, 0x6, 0x0, 0x0, 0x8, 0x0⟩),
    (0x0C0701020000000700000000, .notL ⟨0, 0, 7, 0, 1, 0x2, 0x0, 0x0, 0x0, 0x7, 0x0⟩),
    (0x0D0701020300000700000000, .laneShl ⟨0, 0, 7, 0, 1, 0x2, 0x3, 0x0, 0x0, 0x7, 0x0⟩),
    (0x0E0701020300000700000000, .laneShr ⟨0, 0, 7, 0, 1, 0x2, 0x3, 0x0, 0x0, 0x7, 0x0⟩),
    (0x0F0701020300000300000000, .laneSra ⟨0, 0, 7, 0, 1, 0x2, 0x3, 0x0, 0x0, 0x3, 0x0⟩),
    (0x100701020300000700000000, .bfe ⟨0, 0, 7, 0, 1, 0x2, 0x3, 0x0, 0x0, 0x7, 0x0⟩),
    (0x110701020304000700000000, .bfi ⟨0, 0, 7, 0, 1, 0x2, 0x3, 0x4, 0x0, 0x7, 0x0⟩),
    (0x120701020000000700000000, .popc ⟨0, 0, 7, 0, 1, 0x2, 0x0, 0x0, 0x0, 0x7, 0x0⟩),
    (0x130701020000000800000000, .clz ⟨0, 0, 7, 0, 1, 0x2, 0x0, 0x0, 0x0, 0x8, 0x0⟩),
    (0x180701490000000000000000, .mov ⟨0, 0, 7, 0, 1, 0x49, 0x0, 0x0, 0x0, 0x0, 0x0⟩),
    (0x190101020300000000000000, .laneSel ⟨0, 0, 1, 0, 1, 0x2, 0x3, 0x0, 0x0, 0x0, 0x0⟩),
    (0x1A0742000000000000960210, .plop ⟨0, 0, 7, 0, 66, 0x0, 0x0, 0x0, 0x0, 0x0, 0x960210⟩),
    (0x14074102FE02000300000005, .isetp ⟨0, 0, 7, 0, 65, 0x2, 0xfe, 0x2, 0x0, 0x3, 0x5⟩)] = true := by decide +kernel

theorem test_decode_lane_floating_words : decodes 96 [
    (0x200701020300FE0900000000, .fadd ⟨0, 0, 7, 0, 1, 0x2, 0x3, 0x0, 0xfe, 0x9, 0x0⟩),
    (0x210701020300000900000000, .fsub ⟨0, 0, 7, 0, 1, 0x2, 0x3, 0x0, 0x0, 0x9, 0x0⟩),
    (0x220701020300000900000000, .fmul ⟨0, 0, 7, 0, 1, 0x2, 0x3, 0x0, 0x0, 0x9, 0x0⟩),
    (0x230287018940820900000000, .ffma ⟨0, 0, 2, 1, 7, 0x1, 0x89, 0x40, 0x82, 0x9, 0x0⟩),
    (0x240701020300000900000000, .fmin ⟨0, 0, 7, 0, 1, 0x2, 0x3, 0x0, 0x0, 0x9, 0x0⟩),
    (0x250701020300F00900000000, .fmax ⟨0, 0, 7, 0, 1, 0x2, 0x3, 0x0, 0xf0, 0x9, 0x0⟩),
    (0x260740020307000900000000, .fsetp ⟨0, 0, 7, 0, 64, 0x2, 0x3, 0x7, 0x0, 0x9, 0x0⟩),
    (0x270701020000060900000000, .frnd ⟨0, 0, 7, 0, 1, 0x2, 0x0, 0x0, 0x6, 0x9, 0x0⟩),
    (0x28F701020000000900000000, .frcp ⟨15, 0, 7, 0, 1, 0x2, 0x0, 0x0, 0x0, 0x9, 0x0⟩),
    (0x291701020000000900000000, .frsq ⟨1, 0, 7, 0, 1, 0x2, 0x0, 0x0, 0x0, 0x9, 0x0⟩),
    (0x2A1701020000080900000000, .fsqrt ⟨1, 0, 7, 0, 1, 0x2, 0x0, 0x0, 0x8, 0x9, 0x0⟩),
    (0x2B0701020000000900000000, .fexp2 ⟨0, 0, 7, 0, 1, 0x2, 0x0, 0x0, 0x0, 0x9, 0x0⟩),
    (0x2C0701020000000900000000, .flog2 ⟨0, 0, 7, 0, 1, 0x2, 0x0, 0x0, 0x0, 0x9, 0x0⟩),
    (0x2D0701020000000900000000, .fsin ⟨0, 0, 7, 0, 1, 0x2, 0x0, 0x0, 0x0, 0x9, 0x0⟩),
    (0x2E0701020000000900000000, .fcos ⟨0, 0, 7, 0, 1, 0x2, 0x0, 0x0, 0x0, 0x9, 0x0⟩),
    (0x300701020300CE0E00000000, .hadd2 ⟨0, 0, 7, 0, 1, 0x2, 0x3, 0x0, 0xce, 0xe, 0x0⟩),
    (0x310701020300000F00000000, .hmul2 ⟨0, 0, 7, 0, 1, 0x2, 0x3, 0x0, 0x0, 0xf, 0x0⟩),
    (0x320701020304000E00000000, .hfma2 ⟨0, 0, 7, 0, 1, 0x2, 0x3, 0x4, 0x0, 0xe, 0x0⟩),
    (0x380701020000029300000000, .cvt ⟨0, 0, 7, 0, 1, 0x2, 0x0, 0x0, 0x2, 0x93, 0x0⟩)] = true := by decide +kernel

theorem test_decode_lane_group_and_control_words : decodes 96 [
    (0x400701020303000000000000, .shfl ⟨0, 0, 7, 0, 1, 0x2, 0x3, 0x3, 0x0, 0x0, 0x0⟩),
    (0x41070100000200000000000A, .vote ⟨0, 0, 7, 0, 1, 0x0, 0x0, 0x2, 0x0, 0x0, 0xa⟩),
    (0x420701020005000700000000, .gred ⟨0, 0, 7, 0, 1, 0x2, 0x0, 0x5, 0x0, 0x7, 0x0⟩),
    (0x430701020008000300000000, .gscan ⟨0, 0, 7, 0, 1, 0x2, 0x0, 0x8, 0x0, 0x3, 0x0⟩),
    (0x440701020000000900000000, .gdx ⟨0, 0, 7, 0, 1, 0x2, 0x0, 0x0, 0x0, 0x9, 0x0⟩),
    (0x450701020000000300000000, .gdy ⟨0, 0, 7, 0, 1, 0x2, 0x0, 0x0, 0x0, 0x3, 0x0⟩),
    (0x46070102840000000000BEEF, .xchg ⟨0, 0, 7, 0, 1, 0x2, 0x84, 0x0, 0x0, 0x0, 0xbeef⟩),
    (0x5107000100080000FFFFFFFE, .switchL ⟨0, 0, 7, 0, 0, 0x1, 0x0, 0x8, 0x0, 0x0, 0xfffffffe⟩),
    (0x520700000000000000000000, .reconv ⟨0, 0, 7, 0, 0, 0x0, 0x0, 0x0, 0x0, 0x0, 0x0⟩),
    (0x530705810000000000000004, .lloop ⟨0, 0, 7, 0, 5, 0x81, 0x0, 0x0, 0x0, 0x0, 0x4⟩),
    (0x540B00000000000000000000, .llexit ⟨0, 1, 3, 0, 0, 0x0, 0x0, 0x0, 0x0, 0x0, 0x0⟩),
    (0x550700000000000000000000, .lstop ⟨0, 0, 7, 0, 0, 0x0, 0x0, 0x0, 0x0, 0x0, 0x0⟩),
    (0x500900000000000000000005, .brl ⟨0, 1, 1, 0, 0, 0x0, 0x0, 0x0, 0x0, 0x0, 0x5⟩)] = true := by decide +kernel

theorem test_decode_lane_memory_words : decodes 96 [
    (0x603706020000600700000040, .ld ⟨3, 0, 7, 0, 6, 0x2, 0x0, 0x0, 0x60, 0x7, 0x40⟩),
    (0x6107000203000007FFFFFFF0, .st ⟨0, 0, 7, 0, 0, 0x2, 0x3, 0x0, 0x0, 0x7, 0xfffffff0⟩),
    (0x622706030000000100000008, .ldx ⟨2, 0, 7, 0, 6, 0x3, 0x0, 0x0, 0x0, 0x1, 0x8⟩),
    (0x630700030400000500000008, .stx ⟨0, 0, 7, 0, 0, 0x3, 0x4, 0x0, 0x0, 0x5, 0x8⟩),
    (0x640706020405000700000007, .atom ⟨0, 0, 7, 0, 6, 0x2, 0x4, 0x5, 0x0, 0x7, 0x7⟩),
    (0x650706030400000300000001, .atomx ⟨0, 0, 7, 0, 6, 0x3, 0x4, 0x0, 0x0, 0x3, 0x1⟩),
    (0x6607000200000000000001F8, .fqput ⟨0, 0, 7, 0, 0, 0x2, 0x0, 0x0, 0x0, 0x0, 0x1f8⟩),
    (0x6717030000000000000001F8, .fqget ⟨1, 0, 7, 0, 3, 0x0, 0x0, 0x0, 0x0, 0x0, 0x1f8⟩)] = true := by decide +kernel

theorem test_decode_lane_engine_words : decodes 96 [
    (0x71077F03000000000000007F, .mscale ⟨0, 0, 7, 0, 127, 0x3, 0x0, 0x0, 0x0, 0x0, 0x7f⟩),
    (0x731703000006000000000003, .mfmt ⟨1, 0, 7, 0, 3, 0x0, 0x0, 0x6, 0x0, 0x0, 0x3⟩),
    (0x780708860000000000061F01, .gread ⟨0, 0, 7, 0, 8, 0x86, 0x0, 0x0, 0x0, 0x0, 0x61f01⟩),
    (0x79077F048600000000000FFF, .gwrite ⟨0, 0, 7, 0, 127, 0x4, 0x86, 0x0, 0x0, 0x0, 0xfff⟩),
    (0x7A0704080000000000000000, .gnorm ⟨0, 0, 7, 0, 4, 0x8, 0x0, 0x0, 0x0, 0x0, 0x0⟩),
    (0x810704030000000000000000, .sread ⟨0, 0, 7, 0, 4, 0x3, 0x0, 0x0, 0x0, 0x0, 0x0⟩),
    (0x82077F040200000000000000, .swrite ⟨0, 0, 7, 0, 127, 0x4, 0x2, 0x0, 0x0, 0x0, 0x0⟩),
    (0x890714080000000000000301, .traceSort ⟨0, 0, 7, 0, 20, 0x8, 0x0, 0x0, 0x0, 0x0, 0x301⟩),
    (0x8A0714080003000000000001, .hitget ⟨0, 0, 7, 0, 20, 0x8, 0x0, 0x3, 0x0, 0x0, 0x1⟩),
    (0x8B0714080000000000000002, .rclook ⟨0, 0, 7, 0, 20, 0x8, 0x0, 0x0, 0x0, 0x0, 0x2⟩),
    (0x8C077F080000000000000002, .rcins ⟨0, 0, 7, 0, 127, 0x8, 0x0, 0x0, 0x0, 0x0, 0x2⟩),
    (0x91071404000000000000FF01, .texg ⟨0, 0, 7, 0, 20, 0x4, 0x0, 0x0, 0x0, 0x0, 0xff01⟩),
    (0x920714040500000000000301, .texq ⟨0, 0, 7, 0, 20, 0x4, 0x5, 0x0, 0x0, 0x0, 0x301⟩),
    (0x93071404000000000000FF03, .texlat ⟨0, 0, 7, 0, 20, 0x4, 0x0, 0x0, 0x0, 0x0, 0xff03⟩),
    (0x990714048600000000000000, .xlut1 ⟨0, 0, 7, 0, 20, 0x4, 0x86, 0x0, 0x0, 0x0, 0x0⟩),
    (0x9A0714048600000000000000, .xlut3 ⟨0, 0, 7, 0, 20, 0x4, 0x86, 0x0, 0x0, 0x0, 0x0⟩),
    (0x9C077F04860000000000000C, .xpack ⟨0, 0, 7, 0, 127, 0x4, 0x86, 0x0, 0x0, 0x0, 0xc⟩),
    (0x9D071400860000000000010C, .xunpk ⟨0, 0, 7, 0, 20, 0x0, 0x86, 0x0, 0x0, 0x0, 0x10c⟩),
    (0x70077F400100000000000003, .mfeed ⟨0, 0, 7, 0, 127, 0x40, 0x1, 0x0, 0x0, 0x0, 0x3⟩),
    (0x72077F85000000000000FF01, .mdrain ⟨0, 0, 7, 0, 127, 0x85, 0x0, 0x0, 0x0, 0x0, 0xff01⟩),
    (0x780708860001000000063F3F, .greadApron ⟨0, 0, 7, 0, 8, 0x86, 0x0, 0x1, 0x0, 0x0, 0x63f3f⟩),
    (0x800714038600000000000000, .scover ⟨0, 0, 7, 0, 20, 0x3, 0x86, 0x0, 0x0, 0x0, 0x0⟩),
    (0x82077F040201000000000000, .swriteZ ⟨0, 0, 7, 0, 127, 0x4, 0x2, 0x1, 0x0, 0x0, 0x0⟩),
    (0x884714080000000000000000, .trace ⟨4, 0, 7, 0, 20, 0x8, 0x0, 0x0, 0x0, 0x0, 0x0⟩),
    (0x90271404000000000000FF01, .tex ⟨2, 0, 7, 0, 20, 0x4, 0x0, 0x0, 0x0, 0x0, 0xff01⟩),
    (0x982714048600000000000000, .xmat ⟨2, 0, 7, 0, 20, 0x4, 0x86, 0x0, 0x0, 0x0, 0x0⟩),
    (0x9B070A00870000000000000C, .xraw ⟨0, 0, 7, 0, 10, 0x0, 0x87, 0x0, 0x0, 0x0, 0xc⟩),
    (0xA0077F02000000000000FF30, .klaunch ⟨0, 0, 7, 0, 127, 0x2, 0x0, 0x0, 0x0, 0x0, 0xff30⟩),
    (0xA10703000000000000000000, .kcapt ⟨0, 0, 7, 0, 3, 0x0, 0x0, 0x0, 0x0, 0x0, 0x0⟩),
    (0xA8070502FF00000000000007, .spawnLane ⟨0, 0, 7, 0, 5, 0x2, 0xff, 0x0, 0x0, 0x0, 0x7⟩),
    (0xA9070602FF00000000000000, .qsendLane ⟨0, 0, 7, 0, 6, 0x2, 0xff, 0x0, 0x0, 0x0, 0x0⟩)] = true := by decide +kernel

/-! ## Well-formed instructions -/

/-- Whether every instruction of a list is ill formed. -/
def refuses (l : List Instr) : Bool := l.all (fun i => !i.wellFormed)

/-- R88 to R93, Table 3-10: TYPE codes. -/
theorem test_refuses_types : refuses [
    .iadd ⟨0, 0, 7, 0, 1, 0x0, 0x0, 0x0, 0x0, 0x9, 0x0⟩,
    .fadd ⟨0, 0, 7, 0, 1, 0x0, 0x0, 0x0, 0x0, 0x3, 0x0⟩,
    .iadd ⟨0, 0, 7, 0, 1, 0x0, 0x0, 0x0, 0x0, 0x13, 0x0⟩,
    .st ⟨0, 0, 7, 0, 0, 0x2, 0x3, 0x0, 0x0, 0x3, 0x0⟩,
    .mov ⟨0, 0, 7, 0, 1, 0x0, 0x0, 0x0, 0x0, 0x7, 0x0⟩] = true := by decide +kernel

/-- R88 to R93, Table 3-10: MOD bits. -/
theorem test_refuses_modifiers : refuses [
    .iadd ⟨0, 0, 7, 0, 1, 0x0, 0x0, 0x0, 0x1, 0x3, 0x0⟩,
    .vote ⟨0, 0, 7, 0, 1, 0x0, 0x0, 0x0, 0x2, 0x0, 0x0⟩,
    .fadd ⟨0, 0, 7, 0, 1, 0x0, 0x0, 0x0, 0x1, 0x9, 0x0⟩,
    .stx ⟨0, 0, 7, 0, 0, 0x0, 0x0, 0x0, 0x1, 0x7, 0x0⟩] = true := by decide +kernel

/-- R88 to R93, Table 3-10: D codes. -/
theorem test_refuses_destinations : refuses [
    .iadd ⟨0, 0, 7, 0, 64, 0x0, 0x0, 0x0, 0x0, 0x3, 0x0⟩,
    .isetp ⟨0, 0, 7, 0, 1, 0x0, 0x0, 0x0, 0x0, 0x3, 0x0⟩,
    .xmat ⟨0, 0, 7, 0, 127, 0x0, 0x86, 0x0, 0x0, 0x0, 0x0⟩,
    .mfeed ⟨0, 0, 7, 0, 0, 0x0, 0x0, 0x0, 0x0, 0x0, 0x0⟩,
    .brl ⟨0, 0, 7, 0, 1, 0x0, 0x0, 0x0, 0x0, 0x0, 0x0⟩,
    .iadd ⟨0, 0, 7, 0, 1, 0x0, 0x0, 0x0, 0x0, 0x4, 0x0⟩,
    .mov ⟨0, 0, 7, 0, 64, 0x0, 0x0, 0x0, 0x0, 0x8, 0x0⟩,
    .ldx ⟨0, 0, 7, 0, 3, 0x0, 0x0, 0x0, 0x0, 0x4, 0x0⟩,
    .atom ⟨0, 0, 7, 0, 64, 0x0, 0x0, 0x0, 0x0, 0x3, 0x0⟩,
    .xchg ⟨0, 0, 7, 0, 70, 0x0, 0x80, 0x0, 0x0, 0x0, 0x0⟩,
    .spawnLane ⟨0, 0, 7, 0, 64, 0x0, 0x0, 0x0, 0x0, 0x0, 0x0⟩] = true := by decide +kernel

/-- R88 to R93, Table 3-10: operand codes. -/
theorem test_refuses_slots : refuses [
    .iabs ⟨0, 0, 7, 0, 1, 0x0, 0x1, 0x0, 0x0, 0x3, 0x0⟩,
    .fadd ⟨0, 0, 7, 0, 1, 0x60, 0x0, 0x0, 0x0, 0x9, 0x0⟩,
    .fadd ⟨0, 0, 7, 0, 1, 0x0, 0x5a, 0x0, 0x0, 0x9, 0x0⟩,
    .switchL ⟨0, 0, 7, 0, 0, 0xfe, 0x0, 0x1, 0x0, 0x0, 0x0⟩,
    .iadd ⟨0, 0, 7, 0, 2, 0x1, 0x0, 0x0, 0x0, 0x4, 0x0⟩,
    .ld ⟨0, 0, 7, 0, 2, 0x1, 0x0, 0x0, 0x0, 0x7, 0x0⟩,
    .ld ⟨0, 0, 7, 0, 2, 0xfe, 0x0, 0x0, 0x0, 0x7, 0x0⟩,
    .imad ⟨0, 0, 7, 0, 2, 0x0, 0x0, 0x1, 0x1, 0x3, 0x0⟩,
    .gnorm ⟨0, 0, 7, 0, 2, 0x80, 0x0, 0x0, 0x0, 0x0, 0x0⟩,
    .gread ⟨0, 0, 7, 0, 2, 0x2, 0x0, 0x0, 0x0, 0x0, 0x0⟩,
    .mdrain ⟨0, 0, 7, 0, 127, 0x3, 0x0, 0x0, 0x0, 0x0, 0x0⟩,
    .isetp ⟨0, 0, 7, 0, 64, 0x0, 0x0, 0x6, 0x0, 0x3, 0x0⟩,
    .switchL ⟨0, 0, 7, 0, 0, 0x0, 0x0, 0x0, 0x0, 0x0, 0x0⟩,
    .switchL ⟨0, 0, 7, 0, 0, 0x0, 0x0, 0x9, 0x0, 0x0, 0x0⟩,
    .gscan ⟨0, 0, 7, 0, 1, 0x0, 0x0, 0x6, 0x0, 0x7, 0x0⟩,
    .gscan ⟨0, 0, 7, 0, 1, 0x0, 0x0, 0x10, 0x0, 0x7, 0x0⟩] = true := by decide +kernel

/-- R88 to R93, Table 3-10: the guard, the uniform marker and lookahead. -/
theorem test_refuses_guards_and_markers : refuses [
    .iadd ⟨0, 0, 7, 1, 1, 0x0, 0x0, 0x0, 0x0, 0x3, 0x0⟩,
    .reconv ⟨0, 0, 1, 0, 0, 0x0, 0x0, 0x0, 0x0, 0x0, 0x0⟩,
    .lstop ⟨0, 0, 0, 0, 0, 0x0, 0x0, 0x0, 0x0, 0x0, 0x0⟩,
    .traceSort ⟨0, 0, 2, 0, 1, 0x0, 0x0, 0x0, 0x0, 0x0, 0x0⟩,
    .iadd ⟨0, 1, 7, 0, 1, 0x0, 0x0, 0x0, 0x0, 0x3, 0x0⟩,
    .fadd ⟨1, 0, 7, 0, 1, 0x0, 0x0, 0x0, 0x0, 0x9, 0x0⟩,
    .ffma ⟨2, 0, 7, 0, 1, 0x0, 0x0, 0x0, 0x0, 0x9, 0x0⟩] = true := by decide +kernel

/-- R88 to R93, Table 3-10: IMM32. -/
theorem test_refuses_immediates : refuses [
    .plop ⟨0, 0, 7, 0, 64, 0x0, 0x0, 0x0, 0x0, 0x0, 0x8⟩,
    .iadd ⟨0, 0, 7, 0, 1, 0x0, 0x0, 0x0, 0x0, 0x3, 0x1⟩,
    .mfeed ⟨0, 0, 7, 0, 127, 0x0, 0x0, 0x0, 0x0, 0x0, 0x80⟩,
    .reconv ⟨0, 0, 7, 0, 0, 0x0, 0x0, 0x0, 0x0, 0x0, 0x1⟩,
    .fqput ⟨0, 0, 7, 0, 0, 0x0, 0x0, 0x0, 0x0, 0x0, 0x200⟩] = true := by decide +kernel

/-- R88 to R93, Table 3-10: checks of single instructions. -/
theorem test_refuses_own_checks : refuses [
    .imul ⟨0, 0, 7, 0, 2, 0x0, 0x0, 0x0, 0x1, 0x1, 0x0⟩,
    .cvt ⟨0, 0, 7, 0, 1, 0x0, 0x0, 0x0, 0x0, 0xaa, 0x0⟩,
    .cvt ⟨0, 0, 7, 0, 1, 0x0, 0x1, 0x0, 0x0, 0x93, 0x0⟩,
    .vote ⟨0, 0, 7, 0, 64, 0x0, 0x0, 0x2, 0x0, 0x0, 0x0⟩,
    .gred ⟨0, 0, 7, 0, 1, 0x0, 0x0, 0x3, 0x0, 0x9, 0x0⟩,
    .gred ⟨0, 0, 7, 0, 1, 0x0, 0x0, 0x0, 0x2, 0x7, 0x0⟩,
    .gscan ⟨0, 0, 7, 0, 1, 0x0, 0x0, 0xb, 0x0, 0x3, 0x0⟩,
    .gscan ⟨0, 0, 7, 0, 1, 0x0, 0x0, 0x0, 0x2, 0x3, 0x0⟩,
    .gdx ⟨0, 0, 7, 0, 1, 0x0, 0x0, 0x0, 0x2, 0x3, 0x0⟩,
    .gdy ⟨0, 0, 7, 0, 1, 0x0, 0x0, 0x0, 0x2, 0x3, 0x0⟩,
    .lloop ⟨0, 0, 7, 0, 1, 0x0, 0x0, 0x0, 0x0, 0x0, 0x0⟩,
    .ld ⟨0, 0, 7, 0, 1, 0x0, 0x0, 0x0, 0x80, 0x7, 0x0⟩,
    .st ⟨0, 0, 7, 0, 0, 0x0, 0x0, 0x0, 0x40, 0x7, 0x0⟩,
    .ldx ⟨0, 0, 7, 0, 1, 0x0, 0x0, 0x0, 0x70, 0x7, 0x0⟩,
    .stx ⟨0, 0, 7, 0, 0, 0x0, 0x0, 0x0, 0x8, 0x7, 0x0⟩,
    .atom ⟨0, 0, 7, 0, 1, 0x0, 0x0, 0x0, 0x8, 0x7, 0x0⟩,
    .atom ⟨0, 0, 7, 0, 1, 0x0, 0x0, 0x0, 0x0, 0x7, 0x8⟩,
    .atomx ⟨0, 0, 7, 0, 1, 0x0, 0x0, 0x0, 0x0, 0x9, 0x3⟩,
    .atomx ⟨0, 0, 7, 0, 1, 0x0, 0x0, 0x1, 0x0, 0x7, 0x0⟩] = true := by decide +kernel

/-- R88 to R93, Table 3-10: the C code that a constructor stands for. -/
theorem test_refuses_sub_codes : refuses [
    .gread ⟨0, 0, 7, 0, 2, 0x80, 0x0, 0x1, 0x0, 0x0, 0x0⟩,
    .greadApron ⟨0, 0, 7, 0, 2, 0x80, 0x0, 0x0, 0x0, 0x0, 0x0⟩,
    .swrite ⟨0, 0, 7, 0, 127, 0x0, 0x0, 0x1, 0x0, 0x0, 0x0⟩,
    .swriteZ ⟨0, 0, 7, 0, 127, 0x0, 0x0, 0x0, 0x0, 0x0, 0x0⟩] = true := by decide +kernel

/-! ## Small states -/

/-- Group 0 of a running instance is about to issue the scalar word w. -/
def sWord (w : Nat) : State := State.reset.withFetchWord 32 w
/-- Group 0 is about to issue a NOP. -/
def sS : State := { sWord 0x08000000 with actor := .scalar 0 }
/-- Context 0 is about to issue a word. -/
def sC : State := { sWord 0xF0000000 with actor := .control 0 }
/-- Fragment 0 of group 0 is about to issue a lane word. -/
def sL : State := { State.reset.withFetchWord 96 0 with actor := .lane 0 0 }

/-- Group 0 of a state, or one that stands for an absent one. -/
def gOf (s : State) : Group := (Tab.find s.groups 0).getD (Group.start ⟨0, 0, 0, 0, 0, 0⟩ 0 0 0 0 [])
def gaOf (s : State) : Gang := (Tab.find s.gangs 0).getD ⟨0, 0, 0, 0, 0, 0, 0, 0, 0, 0, 0, 0, 0, [], [], [], [], none, 0, [], [], [], [], false, false⟩
def xOf (s : State) : Ctx := (Tab.find s.ctxs 0).getD (Ctx.start 0 0 0)
def iOf (s : State) : Inst := (Tab.find s.insts 0).getD ⟨0, 0, 0, 0, 0, .pool, 0, [], false, 0, [], none, false, [], []⟩

/-- Change group 0, its stream, a scalar register of it, its gang, context 0, its stream, or instance 0. -/
def modG (s : State) (f : Group → Group) : State := s.setGroup 0 (f (gOf s))
def modSt (s : State) (f : Stream → Stream) : State := modG s (fun g => { g with st := f g.st })
def withReg (s : State) (n : Nat) (v : W64) : State := modSt s (fun t => t.put n v)
def modGa (s : State) (f : Gang → Gang) : State := s.setGang 0 (f (gaOf s))
def modX (s : State) (f : Ctx → Ctx) : State := s.setCtx 0 (f (xOf s))
def modXSt (s : State) (f : Stream → Stream) : State := modX s (fun x => { x with st := f x.st })
def modI (s : State) (f : Inst → Inst) : State := { s with insts := Tab.set s.insts 0 (f (iOf s)) }
def tOf (s : State) : Stream := (gOf s).st
def txOf (s : State) : Stream := (xOf s).st

/-- What a step leaves, tested. -/
def after (o : Host.Outcome State Fault Refusal) (p : State → Bool) : Bool :=
  match o with
  | .next s => p s
  | _ => false


/-- What a computation leaves. -/
def workOf {α : Type} (m : Act α) (w : Work) : Work :=
  match m w with
  | .ok (_, v) => v
  | .error _ => w

/-- Whether a computation answers with a result that meets a test. -/
def gives {α : Type} (m : Act α) (w : Work) (p : α → Bool) : Bool :=
  match m w with
  | .ok (a, _) => p a
  | .error _ => false

theorem answers_of_gives {α : Type} {m : Act α} {w : Work} {c : α} (p : α → Bool) (hp : ∀ a, p a = true → a = c)
    (h : gives m w p = true) : Answers m w c (workOf m w) := by
  unfold gives at h
  unfold Answers workOf
  cases e : m w with
  | ok r => rw [e] at h; rw [← hp r.1 h]
  | error x => rw [e] at h; simp at h

theorem answers_val {α : Type} [DecidableEq α] {m : Act α} {w : Work} (c : α)
    (h : gives m w (fun a => decide (a = c)) = true) : Answers m w c (workOf m w) :=
  answers_of_gives _ (fun a e => by simpa using e) h

theorem answers_fine {ε α : Type} [DecidableEq α] {m : Act (Except ε α)} {w : Work} (c : α)
    (h : gives m w (fun a => match a with | .ok x => decide (x = c) | .error _ => false) = true) :
    Answers m w (.ok c) (workOf m w) :=
  answers_of_gives _ (fun a e => by cases a <;> simp at e; rw [e]) h

/-! ## Hypotheses that are met: the scalar words

Each theorem `witness_<Statement>` shows, clause by clause, concrete states and operands that meet the hypotheses of that
statement together, at a boundary of their range where they have one. -/

theorem witness_RegisterForms : Issues sS (.group 0) (tOf sS) ∧ Issues sC (.ctx 0) (txOf sC) ∧ (1 : Nat) ≠ 0 ∧ (2 : Nat) ≠ 1 := by
  unfold Issues; decide +kernel

theorem witness_ImmediateForms : Issues sS (.group 0) (tOf sS) ∧ (63 : BitVec 16).toNat < 64 ∧ 64 ≤ (64 : BitVec 16).toNat := by
  unfold Issues; decide +kernel

theorem witness_Comparisons : Issues sS (.group 0) (tOf sS) ∧ (3 : BitVec 5).toNat < 4 ∧ 4 ≤ (4 : BitVec 5).toNat := by
  unfold Issues; decide +kernel

/-- A state whose return stack holds n entries. -/
def sRet (n : Nat) : State := modSt sS (fun t => { t with rstack := List.replicate n 64 })
/-- A state whose loop stack holds n entries, the innermost of this count and ending at this address. -/
def sLoop (n count fin : Nat) : State :=
  modSt sS (fun t => { t with loops := List.replicate n ⟨64, fin, count⟩, lc := (upFrom 0 n).map (fun i => (i, 0)) })

theorem witness_Transfers :
    (let s := modSt sS (fun t => t.setFlag 3 ⟨true, false, false, false⟩)
     Issues s (.group 0) (tOf s) ∧ ((tOf s).flag 3).outcome 0 = true ∧ ((tOf s).flag 2).outcome 0 = false) ∧
    (Issues (sRet 7) (.group 0) (tOf (sRet 7)) ∧ (tOf (sRet 7)).rstack.length < 8) ∧
    (Issues (sRet 8) (.group 0) (tOf (sRet 8)) ∧ 8 ≤ (tOf (sRet 8)).rstack.length) ∧
    (Issues (sRet 1) (.group 0) (tOf (sRet 1)) ∧ (tOf (sRet 1)).rstack = [64]) ∧
    (Issues sS (.group 0) (tOf sS) ∧ (tOf sS).rstack = []) ∧
    (let s := withReg sS 1 4
     Issues s (.group 0) (tOf s) ∧ ((tOf s).flush.get 1).toNat % 4 = 0) ∧
    (let s := withReg sS 1 3
     Issues s (.group 0) (tOf s) ∧ ((tOf s).flush.get 1).toNat % 4 ≠ 0) := by
  unfold Issues; decide +kernel

theorem witness_Loops :
    (let s := withReg (sLoop 3 2 128) 1 0xFFFFFFFF
     Issues s (.group 0) (tOf s) ∧ (1023 : BitVec 10).toNat ≠ 0 ∧ (1 : BitVec 10).toNat ≠ 0 ∧ (0 : BitVec 10).toNat = 0 ∧
       (tOf s).loops.length < 4 ∧ ((tOf s).get 1).toNat ≠ 0 ∧ ((tOf s).get 1).toNat < 2 ^ 32 ∧
       (tOf s).loops = ⟨64, 128, 2⟩ :: [⟨64, 128, 2⟩, ⟨64, 128, 2⟩]) ∧
    (let s := withReg (sLoop 4 2 128) 1 1
     Issues s (.group 0) (tOf s) ∧ 4 ≤ (tOf s).loops.length ∧ ((tOf s).get 1).toNat ≠ 0 ∧ ((tOf s).get 1).toNat < 2 ^ 32) ∧
    (Issues sS (.group 0) (tOf sS) ∧ (tOf sS).loops = [] ∧ ∀ l ∈ (tOf sS).loops, l.fin ≠ (tOf sS).pc) ∧
    (let t := tOf (sLoop 1 2 0x40000)
     t.loops = [⟨64, 0x40000, 2⟩] ∧ (⟨64, 0x40000, 2⟩ : LoopEnt).fin = t.pc ∧ Tab.getD t.lc 0 0 + 1 < 2) ∧
    (let t := tOf (sLoop 1 1 0x40000)
     t.loops = [⟨64, 0x40000, 1⟩] ∧ (⟨64, 0x40000, 1⟩ : LoopEnt).fin = t.pc ∧ 1 ≤ Tab.getD t.lc 0 0 + 1) := by
  unfold Issues; decide +kernel

theorem witness_NopAndYield : Issues sS (.group 0) (tOf sS) := by unfold Issues; decide +kernel

theorem witness_SpecialRegisters :
    (GangIssues sS 0 (gOf sS) (gaOf sS) ∧ (sS.groupReg (gOf sS) (gaOf sS) 0x0030).isSome = true ∧ (tOf sS).wait = .none ∧
      sS.groupReg (gOf sS) (gaOf sS) 0xFFFF = none) ∧
    (CtxIssues sC 0 (xOf sC) (gaOf sC) ∧ (sC.ctxReg (xOf sC) (gaOf sC) 0x0122).isSome = true) ∧
    ((0xFFFF : BitVec 16) ≠ 0x0030 ∧ (0xFFFF : BitVec 16) ≠ 0x0031 ∧ (0xFFFF : BitVec 16) ≠ 0x0130 ∧ (0xFFFF : BitVec 16) ≠ 0x0141) := by
  unfold GangIssues GroupIssues CtxIssues; decide +kernel

theorem not_sleep {st : Stream} (h : st.wait = .none) : ∀ n, st.wait ≠ .sleep n := by simp [h]

/-- Group 0 sleeps, with n clk left. -/
def sAsleep (n : Nat) : State := modSt sS (fun t => { t with wait := .sleep n })

theorem witness_Sleep :
    (Issues sS (.group 0) (tOf sS) ∧ (∀ n, (tOf sS).wait ≠ .sleep n) ∧ ((tOf sS).get 0).toNat = 0) ∧
    (let s := withReg sS 1 0xFFFFFFFF
     Issues s (.group 0) (tOf s) ∧ (∀ n, (tOf s).wait ≠ .sleep n) ∧ 0 < ((tOf s).get 1).toNat ∧ ((tOf s).get 1).toNat < 2 ^ 32) ∧
    (let s := withReg sS 1 0x100000000
     Issues s (.group 0) (tOf s) ∧ (tOf s).wait = .none ∧ 2 ^ 32 ≤ ((tOf s).get 1).toNat) ∧
    (let s := sAsleep 0
     s.stream (whoOf 0 0) = some (tOf s) ∧ (tOf s).wait = .sleep 0 ∧ (tOf s).stopped = false ∧ (tOf s).held = none) ∧
    ((tOf (sAsleep 5)).wait = .sleep 5 ∧ (tOf (sAsleep 5)).stopped = false) := by
  unfold Issues
  refine ⟨⟨by decide +kernel, not_sleep (by decide +kernel), by decide +kernel⟩,
    ⟨by decide +kernel, not_sleep (by decide +kernel), by decide +kernel⟩, by decide +kernel, by decide +kernel, by decide +kernel⟩

theorem noRun_of {g : Group} (h : (!g.run.active && decide (g.laccs = []) && decide (g.lpend = [])) = true) : g.noRun := by
  simp at h; exact ⟨h.1.1, h.1.2, h.2⟩

theorem noRun_sS : (gOf sS).noRun := noRun_of (by decide +kernel)

theorem witness_LaneRuns :
    (GroupIssues sS 0 (gOf sS) ∧ (tOf sS).tmode = false ∧ (gOf sS).noRun) ∧
    (let s := withReg sS 1 0xFFFF0
     GroupIssues s 0 (gOf s) ∧ (gOf s).noRun ∧ ((tOf s).flush.get 1).toNat + (15 : BitVec 10).toNat < 2 ^ 20 ∧
       (tOf s).wait = .none ∧ 2 ^ 20 ≤ ((tOf s).flush.get 1).toNat + (16 : BitVec 10).toNat) := by
  unfold GroupIssues
  refine ⟨⟨by decide +kernel, by decide +kernel, noRun_sS⟩, by decide +kernel, noRun_of (by decide +kernel), by decide +kernel⟩

theorem witness_RegistersAreTraded :
    (let s := withReg sS 1 56
     GangIssues s 0 (gOf s) (gaOf s) ∧ (tOf s).tmode = false ∧ (gOf s).noRun ∧ (gOf s).settled = true ∧
       ((tOf s).get 1).toNat % 8 = 0 ∧ ((tOf s).get 1).toNat + 8 ≤ (gOf s).regcnt) ∧
    (let s := withReg (modG sS (fun g => { g with regcnt := 8 })) 1 56
     GangIssues s 0 (gOf s) (gaOf s) ∧ (tOf s).tmode = false ∧ (gOf s).noRun ∧ (gOf s).settled = true ∧
       ((tOf s).get 1).toNat % 8 = 0 ∧ (gOf s).regcnt + ((tOf s).get 1).toNat ≤ 64) ∧
    (let s := withReg sS 1 64
     GangIssues s 0 (gOf s) (gaOf s) ∧ (tOf s).tmode = false ∧ (gOf s).noRun ∧ (gOf s).settled = true ∧ (tOf s).wait = .none ∧
       ((tOf s).get 1).toNat % 8 = 0 ∧ (gOf s).regcnt < ((tOf s).get 1).toNat + 8) := by
  unfold GangIssues GroupIssues
  refine ⟨⟨by decide +kernel, by decide +kernel, noRun_of (by decide +kernel), by decide +kernel⟩,
    ⟨by decide +kernel, by decide +kernel, noRun_of (by decide +kernel), by decide +kernel⟩,
    by decide +kernel, by decide +kernel, noRun_of (by decide +kernel), by decide +kernel⟩

/-- The cause of a TRAP, and a launch that names handlers. -/
def cTrap : Cause := ⟨0x0C, 0, 0, 0, 7, 0x40000, 0, 0, 0, 0⟩
def sHandler : State := { sS with launches := sS.launches.map (fun l => (l.1, { l.2 with
  record := l.2.record % 2 ^ 320 + 0x40000 * 2 ^ 320 + 0x40000 * 2 ^ 384 + l.2.record / 2 ^ 448 * 2 ^ 448 })) }

theorem witness_TakingACause :
    sHandler.stream (.group 0) = some (tOf sHandler) ∧ (tOf sHandler).held = none ∧ (tOf sHandler).tmode = false ∧
    sHandler.quiet (.group 0) = true ∧
    ((Tab.find sHandler.insts (sHandler.instOf (.group 0))).map (fun i => i.park.isSome)).getD false = false ∧
    cTrap.code ≠ 0x13 ∧ cTrap.code < 0xF0 ∧ (∀ n, Who.group 0 = .ctx n → cTrap.kind ≠ 2) ∧ sHandler.handler (.group 0) ≠ 0 ∧
    (tOf sHandler).hmask.toNat / 2 ^ (cTrap.code / 16) % 2 = 1 := by
  refine ⟨by decide +kernel, by decide +kernel, by decide +kernel, by decide +kernel, by decide +kernel, by decide +kernel,
    by decide +kernel, by simp, by decide +kernel, by decide +kernel⟩

theorem witness_UnhandledCauses :
    (sHandler.stream (.group 0) = some (tOf sHandler) ∧ (tOf sHandler).held = none ∧ sHandler.quiet (.group 0) = true ∧
      Tab.find sHandler.insts (sHandler.instOf (.group 0)) = some (iOf sHandler) ∧ (iOf sHandler).park = none ∧
      (∀ n, Who.group 0 ≠ .ctx n) ∧ 0xF0 ≤ ({ cTrap with code := 0xF0 } : Cause).code) ∧
    (let s := modSt sHandler (fun t => { t with tmode := true })
     s.stream (.group 0) = some (tOf s) ∧ (tOf s).held = none ∧ s.quiet (.group 0) = true ∧
      Tab.find s.insts (s.instOf (.group 0)) = some (iOf s) ∧ (iOf s).park = none ∧ (tOf s).tmode = true) := by
  refine ⟨⟨by decide +kernel, by decide +kernel, by decide +kernel, by decide +kernel, by decide +kernel, by simp, by decide +kernel⟩,
    by decide +kernel⟩

theorem witness_TrapAndHeldCauses :
    (1023 < 2 ^ 10 ∧ Issues sS (.group 0) (tOf sS) ∧ (tOf sS).wait = .none) ∧
    (Issues sHandler (.group 0) (tOf sHandler) ∧ (tOf sHandler).wait = .none ∧ (tOf sHandler).held = none ∧
      (tOf sHandler).tmode = false ∧ sHandler.quiet (.group 0) = true ∧
      ((Tab.find sHandler.insts (sHandler.instOf (.group 0))).map (fun i => i.park.isSome)).getD false = false ∧
      sHandler.handler (.group 0) ≠ 0 ∧ (tOf sHandler).hmask.toNat % 2 = 1) ∧
    (let s := modSt sHandler (fun t => { t with held := some cTrap })
     s.stream (whoOf 0 0) = some (tOf s) ∧ (tOf s).held = some cTrap ∧ (tOf s).stopped = false ∧ s.quiet (whoOf 0 0) = true) ∧
    (sC.stream (whoOf 1 0) = some (txOf sC) ∧ (txOf sC).held = none ∧ ∀ b, (txOf sC).wait ≠ .barWait b none) := by
  unfold Issues
  refine ⟨by decide +kernel, by decide +kernel, by decide +kernel, by decide +kernel, by decide +kernel, fun b => ?_⟩
  rw [show (txOf sC).wait = .none by decide +kernel]; simp

theorem witness_Regn : GroupIssues sS 0 (gOf sS) ∧ (tOf sS).tmode = false ∧ (gOf sS).noRun ∧ (gOf sS).aldPending = false ∧
    (gOf sS).committed = true := by
  unfold GroupIssues
  exact ⟨by decide +kernel, by decide +kernel, noRun_sS, by decide +kernel, by decide +kernel⟩

/-- Group 0 is in its handler, for this cause. -/
def sTrapped (c : Cause) : State := modSt sHandler (fun t => { t with tmode := true, frec := { t.frec with taken := true, cause := c } })

theorem witness_Returns :
    (let s := sTrapped cTrap
     GroupIssues s 0 (gOf s) ∧ Issues s (.group 0) (tOf s) ∧ (tOf s).tmode = true ∧ (gOf s).epc = 0 ∧
       (tOf s).frec.cause.kind = 0 ∧ (tOf s).frec.cause.code = 0x0C) ∧
    (let s := modG (sTrapped { cTrap with kind := 1 }) (fun g => { g with epc := 0x40000 })
     GroupIssues s 0 (gOf s) ∧ Issues s (.group 0) (tOf s) ∧ (tOf s).tmode = true ∧ (gOf s).epc ≠ 0 ∧ (tOf s).frec.cause.kind = 1) ∧
    (let s := modXSt sC (fun t => { t with tmode := true })
     Issues s (.ctx 0) (txOf s) ∧ (txOf s).tmode = true ∧ (txOf s).wait = .none) ∧
    (Issues sC (.ctx 0) (txOf sC) ∧ (txOf sC).tmode = false ∧ (txOf sC).wait = .none) := by
  unfold GroupIssues Issues; decide +kernel

theorem unitSettled_of {s : State} (h : ((Tab.find s.groups 0).map Group.settled) = some true) : s.unitSettled (.group 0) := by
  intro k e; cases e; exact h

theorem witness_HandlerMaskRecordSuspension :
    (let s := withReg sS 1 0xFFFF
     Issues s (.group 0) (tOf s) ∧ ((tOf s).get 1).toNat < 2 ^ 16 ∧ s.unitSettled (.group 0)) ∧
    (let s := withReg sS 1 15
     Issues s (.group 0) (tOf s) ∧ ((tOf s).get 1).toNat < 16) ∧
    (let s := withReg sS 1 0x10000
     Issues s (.group 0) (tOf s) ∧ (tOf s).wait = .none ∧ 2 ^ 16 ≤ ((tOf s).get 1).toNat) := by
  unfold Issues
  exact ⟨⟨by decide +kernel, by decide +kernel, unitSettled_of (by decide +kernel)⟩, by decide +kernel, by decide +kernel⟩

theorem witness_EndedWindows :
    (let s := modSt sS (fun t => { t with pend := [⟨4, 9, 0, false⟩] })
     (0 : Nat) ≠ 2 ∧ s.stream (whoOf 0 0) = some (tOf s) ∧ (tOf s).pend[0]? = some ⟨4, 9, 0, false⟩ ∧ (⟨4, 9, 0, false⟩ : SPend).left = 0) ∧
    (let s := modG sL (fun g => { g with lpend := [⟨3, true, [(0, 1, 9)]⟩] })
     Tab.find s.groups 0 = some (gOf s) ∧ (gOf s).lpend[0]? = some ⟨3, true, [(0, 1, 9)]⟩ ∧ (⟨3, true, [(0, 1, 9)]⟩ : LPend).ready = true ∧
       ∀ f ∈ (gOf s).run.frags, ∀ w ∈ f.wins, w.1 = 3 → w.2 = 0) := by
  decide +kernel

/-! ## Hypotheses that are met: scalar memory, barriers and fences -/

theorem witness_MemoryHoldsWhatIsWritten : Mem.wf sS.mem = true ∧ (7 : Nat) < 8 ∧ (0xFFF : Nat) < 0x1000 ∧ 0x1000 + 8 ≤ (0x1008 : Nat) := by
  decide +kernel

theorem not_ctx {g : Nat} {p : Prop} {c : Nat} (e : Who.group g = .ctx c) : p := by cases e

theorem group_only {p : Nat → Prop} (h : p 0) : ∀ k, Who.group 0 = .group k → p k := by intro k e; cases e; exact h

/-- The read of 4 bytes at 0x40000 and the write of them by group 0. -/
def readIt (s : State) : Act (Except Nat Nat) := streamRead (.group 0) (s.portOf (.group 0)) ⟨true, 0⟩ 0x40000 4
def writeIt (s : State) : Act (Except Nat (Option (Nat × Nat))) := streamWrite (.group 0) (s.portOf (.group 0)) 0x40000 4 5
/-- s1 holds 0x40000 + x and s2 holds 5. -/
def sAddr (x : W64) : State := withReg (withReg sS 1 (0x40000 + x)) 2 5

theorem witness_ScalarLoadsAndStores :
    (let s := sAddr 0
     Issues s (.group 0) (tOf s) ∧ Placed48 ((tOf s).smAddr 1 2 0) (2 ^ (2 : BitVec 2).toNat) ∧ (tOf s).smAddr 1 2 0 = 0x40000 ∧
       Answers (readIt s) ⟨s, []⟩ (.ok 0x08000000) (workOf (readIt s) ⟨s, []⟩) ∧
       Issues (workOf (readIt s) ⟨s, []⟩).cur (.group 0) (tOf (workOf (readIt s) ⟨s, []⟩).cur) ∧
       s.aldsDone (.group 0) ∧
       ((tOf s).get 2).toNat % 2 ^ (8 * 2 ^ (2 : BitVec 2).toNat) = 5 ∧
       Answers (writeIt s) ⟨s, []⟩ (.ok none) (workOf (writeIt s) ⟨s, []⟩) ∧
       Issues (workOf (writeIt s) ⟨s, []⟩).cur (.group 0) (tOf (workOf (writeIt s) ⟨s, []⟩).cur)) ∧
    (let s := sAddr 0xFFFFFFFC0000
     Issues s (.group 0) (tOf s) ∧ (tOf s).wait = .none ∧ 2 ^ 48 ≤ (tOf s).smAddr 1 2 0) ∧
    (let s := sAddr 2
     Issues s (.group 0) (tOf s) ∧ (tOf s).wait = .none ∧ (tOf s).smAddr 1 2 0 < 2 ^ 48 ∧
       (tOf s).smAddr 1 2 0 % 2 ^ (2 : BitVec 2).toNat ≠ 0) := by
  unfold Issues Placed48
  exact ⟨⟨by decide +kernel, by decide +kernel, by decide +kernel, answers_fine _ (by decide +kernel), by decide +kernel,
    group_only (by decide +kernel), by decide +kernel, answers_fine _ (by decide +kernel), by decide +kernel⟩,
    by decide +kernel, by decide +kernel⟩

/-- Group 0 with these threads alone in AMASK, s1 at 0x40000, and n entries in queue 3. -/
def sQueueOf (mask : W32) (n : Nat) : State := modG (sAddr 0) (fun g => { g with
  astr := 4, amask := mask, opq := [(3, { OpQ.empty with ents := List.replicate n ⟨List.replicate 32 0, none⟩ })] })
def sQueue (n : Nat) : State := sQueueOf 1 n
def aldJob : AldJob := ⟨0x40000, 4, 4, false, 1, false, 0⟩
def aldEnt : QEnt := ⟨[], some aldJob⟩
/-- Queue 3 of group 0 holds an entry whose reads have not been performed. -/
def sAld : State := modG (sAddr 0) (fun g => { g with opq := [(3, { OpQ.empty with ents := [aldEnt] })] })
def aldRead : Act (Except (Nat × Nat) W32) := aldWord 0 (sAld.portOf (.group 0)) aldJob 0
/-- The write of element i of thread i's register 2, for an AST of stride 4. -/
def astWrite (s : State) (i : Nat) : Act (Except Nat (Option (Nat × Nat))) :=
  streamWrite (.group 0) (s.portOf (.group 0)) (elemAddr 0x40000 4 4 i) 4
    ((if (2 : BitVec 6).toNat < (gOf s).regcnt then (Tab.getD ((gOf s).thread i).v (2 : BitVec 6).toNat 0).toNat else 0) % 2 ^ (8 * 4))
/-- An AST of threads 0 and 31 that has stored the first. -/
def sAstHalf : State := modSt (sQueueOf 0x80000001 0) (fun t => { t with wait := .ast 1 })

theorem witness_OperandLoadsAndStores :
    (let s := sQueue 15
     GroupIssues s 0 (gOf s) ∧ (2 : BitVec 2) ≠ 3 ∧ ¬((0 : BitVec 1) = 1 ∧ (2 : BitVec 2) = 2) ∧ (gOf s).st.smAddr 1 2 0 = 0x40000 ∧
       (∀ i ∈ elems (gOf s).amask, Placed48 (elemAddr ((gOf s).st.smAddr 1 2 0) (gOf s).astr.toInt (2 ^ (2 : BitVec 2).toNat) i)
         (2 ^ (2 : BitVec 2).toNat)) ∧ (Tab.getD (gOf s).opq 3 OpQ.empty).fill (gOf s).present < 16) ∧
    (let s := sQueue 16
     GroupIssues s 0 (gOf s) ∧ (gOf s).st.wait = .none ∧
       (∀ i ∈ elems (gOf s).amask, Placed48 (elemAddr ((gOf s).st.smAddr 1 2 0) (gOf s).astr.toInt (2 ^ (2 : BitVec 2).toNat) i)
         (2 ^ (2 : BitVec 2).toNat)) ∧
       16 ≤ (Tab.getD (gOf s).opq 3 OpQ.empty).fill (gOf s).present ∧ (gOf s).run.active = false) ∧
    (Tab.find sAld.groups 0 = some (gOf sAld) ∧ Tab.find (gOf sAld).opq 3 = some { OpQ.empty with ents := [aldEnt] } ∧
       aldEnt.job = some aldJob ∧ aldJob.failed = false ∧ (gOf sAld).aldBefore aldJob.born = false ∧
       Answers aldRead ⟨sAld, []⟩ (.ok 0x08000000) (workOf aldRead ⟨sAld, []⟩) ∧
       Tab.find (workOf aldRead ⟨sAld, []⟩).cur.groups 0 = some (gOf (workOf aldRead ⟨sAld, []⟩).cur) ∧
       aldJob.mask.getLsbD 31 = false) ∧
    (let s := sAstHalf
     GroupIssues s 0 (gOf s) ∧ (gOf s).st.tmode = false ∧ (gOf s).noRun ∧ (gOf s).aldPending = false ∧ (gOf s).st.wait = .ast 1 ∧
       (gOf s).st.smAddr 1 2 0 = 0x40000 ∧ 31 ∈ elems (gOf s).amask ∧ (∀ y ∈ elems (gOf s).amask, 1 ≤ y → 31 ≤ y) ∧
       (∀ y ∈ elems (gOf s).amask, y ≤ 31) ∧
       Answers (astWrite s 31) ⟨s, []⟩ (.ok none) (workOf (astWrite s 31) ⟨s, []⟩) ∧
       GroupIssues (workOf (astWrite s 31) ⟨s, []⟩).cur 0 (gOf (workOf (astWrite s 31) ⟨s, []⟩).cur)) ∧
    (let s := sQueueOf 0x80000001 0
     GroupIssues s 0 (gOf s) ∧ (gOf s).st.tmode = false ∧ (gOf s).noRun ∧ (gOf s).aldPending = false ∧ (gOf s).st.wait = .none ∧
       0 ∈ elems (gOf s).amask ∧ (∃ y ∈ elems (gOf s).amask, 0 < y) ∧
       Answers (astWrite s 0) ⟨s, []⟩ (.ok none) (workOf (astWrite s 0) ⟨s, []⟩) ∧
       GroupIssues (workOf (astWrite s 0) ⟨s, []⟩).cur 0 (gOf (workOf (astWrite s 0) ⟨s, []⟩).cur)) ∧
    (let s := sQueueOf 0 0
     GroupIssues s 0 (gOf s) ∧ (gOf s).noRun ∧ (∀ i ∈ elems (gOf s).amask, i < 0)) := by
  unfold GroupIssues Placed48
  exact ⟨by decide +kernel, by decide +kernel,
    ⟨by decide +kernel, by decide +kernel, by decide +kernel, by decide +kernel, by decide +kernel, answers_fine _ (by decide +kernel),
      by decide +kernel⟩,
    ⟨by decide +kernel, by decide +kernel, noRun_of (by decide +kernel), by decide +kernel, by decide +kernel, by decide +kernel,
      by decide +kernel, by decide +kernel, by decide +kernel, answers_fine _ (by decide +kernel), by decide +kernel⟩,
    ⟨by decide +kernel, by decide +kernel, noRun_of (by decide +kernel), by decide +kernel, by decide +kernel, by decide +kernel,
      by decide +kernel, answers_fine _ (by decide +kernel), by decide +kernel⟩,
    by decide +kernel, noRun_of (by decide +kernel), by decide +kernel⟩

theorem not_waiting {t : Stream} {w : Wait} (h : t.wait = .none) (hw : w ≠ .none) : t.wait ≠ w := by rw [h]; exact hw.symm

def watch (s : State) : Act (Except Nat (Nat × Nat)) := watchRead (.group 0) 0x40000
/-- Group 0 waits on the sector of 0x40000, and has been woken. -/
def sWoken : State := modSt (sAddr 0) (fun t => { t with wait := .mwait 0x2000 true, word := 0xC4811000 })

theorem witness_Mwait :
    (let s := sAddr 0
     Issues s (.group 0) (tOf s) ∧ (∀ n m, (tOf s).wait ≠ .mwait n m) ∧ Placed48 ((tOf s).get 1).toNat 8 ∧
       Answers (watch s) ⟨s, []⟩ (.ok (0x08000000, 0x2000)) (workOf (watch s) ⟨s, []⟩) ∧
       Issues (workOf (watch s) ⟨s, []⟩).cur (.group 0) (tOf (workOf (watch s) ⟨s, []⟩).cur) ∧
       0x08000000 ≠ ((tOf (workOf (watch s) ⟨s, []⟩).cur).get 2).toNat) ∧
    (let s := withReg (sAddr 0) 2 0x08000000
     Answers (watch s) ⟨s, []⟩ (.ok (0x08000000, 0x2000)) (workOf (watch s) ⟨s, []⟩) ∧
       0x08000000 = ((tOf (workOf (watch s) ⟨s, []⟩).cur).get 2).toNat) ∧
    (let s := sWoken
     s.stream (whoOf 0 0) = some (tOf s) ∧ (tOf s).stopped = false ∧ (tOf s).held = none ∧ (tOf s).wait = .mwait 0x2000 true ∧
       Answers (watch s) ⟨s, []⟩ (.ok (0x08000000, 0x2000)) (workOf (watch s) ⟨s, []⟩) ∧
       (workOf (watch s) ⟨s, []⟩).cur.stream (whoOf 0 0) = some (tOf (workOf (watch s) ⟨s, []⟩).cur)) ∧
    decodeScalar (tOf sWoken).word = .ok (.mwait 4 1 2) := by
  unfold Issues Placed48
  exact ⟨⟨by decide +kernel, fun n m => not_waiting (by decide +kernel) (by simp),
      by decide +kernel, answers_fine _ (by decide +kernel), by decide +kernel, by decide +kernel⟩,
    ⟨answers_fine _ (by decide +kernel), by decide +kernel⟩,
    ⟨by decide +kernel, by decide +kernel, by decide +kernel, by decide +kernel, answers_fine _ (by decide +kernel), by decide +kernel⟩,
    by rw [show (tOf sWoken).word = 0xC4811000 by decide +kernel]; rfl⟩

/-- The gang holds three banks at position 0, with 4 barrier objects, and s1 names the last one. -/
def sBank (mode : W64) : State := withReg (withReg (modGa sS (fun g => { g with nbar := 4, hold := [(0, [0, 1, 2])] })) 1 16) 2 mode

/-- The launch is privileged. -/
def sPriv : State := { sS with launches := sS.launches.map (fun l => (l.1, { l.2 with record := l.2.record + 2 ^ 742 })) }

theorem witness_BankModes :
    (let s := sBank 0
     GangIssues s 0 (gOf s) (gaOf s) ∧ (tOf s).tmode = false ∧ (gOf s).noRun ∧ (gOf s).settled = true ∧
       ((tOf s).get 1).toNat = 16 ∧ ((tOf s).get 2).toNat = 0 ∧ (gaOf s).cores = 1 ∧ (gaOf s).nbar = 4 ∧
       Tab.getD (gaOf s).hold 0 [] = [0, 1, 2]) ∧
    ((tOf (sBank 2)).get 2).toNat = 2 ∧ GangIssues (sBank 2) 0 (gOf (sBank 2)) (gaOf (sBank 2)) ∧
    (16 < 2 ^ 9 ∧ 16 % 8 < 1 ∧ 16 / 8 < [0, 1, 2].length ∧ 2 ≤ 2 ∧ (16 % 8 = 0 → 16 * 4 ≤ 8192 * (16 / 8)) ∧
      2 = nth [0, 1, 2] (16 / 8) 0 ∧ 0 ≠ nth [0, 1, 2] (16 / 8) 0) ∧
    (sBank 0).pinned 0 0 2 = false ∧
    (let s := modGa sS (fun g => { g with hold := [(0, List.replicate 48 1)] })
     Tab.find s.dies 0 = some (s.die 0) ∧ 48 ≤ s.banksOut 0 0 0) := by
  unfold GangIssues GroupIssues Group.noRun; decide +kernel

theorem witness_WayModes :
    (let s := withReg sPriv 1 0x0FFF
     GangIssues s 0 (gOf s) (gaOf s) ∧ s.privileged (.group 0) = true ∧ (gOf s).settled = true ∧
       Tab.find s.dies (gaOf s).die = some (s.die 0) ∧ ((tOf s).get 1).toNat < 2 ^ 16 ∧ popcount 16 ((tOf s).get 1).toNat ≤ 12) ∧
    (GroupIssues sS 0 (gOf sS) ∧ sS.privileged (.group 0) = false ∧ (tOf sS).wait = .none) := by
  unfold GangIssues GroupIssues; decide +kernel

/-- The barrier object at 16 of the gang: EXPECTED 3, PHASE, ARRIVED; s1 names it, s2 holds x. -/
def sBar (phase arrived : Nat) (x : W64) : State :=
  let s := withReg (withReg (modGa sS (fun g => { g with nbar := 4, hold := [(0, [0])] })) 1 16) 2 x
  s.setMem (Mem.put s.mem (barKey 0 16) 16 (3 + phase * 2 ^ 31 + arrived * 2 ^ 32 + 0xFFFF * 2 ^ 96))
/-- The sector of that object has an uncorrectable error. -/
def sBarLost : State := { sBar 0 0 1 with bad := [barKey 0 16 / 32] }
def barWord (s : State) : Nat := Mem.read s.mem (barKey 0 16) 16

theorem witness_BarriersCountArrivals :
    Tab.find (sBar 0 1 0).gangs 0 = some (gaOf (sBar 0 1 0)) ∧ fld (barWord (sBar 0 3 0)) 0 16 ≤ fld (barWord (sBar 0 3 0)) 32 16 ∧
    (fld (barWord (sBar 0 1 0)) 32 16 < fld (barWord (sBar 0 1 0)) 0 16 ∧
      fld (barWord (sBar 0 1 0)) 32 16 + 1 < fld (barWord (sBar 0 1 0)) 0 16 ∧
      fld (barWord (sBar 0 1 0)) 0 16 ≤ fld (barWord (sBar 0 1 0)) 32 16 + 2) := by
  decide +kernel

def arriveOne : Act Unit := arrive 0 16 1 (0 * 2 ^ 24 + 0xF * 2 ^ 20 + 0 * 2 ^ 16 + 0 % 65536)

/-- Group 0 in BAR.WAIT, woken with the status 7. -/
def sBarWoken : State := (sBar 1 0 1).setStream (.group 0) { tOf (sBar 1 0 1) with wait := .barWait 16 (some 7) }

theorem witness_BarrierWords :
    (let s := sBar 0 0 65535
     UnitIssues s (.group 0) (tOf s) (gaOf s) ∧ s.unitSettled (.group 0) ∧ ((tOf s).get 1).toNat % 16 = 0 ∧
       ((tOf s).get 1).toNat < 16 * (gaOf s).nbar ∧ 0 < ((tOf s).get 2).toNat ∧ ((tOf s).get 2).toNat ≤ 65535 ∧
       fld (barWord s) 112 16 = 0 ∧ s.badAt (barKey 0 16) 16 = false) ∧
    (let s := sBar 0 0 1
     let v := ((tOf s).get 2).toNat
     UnitIssues s (.group 0) (tOf s) (gaOf s) ∧ s.unitSettled (.group 0) ∧ fld v 0 16 = 1 ∧ fld v 16 8 = 0 ∧ fld v 24 4 = 0 ∧
       fld v 32 16 = 0 ∧ fld v 28 4 = 0 ∧ fld v 48 16 = 0 ∧
       Answers arriveOne ⟨s, []⟩ () (workOf arriveOne ⟨s, []⟩) ∧
       Issues (workOf arriveOne ⟨s, []⟩).cur (.group 0) (tOf (workOf arriveOne ⟨s, []⟩).cur)) ∧
    (let s := sBar 1 0 1
     UnitIssues s (.group 0) (tOf s) (gaOf s) ∧ (∀ y z, (tOf s).wait ≠ .barWait y z) ∧ ((tOf s).get 1).toNat % 16 = 0 ∧
       ((tOf s).get 1).toNat < 16 * (gaOf s).nbar ∧ ((tOf s).get 2).toNat ≤ 1 ∧ fld (barWord s) 31 1 = ((tOf s).get 2).toNat ∧
       fld (barWord (sBar 0 0 1)) 31 1 ≠ ((tOf (sBar 0 0 1)).get 2).toNat) ∧
    (UnitIssues sBarWoken (.group 0) (tOf sBarWoken) (gaOf sBarWoken) ∧ (tOf sBarWoken).wait = .barWait 16 (some 7) ∧
       ((tOf sBarWoken).get 1).toNat % 16 = 0 ∧ ((tOf sBarWoken).get 1).toNat < 16 * (gaOf sBarWoken).nbar ∧
       ((tOf sBarWoken).get 2).toNat ≤ 1) ∧
    (UnitIssues sBarLost (.group 0) (tOf sBarLost) (gaOf sBarLost) ∧ (tOf sBarLost).wait = .none ∧
       ((tOf sBarLost).get 1).toNat = 16 ∧ ((tOf sBarLost).get 2).toNat ≤ 1 ∧ sBarLost.badAt (barKey 0 16) 16 = true) := by
  unfold UnitIssues Issues
  exact ⟨⟨by decide +kernel, unitSettled_of (by decide +kernel), by decide +kernel⟩,
    ⟨by decide +kernel, unitSettled_of (by decide +kernel), by decide +kernel, by decide +kernel, by decide +kernel,
      by decide +kernel, by decide +kernel, by decide +kernel, answers_val _ (by decide +kernel), by decide +kernel⟩,
    ⟨by decide +kernel, fun _ _ => not_waiting (by decide +kernel) (by simp), by decide +kernel⟩, by decide +kernel, by decide +kernel⟩

theorem clear_of {g : Group} (h : ((g.run.active || decide (g.laccs = [])) && !g.aldPending) = true) : g.clear := by
  simp at h; exact ⟨h.1, h.2⟩

/-- An entry of queue 1, and group 0 in a QFENCE that waits for what came before sequence number 5 of that queue. -/
def lateEnt (n : W16) : Ent := { (gOf sS).entry 1 (.range 5 0 0) 0 with seq := n }
def sFenced (n : W16) : State := modG sS (fun g => { g with
  st := { g.st with wait := .qfence [(1, 5)] }, queues := Tab.set g.queues 1 { g.queue 1 with ents := [lateEnt n] } })

theorem witness_Fences :
    (Issues sS (.group 0) (tOf sS) ∧ sS.unitClear (.group 0) ∧ (5 : BitVec 3).toNat ≤ 5 ∧ (∀ n, (tOf sS).wait ≠ .fence n) ∧
      (1 : BitVec 3).toNat < 2 ∧ 2 ≤ (4 : BitVec 3).toNat ∧ (4 : BitVec 3).toNat < 5 ∧
      (∀ o ∈ sS.others (sS.portOf (.group 0)).die, Tab.getD (sS.clockOf (sS.portOf (.group 0)).die) (sS.portOf (.group 0)).die 0 ≤
        Tab.getD (sS.clockOf o) (sS.portOf (.group 0)).die 0)) ∧
    (GroupIssues sS 0 (gOf sS) ∧ (∀ l, (tOf sS).wait ≠ .qfence l) ∧ (gOf sS).clear ∧
      (∀ q ∈ bitsOf 10 1023, ((gOf sS).queue q).ents = []) ∧ (1023 : BitVec 10) ≠ 0) ∧
    (GroupIssues (sFenced 5) 0 (gOf (sFenced 5)) ∧ (gOf (sFenced 5)).st.wait = .qfence [(1, 5)] ∧ (gOf (sFenced 5)).clear ∧
      ∀ t ∈ [((1 : Nat), (5 : W16))], ∀ e ∈ ((gOf (sFenced 5)).queue t.1).ents, ¬(t.2 - e.seq - 1).toNat < 32768) ∧
    (Tab.find (sFenced 5).groups 0 = some (gOf (sFenced 5)) ∧ ((gOf (sFenced 5)).queue 1).ents.head? = some (lateEnt 5) ∧
      (1, (5 : W16)) ∈ [((1 : Nat), (5 : W16))] ∧ ((lateEnt 5).seq - 5).toNat < 32768 ∧ (lateEnt 5).started = false) ∧
    (CtxIssues sC 0 (xOf sC) (gaOf sC) ∧ (∀ l, (txOf sC).wait ≠ .qfence l) ∧ (xOf sC).queue.ents = []) := by
  unfold Issues GroupIssues CtxIssues
  exact ⟨⟨by decide +kernel, group_only ⟨gOf sS, by decide +kernel, clear_of (by decide +kernel)⟩, by decide +kernel,
      fun _ => not_waiting (by decide +kernel) (by simp), by decide +kernel⟩,
    ⟨by decide +kernel, fun _ => not_waiting (by decide +kernel) (by simp), clear_of (by decide +kernel), by decide +kernel⟩,
    ⟨by decide +kernel, by decide +kernel, clear_of (by decide +kernel), by decide +kernel⟩, by decide +kernel,
    by decide +kernel, fun _ => not_waiting (by decide +kernel) (by simp), by decide +kernel⟩

theorem witness_RangeMaintenance :
    (let s := withReg (withReg sS 1 32) 2 0x100000000
     GroupIssues s 0 (gOf s) ∧ ((tOf s).get 1).toNat % 32 = 0 ∧ ((tOf s).get 2).toNat % 32 = 0 ∧ ((tOf s).get 2).toNat ≤ 2 ^ 32 ∧
       s.roomFor 0 0 = true) ∧
    (let s := withReg (withReg sS 1 33) 2 32
     GroupIssues s 0 (gOf s) ∧ (tOf s).wait = .none ∧ ((tOf s).get 1).toNat % 32 ≠ 0) ∧
    (let s := withReg (withReg sS 1 32) 2 0x100000020
     GroupIssues s 0 (gOf s) ∧ (tOf s).wait = .none ∧ ((tOf s).get 1).toNat % 32 = 0 ∧ ((tOf s).get 2).toNat % 32 = 0 ∧
       2 ^ 32 < ((tOf s).get 2).toNat) := by
  unfold GroupIssues; decide +kernel

/-- Die 0 with sectors 8 to 8 + n - 1 dirty, and with a block that has waited in the write-combining buffer. -/
def sDirty (n : Nat) : State := { sS with dies := Tab.set sS.dies 0 { sS.die 0 with dirty := (upFrom 8 n).map (fun x => (x, 0)) } }
def sComb : State := { sS with dies := Tab.set sS.dies 0 { sS.die 0 with clk := 64, combs := [⟨1, 15, 2, 0⟩] } }

theorem witness_MemorySystemSteps :
    (let s1 := sS.walked ⟨0, 16, none, 0x1000, [], true⟩ 0x3FFFFFFF
     Tab.find s1.dies 0 = some (s1.die 0) ∧ (0x3FFFFFFF : Nat) < 2 ^ 48 ∧
       sS.walkFrom 0 0x3FFFFFFF (some 0) 3 0x1000 = .leaf 0x3F 30 0x3FFFFFFF) ∧
    (Tab.find sComb.dies 0 = some (sComb.die 0) ∧
      (sComb.die 0).combs.find? (fun c => c.block == 1 && (sComb.die 0).combOver c) = some ⟨1, 15, 2, 0⟩) ∧
    (∀ n ∈ [1, 8], Tab.find (sDirty n).dies 0 = some ((sDirty n).die 0) ∧ (∀ c ∈ ((sDirty n).die 0).combs, c.block ≠ 1) ∧
      ((upFrom (8 * 1) 8).filter (fun x => (Tab.find ((sDirty n).die 0).dirty x).isSome)).length = n) := by
  decide +kernel

/-! ## Hypotheses that are met: copies, tasks and weight -/

/-- The shape record at 0x50000 (NDIM 1 with this extent, bytes, 0x40000 to 0x48000, no barrier), and for GCOPY one of two
dimensions whose destination is the scratchpad; s1 names it. -/
def sShape (elem ext : Nat) (gather : Bool) : State :=
  let r := 0x40000 + (if gather then 0x2000 else 0x48000) * 2 ^ 64 + (if gather then 2 else 1) * 2 ^ 128 + elem * 2 ^ 132 +
    (if gather then 2 ^ 138 else 0) + 0xFFFFFFFF * 2 ^ 192 + ext * 2 ^ 320 + 2 ^ 352 + (if gather then 2 ^ 480 else 2 ^ 416)
  let s := withReg (withReg (modGa sS (fun g => { g with hold := [(0, [0, 1, 2])] })) 1 0x50000) 2 1
  s.setMem (Mem.put s.mem 0x50000 80 r)
/-- The first and the second read of the shape record, with n dimensions. -/
def shapeHead : Act Nat := readRec 0x50000 40
def headOf (s : State) : Nat := match shapeHead ⟨s, []⟩ with | .ok (h, _) => h | .error _ => 0
def shapeBody (n : Nat) : Act Nat := readRec 0x50000 (40 + 20 * n)
def bodyOf (s : State) (n : Nat) : Nat := match shapeBody n (workOf shapeHead ⟨s, []⟩) with | .ok (h, _) => h | .error _ => 0

theorem answers_self {α : Type} {m : Act α} {w : Work} (d : α) (h : gives m w (fun _ => true) = true) :
    Answers m w (match m w with | .ok (a, _) => a | .error _ => d) (workOf m w) := by
  unfold gives at h
  unfold Answers workOf
  cases e : m w with
  | ok r => rfl
  | error x => rw [e] at h; simp at h

/-- What the hypotheses of the copy words share, for a state, a shape of n dimensions and a record's valid form. -/
def CopyReady (s : State) (n : Nat) (kind : CopyKind) (ok : Bool) : Prop :=
  let w1 := workOf shapeHead ⟨s, []⟩
  let w2 := workOf (shapeBody n) w1
  GangIssues s 0 (gOf s) (gaOf s) ∧ Placed48 ((tOf s).get 1).toNat 8 ∧ Answers shapeHead ⟨s, []⟩ (headOf s) w1 ∧
    fld (headOf s) 128 4 = n ∧ Answers (shapeBody n) w1 (bodyOf s n) w2 ∧ GroupIssues w2.cur 0 (gOf w2.cur) ∧
    (∀ m, kind = .multi m → m = ((tOf s).get 2).toNat ∧ m ≠ 0 ∧ m / 2 ^ (gaOf s).cores = 0) ∧
    shapeOk kind (w2.cur.nodeRec (gaOf s)) (gaOf s) (bodyOf s n) = ok ∧ w2.cur.roomFor 0 1 = true ∧ (gOf s).st.wait = .none

theorem witness_CopyWords :
    (CopyReady (sShape 0 4 false) 1 .plain true ∧
      (let r := bodyOf (sShape 0 4 false) 1
       let ga := gaOf (sShape 0 4 false)
       rangeCause ga (bit r 136) (fld r 0 64) (shapeElem r) ((topCounters false r).zip (shapeSrc r)) [fld r 20 3] = 0 ∧
       rangeCause ga (bit r 138) (fld r 64 64) (shapeElem r) ((topCounters false r).zip (shapeDst .plain r)) [fld r 84 3] = 0)) ∧
    (CopyReady (sShape 0 0 true) 2 .gather true ∧ (shapeExts (bodyOf (sShape 0 0 true) 2)).contains 0 = true) ∧
    CopyReady (sShape 6 4 false) 1 .plain false ∧ CopyReady (sShape 0 4 false) 1 (.multi 1) false := by
  unfold CopyReady GangIssues GroupIssues Placed48
  exact ⟨⟨⟨by decide +kernel, by decide +kernel, answers_self 0 (by decide +kernel), by decide +kernel, answers_self 0 (by decide +kernel),
      by decide +kernel, fun _ e => (by cases e), by decide +kernel⟩, by decide +kernel⟩,
    ⟨⟨by decide +kernel, by decide +kernel, answers_self 0 (by decide +kernel), by decide +kernel, answers_self 0 (by decide +kernel),
      by decide +kernel, fun _ e => (by cases e), by decide +kernel⟩, by decide +kernel⟩,
    ⟨by decide +kernel, by decide +kernel, answers_self 0 (by decide +kernel), by decide +kernel, answers_self 0 (by decide +kernel),
      by decide +kernel, fun _ e => (by cases e), by decide +kernel⟩,
    ⟨by decide +kernel, by decide +kernel, answers_self 0 (by decide +kernel), by decide +kernel, answers_self 0 (by decide +kernel),
      by decide +kernel, fun _ e => (by cases e; decide +kernel), by decide +kernel⟩⟩

/-- 63 sealed batches with entries left, and s1 as given. -/
def batchEnt (n : Nat) : Ent := { (gOf sS).entry 1 (.range 2 0 0) n with seq := BitVec.ofNat 16 n, committed := true, batch := n }
def sBatch (x : W64) : State := withReg (modG sS (fun g => { g with
  batches := ⟨63, upFrom 0 63⟩, queues := Tab.set g.queues 1 { g.queue 1 with ents := (upFrom 0 63).map batchEnt } })) 1 x

theorem witness_CopyBatchWords :
    (GroupIssues (sBatch 0) 0 (gOf (sBatch 0)) ∧ (gOf (sBatch 0)).settled = true ∧ (gOf (sBatch 0)).sealedLeft.length < 64) ∧
    (let s := withReg sS 1 0x8000
     GroupIssues s 0 (gOf s) ∧ (gOf s).batches.opened = 0 ∧ (0 + 65536 - 0x8000 % 65536) % 65536 = 0x8000 ∧ ((tOf s).get 1).toNat = 0x8000 ∧
       (∀ x ∈ (gOf s).sealedLeft, (0 + 65536 - x) % 65536 < 0x8000) ∧ (gOf s).sealedLeft.length ≤ 0x8000) ∧
    (let s := withReg sS 1 0x10000
     GroupIssues s 0 (gOf s) ∧ (tOf s).wait = .none ∧ 65536 ≤ ((tOf s).get 1).toNat) ∧
    (GroupIssues sS 0 (gOf sS) ∧ (tOf sS).get 0 = 0) ∧
    (GroupIssues (withReg sS 1 1) 0 (gOf (withReg sS 1 1)) ∧ (tOf (withReg sS 1 1)).get 1 = 1) ∧
    (GroupIssues (withReg sS 1 2) 0 (gOf (withReg sS 1 2)) ∧ (tOf (withReg sS 1 2)).get 1 = 2) ∧
    (GroupIssues (withReg sS 1 3) 0 (gOf (withReg sS 1 3)) ∧ (tOf (withReg sS 1 3)).get 1 = 3) ∧
    (let s := withReg sS 1 4
     GroupIssues s 0 (gOf s) ∧ (tOf s).wait = .none ∧ 3 < ((tOf s).get 1).toNat) := by
  unfold GroupIssues; decide +kernel

/-- CCONT: s3 names the record at 0x80, s1 the barrier with the phase, s2 the pc. -/
def sCont (phase : Nat) : State :=
  let s := modGa (sBar 0 0 0x40000) (fun g => { g with hold := [(0, [1])] })
  withReg (withReg s 3 0x80) 1 (BitVec.ofNat 64 (16 + phase * 2 ^ 32))
def contRec (s : State) : Nat := contRecord 0x40000 (gOf s).attach.toNat (tOf s) 0
def contState (s : State) : State := (s.store (spadKey 0 0 + 0x80) 128 (contRec s)).setGroup 0 { gOf s with attach := 0 }
def contHanded (s : State) : Work :=
  ⟨((contState s).store (spadKey 0 0 + 0x80 + 8) 8 0).setGang 0 { gaOf s with
      handoffs := (gaOf s).handoffs ++ [Mem.read (contState s).mem (spadKey 0 0 + 0x80) 128] },
    [(spadKey 0 0 + 0x80 + 8, 8, 0), (spadKey 0 0 + 0x80, 128, contRec s)]⟩
def contArms (s : State) : Act Unit := writeBar 0 16 (setFld (barWord (contState s)) 96 16 1)

theorem witness_GroupsEnd :
    CtxIssues sC 0 (xOf sC) (gaOf sC) ∧
    (GroupIssues sS 0 (gOf sS) ∧ (gOf sS).noRun ∧ (gOf sS).aldPending = false ∧ ((gOf sS).queue 9).ents = [] ∧ (gOf sS).adopted = none ∧
      Answers (endGroup 0 false) ⟨sS, []⟩ () (workOf (endGroup 0 false) ⟨sS, []⟩) ∧
      Tab.find (workOf (endGroup 0 false) ⟨sS, []⟩).cur.groups 0 = some (gOf (workOf (endGroup 0 false) ⟨sS, []⟩).cur)) ∧
    (let s := sCont 1
     GangIssues s 0 (gOf s) (gaOf s) ∧ (gOf s).noRun ∧ (gOf s).aldPending = false ∧ ((gOf s).queue 9).ents = [] ∧ (gOf s).settled = true ∧
      ((tOf s).get 1).toNat = 0x100000010 ∧ ((tOf s).get 2).toNat = 0x40000 ∧ ((tOf s).get 3).toNat = 0x80 ∧
      0x100000010 < 2 ^ 33 ∧ 0x80 % 128 = 0 ∧ 0x80 < 2 ^ 20 ∧ 0x80 / 128 < 0xFFFF ∧ 0x40000 < 2 ^ 48 ∧ 0x40000 % 4 = 0 ∧
      0x100000010 % 2 ^ 32 = 16 ∧ 16 % 16 = 0 ∧ 16 < 16 * (gaOf s).nbar ∧ spadAt (gaOf s) 0x80 128 = some (0, 0x80) ∧
      spadMode (gaOf s) 0 0x80 128 = true ∧ fld (barWord (contState s)) 96 16 = 0xFFFF ∧
      fld (barWord (contState s)) 31 1 ≠ fld 0x100000010 32 1 ∧
      Answers (endGroup 0 true) (contHanded s) () (workOf (endGroup 0 true) (contHanded s))) ∧
    (let s := sCont 0
     ((tOf s).get 1).toNat = 16 ∧ fld (barWord (contState s)) 31 1 = fld 16 32 1 ∧
      Answers (contArms s) ⟨contState s, [(spadKey 0 0 + 0x80, 128, contRec s)]⟩ ()
        (workOf (contArms s) ⟨contState s, [(spadKey 0 0 + 0x80, 128, contRec s)]⟩) ∧
      Answers (endGroup 0 true) (workOf (contArms s) ⟨contState s, [(spadKey 0 0 + 0x80, 128, contRec s)]⟩) ()
        (workOf (endGroup 0 true) (workOf (contArms s) ⟨contState s, [(spadKey 0 0 + 0x80, 128, contRec s)]⟩))) := by
  unfold CtxIssues GangIssues GroupIssues
  exact ⟨by decide +kernel,
    ⟨by decide +kernel, noRun_sS, by decide +kernel, by decide +kernel, by decide +kernel, answers_val _ (by decide +kernel), by decide +kernel⟩,
    ⟨by decide +kernel, noRun_of (by decide +kernel), by decide +kernel, by decide +kernel, by decide +kernel, by decide +kernel,
      by decide +kernel, by decide +kernel, by decide +kernel, by decide +kernel, by decide +kernel, by decide +kernel, by decide +kernel,
      by decide +kernel, by decide +kernel, by decide +kernel, by decide +kernel, by decide +kernel, by decide +kernel, by decide +kernel,
      by decide +kernel, answers_val _ (by decide +kernel)⟩,
    by decide +kernel, by decide +kernel, answers_val _ (by decide +kernel), answers_val _ (by decide +kernel)⟩

/-- Group 0 has ended and awaits its continuation, whose record has been handed over with these reserved bits. -/
def sHanded (v : Nat) : State := modG (modGa (sCont 0) (fun g => { g with handoffs := [v] })) (fun g => { g with
  exited := true
  awaits := true })

theorem witness_ContinuationsStart : ∀ v ∈ [0, 2 ^ 656], Tab.find (sHanded v).gangs 0 = some (gaOf (sHanded v)) ∧
    (sHanded v).instGoes (gaOf (sHanded v)).inst = true ∧ (gaOf (sHanded v)).placed = true ∧ (gaOf (sHanded v)).handoffs[0]? = some v ∧
    fld v 640 16 = 0 ∧ Tab.find (sHanded v).groups (groupKey 0 0) = some (gOf (sHanded v)) ∧ (gOf (sHanded v)).exited = true ∧
    (gOf (sHanded v)).awaits = true ∧ (∀ q ∈ (gOf (sHanded v)).queues, q.2.ents = []) ∧ (fld v 656 368 = 0 ↔ v = 0) := by
  decide +kernel

/-- Group 0 with n units of root 0, tag 1, and s2 holding a. -/
def sWgt (n : Nat) (a : W64) : State := withReg (modG sS (fun g => { g with wgt := BitVec.ofNat 64 (weightWord 0 1 n) })) 2 a

theorem witness_TakeMovesWeight :
    (∀ x ∈ [(2, 0), (4, 3)], GroupIssues (sWgt x.1 0) 0 (gOf (sWgt x.1 0)) ∧ amtOf (gOf (sWgt x.1 0)).wgt.toNat = x.1 ∧ x.2 ≤ 2 ^ 32 ∧
      (x.2 = 0 → 2 ≤ x.1) ∧ (x.2 ≠ 0 → x.2 + 1 ≤ x.1)) ∧
    (GroupIssues sS 0 (gOf sS) ∧ (gOf sS).wgt = 0) := by
  unfold GroupIssues; decide +kernel

/-- The launch of instance 0 with one region of one tile, whose counter lies at 0x60000. -/
def lOf (s : State) : Launch := (Tab.find s.launches 0).getD ⟨0, 0, 0, 0, 0, [], [], [], [], [], false, false, 0, [], [], []⟩
def modL (s : State) (f : Launch → Launch) : State := s.setLaunch 0 (f (lOf s))
def sRegion : State := modL sS (fun l => { l with regions := [1 + 2 ^ 16 + 2 ^ 32 + 0x60000 * 2 ^ 64] })
def takeTwo : Act (Option Nat) := takeScalar 0 2
def makeOne : Act Nat := createInst 0 0 7 0 0 (BitVec.ofNat 64 (weightWord 0 1 2)) false
def publishOne (s : State) : Act (Option (Nat × Nat)) := publish { s.portOf (.group 0) with core := none } 0 8 0

theorem witness_TaskWords :
    (let s := withReg (sWgt 4 2) 1 0x700000000
     let w1 := workOf takeTwo ⟨s, []⟩
     let w2 := workOf makeOne w1
     GangIssues s 0 (gOf s) (gaOf s) ∧ Tab.find s.launches 0 = some (lOf s) ∧ (∀ y z, (tOf s).wait ≠ .borrow y z) ∧
       (gOf s).settled = true ∧ fld ((tOf s).get 1).toNat 16 16 = 0 ∧ fld ((tOf s).get 1).toNat 0 16 < (lOf s).nodes.length ∧
       fld ((tOf s).get 1).toNat 32 32 = 7 ∧ s.poolOf 0 0 < 65536 ∧ ((tOf s).get 2).toNat = 2 ∧
       Answers takeTwo ⟨s, []⟩ (some (weightWord 0 1 2)) w1 ∧ Answers makeOne w1 0 w2 ∧ GroupIssues w2.cur 0 (gOf w2.cur)) ∧
    (let w := workOf (publishOne sRegion) ⟨sRegion, []⟩
     GangIssues sRegion 0 (gOf sRegion) (gaOf sRegion) ∧ Tab.find sRegion.launches 0 = some (lOf sRegion) ∧ (gOf sRegion).noRun ∧
       (gOf sRegion).settled = true ∧ (tOf sRegion).get 0 = 0 ∧ (gaOf sRegion).inst = 0 ∧
       fld ((tOf sRegion).get 0).toNat 2 30 = 0 ∧ Tab.find sRegion.insts 0 = some (iOf sRegion) ∧
       (8, 0) ∈ (lOf sRegion).outputs (iOf sRegion).node (iOf sRegion).index ∧
       Answers (publishOne sRegion) ⟨sRegion, []⟩ none w ∧ GroupIssues w.cur 0 (gOf w.cur)) ∧
    (let s := withReg (modG sRegion (fun g => { g with adopted := some 0 })) 1 1
     GangIssues s 0 (gOf s) (gaOf s) ∧ (gOf s).noRun ∧ (gOf s).settled = true ∧ (tOf s).get 1 = 1 ∧ (gOf s).adopted = some 0) := by
  unfold GangIssues GroupIssues
  exact ⟨⟨by decide +kernel, by decide +kernel, fun _ _ => not_waiting (by decide +kernel) (by simp), by decide +kernel, by decide +kernel,
      by decide +kernel, by decide +kernel, by decide +kernel, by decide +kernel, answers_val _ (by decide +kernel),
      answers_val _ (by decide +kernel), by decide +kernel⟩,
    ⟨by decide +kernel, by decide +kernel, noRun_of (by decide +kernel), by decide +kernel, by decide +kernel, by decide +kernel,
      by decide +kernel, by decide +kernel, by decide +kernel, answers_val _ (by decide +kernel), by decide +kernel⟩,
    by decide +kernel, noRun_of (by decide +kernel), by decide +kernel⟩

/-- A deque entry of instance 3 of the launch, with one unit of weight. -/
def dqEnt : DqEnt := ⟨0, 5, 3, 1, 2, 0x70000, BitVec.ofNat 64 (weightWord 0 1 1)⟩
/-- The die's deque holds n entries, and s1 holds x. -/
def sDeque (n : Nat) (x : W64) : State :=
  let s := modL (sWgt 4 2) (fun l => l.setTether 0 (fun t => { t with deque := List.replicate n dqEnt }))
  withReg { s with insts := Tab.set s.insts (instKey 0 3) { iOf s with number := 3, phase := .deque, bucket := true } } 1 x
def readBucket : Act Nat := readRec 0x70000 4
def takeOne : Act (Option Nat) := takeScalar 0 1
def makeBucket : Act Nat := createInst 0 0 7 0 0 0 true

theorem witness_StepbPrioErdDieq :
    (GangIssues sS 0 (gOf sS) (gaOf sS) ∧ (tOf sS).wait = .none ∧ (tOf sS).tmode = false ∧ (gOf sS).noRun ∧ (gOf sS).settled = true ∧
      (tOf sS).get 0 = 0) ∧
    (let s := modSt sS (fun t => { t with wait := .stepb (some 9) })
     GroupIssues s 0 (gOf s) ∧ (tOf s).wait = .stepb (some 9)) ∧
    (let s := withReg sPriv 1 63
     GangIssues s 0 (gOf s) (gaOf s) ∧ ((tOf s).get 1).toNat ≤ 63 ∧ s.privileged (.group 0) = true) ∧
    (GangIssues sS 0 (gOf sS) (gaOf sS) ∧ ((tOf sS).get 0).toNat ≤ fld (sS.nodeRec (gaOf sS)) 248 6) ∧
    (GangIssues (withReg sS 1 1) 0 (gOf (withReg sS 1 1)) (gaOf (withReg sS 1 1)) ∧ (tOf (withReg sS 1 1)).get 1 = 1) ∧
    (GangIssues (withReg sS 1 2) 0 (gOf (withReg sS 1 2)) (gaOf (withReg sS 1 2)) ∧ (tOf (withReg sS 1 2)).get 1 = 2) ∧
    (GangIssues (withReg sS 1 4) 0 (gOf (withReg sS 1 4)) (gaOf (withReg sS 1 4)) ∧ (tOf (withReg sS 1 4)).get 1 = 4) ∧
    (let s := withReg sS 1 5
     GangIssues s 0 (gOf s) (gaOf s) ∧ 4 < ((tOf s).get 1).toNat ∧ (tOf s).wait = .none ∧ Tab.find s.launches 0 = some (lOf s) ∧
       ((tOf s).get 1).toNat = 2 + 3) := by
  unfold GangIssues GroupIssues Group.noRun; decide +kernel

theorem witness_Bqpush :
    let s := withReg (sDeque 4095 0x70000) 3 1
    let w1 := workOf readBucket ⟨s, []⟩
    let w2 := workOf takeOne w1
    let w3 := workOf makeBucket w2
    GangIssues s 0 (gOf s) (gaOf s) ∧ Tab.find s.launches 0 = some (lOf s) ∧ (∀ y z, (tOf s).wait ≠ .borrow y z) ∧
      Placed48 ((tOf s).get 1).toNat 64 ∧ ((tOf s).get 1).toNat = 0x70000 ∧ ((lOf s).tether 0).deque.length < 4096 ∧
      fld ((tOf s).get 2).toNat 16 16 = 0 ∧ fld ((tOf s).get 0).toNat 0 16 < (lOf s).nodes.length ∧
      Answers readBucket ⟨s, []⟩ 0 w1 ∧ GroupIssues w1.cur 0 (gOf w1.cur) ∧ (gOf w1.cur).settled = true ∧ (gOf w1.cur).st = (gOf s).st ∧
      ((tOf s).get 3).toNat = 1 ∧ Answers takeOne w1 (some (weightWord 0 1 1)) w2 ∧ Answers makeBucket w2 0 w3 ∧
      GroupIssues w3.cur 0 (gOf w3.cur) ∧ Tab.find w3.cur.launches 0 = some (lOf w3.cur) := by
  unfold GangIssues GroupIssues Placed48
  exact ⟨by decide +kernel, by decide +kernel, fun _ _ => not_waiting (by decide +kernel) (by simp), by decide +kernel, by decide +kernel,
    by decide +kernel, by decide +kernel, by decide +kernel, answers_val _ (by decide +kernel), by decide +kernel, by decide +kernel,
    by decide +kernel, by decide +kernel, answers_val _ (by decide +kernel), answers_val _ (by decide +kernel), by decide +kernel,
    by decide +kernel⟩

theorem witness_Bqpop :
    (let s := sDeque 1 1
     GangIssues s 0 (gOf s) (gaOf s) ∧ Tab.find s.launches 0 = some (lOf s) ∧ (tOf s).wait = .none ∧ (gOf s).settled = true ∧
       (gOf s).adopted = none ∧ ((tOf s).get 1).toNat ≤ 1 ∧ (30 : BitVec 5).toNat ≠ 0 ∧ (30 : BitVec 5).toNat ≠ 31 ∧
       ((lOf s).tether 0).deque.getLast? = some dqEnt ∧
       joinWeight (gOf s).wgt.toNat dqEnt.wgt.toNat = some (weightWord 0 1 5) ∧
       (Tab.find s.insts (instKey 0 dqEnt.inst)).isSome = true) ∧
    (let s := sDeque 0 1
     GangIssues s 0 (gOf s) (gaOf s) ∧ Tab.find s.launches 0 = some (lOf s) ∧ (tOf s).wait = .none ∧ (gOf s).settled = true ∧
       (gOf s).adopted = none ∧ (tOf s).get 1 = 1 ∧ ((lOf s).tether 0).deque = []) := by
  unfold GangIssues GroupIssues; decide +kernel

/-- Roots 0 and 1 of die 0: root 0 is live, with tag 1, root 1 (number 4) is quiescent, of generation 1 of launch 0. -/
def sRoots (s : State) : State := { s with dies := Tab.set s.dies 0 { s.die 0 with
  roots := [(0, ⟨true, 0, 1, 2 ^ 32, 0, []⟩), (1, ⟨false, 0, 1, 2 ^ 32, 2 ^ 32, []⟩)] } }
def wordAt (s : State) : Act (Nat × Option Place) := wordPlace (s.portOf (.group 0)) 0x50000
def place5 : Place := ⟨.gddr 0, 0x50000, 0⟩
def borrowNow : Act (Option Bool) := askRoot 0 (2 * 0)

theorem witness_WeightWords :
    (let s := sRoots sS
     GangIssues s 0 (gOf s) (gaOf s) ∧ Tab.find s.dies 0 = some (s.die 0) ∧ (gOf s).wgt = 0 ∧ (gOf s).settled = true ∧ 1 < 256 ∧
       (Tab.find (s.die 0).roots 0).map (fun r => r.live) = some true ∧ (Tab.find (s.die 0).roots 1).map (fun r => r.live) = some false) ∧
    (let s := withReg (sRoots (sWgt 4 2)) 1 0x50000
     let w1 := workOf (wordAt s) ⟨s, []⟩
     let w2 := workOf takeTwo w1
     GangIssues s 0 (gOf s) (gaOf s) ∧ (∀ y z, (tOf s).wait ≠ .borrow y z) ∧ ((tOf s).get 1).toNat = 0x50000 ∧ ((tOf s).get 2).toNat = 2 ∧
       Answers (wordAt s) ⟨s, []⟩ (0, some place5) w1 ∧ GroupIssues w1.cur 0 (gOf w1.cur) ∧ (gOf w1.cur).settled = true ∧
       (gOf w1.cur).st = (gOf s).st ∧ w1.cur.roomFor 0 9 = true ∧ Answers takeTwo w1 (some (weightWord 0 1 2)) w2 ∧
       GroupIssues w2.cur 0 (gOf w2.cur) ∧ w2.cur.roomFor 0 9 = true) ∧
    (let s := sRoots (sWgt 4 4)
     let w := workOf borrowNow ⟨s, []⟩
     GroupIssues s 0 (gOf s) ∧ (∀ y z, (tOf s).wait ≠ .borrow y z) ∧ (gOf s).settled = true ∧ (gOf s).wgt ≠ 0 ∧ s.roomFor 0 9 = true ∧
       ((tOf s).get 2).toNat ≤ amtOf (gOf s).wgt.toNat ∧ amtOf (gOf s).wgt.toNat + 2 ^ 24 ≤ maxAmt ∧
       Answers borrowNow ⟨s, []⟩ (some true) w ∧ GroupIssues w.cur 0 (gOf w.cur)) ∧
    (let s := withReg (sRoots sS) 1 0x100000004
     GangIssues s 0 (gOf s) (gaOf s) ∧ (∀ x y z, (tOf s).wait ≠ .qwait x y z) ∧ (gOf s).settled = true ∧
       fld ((tOf s).get 1).toNat 0 10 = 4 ∧ fld ((tOf s).get 1).toNat 10 22 = 0 ∧ fld ((tOf s).get 1).toNat 32 32 = 1 ∧
       s.root 4 = some ⟨false, 0, 1, 2 ^ 32, 2 ^ 32, []⟩ ∧ covers (s.clockOf 0) (s.clockOf (rootDie 4)) = true) ∧
    (let s := sRoots (sWgt 4 2)
     let w := workOf takeTwo ⟨s, []⟩
     (gOf s).attach = 0 ∧ Answers takeTwo ⟨s, []⟩ (some (weightWord 0 1 2)) w ∧ GroupIssues w.cur 0 (gOf w.cur) ∧
       joinWeight (gOf s).attach.toNat (weightWord 0 1 2) = some (weightWord 0 1 2)) := by
  unfold GangIssues GroupIssues
  exact ⟨by decide +kernel,
    ⟨by decide +kernel, fun _ _ => not_waiting (by decide +kernel) (by simp), by decide +kernel, by decide +kernel,
      answers_val _ (by decide +kernel), by decide +kernel, by decide +kernel, by decide +kernel, by decide +kernel,
      answers_val _ (by decide +kernel), by decide +kernel⟩,
    ⟨by decide +kernel, fun _ _ => not_waiting (by decide +kernel) (by simp), by decide +kernel, by decide +kernel, by decide +kernel,
      by decide +kernel, by decide +kernel, answers_val _ (by decide +kernel), by decide +kernel⟩,
    ⟨by decide +kernel, fun _ _ _ => not_waiting (by decide +kernel) (by simp), by decide +kernel⟩,
    by decide +kernel, answers_val _ (by decide +kernel), by decide +kernel⟩

/-! ## Hypotheses that are met: geometry and raster words -/

/-- A flat bicubic patch with this HANDLE at 0x50000, and its bound bucket of so many columns at 0x60000; s1 names the patch, s2 holds x. -/
def patchBits (h : Nat) : Nat := h + 9 * 2 ^ 105 + 0x3F800000 * 2 ^ 128
def bucketBits (bw : Nat) : Nat :=
  bw * 2 ^ 32 + 2 ^ 48 + 0x70000 * 2 ^ 64 + 4 * 2 ^ 128 + 0x80000 * 2 ^ 192 + 4 * 2 ^ 256 + 0x90000 * 2 ^ 320 + 4 * 2 ^ 384
def sPatch (h bw budget : Nat) (x : W64) : State :=
  let s := modGa (sRoots (sWgt 4 0)) (fun g => { g with nbar := 4, hold := [(0, [0])], bucket := some 0x60000, budget := budget })
  let t := withReg (withReg s 1 0x50000) 2 x
  t.setMem (Mem.put (Mem.put t.mem 0x50000 24 (patchBits h)) 0x60000 56 (bucketBits bw))
def rdPatch (s : State) : Act Nat := patchRecord (s.portOf (.group 0)) 0x50000
def rdBucket (s : State) : Act Nat := bucketRec (s.portOf (.group 0)) 0x60000
def rdHandle (s : State) : Act Nat := readHandle (s.portOf (.group 0)) 0x50000
def wkPatch (s : State) : Work := workOf (rdBucket s) (workOf (rdPatch s) ⟨s, []⟩)
def wkHandle (s : State) : Work := workOf (rdHandle s) (wkPatch s)

/-- A flags word of a gang, tested. -/
def flagsReady (ga : Gang) (fl : Nat) : Bool :=
  decide (fld fl 2 30 = 0) && (bit fl 1 || decide (fl < 2 ^ 32)) && (!bit fl 1 || (decide (fl / 2 ^ 32 % 16 = 0) && decide (fl / 2 ^ 32 < 16 * ga.nbar)))

theorem flagsOk_of {ga : Gang} {fl : Nat} (h : flagsReady ga fl = true) : FlagsOk ga fl := by
  unfold flagsReady at h
  simp only [Bool.and_eq_true, Bool.or_eq_true, decide_eq_true_eq, Bool.not_eq_true'] at h
  exact ⟨h.1.1, fun e => h.1.2.resolve_left (by simp [e]), fun e => h.2.resolve_left (by simp [e])⟩

/-- What the three reads of a patch, its bucket and its HANDLE give, tested in one evaluation, with a test of what they leave. -/
def threeReads (s : State) (r brec h : Nat) (q : Work → Bool) : Bool :=
  match rdPatch s ⟨s, []⟩ with
  | .error _ => false
  | .ok (a, w1) =>
    match rdBucket s w1 with
    | .error _ => false
    | .ok (b, w2) =>
      match rdHandle s w2 with
      | .error _ => false
      | .ok (c, w) =>
        decide (a = r) && decide (b = brec) && decide (c = h) && decide (w2.cur.issuer = some (.group 0)) &&
        decide (Tab.find w2.cur.groups 0 = some (gOf w2.cur)) && (gOf w2.cur).settled && decide (w.cur.issuer = some (.group 0)) &&
        decide (Tab.find w.cur.groups 0 = some (gOf w.cur)) && decide (Tab.find w.cur.gangs 0 = some (gaOf s)) && q w

theorem threeReads_of {s : State} {r brec h : Nat} {q : Work → Bool} (e : threeReads s r brec h q = true) :
    Answers (rdPatch s) ⟨s, []⟩ r (workOf (rdPatch s) ⟨s, []⟩) ∧
    Answers (rdBucket s) (workOf (rdPatch s) ⟨s, []⟩) brec (wkPatch s) ∧
    Answers (rdHandle s) (wkPatch s) h (wkHandle s) ∧ GroupIssues (wkPatch s).cur 0 (gOf (wkPatch s).cur) ∧
    (gOf (wkPatch s).cur).settled = true ∧ GroupIssues (wkHandle s).cur 0 (gOf (wkHandle s).cur) ∧
    Tab.find (wkHandle s).cur.gangs 0 = some (gaOf s) ∧ q (wkHandle s) = true := by
  unfold threeReads at e
  unfold wkHandle wkPatch workOf Answers GroupIssues
  cases e1 : rdPatch s ⟨s, []⟩ with
  | error x => simp [e1] at e
  | ok p1 =>
    obtain ⟨a, w1⟩ := p1
    simp only [e1] at e ⊢
    cases e2 : rdBucket s w1 with
    | error x => simp [e2] at e
    | ok p2 =>
      obtain ⟨b, w2⟩ := p2
      simp only [e2] at e ⊢
      cases e3 : rdHandle s w2 with
      | error x => simp [e3] at e
      | ok p3 =>
        obtain ⟨c, w⟩ := p3
        simp only [e3, Bool.and_eq_true, decide_eq_true_eq] at e ⊢
        obtain ⟨⟨⟨⟨⟨⟨⟨⟨⟨rfl, rfl⟩, rfl⟩, f1⟩, f2⟩, f3⟩, f4⟩, f5⟩, f6⟩, f7⟩ := e
        exact ⟨rfl, rfl, rfl, ⟨f1, f2⟩, f3, ⟨f4, f5⟩, f6, f7⟩

/-- What DICE and BFILL check besides, tested. -/
def diceReady (s : State) (r brec : Nat) : Bool :=
  decide (s.issuer = some (.group 0)) && decide (Tab.find s.groups 0 = some (gOf s)) && decide (Tab.find s.gangs 0 = some (gaOf s)) &&
  decide ((tOf s).wait = .none) && decide (((tOf s).get 1).toNat = 0x50000) && flagsReady (gaOf s) ((tOf s).get 2).toNat &&
  decide ((gaOf s).bucket = some 0x60000) && patchOk r (splitNeeded r (fld brec 32 16) (fld brec 48 16))

theorem diceReads_of (s : State) (r brec h : Nat) (q : Work → Bool) (e : diceReady s r brec = true)
    (e' : threeReads s r brec h q = true) :
    DiceReads s 0 (gOf s) (gaOf s) 1 2 r brec h (wkHandle s) (gOf (wkHandle s).cur) ∧ q (wkHandle s) = true := by
  unfold diceReady at e
  simp only [Bool.and_eq_true, decide_eq_true_eq] at e
  obtain ⟨⟨⟨⟨⟨⟨⟨e1, e2⟩, e3⟩, e4⟩, e5⟩, e6⟩, e7⟩, e8⟩ := e
  obtain ⟨f1, f2, f3, f4, f5, f6, f7, f8⟩ := threeReads_of e'
  have a5 : ((gOf s).st.get (1 : BitVec 5).toNat).toNat = 0x50000 := e5
  refine ⟨?_, f8⟩
  unfold DiceReads
  rw [a5]
  exact ⟨⟨⟨e1, e2⟩, e3⟩, fun _ _ => not_waiting e4 (by simp), ⟨by decide, by decide⟩, flagsOk_of e6,
    ⟨0x60000, _, _, _, e7, f1, f2, f4, f5, f3⟩, e8, f6, f7⟩

/-- The first slot of the gang's Cupola. -/
def slot0 (s : State) : Nat := s.cupola (gaOf s)
/-- Slot 0 as given. -/
def withSlot (s : State) (sl : Machine.Slot) : State := s.setSlot (slot0 s) sl
def heldSlot : Machine.Slot := { Machine.Slot.fresh with state := .ready, gen := 3, owner := 0, nu := 1, nv := 1 }
def handle0 : Nat := handleOf 0 3
def makeSlot (s : State) : Act Nat := allocSlot 0 (slot0 s) false (patchNu (patchBits 0)) (patchNv (patchBits 0))
def nameSlot (s : State) : Act Nat := atomicWord (s.portOf (.group 0)) 0x50000 8 (fun _ => handleOf (slot0 s) 1)

/-- Tests of what the reads leave: slot 0 is taken; no slot can be; the handle names slot 0, which holds its grid. -/
def takesFirst (s : State) (w : Work) : Bool := decide (w.cur.takeSlot 0 (gaOf s) = some (slot0 s, false))
def takesNone (s : State) (w : Work) : Bool := decide (w.cur.takeSlot 0 (gaOf s) = none)
def holdsGrid (s : State) (w : Work) : Bool :=
  decide (w.cur.handleSlot (gaOf s) handle0 = some (slot0 s)) && decide ((w.cur.slotAt (slot0 s)).oldGen = none) &&
  decide ((w.cur.slotAt (slot0 s)).state ≠ .free) && decide ((w.cur.slotAt (slot0 s)).gen = fld handle0 16 32) &&
  decide ((w.cur.slotAt (slot0 s)).owner = 0)

/-- The states of the witnesses: a slot is free; none is, and NOWAIT is set; an empty screen; HANDLE of KIND 2, 3 and 1. -/
def dA : State := sPatch 0 1 1 0
def dB : State := sPatch 0 1 0 0x3000000003
def dC : State := sPatch 0 0 1 0
def dD : State := sPatch (2 ^ 63) 1 1 0
def dE : State := sPatch (3 * 2 ^ 62) 1 1 0
def dF : State := withSlot (sPatch handle0 1 1 0) heldSlot
def dA3 : Work := workOf (makeSlot dA) (wkHandle dA)

theorem witness_DiceTakesASlot :
    (DiceReads dA 0 (gOf dA) (gaOf dA) 1 2 (patchBits 0) (bucketBits 1) 0 (wkHandle dA) (gOf (wkHandle dA).cur) ∧
      takesFirst dA (wkHandle dA) = true) ∧
    (fld 0 62 2 = 0 ∧ patchRect (patchBits 0) 1 1 ≠ none ∧ splitNeeded (patchBits 0) 1 1 = false) ∧
    Answers (makeSlot dA) (wkHandle dA) 1 dA3 ∧ Answers (nameSlot dA) dA3 0 (workOf (nameSlot dA) dA3) ∧
    GroupIssues (workOf (nameSlot dA) dA3).cur 0 (gOf (workOf (nameSlot dA) dA3).cur) ∧ (workOf (nameSlot dA) dA3).cur.roomFor 0 3 = true :=
  ⟨diceReads_of _ _ _ _ _ (by decide +kernel) (by decide +kernel), by decide +kernel, answers_val _ (by decide +kernel),
    answers_val _ (by decide +kernel), by unfold GroupIssues; decide +kernel, by decide +kernel⟩

theorem witness_DiceAnswers :
    ((DiceReads dB 0 (gOf dB) (gaOf dB) 1 2 (patchBits 0) (bucketBits 1) 0 (wkHandle dB) (gOf (wkHandle dB).cur) ∧
      takesNone dB (wkHandle dB) = true) ∧ bit 0x3000000003 0 = true) ∧
    ((DiceReads dC 0 (gOf dC) (gaOf dC) 1 2 (patchBits 0) (bucketBits 0) 0 (wkHandle dC) (gOf (wkHandle dC).cur) ∧ true = true) ∧
      patchRect (patchBits 0) 0 1 = none) ∧
    ((DiceReads dD 0 (gOf dD) (gaOf dD) 1 2 (patchBits (2 ^ 63)) (bucketBits 1) (2 ^ 63) (wkHandle dD) (gOf (wkHandle dD).cur) ∧
      true = true) ∧ fld (2 ^ 63) 62 2 = 2 ∧ fld (2 ^ 63) 0 48 = 0) ∧
    ((DiceReads dE 0 (gOf dE) (gaOf dE) 1 2 (patchBits (3 * 2 ^ 62)) (bucketBits 1) (3 * 2 ^ 62) (wkHandle dE) (gOf (wkHandle dE).cur) ∧
      true = true) ∧ fld (3 * 2 ^ 62) 62 2 = 3) ∧
    ((DiceReads dF 0 (gOf dF) (gaOf dF) 1 2 (patchBits handle0) (bucketBits 1) handle0 (wkHandle dF) (gOf (wkHandle dF).cur) ∧
      holdsGrid dF (wkHandle dF) = true) ∧ fld handle0 62 2 = 1) :=
  ⟨⟨diceReads_of _ _ _ _ _ (by decide +kernel) (by decide +kernel), by decide +kernel⟩,
    ⟨diceReads_of _ _ _ _ (fun _ => true) (by decide +kernel) (by decide +kernel), by decide +kernel⟩,
    ⟨diceReads_of _ _ _ _ (fun _ => true) (by decide +kernel) (by decide +kernel), by decide +kernel⟩,
    ⟨diceReads_of _ _ _ _ (fun _ => true) (by decide +kernel) (by decide +kernel), by decide +kernel⟩,
    diceReads_of _ _ _ _ _ (by decide +kernel) (by decide +kernel), by decide +kernel⟩

/-- Slot 0 belongs to gang 1, and is sampled or not; the handle names slot 0 of the next cluster, which holds its grid or not. -/
def farHandle : Nat := handle0 + 2 ^ 7
def dG : State := withSlot (sPatch handle0 1 1 0) { heldSlot with owner := 1 }
def dH : State := withSlot (sPatch handle0 1 1 0) { heldSlot with owner := 1, state := .sampled }
def dI : State := sPatch farHandle 1 1 0
def dJ : State := dI.setSlot (slotKey 0 0 1 0) heldSlot
/-- Tests of what the reads leave: the slot is another gang's, sampled or not; no slot of the gang's Cupola is named, and none of
the launch or one. -/
def othersGrid (sampled : Bool) (s : State) (w : Work) : Bool :=
  decide (w.cur.handleSlot (gaOf s) handle0 = some (slot0 s)) && decide ((w.cur.slotAt (slot0 s)).oldGen = none) &&
  decide ((w.cur.slotAt (slot0 s)).state = (if sampled then .sampled else .ready)) &&
  decide ((w.cur.slotAt (slot0 s)).gen = fld handle0 16 32) && decide ((w.cur.slotAt (slot0 s)).owner ≠ 0) &&
  decide (0 ∉ (w.cur.slotAt (slot0 s)).holders)
def markFar (s : State) : Act Nat := atomicWord (s.portOf (.group 0)) 0x50000 8 (fun x => x ||| 2 ^ 13)
def farGrid (key : Option Nat) (s : State) (w : Work) : Bool :=
  decide (w.cur.handleSlot (gaOf s) farHandle = none) && decide (w.cur.namedSlot 0 farHandle = key) &&
  gives (markFar s) w (fun x => decide (x = farHandle)) && decide ((workOf (markFar s) w).cur.issuer = some (.group 0)) &&
  decide (Tab.find (workOf (markFar s) w).cur.groups 0 = some (gOf w.cur))

theorem witness_DiceOnAnothersGrid :
    (DiceReads dG 0 (gOf dG) (gaOf dG) 1 2 (patchBits handle0) (bucketBits 1) handle0 (wkHandle dG) (gOf (wkHandle dG).cur) ∧
      othersGrid false dG (wkHandle dG) = true) ∧
    (DiceReads dH 0 (gOf dH) (gaOf dH) 1 2 (patchBits handle0) (bucketBits 1) handle0 (wkHandle dH) (gOf (wkHandle dH).cur) ∧
      othersGrid true dH (wkHandle dH) = true) ∧
    (DiceReads dI 0 (gOf dI) (gaOf dI) 1 2 (patchBits farHandle) (bucketBits 1) farHandle (wkHandle dI) (gOf (wkHandle dI).cur) ∧
      farGrid none dI (wkHandle dI) = true) ∧
    (DiceReads dJ 0 (gOf dJ) (gaOf dJ) 1 2 (patchBits farHandle) (bucketBits 1) farHandle (wkHandle dJ) (gOf (wkHandle dJ).cur) ∧
      farGrid (some (slotKey 0 0 1 0)) dJ (wkHandle dJ) = true) ∧
    (0 / 65536 = 0 ∧ fld handle0 62 2 = 1 ∧ fld farHandle 62 2 = 1) :=
  ⟨diceReads_of _ _ _ _ _ (by decide +kernel) (by decide +kernel), diceReads_of _ _ _ _ _ (by decide +kernel) (by decide +kernel),
    diceReads_of _ _ _ _ _ (by decide +kernel) (by decide +kernel), diceReads_of _ _ _ _ _ (by decide +kernel) (by decide +kernel),
    by decide +kernel⟩

/-- A patch that expands over eight bucket columns; HANDLE of KIND 3; HANDLE of KIND 2 with an image at 0x90000. -/
def widePatch : Nat := patchBits 0 + 0x49742400 * 2 ^ 160
def dK : State := { dA with mem := Mem.put (Mem.put dA.mem 0x50000 24 widePatch) 0x60000 56 (bucketBits 8) }
def splitWide (s : State) : Act Unit :=
  splitPatch 0 4 (s.portOf (.group 0)) 0x60000 (bucketBits 8) 0x50000 widePatch (splitAlongV widePatch)
def halves3 (s : State) : Act Unit :=
  appendHalves 0 4 (s.portOf (.group 0)) 0x60000 (resultWord (3 * 2 ^ 62 + 0xA0000) 3 false) 0xA0000 none [0, 1]
def dL : State := sPatch (3 * 2 ^ 62 + 0xA0000) 1 1 0
def dM : State := sPatch (2 ^ 63 + 0x90000) 1 1 0
def readImage (s : State) : Act (Except Nat Nat) := readVA { s.portOf (.group 0) with core := none } fresh 0x90000 32
def fillSlot (s : State) : Act Nat := allocSlot 0 (slot0 s) false (hdNu 0) (hdNv 0)
def dM2 : Work := workOf (readImage dM) (wkHandle dM)
def dM3 : Work := workOf (fillSlot dM) dM2
def dM4 : Work := workOf (nameSlot dM) dM3

theorem witness_DiceSplitsAndFills :
    ((DiceReads dK 0 (gOf dK) (gaOf dK) 1 2 widePatch (bucketBits 8) 0 (wkHandle dK) (gOf (wkHandle dK).cur) ∧
      gives (splitWide dK) (wkHandle dK) (fun _ => true) = true) ∧
      patchRect widePatch 8 1 ≠ none ∧ splitNeeded widePatch 8 1 = true) ∧
    ((DiceReads dL 0 (gOf dL) (gaOf dL) 1 2 (patchBits (3 * 2 ^ 62 + 0xA0000)) (bucketBits 1) (3 * 2 ^ 62 + 0xA0000) (wkHandle dL)
        (gOf (wkHandle dL).cur) ∧ gives (halves3 dL) (wkHandle dL) (fun _ => true) = true) ∧ 2 ≤ bkLeft (bucketBits 1) ∧
      fld (3 * 2 ^ 62 + 0xA0000) 62 2 = 3 ∧ fld (3 * 2 ^ 62 + 0xA0000) 0 48 = 0xA0000) ∧
    ((DiceReads dM 0 (gOf dM) (gaOf dM) 1 2 (patchBits (2 ^ 63 + 0x90000)) (bucketBits 1) (2 ^ 63 + 0x90000) (wkHandle dM)
        (gOf (wkHandle dM).cur) ∧ true = true) ∧ fld (2 ^ 63 + 0x90000) 62 2 = 2 ∧ fld (2 ^ 63 + 0x90000) 0 48 = 0x90000 ∧
      Answers (readImage dM) (wkHandle dM) (.ok 0) dM2 ∧ GroupIssues dM2.cur 0 (gOf dM2.cur) ∧ Tab.find dM2.cur.gangs 0 = some (gaOf dM) ∧
      dM2.cur.takeSlot 0 (gaOf dM) = some (slot0 dM, false) ∧ Answers (fillSlot dM) dM2 1 dM3 ∧
      Answers (nameSlot dM) dM3 (2 ^ 63 + 0x90000) dM4 ∧ GroupIssues dM4.cur 0 (gOf dM4.cur) ∧ dM4.cur.roomFor 0 3 = true) := by
  unfold GroupIssues
  exact ⟨⟨diceReads_of _ _ _ _ (fun w => gives (splitWide dK) w (fun _ => true)) (by decide +kernel) (by decide +kernel), by decide +kernel⟩,
    ⟨diceReads_of _ _ _ _ (fun w => gives (halves3 dL) w (fun _ => true)) (by decide +kernel) (by decide +kernel), by decide +kernel⟩,
    diceReads_of _ _ _ _ (fun _ => true) (by decide +kernel) (by decide +kernel), by decide +kernel, by decide +kernel,
    answers_fine _ (by decide +kernel), by decide +kernel, by decide +kernel, by decide +kernel, answers_val _ (by decide +kernel),
    answers_val _ (by decide +kernel), by decide +kernel, by decide +kernel⟩

/-- The split of the patch along v, and whether it answers. -/
def splitIt (s : State) : Act Unit := splitPatch 0 4 (s.portOf (.group 0)) 0x60000 (bucketBits 1) 0x50000 (patchBits 0) true
def splits (s : State) (w : Work) : Bool := gives (splitIt s) w (fun _ => true)
def pA : State := withReg dA 2 128
def pB : State := withReg dA 2 1
def pC : State := withReg dD 2 2

theorem witness_Patch :
    GangIssues pA 0 (gOf pA) (gaOf pA) ∧ ((tOf pA).get 1).toNat % 64 = 0 ∧ 0 < ((tOf pA).get 2).toNat ∧ ((tOf pA).get 2).toNat ≤ 128 ∧
      (pA.ownedBy 0).length = 0 := by
  unfold GangIssues GroupIssues; decide +kernel

theorem witness_Split :
    (GangIssues pB 0 (gOf pB) (gaOf pB) ∧ (tOf pB).wait = .none ∧ ((tOf pB).get 1).toNat = 0x50000 ∧ ((tOf pB).get 2).toNat ≤ 2 ∧
      (gaOf pB).bucket = some 0x60000 ∧ patchOk (patchBits 0) true = true ∧ ((tOf pC).get 2).toNat ≤ 2 ∧ (2 ^ 63 : Nat) ≠ 0) ∧
    (Answers (rdPatch pB) ⟨pB, []⟩ (patchBits 0) (workOf (rdPatch pB) ⟨pB, []⟩) ∧
      Answers (rdBucket pB) (workOf (rdPatch pB) ⟨pB, []⟩) (bucketBits 1) (wkPatch pB) ∧ Answers (rdHandle pB) (wkPatch pB) 0 (wkHandle pB) ∧
      GroupIssues (wkPatch pB).cur 0 (gOf (wkPatch pB).cur) ∧ (gOf (wkPatch pB).cur).settled = true ∧
      GroupIssues (wkHandle pB).cur 0 (gOf (wkHandle pB).cur) ∧ Tab.find (wkHandle pB).cur.gangs 0 = some (gaOf pB) ∧
      splits pB (wkHandle pB) = true) ∧
    (Answers (rdPatch pC) ⟨pC, []⟩ (patchBits (2 ^ 63)) (workOf (rdPatch pC) ⟨pC, []⟩) ∧
      Answers (rdBucket pC) (workOf (rdPatch pC) ⟨pC, []⟩) (bucketBits 1) (wkPatch pC) ∧
      Answers (rdHandle pC) (wkPatch pC) (2 ^ 63) (wkHandle pC) ∧
      GroupIssues (wkPatch pC).cur 0 (gOf (wkPatch pC).cur) ∧ (gOf (wkPatch pC).cur).settled = true ∧
      GroupIssues (wkHandle pC).cur 0 (gOf (wkHandle pC).cur) ∧ Tab.find (wkHandle pC).cur.gangs 0 = some (gaOf pC) ∧ true = true) :=
  ⟨by unfold GangIssues GroupIssues; decide +kernel, threeReads_of (by decide +kernel),
    threeReads_of (q := fun _ => true) (by decide +kernel)⟩

def rdGbound (s : State) : Act Nat := patchRecord (s.portOf (.group 0)) 0x50000
def spillTo (s : State) : Act (Except (Nat × Nat) (Option Nat)) := nextImage (s.portOf (.group 0)) 0

theorem witness_GboundAndSpill :
    (let s := sPatch 0 1 1 0x0001FFFF
     let w := workOf (rdGbound s) ⟨s, []⟩
     GroupIssues s 0 (gOf s) ∧ Placed48 ((tOf s).get 1).toNat 64 ∧ fld ((tOf s).get 2).toNat 0 16 ≠ 0 ∧
       fld ((tOf s).get 2).toNat 16 16 ≠ 0 ∧ ((tOf s).get 2).toNat < 2 ^ 32 ∧ Answers (rdGbound s) ⟨s, []⟩ (patchBits 0) w ∧
       patchOk (patchBits 0) (splitNeeded (patchBits 0) 0xFFFF 1) = true ∧ GroupIssues w.cur 0 (gOf w.cur)) ∧
    (let s := withReg (withSlot (sPatch 0 1 1 0) heldSlot) 1 (BitVec.ofNat 64 handle0)
     let w := workOf (spillTo s) ⟨s, []⟩
     GangIssues s 0 (gOf s) (gaOf s) ∧ (gOf s).settled = true ∧ s.roomFor 0 3 = true ∧ FlagsOk (gaOf s) ((tOf s).get 2).toNat ∧
       s.usableSlot (gaOf s) ((tOf s).get 1).toNat = some (slot0 s) ∧ (s.slotAt (slot0 s)).owner = 0 ∧
       (s.slotAt (slot0 s)).state ≠ .spilling ∧ (s.slotAt (slot0 s)).holders = [] ∧
       Answers (spillTo s) ⟨s, []⟩ (.ok (some 0x90000)) w ∧ GroupIssues w.cur 0 (gOf w.cur) ∧ w.cur.roomFor 0 3 = true) := by
  unfold GangIssues GroupIssues Placed48
  exact ⟨⟨by decide +kernel, by decide +kernel, by decide +kernel, by decide +kernel, by decide +kernel, answers_val _ (by decide +kernel),
      by decide +kernel⟩,
    by decide +kernel, by decide +kernel, by decide +kernel, flagsOk_of (by decide +kernel), by decide +kernel, by decide +kernel,
    by decide +kernel, by decide +kernel, answers_fine _ (by decide +kernel), by decide +kernel⟩

/-! ## Hypotheses that are met: the scalar words of the other engines -/

/-- A sample pattern of one sample on a tile of one pixel at 0x50000, OPITCH 256. -/
def sPattern : State :=
  let s := withReg (withReg sS 1 0x50000) 2 0x60000
  s.setMem (Mem.put s.mem 0x50000 64 (1 + 256 * 2 ^ 192))
def patHead : Act Nat := spatRead 0x50000 64 false
def patBody : Act Nat := spatRead (0x50000 + 64) (8 * patEntries (1 + 256 * 2 ^ 192)) false
def wkPat1 : Work := workOf patHead ⟨sPattern, []⟩
def wkPat2 : Work := workOf patBody wkPat1
def bind1 : Raster := ⟨1 + 256 * 2 ^ 192, [0], 0x60000⟩
/-- The group has a binding, and s1 holds x. -/
def sBound (x : W64) : State := withReg (modG dF (fun g => { g with raster := some bind1 })) 1 x
def rdOrigin : Act Nat := readRec 0x60000 4
def sGridState : State := sBound (BitVec.ofNat 64 handle0)
def wkGrid : Work := workOf rdOrigin ⟨sGridState, []⟩

theorem witness_RasterWords :
    (GroupIssues sPattern 0 (gOf sPattern) ∧ Placed48 ((tOf sPattern).get 1).toNat 8 ∧ Placed48 ((tOf sPattern).get 2).toNat 256 ∧
      Answers patHead ⟨sPattern, []⟩ (1 + 256 * 2 ^ 192) wkPat1 ∧ patHeadOk (1 + 256 * 2 ^ 192) = true ∧ Answers patBody wkPat1 0 wkPat2 ∧
      ((upFrom 0 1).map (fun i => fld 0 (64 * i) 64)).all patEntOk = true ∧ GroupIssues wkPat2.cur 0 (gOf wkPat2.cur)) ∧
    (let s := sBound 0xFFFFFFF8
     GangIssues s 0 (gOf s) (gaOf s) ∧ (gOf s).raster = some bind1 ∧ s.roomFor 0 4 = true ∧ (gOf s).settled = true ∧
       FlagsOk (gaOf s) ((tOf s).get 2).toNat ∧ bit ((tOf s).get 2).toNat 0 = false ∧ ((tOf s).get 1).toNat < 2 ^ 32 ∧
       Placed48 ((tOf s).get 1).toNat 8) ∧
    (GangIssues sGridState 0 (gOf sGridState) (gaOf sGridState) ∧ (gOf sGridState).raster = some bind1 ∧ (gaOf sGridState).bucket = some 0x60000 ∧
      FlagsOk (gaOf sGridState) ((tOf sGridState).get 2).toNat ∧ Answers rdOrigin ⟨sGridState, []⟩ 0 wkGrid ∧
      wkGrid.cur.usableSlot (gaOf sGridState) ((tOf sGridState).get 1).toNat = some (slot0 dF) ∧ (wkGrid.cur.slotAt (slot0 dF)).owner = 0 ∧
      inRect (wkGrid.cur.rectHead (slot0 dF)) 0 0 = true ∧ GroupIssues wkGrid.cur 0 (gOf wkGrid.cur) ∧
      (gOf wkGrid.cur).settled = true ∧ wkGrid.cur.roomFor 0 4 = true) ∧
    (GangIssues sS 0 (gOf sS) (gaOf sS) ∧ (tOf sS).wait = .none ∧ (gOf sS).raster = none ∧ ((tOf sS).get 0).toNat < 2 ^ 32 ∧
      FlagsOk (gaOf sS) ((tOf sS).get 0).toNat) := by
  unfold GangIssues GroupIssues Placed48
  exact ⟨⟨by decide +kernel, by decide +kernel, by decide +kernel, answers_val _ (by decide +kernel), by decide +kernel,
      answers_val _ (by decide +kernel), by decide +kernel⟩,
    ⟨by decide +kernel, by decide +kernel, by decide +kernel, by decide +kernel, flagsOk_of (by decide +kernel), by decide +kernel⟩,
    ⟨by decide +kernel, by decide +kernel, by decide +kernel, flagsOk_of (by decide +kernel), answers_val _ (by decide +kernel),
      by decide +kernel, by decide +kernel, by decide +kernel, by decide +kernel, by decide +kernel⟩,
    by decide +kernel, by decide +kernel, by decide +kernel, by decide +kernel, flagsOk_of (by decide +kernel)⟩

/-- A descriptor of 64 bytes at 0x50000: a BVH, a texture, a surface; s1 names it, s2 holds x. -/
def bvhBits : Nat := 0x10000 + 0x20000 * 2 ^ 64 + 2 ^ 128 + 5 * 2 ^ 160 + 0x30000 * 2 ^ 384 + 3 * 2 ^ 432
def texBits : Nat := 0x10000 + 0x20000 * 2 ^ 128
def sfBits : Nat := 0x10000 + 0x20000 * 2 ^ 64 + 4 * 2 ^ 128
def sDesc (r : Nat) (x : W64) : State :=
  let s := withReg (withReg (modGa sS (fun g => { g with nbar := 4, hold := [(0, [1])], bvh := [(3, bvhBits)] })) 1 0x50000) 2 x
  s.setMem (Mem.put s.mem 0x50000 64 r)
def rdDesc : Act Nat := readRec 0x50000 64
def wkDesc (r : Nat) : Work := workOf rdDesc ⟨sDesc r 3, []⟩
def rdSurface (s : State) : Act (Except (Nat × Nat) Nat) := tryRec (s.portOf (.group 0)) 0x50000 64
def sSurf : State := sDesc sfBits 3
def wkSurf : Work := workOf (rdSurface sSurf) ⟨sSurf, []⟩

theorem witness_BindingsAndSurfaceWords :
    (GangIssues (sDesc bvhBits 3) 0 (gOf (sDesc bvhBits 3)) (gaOf (sDesc bvhBits 3)) ∧ Placed48 ((tOf (sDesc bvhBits 3)).get 1).toNat 64 ∧
      ((tOf (sDesc bvhBits 3)).get 2).toNat ≤ 3 ∧ Answers rdDesc ⟨sDesc bvhBits 3, []⟩ bvhBits (wkDesc bvhBits) ∧ bvhOk bvhBits = true ∧
      GroupIssues (wkDesc bvhBits).cur 0 (gOf (wkDesc bvhBits).cur)) ∧
    (GangIssues (sDesc texBits 3) 0 (gOf (sDesc texBits 3)) (gaOf (sDesc texBits 3)) ∧
      Answers rdDesc ⟨sDesc texBits 3, []⟩ texBits (wkDesc texBits) ∧ texOk texBits = true ∧
      GroupIssues (wkDesc texBits).cur 0 (gOf (wkDesc texBits).cur)) ∧
    (let s := withReg (sDesc 0 0x3000000300) 1 3
     GangIssues s 0 (gOf s) (gaOf s) ∧ (gOf s).settled = true ∧ s.roomFor 0 5 = true ∧ ((tOf s).get 1).toNat < 4 ∧
       Tab.find (gaOf s).bvh ((tOf s).get 1).toNat = some bvhBits ∧ bvhRclog bvhBits ≠ 0 ∧ ((tOf s).get 2).toNat = 0x3000000300 ∧
       fld 0x3000000300 0 9 ≤ 256 ∧ fld 0x3000000300 10 22 = 0 ∧ bit 0x3000000300 9 = true ∧
       0x3000000300 / 2 ^ 32 % 16 = 0 ∧ 0x3000000300 / 2 ^ 32 < 16 * (gaOf s).nbar) ∧
    (let s := withReg (sDesc 0 0x100) 1 3
     ((tOf s).get 2).toNat = 0x100 ∧ fld 0x100 0 9 ≤ 256 ∧ bit 0x100 9 = false ∧ 0x100 < 2 ^ 32) ∧
    (GangIssues sSurf 0 (gOf sSurf) (gaOf sSurf) ∧ Placed48 ((tOf sSurf).get 1).toNat 64 ∧ ((tOf sSurf).get 2).toNat = 3 ∧
      Answers (rdSurface sSurf) ⟨sSurf, []⟩ (.ok sfBits) wkSurf ∧ sfOk sfBits = true ∧ GroupIssues wkSurf.cur 0 (gOf wkSurf.cur) ∧
      wkSurf.cur.roomFor 0 7 = true ∧ fld 3 0 32 + fld 3 32 32 ≤ sfTiles sfBits ∧ 3 < sfTiles sfBits ∧ fld 3 32 32 % 4 = 0 ∧
      spadAt (gaOf sSurf) (fld 3 32 32) 256 = some (0, 0)) := by
  unfold GangIssues GroupIssues Placed48
  exact ⟨⟨by decide +kernel, by decide +kernel, by decide +kernel, answers_val _ (by decide +kernel), by decide +kernel⟩,
    ⟨by decide +kernel, answers_val _ (by decide +kernel), by decide +kernel⟩, by decide +kernel, by decide +kernel,
    by decide +kernel, by decide +kernel, by decide +kernel, answers_fine _ (by decide +kernel), by decide +kernel⟩

/-- KPEAL of the 4 KiB of KILL-free cells at 0 into peal slot 15, with a report to barrier 48. -/
def sPeal : State := withReg (withReg (modGa sS (fun g => { g with nbar := 4, hold := [(0, [1])] })) 1 0) 2 0x300000010F
def rdPeal : Act (Except Nat (List Nat × Nat)) := pealSectors 0 128 0
def wkPeal : Work := workOf rdPeal ⟨sPeal, []⟩

theorem witness_CarillonWords :
    (let s := withReg sS 1 1024
     GroupIssues s 0 (gOf s) ∧ s.roomFor 0 8 = true ∧ 16 ≤ ((tOf s).get 1).toNat ∧ ((tOf s).get 1).toNat ≤ 1024) ∧
    (let s := withReg sS 1 3
     GroupIssues s 0 (gOf s) ∧ s.roomFor 0 8 = true ∧ 0 < ((tOf s).get 1).toNat ∧ ((tOf s).get 1).toNat < 4) ∧
    (let s := withReg sS 1 1025
     GroupIssues s 0 (gOf s) ∧ (tOf s).wait = .none ∧ 1024 < ((tOf s).get 1).toNat) ∧
    (GangIssues sPeal 0 (gOf sPeal) (gaOf sPeal) ∧ ((tOf sPeal).get 1).toNat = 0 ∧ ((tOf sPeal).get 2).toNat = 0x300000010F ∧
      fld 0x300000010F 4 4 = 0 ∧ fld 0x300000010F 9 23 = 0 ∧ bit 0x300000010F 8 = true ∧ 0x300000010F / 2 ^ 32 % 16 = 0 ∧
      0x300000010F / 2 ^ 32 < 16 * (gaOf sPeal).nbar ∧ spadAt (gaOf sPeal) 0 4096 = some (0, 0) ∧ spadMode (gaOf sPeal) 0 0 4096 = true ∧
      Answers rdPeal ⟨sPeal, []⟩ (.ok (List.replicate 2048 0, 0)) wkPeal ∧ 0 / 16 ≠ 3 ∧ (List.replicate 2048 0).all cellOk = true ∧
      GroupIssues wkPeal.cur 0 (gOf wkPeal.cur) ∧ wkPeal.cur.roomFor 0 8 = true) ∧
    (let s := withReg sS 1 65535
     GroupIssues s 0 (gOf s) ∧ ((tOf s).get 1).toNat < 65536 ∧ 0 < (((gOf s).queue 8).next.toNat + 65536 - ((tOf s).get 1).toNat) % 65536 ∧
       (((gOf s).queue 8).next.toNat + 65536 - ((tOf s).get 1).toNat) % 65536 < 32768 ∧
       (∀ e ∈ ((gOf s).queue 8).ents, e.seq.toNat ≠ ((tOf s).get 1).toNat)) ∧
    (GangIssues sS 0 (gOf sS) (gaOf sS) ∧ (tOf sS).get 0 = 0) ∧
    (GangIssues (withReg sS 1 4) 0 (gOf (withReg sS 1 4)) (gaOf (withReg sS 1 4)) ∧ (tOf (withReg sS 1 4)).get 1 = 4) ∧
    (GangIssues (withReg sS 1 5) 0 (gOf (withReg sS 1 5)) (gaOf (withReg sS 1 5)) ∧ 4 < ((tOf (withReg sS 1 5)).get 1).toNat ∧
      (tOf (withReg sS 1 5)).wait = .none) := by
  unfold GangIssues GroupIssues
  exact ⟨by decide +kernel, by decide +kernel, by decide +kernel,
    ⟨by decide +kernel, by decide +kernel, by decide +kernel, by decide +kernel, by decide +kernel, by decide +kernel, by decide +kernel,
      by decide +kernel, by decide +kernel, by decide +kernel, answers_fine _ (by decide +kernel), by decide +kernel⟩,
    by decide +kernel⟩

/-- A shape of 1 × 1 × 128 in I8 on core 0, with or without ACCDIS, at 0x50000. -/
def matBits (dis : Bool) : Nat :=
  2 ^ 224 + 2 ^ 232 + 128 * 2 ^ 240 + 2 ^ 248 + 2 ^ 252 + 3 * 2 ^ 256 + 3 * 2 ^ 260 + 2 ^ 264 + 2 ^ 270 + 2 ^ 276 + 2 ^ 296 +
    (if dis then 2 ^ 290 else 0)
/-- Context 0 with that shape in slot 3, tile 3 and accumulator 7 live on core 0, and c1 as given. -/
def sMat (dis : Bool) (v : W64) : State := modX sC (fun x => { x with
  slots := [(3, matBits dis)], st := x.st.put 1 v
  view := [(0, ⟨[(3, (128, 1, 1))], if dis then [] else [(7, accOf (matBits dis) 0)]⟩)] })
def sShapeAt : State :=
  let s := modXSt sC (fun t => t.put 1 0x50000)
  s.setMem (Mem.put s.mem 0x50000 64 (matBits true))
def wkShape : Work := workOf rdDesc ⟨sShapeAt, []⟩

theorem witness_MatrixWords :
    (CtxIssues sShapeAt 0 (xOf sShapeAt) (gaOf sShapeAt) ∧ (3 : BitVec 5).toNat ≤ 3 ∧ Placed48 ((txOf sShapeAt).get 1).toNat 8 ∧
      Answers rdDesc ⟨sShapeAt, []⟩ (matBits true) wkShape ∧ addBase (matBits true) ((txOf sShapeAt).get 0).toNat = some (matBits true) ∧
      matOk (matBits true) = true ∧ shCmask (matBits true) / 2 ^ (gaOf sShapeAt).cores = 0 ∧ wkShape.cur.issuer = some (.ctx 0)) ∧
    (let s := sMat true 7
     CtxIssues s 0 (xOf s) (gaOf s) ∧ s.ctxRoom 0 (xOf s) (gaOf s) = true ∧ (xOf s).slot 3 = some (matBits true) ∧
       (7 : BitVec 5).toNat ≤ 7 ∧ ((txOf s).get 1).toNat < 8 ∧
       (shBbase (matBits true) + ((txOf s).get 1).toNat) % 2 ^ 64 % matSize (shBfmt (matBits true)) = 0 ∧
       (∀ y ∈ namedCores (matBits true), Tab.find ((xOf s).viewOf y.2).tiles (((txOf s).get 1).toNat % 4) =
         some (shK (matBits true), shN (matBits true), shBfmt (matBits true))) ∧ shAccdis (matBits true) = true ∧
       (∀ y ∈ namedCores (matBits true), ∀ z ∈ spanChecks ((xOf s).viewOf y.2) 7 (matBits true), z.1 = false)) ∧
    (let s := sMat false 3
     CtxIssues s 0 (xOf s) (gaOf s) ∧ s.ctxRoom 0 (xOf s) (gaOf s) = true ∧ (xOf s).slot 3 = some (matBits false) ∧
       (∀ y ∈ namedCores (matBits false), Tab.find ((xOf s).viewOf y.2).tiles (((txOf s).get 1).toNat % 4) =
         some (shK (matBits false), shN (matBits false), shBfmt (matBits false))) ∧ shAccdis (matBits false) = false ∧
       (∀ y ∈ namedCores (matBits false), ∀ z ∈ chainChecks ((xOf s).viewOf y.2) 7 (matBits false), z.1 = false)) ∧
    (((txOf (sMat true 0)).get 1).toNat = 0 ∧ ((txOf (sMat true 1)).get 1).toNat = 1) ∧
    (CtxIssues sC 0 (xOf sC) (gaOf sC) ∧ (txOf sC).wait = .none ∧ (xOf sC).slot 3 = none ∧ (3 : BitVec 5).toNat ≤ 3 ∧ (txOf sC).get 0 = 0) ∧
    ((txOf (sMat true 1)).get 1 = 1 ∧ (txOf (sMat true 2)).get 1 = 2 ∧ (txOf (sMat true 3)).get 1 = 3 ∧ (txOf (sMat true 4)).get 1 = 4) ∧
    ((txOf (modXSt (sMat true 4) (fun t => t.put 2 0xFFFFFFFF))).get 2).toNat = 0xFFFFFFFF := by
  unfold CtxIssues Placed48
  exact ⟨⟨by decide +kernel, by decide +kernel, by decide +kernel, answers_val _ (by decide +kernel), by decide +kernel⟩, by decide +kernel⟩

/-! ## Hypotheses that are met: lane arithmetic, control and memory -/

/-- The issuing lane of group 0, and a lane word with p7 as its guard. -/
def lnOf (s : State) : Lane := ⟨0, gOf s, 0, ((gOf s).run.frags[0]?).getD (Frag.at 0 0)⟩
def lw (ty a b c imm d : Nat) : LaneW :=
  { la := 0, u := 0, psel := 7, pneg := 0, d := BitVec.ofNat 7 d, a := BitVec.ofNat 8 a, b := BitVec.ofNat 8 b, c := BitVec.ofNat 8 c
    mod := 0, ty := BitVec.ofNat 8 ty, imm := BitVec.ofNat 32 imm }
/-- Change the issuing fragment, or the run. -/
def modRun (s : State) (f : Run → Run) : State := modG s (fun g => { g with run := f g.run })
def modFr (s : State) (f : Frag → Frag) : State := modRun s (fun r => { r with frags := r.frags.map f })
/-- Operand queue 1 of group 0 holds one entry of the words 7. -/
def sPop : State := modG sL (fun g => { g with opq := [(1, { OpQ.empty with ents := [⟨List.replicate 32 7, none⟩] })] })

/-- Whether every slot a word reads can be read. -/
def canRead (s : State) (w : LaneW) (ts : List Nat) (rs : List SlotReq) : Bool :=
  rs.all (fun r => !(lnOf s).g.noReg r.code r.wide) &&
  (match (lnOf s).readSlots s w.imm.toNat ts rs (lnOf s).g.opq with | .ok _ => true | .error _ => false)
/-- What it reads, and the group it leaves. -/
def readVals (s : State) (w : LaneW) (ts : List Nat) (rs : List SlotReq) : List (Nat × List Nat) :=
  match (lnOf s).readSlots s w.imm.toNat ts rs (lnOf s).g.opq with
  | .ok (cols, _) => (upFrom 0 ts.length).map (fun i => (nth ts i 0, cols.map (fun c => nth c i 0)))
  | .error _ => []
def readGroup (s : State) (w : LaneW) (ts : List Nat) (rs : List SlotReq) : Group :=
  match (lnOf s).readSlots s w.imm.toNat ts rs (lnOf s).g.opq with
  | .ok (_, qs) => { (lnOf s).g with opq := qs.map (fun q => (q.1, q.2.trim (lnOf s).g.present)) }
  | .error _ => (lnOf s).g

theorem reads_of {s : State} {w : LaneW} {ts : List Nat} {rs : List SlotReq} (h : canRead s w ts rs = true) :
    (lnOf s).Reads s w ts rs (readVals s w ts rs) (readGroup s w ts rs) := by
  unfold canRead at h
  unfold readVals readGroup Lane.Reads
  simp only [Bool.and_eq_true, List.all_eq_true, Bool.not_eq_true'] at h
  refine ⟨h.1, ?_⟩
  cases e : (lnOf s).readSlots s w.imm.toNat ts rs (lnOf s).g.opq with
  | ok r => exact ⟨r.1, r.2, rfl, rfl, rfl⟩
  | error x => rw [e] at h; simp at h

/-- A lane word that reads these slots in every thread that takes part is ready to issue. -/
def LaneReady (s : State) (w : LaneW) (wide : Bool) (rs : List SlotReq) : Prop :=
  LaneIssues s (lnOf s) ∧ (lnOf s).g.noReg w.d.toNat wide = false ∧
  (lnOf s).Reads s w ((lnOf s).part w) rs (readVals s w ((lnOf s).part w) rs) (readGroup s w ((lnOf s).part w) rs)

theorem laneReady_of {s : State} {w : LaneW} {wide : Bool} {rs : List SlotReq}
    (h : (decide (s.actor = .lane 0 0) && decide (Tab.find s.groups 0 = some (gOf s)) && decide ((gOf s).run.frags[0]? = some (lnOf s).fr) &&
      !(lnOf s).g.noReg w.d.toNat wide && canRead s w ((lnOf s).part w) rs) = true) : LaneReady s w wide rs := by
  simp only [Bool.and_eq_true, decide_eq_true_eq, Bool.not_eq_true'] at h
  exact ⟨⟨h.1.1.1.1, h.1.1.1.2, h.1.1.2⟩, h.1.2, reads_of h.2⟩

/-- Register 63 and pair 62, scalars, IMM32, a popped queue, and a predicate as destination. -/
theorem witness_LaneIntegerWords :
    LaneReady sL (lw 3 63 0x81 0xFE 5 63) false (typed2 (lw 3 63 0x81 0xFE 5 63)) ∧
    LaneReady sL (lw 4 62 0x9F 0xFF 0 62) true (typed2 (lw 4 62 0x9F 0xFF 0 62)) ∧
    LaneReady sL (lw 1 0xFE 0 0 0xFFFFFFFF 0x47) false (typed1 (lw 1 0xFE 0 0 0xFFFFFFFF 0x47)) ∧
    LaneReady sPop (lw 8 0x41 0x41 3 0 3) false [slotT 8 0x45, slotT 8 0x41, slotT 8 3] ∧
    LaneReady sL (lw 3 1 2 3 0 4) false (plain3 (lw 3 1 2 3 0 4)) ∧ LaneReady sL (lw 3 1 2 3 0 4) false (plain2 (lw 3 1 2 3 0 4)) ∧
    LaneReady sL (lw 3 1 2 3 0 4) false [slotT 3 1, slot32 2] ∧
    (LaneIssues sL (lnOf sL) ∧ (lnOf sL).Reads sL (lw 4 2 4 0 0 62) (lnOf sL).active (typed2 (lw 4 2 4 0 0 62))
      (readVals sL (lw 4 2 4 0 0 62) (lnOf sL).active (typed2 (lw 4 2 4 0 0 62)))
      (readGroup sL (lw 4 2 4 0 0 62) (lnOf sL).active (typed2 (lw 4 2 4 0 0 62)))) := by
  exact ⟨laneReady_of (by decide +kernel), laneReady_of (by decide +kernel), laneReady_of (by decide +kernel), laneReady_of (by decide +kernel),
    laneReady_of (by decide +kernel), laneReady_of (by decide +kernel), laneReady_of (by decide +kernel),
    ⟨by decide +kernel, by decide +kernel, by decide +kernel⟩, reads_of (by decide +kernel)⟩

theorem witness_LaneFloatingWords :
    LaneReady sL (lw 9 1 2 3 0 4) false (plain1 (lw 9 1 2 3 0 4)) ∧ LaneReady sL (lw 9 63 62 61 0 63) false (plain2 (lw 9 63 62 61 0 63)) ∧
    LaneReady sL (lw 9 63 0xFE 0x81 1 63) false (plain3 (lw 9 63 0xFE 0x81 1 63)) ∧
    LaneReady sL (lw 14 1 2 0 0 63) false (plain2 (lw 14 1 2 0 0 63)) ∧ LaneReady sL (lw 4 62 0 0 0 62) true [slotT 4 62] :=
  ⟨laneReady_of (by decide +kernel), laneReady_of (by decide +kernel), laneReady_of (by decide +kernel), laneReady_of (by decide +kernel),
    laneReady_of (by decide +kernel)⟩

theorem witness_IntegerTypes : 1 ≤ 8 ∧ 8 ≤ 8 ∧ tyMin 8 ≤ 0 ∧ 0 ≤ tyMax 8 ∧ (-1 : Int) < tyMin 8 ∧ tyMax 1 < 128 := by decide

theorem witness_SlotsRead :
    (63 < 64 ∧ 0x80 < 0x81 ∧ 0x9F ≤ 0x9F) ∧ ((0x3F : Nat) < 0x40 ∨ 0x48 ≤ (0x3F : Nat)) ∧
    (let q := Tab.getD (gOf sPop).opq (0x41 % 4) OpQ.empty
     q.look 31 = some (some 7) ∧
     ((match (lnOf sPop).readSlot sPop 0 ⟨0x41, false, false⟩ [] (Tab.set (gOf sPop).opq 1 { q with heads := Tab.set q.heads 31 (q.head 31 + 1) }) with
       | .ok (ys, _) => ys == [] | .error _ => false) = true) ∧ (Tab.getD (gOf sPop).opq (0x47 % 4) OpQ.empty).look 31 = none) := by
  decide +kernel

/-- Predicate 0 of thread 0 is set, and registers 1 to 4 of it hold 1. -/
def sPred : State := modG sL (fun g => { g with
  threads := Tab.set g.threads 0 ⟨[(1, 1), (2, 1), (3, 1), (4, 1)], 1, 0, .normal, false⟩ })
def wPred : LaneW := { lw 3 1 2 0 7 5 with psel := 0 }
def wVote : LaneW := lw 3 1 2 1 0 63

theorem witness_GroupWords :
    LaneReady sPred (lw 3 1 2 3 0 63) false (plain2 (lw 3 1 2 3 0 63)) ∧ LaneReady sPred (lw 9 1 2 0xF 0 63) false (plain1 (lw 9 1 2 0xF 0 63)) ∧
    (LaneIssues sPred (lnOf sPred) ∧ (lnOf sPred).g.noReg wVote.d.toNat false = false ∧ (lnOf sPred).g.lacks (61 + 2) = false) :=
  ⟨laneReady_of (by decide +kernel), laneReady_of (by decide +kernel), ⟨by decide +kernel, by decide +kernel, by decide +kernel⟩, by decide +kernel⟩

/-- A gang of two groups, of which group 0 names group 1 in s1 of its broadcast copy. -/
def sPair : State :=
  let s := modRun (modGa sL (fun g => { g with gpc := 2 })) (fun r => { r with bcast := [(1, 0x1000000000000)] })
  s.setGroup 1 { gOf s with id := ⟨0, 1, 0, 0, 1, 0⟩ }
def wXchg : LaneW := lw 3 1 0x81 0 9 5
/-- Both groups wait with tag 9, each for the other. -/
def sBoth : State :=
  let s := modFr sPair (fun f => { f with wait := .xchg 0x1000000000000 9 0 5 [(0, 1)] })
  s.setGroup 1 { gOf s with
    id := ⟨0, 1, 0, 0, 1, 0⟩, run := { (gOf s).run with frags := [{ Frag.at 1 0 with wait := .xchg 0 9 0 6 [(0, 2)] }] } }
def hOf (s : State) : Group := (Tab.find s.groups 1).getD (gOf s)

theorem witness_Exchanges :
    (LaneReady sPair wXchg false (plain1 wXchg) ∧ Tab.find sPair.gangs 0 = some (gaOf sPair) ∧
      (lnOf sPair).plain sPair 0 (slot64 wXchg.b) 0 = 0x1000000000000 ∧
      partnerOk (sPair.nodeRec (gaOf sPair)) (gaOf sPair).gpc 0x1000000000000 = true ∧ 0x1000000000000 ≠ sPair.whoWord (.group 0) ∧
      (gOf sPair).settled = true ∧
      (∀ k g, sPair.partner (gaOf sPair).inst 0x1000000000000 = some k → Tab.find sPair.groups k = some g → g.exited = false)) ∧
    (Tab.find sBoth.groups 0 = some (gOf sBoth) ∧ Tab.find sBoth.groups 1 = some (hOf sBoth) ∧ sBoth.instOf (.group 0) = sBoth.instOf (.group 1) ∧
      (gOf sBoth).st.stopped = false ∧ (gOf sBoth).st.held = none ∧ (gOf sBoth).st.tmode = false ∧
      (hOf sBoth).st.stopped = false ∧ (hOf sBoth).st.held = none ∧ (hOf sBoth).st.tmode = false ∧
      ((gOf sBoth).exchanges (sBoth.whoWord (.group 1))).filter (fun x => ((hOf sBoth).exchanges (sBoth.whoWord (.group 0))).contains x) = [(9, 0)] ∧
      (gOf sBoth).waiting (sBoth.whoWord (.group 1)) 9 0 = some (0, 5, [(0, 1)]) ∧
      (hOf sBoth).waiting (sBoth.whoWord (.group 0)) 9 0 = some (0, 6, [(0, 2)])) := by
  refine ⟨⟨laneReady_of (by decide +kernel), by decide +kernel, by decide +kernel, by decide +kernel, by decide +kernel, by decide +kernel, ?_⟩,
    by decide +kernel⟩
  intro k g h1 h2
  rw [show sPair.partner (gaOf sPair).inst 0x1000000000000 = some 1 by decide +kernel] at h1
  cases h1
  rw [show Tab.find sPair.groups 1 = some (hOf sPair) by decide +kernel] at h2
  cases h2
  decide +kernel

theorem closed_of {s : State}
    (h : (decide (s.actor = .lane 0 0) && decide (Tab.find s.groups 0 = some (gOf s)) && decide ((gOf s).run.frags[0]? = some (lnOf s).fr) &&
      decide ((lnOf s).fr.wins = []) && decide ((lnOf s).g.writeTags [] = (lnOf s).g)) = true) : Closed s (lnOf s) (lnOf s) := by
  simp only [Bool.and_eq_true, decide_eq_true_eq] at h
  obtain ⟨⟨⟨⟨h1, h2⟩, h3⟩, h4⟩, h5⟩ := h
  refine ⟨⟨h1, h2, h3⟩, by simp [h4], rfl, rfl, ?_, h3⟩
  rw [h4]; exact h5.symm

/-- The issuing fragment with this stack, and a root join. -/
def sStack (l : List SEnt) (root : Option RootJoin) : State := modRun (modFr sPred (fun f => { f with stack := l })) (fun r => { r with root := root })
def oneLoop : SEnt := .loop 1 5 8 0 [] []
def pends (n : Nat) : List SEnt := List.replicate n (.pend 1 3)
/-- All predicates 0 set; none set. -/
def sAll : State := modG sL (fun g => { g with threads := (upFrom 0 32).map (fun t => (t, (⟨[], 1, t, .normal, false⟩ : Thread))) })
def wU : LaneW := { wPred with u := 1 }

theorem witness_Branches :
    (Closed sAll (lnOf sAll) (lnOf sAll) ∧ (lnOf sAll).active.filter (fun t => !(lnOf sAll).guard wPred t) = []) ∧
    (Closed sL (lnOf sL) (lnOf sL) ∧ (lnOf sL).active.filter (fun t => !(lnOf sL).guard wPred t) ≠ [] ∧ (lnOf sL).part wPred = []) ∧
    (Closed sPred (lnOf sPred) (lnOf sPred) ∧ (lnOf sPred).part wPred = [0] ∧
      (lnOf sPred).active.filter (fun t => !(lnOf sPred).guard wPred t) ≠ [] ∧ wPred.u = 0 ∧ topmost (lnOf sPred) = true) ∧
    (let s := sStack (pends 14) none
     Closed s (lnOf s) (lnOf s) ∧ (lnOf s).part wPred = [0] ∧ (lnOf s).active.filter (fun t => !(lnOf s).guard wPred t) ≠ [] ∧
       topmost (lnOf s) = false ∧ (lnOf s).g.run.depth + 2 ≤ 16) :=
  ⟨⟨closed_of (by decide +kernel), by decide +kernel⟩, ⟨closed_of (by decide +kernel), by decide +kernel⟩,
    ⟨closed_of (by decide +kernel), by decide +kernel⟩, closed_of (by decide +kernel), by decide +kernel⟩

theorem witness_Reconvergence :
    (let s := sStack [oneLoop] none
     Closed s (lnOf s) (lnOf s) ∧ (lnOf s).fr.stack = .loop 1 5 8 0 [] [] :: []) ∧
    (Closed sPred (lnOf sPred) (lnOf sPred) ∧ (lnOf sPred).fr.stack = [] ∧ (lnOf sPred).g.run.root = none) ∧
    (let s := sStack [] (some ⟨0, none, []⟩)
     Closed s (lnOf s) (lnOf s) ∧ (lnOf s).fr.stack = [] ∧ (lnOf s).g.run.root = some ⟨0, none, []⟩) ∧
    (let s := sStack [.pend 1 3, .join 3 none] none
     Closed s (lnOf s) (lnOf s) ∧ (lnOf s).fr.stack = .pend 1 3 :: [.join 3 none]) ∧
    (let s := sStack [.join 3 none] none
     Closed s (lnOf s) (lnOf s) ∧ (lnOf s).fr.stack = .join 3 none :: []) :=
  ⟨⟨closed_of (by decide +kernel), by decide +kernel⟩, ⟨closed_of (by decide +kernel), by decide +kernel⟩,
    ⟨closed_of (by decide +kernel), by decide +kernel⟩, ⟨closed_of (by decide +kernel), by decide +kernel⟩,
    closed_of (by decide +kernel), by decide +kernel⟩

/-- LLOOP with the count of slot A: all zero, or 1 in thread 0. -/
def wLoop : LaneW := lw 3 1 0 0 6 8

theorem witness_LaneLoops :
    (LaneReady sL wLoop false (plain1 wLoop) ∧ wLoop.u = 0 ∧
      ((lnOf sL).active.map (fun t => (t, (valueAt (readVals sL wLoop ((lnOf sL).part wLoop) (plain1 wLoop)) t).getD 0))).filter
        (fun c => !(c.2 == 0)) = []) ∧
    (let s := sStack (pends 12 ++ List.replicate 3 oneLoop) none
     LaneReady s wLoop false (plain1 wLoop) ∧ (lnOf s).g.run.depth < 16 ∧ loopCount (lnOf s).fr.stack < 4 ∧
       ((lnOf s).active.map (fun t => (t, (valueAt (readVals s wLoop ((lnOf s).part wLoop) (plain1 wLoop)) t).getD 0))).filter
        (fun c => !(c.2 == 0)) = [(0, 1)]) ∧
    (let s := sStack [oneLoop] none
     LaneIssues s (lnOf s) ∧ loopCount (lnOf s).fr.stack ≠ 0 ∧ wPred.u = 0) ∧
    (let s := modG (sStack [oneLoop] none) (fun g => { g with threads := (gOf sAll).threads })
     LaneIssues s (lnOf s) ∧ loopCount (lnOf s).fr.stack ≠ 0 ∧ wU.u ≠ 0 ∧ ((lnOf s).part wU).length = (lnOf s).active.length) := by
  refine ⟨⟨laneReady_of (by decide +kernel), by decide +kernel⟩, ⟨laneReady_of (by decide +kernel), by decide +kernel⟩,
    ⟨⟨by decide +kernel, by decide +kernel, by decide +kernel⟩, by decide +kernel⟩,
    ⟨by decide +kernel, by decide +kernel, by decide +kernel⟩, by decide +kernel⟩

/-- SWITCH with a table of two records after the word at lane index 0, matching v = slot A: value 1, and a value nothing holds. -/
def wSwitch (c : Nat) : LaneW := lw 3 0xFE 0 c 1 0
def sSwitch (v : Nat) : State := sL.setMem (Mem.put sL.mem 0x4000C 24 (v + 2 * 2 ^ 32 + 9 * 2 ^ 96 + 3 * 2 ^ 128))
def tableRd (s : State) (c : Nat) : Act (List (Nat × Int)) :=
  readTable (lnOf s) ((s.setGroup 0 (lnOf s).g).portOf (.group 0)) ((lnOf s).fr.pc + (wSwitch c).imm.toInt) (upFrom 0 (wSwitch c).c.toNat)
def wkTable (s : State) (c : Nat) : Work := workOf (tableRd s c) ⟨s.setGroup 0 (lnOf s).g, []⟩
def slotRd (s : State) (c : Nat) : Act (List (Nat × List Nat)) := readOps (wSwitch c) ((lnOf s).part (wSwitch c)) [slot32 (wSwitch c).a]
def wkSlot (s : State) (c : Nat) : Work := workOf (slotRd s c) (wkTable s c)
def onesRead : List (Nat × List Nat) := (upFrom 0 32).map (fun t => (t, [1]))

theorem witness_Switch :
    (Closed (sSwitch 1) (lnOf (sSwitch 1)) (lnOf (sSwitch 1)) ∧ (lnOf (sSwitch 1)).g.noReg (wSwitch 2).a.toNat false = false ∧
      Answers (tableRd (sSwitch 1) 2) ⟨(sSwitch 1).setGroup 0 (lnOf (sSwitch 1)).g, []⟩
        [(1, 2), (9, 3)] (wkTable (sSwitch 1) 2) ∧ Answers (slotRd (sSwitch 1) 2) (wkTable (sSwitch 1) 2) onesRead (wkSlot (sSwitch 1) 2) ∧
      LaneIssues (wkSlot (sSwitch 1) 2).cur (lnOf (wkSlot (sSwitch 1) 2).cur) ∧ (lnOf (wkSlot (sSwitch 1) 2).cur).active ≠ [] ∧ 0 < 8 ∧
      ∀ t ∈ (lnOf (wkSlot (sSwitch 1) 2).cur).active, ((valueAt onesRead t).map (fun v => switchArm v [(1, 2), (9, 3)] 0)).getD 8 = 0) ∧
    (Closed (sSwitch 5) (lnOf (sSwitch 5)) (lnOf (sSwitch 5)) ∧ (lnOf (sSwitch 5)).g.noReg (wSwitch 2).a.toNat false = false ∧
      Answers (tableRd (sSwitch 5) 2) ⟨(sSwitch 5).setGroup 0 (lnOf (sSwitch 5)).g, []⟩
        [(5, 2), (9, 3)] (wkTable (sSwitch 5) 2) ∧ Answers (slotRd (sSwitch 5) 2) (wkTable (sSwitch 5) 2) onesRead (wkSlot (sSwitch 5) 2) ∧
      LaneIssues (wkSlot (sSwitch 5) 2).cur (lnOf (wkSlot (sSwitch 5) 2).cur) ∧ (lnOf (wkSlot (sSwitch 5) 2).cur).active ≠ [] ∧
      ∀ t ∈ (lnOf (wkSlot (sSwitch 5) 2).cur).active, ((valueAt onesRead t).map (fun v => switchArm v [(5, 2), (9, 3)] 0)).getD 8 = 8) :=
  ⟨⟨closed_of (by decide +kernel), by decide +kernel, answers_val _ (by decide +kernel), answers_val _ (by decide +kernel),
      ⟨by decide +kernel, by decide +kernel, by decide +kernel⟩, by decide +kernel⟩,
    closed_of (by decide +kernel), by decide +kernel, answers_val _ (by decide +kernel), answers_val _ (by decide +kernel),
      ⟨by decide +kernel, by decide +kernel, by decide +kernel⟩, by decide +kernel⟩

/-! ## Hypotheses that are met: lane memory and the lane words of the engines -/

/-- Threads' registers 1 and 2 hold 0x40000 and 0 (an address pair), and register 3 holds 8. -/
def sAddrs : State := modG (modGa sL (fun g => { g with nbar := 4, hold := [(0, [1, 2])], cores := 1 })) (fun g => { g with
  threads := (upFrom 0 32).map (fun t => (t, (⟨[(1, BitVec.ofNat 32 (0x40000 + 4 * t)), (3, 8)], 0, t, .normal, false⟩ : Thread))) })
def wMem : LaneW := lw 3 1 3 3 0 63
/-- In scratchpad: slot A is IMM32-free register 4, which holds 0; every thread uses the last word of the holding. -/
def wSpad : LaneW := lw 3 4 3 3 8188 63
def wAtom : LaneW := lw 3 1 3 3 7 63
def wAtomX : LaneW := lw 3 4 3 3 7 63

theorem acquired_of {s : State} (h : (lnOf s).fr.acqs = []) : (lnOf s).acquired := by
  intro t ht; rw [h] at ht; cases ht

/-- What a lane memory word's hypotheses ask. -/
def memReady (s : State) (w : LaneW) (spad disp : Bool) (rs : List SlotReq) : Bool :=
  decide (s.actor = .lane 0 0) && decide (Tab.find s.groups 0 = some (gOf s)) && decide ((gOf s).run.frags[0]? = some (lnOf s).fr) &&
  !(lnOf s).g.noReg w.d.toNat (wide64 w.pty) && canRead s w ((lnOf s).part w) rs &&
  (readVals s w ((lnOf s).part w) rs).all (fun x => accCause spad (gaOf s) (tySize w.pty) (effAddr spad (arg x.2 0) w disp) == 0)

theorem memReady_of {s : State} {w : LaneW} {spad disp : Bool} {rs : List SlotReq} (h : memReady s w spad disp rs = true) :
    LaneReady s w (wide64 w.pty) rs ∧
    ∀ x ∈ readVals s w ((lnOf s).part w) rs, accCause spad (gaOf s) (tySize w.pty) (effAddr spad (arg x.2 0) w disp) = 0 := by
  unfold memReady at h
  rw [Bool.and_eq_true] at h
  refine ⟨laneReady_of h.1, fun x hx => ?_⟩
  simpa using (List.all_eq_true.mp h.2) x hx

theorem witness_LaneMemoryWords :
    (Tab.find sAddrs.gangs 0 = some (gaOf sAddrs) ∧ (lnOf sAddrs).acquired) ∧
    (LaneReady sAddrs wMem (wide64 wMem.pty) [addrSlot false wMem.a] ∧
      ∀ x ∈ readVals sAddrs wMem ((lnOf sAddrs).part wMem) [addrSlot false wMem.a],
        accCause false (gaOf sAddrs) (tySize wMem.pty) (effAddr false (arg x.2 0) wMem true) = 0) ∧
    (LaneReady sAddrs wSpad (wide64 wSpad.pty) [addrSlot true wSpad.a, slotT wSpad.pty wSpad.b] ∧
      ∀ x ∈ readVals sAddrs wSpad ((lnOf sAddrs).part wSpad) [addrSlot true wSpad.a, slotT wSpad.pty wSpad.b],
        accCause true (gaOf sAddrs) (tySize wSpad.pty) (effAddr true (arg x.2 0) wSpad true) = 0) ∧
    (LaneReady sAddrs wAtom (wide64 wAtom.pty) ([addrSlot false wAtom.a, slotT wAtom.pty wAtom.b] ++ [slotT wAtom.pty wAtom.c]) ∧
      ∀ x ∈ readVals sAddrs wAtom ((lnOf sAddrs).part wAtom) ([addrSlot false wAtom.a, slotT wAtom.pty wAtom.b] ++ [slotT wAtom.pty wAtom.c]),
        accCause false (gaOf sAddrs) (tySize wAtom.pty) (effAddr false (arg x.2 0) wAtom false) = 0) ∧
    wAtom.imm.toNat % 16 = 7 ∧
    (LaneReady sAddrs wAtomX (wide64 wAtomX.pty) ([addrSlot true wAtomX.a, slotT wAtomX.pty wAtomX.b] ++ [slotT wAtomX.pty wAtomX.c]) ∧
      ∀ x ∈ readVals sAddrs wAtomX ((lnOf sAddrs).part wAtomX) ([addrSlot true wAtomX.a, slotT wAtomX.pty wAtomX.b] ++ [slotT wAtomX.pty wAtomX.c]),
        accCause true (gaOf sAddrs) (tySize wAtomX.pty) (effAddr true (arg x.2 0) wAtomX false) = 0) :=
  ⟨⟨by decide +kernel, acquired_of (by decide +kernel)⟩, memReady_of (by decide +kernel), memReady_of (by decide +kernel),
    memReady_of (by decide +kernel), by decide +kernel, memReady_of (by decide +kernel)⟩

/-- FIFO bank 1 at position 0 holds n entries. -/
def sFifo (n : Nat) : State := modGa sAddrs (fun g => { g with fifos := [(1, List.replicate n (List.replicate 32 5))] })
def wFifo : LaneW := lw 3 3 0 0 8 63

theorem witness_Fifos :
    (let s := sFifo 63
     LaneReady s wFifo false (plain1 wFifo) ∧ Tab.find s.gangs 0 = some (gaOf s) ∧ (lnOf s).acquired ∧ (gOf s).settled = true ∧
       fld wFifo.imm.toNat 0 3 = 0 ∧ fld wFifo.imm.toNat 3 6 = 1 ∧ Tab.getD (gaOf s).hold 0 [] = [1, 2] ∧ 0 < (gaOf s).cores ∧
       1 < [1, 2].length ∧ nth [1, 2] 1 0 = 2 ∧ (Tab.getD (gaOf s).fifos (512 * 0 + 1) []).length < 64 ∧
       Tab.getD (gaOf s).fifos (512 * 0 + 1) [] = List.replicate 32 5 :: List.replicate 62 (List.replicate 32 5)) :=
  ⟨laneReady_of (by decide +kernel), by decide +kernel, acquired_of (by decide +kernel), by decide +kernel⟩

/-- A store of two threads is pending, and the first is to perform. -/
def accStore : LAcc := ⟨0, .store, false, 3, 0, 0, 0, none, [⟨0, 0x48000, 7, 0⟩, ⟨1, 0x48004, 8, 0⟩], false, [], []⟩
def accLoad : LAcc := ⟨1, .load, false, 3, 0, 0, 0, some 4, [⟨0, 0x40000, 0, 0⟩], false, [], []⟩
def sAcc : State := modG sL (fun g => { g with tags := 2, laccs := [accStore, accLoad], lpend := [⟨1, false, []⟩] })
def probe (a : LAcc) : Act Bool := accCheck (sAcc.portOf (.group 0)) 0 (gOf sAcc) a
def wkProbe (a : LAcc) : Work := workOf (probe a) ⟨sAcc, []⟩
def once (a : LAcc) (t : AccThread) : Act (Except Nat Nat) := accOnce (sAcc.portOf (.group 0)) 0 a t

theorem witness_LaneAccesses :
    Tab.find sAcc.groups 0 = some (gOf sAcc) ∧
    ((gOf sAcc).laccs[0]? = some accStore ∧ accStore.todo = ⟨0, 0x48000, 7, 0⟩ :: [⟨1, 0x48004, 8, 0⟩] ∧
      ((gOf sAcc).laccs.find? (fun b => b.tag == accStore.tag)).isSome = true ∧
      ((gOf sAcc).laccs.takeWhile (fun b => !(b.tag == accStore.tag))).length = 0 ∧
      Answers (probe accStore) ⟨sAcc, []⟩ true (wkProbe accStore) ∧
      Answers (once accStore ⟨0, 0x48000, 7, 0⟩) (wkProbe accStore) (.ok 0) (workOf (once accStore ⟨0, 0x48000, 7, 0⟩) (wkProbe accStore)) ∧
      (Tab.find (workOf (once accStore ⟨0, 0x48000, 7, 0⟩) (wkProbe accStore)).cur.groups 0).isSome = true) ∧
    ((gOf sAcc).laccs[1]? = some accLoad ∧ accLoad.todo = ⟨0, 0x40000, 0, 0⟩ :: [] ∧
      (gOf sAcc).laccs.takeWhile (fun b => !(b.tag == accLoad.tag)) = [accStore] ∧
      (∀ x ∈ accStore.todo, keepsOrder sAcc (sAcc.portOf (.group 0)) accStore x accLoad ⟨0, 0x40000, 0, 0⟩ = false) ∧
      Answers (probe accLoad) ⟨sAcc, []⟩ true (wkProbe accLoad) ∧
      Answers (once accLoad ⟨0, 0x40000, 0, 0⟩) (wkProbe accLoad) (.ok 0) (workOf (once accLoad ⟨0, 0x40000, 0, 0⟩) (wkProbe accLoad))) :=
  ⟨by decide +kernel,
    ⟨by decide +kernel, by decide +kernel, by decide +kernel, by decide +kernel, answers_val _ (by decide +kernel),
      answers_fine _ (by decide +kernel), by decide +kernel⟩,
    by decide +kernel, by decide +kernel, by decide +kernel, by decide +kernel, answers_val _ (by decide +kernel),
      answers_fine _ (by decide +kernel)⟩

theorem roomy_of {s : State} {q : Nat} (h : s.roomFor 0 q = true) (h2 : ((gOf s).queue q).ents.length < 2) : s.roomy (lnOf s) q := by
  refine ⟨h, fun g2 e _ => ?_⟩
  have : g2.queue q = (gOf s).queue q := by unfold Group.queue; rw [e]; rfl
  unfold State.roomFor
  rw [show (s.setGroup (lnOf s).k g2).groups = Tab.set s.groups 0 g2 from rfl, show (lnOf s).k = 0 from rfl, Tab.find_set_same]
  simp [this, h2]

theorem laneEnters_of {s : State} {q : Nat} (h : (decide (s.actor = .lane 0 0) && decide (Tab.find s.groups 0 = some (gOf s)) &&
      decide ((gOf s).run.frags[0]? = some (lnOf s).fr) && decide (Tab.find s.gangs 0 = some (gaOf s)) && s.roomFor 0 q &&
      decide (((gOf s).queue q).ents.length < 2)) = true) : LaneEnters s (lnOf s) (gaOf s) q := by
  simp only [Bool.and_eq_true, decide_eq_true_eq] at h
  exact ⟨⟨h.1.1.1.1.1, h.1.1.1.1.2, h.1.1.1.2⟩, by rw [show (lnOf s).k / 65536 = 0 from Nat.zero_div _]; exact h.1.1.2, roomy_of h.1.2 h.2⟩

def wFeed : LaneW := lw 3 3 0x81 0 127 63
/-- MDRAIN reporting to barrier 3. -/
def wDrain : LaneW := lw 3 1 0 0 0x30F 63
/-- An MFMT request of group 0 with tag 5. -/
def sFmt : State := modG sAddrs (fun g => { g with fmts := [(5, 6, 3, 2, [0, 1])], lpend := [⟨5, false, []⟩] })

theorem witness_LaneMatrixWords :
    LaneEnters sAddrs (lnOf sAddrs) (gaOf sAddrs) 2 ∧ bit (sAddrs.nodeRec (gaOf sAddrs)) 247 = true ∧
    (LaneReady sAddrs wFeed false (plain2 wFeed) ∧ (readVals sAddrs wFeed ((lnOf sAddrs).part wFeed) (plain2 wFeed)).all (fun x => arg x.2 1 == 0) = true) ∧
    LaneReady sAddrs wFeed false (plain1 wFeed) ∧ BarIndexOk wDrain (gaOf sAddrs) ∧ BarIndexOk (lw 3 1 0 0 0xFF00 63) (gaOf sAddrs) ∧
    (LaneIssues sAddrs (lnOf sAddrs) ∧ (lnOf sAddrs).g.noReg 63 false = false) ∧
    (Tab.find sFmt.groups 0 = some (gOf sFmt) ∧ Tab.find sFmt.ctxs 0 = some (xOf sFmt) ∧
      (gOf sFmt).fmts.find? (fun x => x.1 == 5) = some (5, 6, 3, 2, [0, 1])) := by
  exact ⟨laneEnters_of (by decide +kernel), by decide +kernel, ⟨laneReady_of (by decide +kernel), by decide +kernel⟩,
    laneReady_of (by decide +kernel), Or.inr (by decide +kernel), Or.inl (by decide +kernel),
    ⟨⟨by decide +kernel, by decide +kernel, by decide +kernel⟩, by decide +kernel⟩, by decide +kernel⟩

/-- Slot 0 holds a grid of 1 by 1; a1 of the broadcast copy is its handle; a raster binding and a bucket are bound. -/
def sGrid (map : Bool) : State :=
  let s := modRun (withSlot (modGa sAddrs (fun g => { g with bucket := some 0x60000 })) heldSlot) (fun r => { r with
    bcast := [(1, BitVec.ofNat 64 handle0)], gmap := if map then some ⟨handle0, 0, 0, 8⟩ else none })
  modG s (fun g => { g with raster := some bind1 })
/-- GREAD from column -1, row 17, 8 wide; GWRITE of words 0 and 11; SCOVER and SREAD with selector 0. -/
def wGread : LaneW := lw 3 0x81 0 0 (63 + 17 * 256 + 7 * 65536) 52
def wGwrite : LaneW := lw 3 52 0x81 0 0x801 0
def wSel : LaneW := lw 3 0xFF 0x81 0 0 60
def wSwrite : LaneW := lw 3 60 0xFF 0 0 0
def rdXY : Act (Except Nat Nat) := readVA { ((sGrid false).setGroup 0 (readGroup (sGrid false) wSel ((lnOf (sGrid false)).part wSel) (plain1 wSel))).portOf
  (.group 0) with core := none } fresh 0x60000 4
def wkXY : Work := workOf rdXY ⟨(sGrid false).setGroup 0 (readGroup (sGrid false) wSel ((lnOf (sGrid false)).part wSel) (plain1 wSel)), []⟩

theorem witness_LaneGridWords :
    (LaneEnters (sGrid false) (lnOf (sGrid false)) (gaOf (sGrid false)) 3 ∧
      (let l := lnOf (sGrid false)
       l.g.lacks (52 + 11) = false ∧ wGread.psel = 7 ∧ wGread.pneg = 0 ∧ l.fr.mask.toNat = maskOf l.g.present ∧
       sext 6 wGread.imm.toNat = -1 ∧ sext 6 (wGread.imm.toNat / 256) = 17 ∧ l.g.run.gmap = none ∧
       (sGrid false).usableSlot (gaOf (sGrid false)) (l.plain (sGrid false) 0 (slot64 wGread.a) 0) = some (slot0 (sGrid false)))) ∧
    (LaneEnters (sGrid true) (lnOf (sGrid true)) (gaOf (sGrid true)) 3 ∧
      (let l := lnOf (sGrid true)
       bitsOf 12 wGwrite.imm.toNat = [0, 11] ∧ l.g.lacks (52 + 11) = false ∧ l.g.run.gmap = some ⟨handle0, 0, 0, 8⟩ ∧
       l.plain (sGrid true) 0 (slot64 wGwrite.b) 0 = handle0 ∧
       (sGrid true).usableSlot (gaOf (sGrid true)) handle0 = some (slot0 (sGrid true)) ∧ ((sGrid true).slotAt (slot0 (sGrid true))).owner = 0)) ∧
    (LaneEnters (sGrid false) (lnOf (sGrid false)) (gaOf (sGrid false)) 4 ∧ LaneReady (sGrid false) wSel false (plain1 wSel) ∧
      (let l := lnOf (sGrid false)
       readVals (sGrid false) wSel (l.part wSel) (plain1 wSel) ≠ [] ∧ l.g.lacks (60 + 3) = false ∧ l.g.raster = some bind1 ∧
       (gaOf (sGrid false)).bucket = some 0x60000 ∧
       (∀ x ∈ readVals (sGrid false) wSel (l.part wSel) (plain1 wSel), selectorOk (patSamples bind1.header) (some (1, 1)) (arg x.2 0) = true) ∧
       (∀ x ∈ readVals (sGrid false) wSel (l.part wSel) (plain1 wSel), selectorOk (patSamples bind1.header) none (arg x.2 0) = true)) ∧
      Answers rdXY ⟨(sGrid false).setGroup 0 (readGroup (sGrid false) wSel ((lnOf (sGrid false)).part wSel) (plain1 wSel)), []⟩ (.ok 0) wkXY ∧
      LaneEnters wkXY.cur (lnOf wkXY.cur) (gaOf wkXY.cur) 4) ∧
    (LaneReady (sGrid false) wSwrite false [slot32 wSwrite.b] ∧ (lnOf (sGrid false)).g.lacks (60 + 3) = false) :=
  ⟨⟨laneEnters_of (by decide +kernel), by decide +kernel⟩, ⟨laneEnters_of (by decide +kernel), by decide +kernel⟩,
    ⟨laneEnters_of (by decide +kernel), laneReady_of (by decide +kernel), by decide +kernel, answers_fine _ (by decide +kernel),
      laneEnters_of (by decide +kernel)⟩, laneReady_of (by decide +kernel), by decide +kernel⟩

/-- BVH slot 3 and texture slot 3 are loaded. -/
def sBvh : State := modGa sAddrs (fun g => { g with bvh := [(3, bvhBits)], tex := [(3, texBits)] })
/-- The same with every thread a helper; and with a root join. -/
def sHelpers : State := modG sBvh (fun g => { g with threads := g.threads.map (fun t => (t.1, { t.2 with cls := .helper })) })
def sJoin : State := modRun sBvh (fun r => { r with root := some ⟨0, none, []⟩ })
def wTrace : LaneW := lw 3 56 0 0 3 60

theorem witness_LanternLaneWords :
    (LaneEnters sBvh (lnOf sBvh) (gaOf sBvh) 5 ∧ Tab.find (gaOf sBvh).bvh (fld wTrace.imm.toNat 0 2) = some bvhBits ∧
      (lnOf sBvh).g.lacks (56 + 7) = false ∧ (lnOf sBvh).g.lacks (60 + 3) = false ∧ bvhRclog bvhBits ≠ 0 ∧
      ((lnOf sBvh).part wTrace).any (fun t => !(((lnOf sBvh).g.thread t).cls == .helper)) = true) ∧
    (LaneEnters sHelpers (lnOf sHelpers) (gaOf sHelpers) 5 ∧
      ((lnOf sHelpers).part wTrace).any (fun t => !(((lnOf sHelpers).g.thread t).cls == .helper)) = false) ∧
    (LaneReady sBvh (lw 3 63 0 0 3 61) false (plain1 (lw 3 63 0 0 3 61)) ∧ (lnOf sBvh).g.lacks (61 + 2) = false) ∧
    (Closed sJoin (lnOf sJoin) (lnOf sJoin) ∧ (lnOf sJoin).g.run.root = some ⟨0, none, []⟩) ∧
    (Closed sBvh (lnOf sBvh) (lnOf sBvh) ∧ (lnOf sBvh).g.run.root = none ∧ (lnOf sBvh).fr.stack = [] ∧
      (sBvh.setGroup 0 (lnOf sBvh).g).roomy (lnOf sBvh) 5) :=
  ⟨⟨laneEnters_of (by decide +kernel), by decide +kernel⟩, ⟨laneEnters_of (by decide +kernel), by decide +kernel⟩,
    ⟨laneReady_of (by decide +kernel), by decide +kernel⟩, ⟨closed_of (by decide +kernel), by decide +kernel⟩,
    closed_of (by decide +kernel), by decide +kernel, by decide +kernel, by
      have h : (lnOf (sBvh.setGroup 0 (lnOf sBvh).g)) = lnOf sBvh := by
        unfold lnOf gOf; rw [show (sBvh.setGroup 0 _).groups = Tab.set sBvh.groups 0 _ from rfl, Tab.find_set_same]; rfl
      rw [← h]; exact roomy_of (by decide +kernel) (by decide +kernel)⟩

/-- TEX through slot 3 reporting to barrier 3; the colour words with a descriptor at 0x50000 in s1; XRAW of 16 bits. -/
def wTex : LaneW := lw 3 58 0 0 0x303 59
def sColour : State := modRun sBvh (fun r => { r with bcast := [(1, 0x50000)] })
def wColour : LaneW := lw 3 61 0x81 0 0 61
def wRaw (n : Nat) : LaneW := lw 3 1 0x81 0 n 63

theorem witness_SamplerTransformCarillonLaneWords :
    (LaneEnters sBvh (lnOf sBvh) (gaOf sBvh) 6 ∧ Tab.find (gaOf sBvh).tex (fld wTex.imm.toNat 0 2) = some texBits ∧ BarIndexOk wTex (gaOf sBvh) ∧
      (lnOf sBvh).g.lacks (59 + 4) = false ∧ (lnOf sBvh).g.lacks (58 + 5) = false ∧ (lnOf sBvh).g.lacks (59 + 3) = false ∧
      LaneReady sBvh (lw 9 1 2 0 0x303 60) false (plain2 (lw 9 1 2 0 0x303 60))) ∧
    (LaneEnters sColour (lnOf sColour) (gaOf sColour) 7 ∧
      Placed48 ((lnOf sColour).plain sColour 0 ⟨wColour.b.toNat, true, false⟩ 0) 64 ∧ (lnOf sColour).g.lacks (61 + 2) = false ∧
      8 ≤ fld (wRaw 8).imm.toNat 0 5 ∧ fld (wRaw 16).imm.toNat 0 5 ≤ 16 ∧ (lnOf sColour).g.lacks 63 = false ∧
      LaneReady sColour (wRaw 16) false (plain1 (wRaw 16))) ∧
    (LaneEnters sBvh (lnOf sBvh) (gaOf sBvh) 8 ∧ BarIndexOk (lw 3 3 0 0 0x33F 63) (gaOf sBvh) ∧
      LaneReady sBvh (lw 3 3 0 0 0x33F 63) false (plain1 (lw 3 3 0 0 0x33F 63)) ∧ (lnOf sBvh).g.lacks 63 = false) :=
  ⟨⟨laneEnters_of (by decide +kernel), by decide +kernel, Or.inr (by decide +kernel), by decide +kernel, by decide +kernel, by decide +kernel,
      laneReady_of (by decide +kernel)⟩,
    ⟨laneEnters_of (by decide +kernel), by unfold Placed48; decide +kernel, by decide +kernel, by decide +kernel, by decide +kernel, by decide +kernel,
      laneReady_of (by decide +kernel)⟩,
    laneEnters_of (by decide +kernel), Or.inr (by decide +kernel), laneReady_of (by decide +kernel), by decide +kernel⟩

/-- Group 0 with 4 units of root 0; thread 0 alone is full and takes part: it spawns, or sends one unit to 0x50000. -/
def sSpawn : State := modFr (modRun (modG (sRoots sL) (fun g => { g with
  wgt := BitVec.ofNat 64 (weightWord 0 1 4), threads := [(0, ⟨[(1, 0x50000), (3, 1)], 0, 0, .normal, false⟩), (1, ⟨[], 0, 1, .helper, false⟩)] }))
  (fun r => { r with bcast := [(1, 0x50000)] })) (fun f => { f with mask := 3 })
def wSpawn : LaneW := lw 3 0xFF 3 0 0 63
def wSend : LaneW := lw 3 0x81 3 0 0 63
def fullVals (w : LaneW) (rs : List SlotReq) : List (Nat × List Nat) :=
  (readVals sSpawn w ((lnOf sSpawn).part w) rs).filter (fun x => !(((lnOf sSpawn).g.thread x.1).cls == .helper))
def spawned : State := sSpawn.setGroup 0 (readGroup sSpawn wSpawn ((lnOf sSpawn).part wSpawn) (plain2 wSpawn))
def spawnEach : Act (Option (List (Nat × Nat) × Option (Nat × Nat))) :=
  takeEach (lnOf sSpawn) (fun _ v x => createInst 0 0 (arg v 0) 0 0 (BitVec.ofNat 64 x) false) none (fullVals wSpawn (plain2 wSpawn)) []
def sent : State := sSpawn.setGroup 0 (readGroup sSpawn wSend ((lnOf sSpawn).part wSend) [slot64 wSend.a, slot32 wSend.b])
def sendPlaces : Act (List (Nat × Option Place)) :=
  (fullVals wSend [slot64 wSend.a, slot32 wSend.b]).mapM (fun x => wordPlace { sent.portOf (.group 0) with core := none } (arg x.2 0))
def wkPlaces : Work := workOf sendPlaces ⟨sent, []⟩
def sendEach : Act (Option (List (Nat × Nat) × Option (Nat × Nat))) :=
  takeEach (lnOf sSpawn) (fun _ _ w => pure w) none (fullVals wSend [slot64 wSend.a, slot32 wSend.b]) []

theorem witness_LaneSpawnAndSend :
    (LaneReady sSpawn wSpawn false (plain2 wSpawn) ∧ Tab.find sSpawn.gangs 0 = some (gaOf sSpawn) ∧
      Tab.find sSpawn.launches (gaOf sSpawn).launch = some (lOf sSpawn) ∧ (lnOf sSpawn).fr.wait = .none ∧ (gOf sSpawn).settled = true ∧
      0 < (lOf sSpawn).nodes.length ∧ sSpawn.poolOf 0 0 + (fullVals wSpawn (plain2 wSpawn)).length ≤ 65536 ∧
      Answers spawnEach ⟨spawned, []⟩ (some ([(0, 0)], none)) (workOf spawnEach ⟨spawned, []⟩) ∧
      (workOf spawnEach ⟨spawned, []⟩).cur.actor = .lane 0 0) ∧
    (LaneReady sSpawn wSend false [slot64 wSend.a, slot32 wSend.b] ∧ Answers sendPlaces ⟨sent, []⟩ [(0, some place5)] wkPlaces ∧
      wkPlaces.cur.roomFor 0 9 = true ∧
      Answers sendEach wkPlaces (some ([(0, weightWord 0 1 1)], none)) (workOf sendEach wkPlaces) ∧
      (workOf sendEach wkPlaces).cur.actor = .lane 0 0 ∧ (workOf sendEach wkPlaces).cur.roomFor 0 9 = true) :=
  ⟨⟨laneReady_of (by decide +kernel), by decide +kernel, by decide +kernel, by decide +kernel, by decide +kernel, by decide +kernel,
      by decide +kernel, answers_val _ (by decide +kernel), by decide +kernel⟩,
    laneReady_of (by decide +kernel), answers_val _ (by decide +kernel), by decide +kernel, answers_val _ (by decide +kernel),
      by decide +kernel⟩

/-! ## Hypotheses that are met: entries performing -/

/-- An entry of this kind with sequence number 1 that has come to pos. -/
def mkEnt (op : EOp) (pos : Nat) : Ent := ⟨1, 0, op, false, pos, 0, 0, false, 0, none, [], [], [], [], [], [], [], []⟩
/-- The same once it has started. -/
def mkBegun (op : EOp) (pos : Nat) : Ent := { mkEnt op pos with started := true }
/-- Group 0 with everything its engines need: holdings, a grid in slot 0, bindings, descriptors. -/
def sEng : State := modGa (sGrid false) (fun g => { g with bvh := [(3, bvhBits)], tex := [(3, texBits)] })
/-- The entry heads queue q of group 0. -/
def sHead (s : State) (q : Nat) (e : Ent) : State :=
  modG s (fun g => { g with queues := Tab.set g.queues q { Queue.empty with next := 2, ents := [e] } })
/-- The same once the entry has started. -/
def sBegun (s : State) (q : Nat) (e : Ent) : State := s.setGroup 0 ((gOf s).headSet q { e with started := true } [])

def headReady (s : State) (q : Nat) (e : Ent) : Bool :=
  decide (Tab.find s.groups 0 = some (gOf s)) && decide (((gOf s).queue q).ents = [e]) && s.mayPerform 0 (gOf s) ((gOf s).queue q) e &&
  !(gOf s).fenced q e && (gOf s).clearFor e

theorem head_of {s : State} {q : Nat} {e : Ent} (h : headReady s q e = true) : HeadPerforms s 0 q (gOf s) e [] := by
  unfold headReady at h
  simp only [Bool.and_eq_true, decide_eq_true_eq, Bool.not_eq_true'] at h
  exact ⟨h.1.1.1.1, h.1.1.1.2, h.1.1.2, Or.inr h.1.2, Or.inr (Or.inr h.2)⟩

/-- An entry at position pos heads queue q, and its work from here answers with c; `Next` is what comes after. -/
def Works {α : Type} (s : State) (q : Nat) (e : Ent) (m : Act α) (c : α) : Prop :=
  HeadPerforms s 0 q (gOf s) e [] ∧ Answers m ⟨s, []⟩ c (workOf m ⟨s, []⟩)

theorem works_of {α : Type} [DecidableEq α] {s : State} {q : Nat} {e : Ent} {m : Act α} (c : α) (h : headReady s q e = true)
    (h2 : gives m ⟨s, []⟩ (fun a => decide (a = c)) = true) : Works s q e m c := ⟨head_of h, answers_val c h2⟩

/-- A computation that answers with a result of any kind, and one after it that answers with c. -/
def thenDoes {α β : Type} (m : Act α) (n : Act β) : Act β := do
  let _ ← m
  n

/-- The completion of the head of queue q, whatever its word. -/
def doneWith (q code aux : Nat) : Act Bool := do
  let _ ← complete 0 q code aux
  return true

theorem answers_any {α : Type} {m : Act α} {w : Work} (h : gives m w (fun _ => true) = true) : ∃ a v, Answers m w a v := by
  unfold gives at h
  unfold Answers
  cases e : m w with
  | ok r => exact ⟨r.1, r.2, rfl⟩
  | error x => rw [e] at h; simp at h

/-- The state answers with `true` for a test of what a computation leaves. -/
def leaves {α : Type} (m : Act α) (w : Work) (p : α → Work → Bool) : Bool :=
  match m w with
  | .ok (a, v) => p a v
  | .error _ => false

/-- The work ends, its head is still in queue q, its writes have arrived, and it can complete. -/
def finishes (q : Nat) (v : Work) : Bool :=
  decide (((gOf v.cur).queue q).ents.length = 1) && leaves (headReached 0 q) v (fun ok u => ok && decide (u.cur = v.cur) && decide (u.stores = v.stores)) &&
  gives (complete 0 q ((((gOf v.cur).queue q).ents.head?.map (fun e => e.status.toNat)).getD 0 / 16) 0) v (fun _ => true)

/-- The port of the only entry of queue q. -/
def portOfEnt (s : State) (e : Ent) : Port := s.portAt 0 (gOf s) e

def rangeEnt : Ent := mkEnt (.range 2 0x40000 64) 0
def fadeEnt : Ent := mkEnt (.rcfade bvhBits 0 (some 48)) 0
def sRange : State := sHead sEng 0 rangeEnt
def rangeWork (n : Nat) : Act Bool :=
  rangeRun 0 { portOfEnt sRange rangeEnt with core := (sRange.portOf (.group 0)).core } 2 [] 0x40000 (64 / 32) n 0
def arriveLast (word : Nat) : Act Unit := arrive 0 48 1 word

theorem witness_EntriesComplete :
    (HeadPerforms sRange 0 0 (gOf sRange) rangeEnt [] ∧ Tab.find sRange.gangs 0 = some (gaOf sRange) ∧
      sRange.reached (gaOf sRange).die rangeEnt.sent = true ∧ rangeEnt.op.bar = none) ∧
    (let s := sHead sEng 5 fadeEnt
     HeadPerforms s 0 5 (gOf s) fadeEnt [] ∧ Tab.find s.gangs 0 = some (gaOf s) ∧ s.reached (gaOf s).die fadeEnt.sent = true ∧
       fadeEnt.op.bar = some 48 ∧ gives (arriveLast (0 * 2 ^ 24 + 5 * 2 ^ 20 + 0 * 2 ^ 16 + 1)) ⟨s, []⟩ (fun _ => true) = true) :=
  ⟨⟨head_of (by decide +kernel), by decide +kernel⟩, head_of (by decide +kernel), by decide +kernel⟩

/-- A copy of 4 bytes from 0x40000 to 0x48000 that has its element left to copy; the same publishing; a gather of two indices. -/
def copyBits : Nat := 0x40000 + 0x48000 * 2 ^ 64 + 2 ^ 128 + 0xFFFFFFFF * 2 ^ 192 + 4 * 2 ^ 320 + 2 ^ 352 + 2 ^ 416
def pubBits : Nat := copyBits + 2 ^ 146
def gatherBits : Nat := copyBits + 2 ^ 128 + 2 ^ 480 + 2 ^ 224 + 0x50000 * 2 ^ 256
def gatherFar : Nat := copyBits + 2 ^ 128 + 2 ^ 480 + 2 ^ 224 + 2 ^ 296
def copyEnt (kind : CopyKind) (r : Nat) : Ent := mkEnt (.copy kind r 1) 0
/-- The same copy once its destination sector is read and merged. -/
def copyMid (r : Nat) : Ent := { mkBegun (.copy .plain r 1) 0 with merge := [(0x48000 / 32, 5)] }
def sMid (r : Nat) : State := sHead sEng 1 (copyMid r)
def midWork (r n : Nat) : Act Bool :=
  copyRun 0 (portOfEnt (sMid r) (copyMid r)) .plain r (copyEls .plain r []) n ((copySectors (copyEls .plain r [])).drop 0)
def midFrom (r : Nat) : Work := ⟨sBegun (sMid r) 1 (copyMid r), []⟩
def sCopy (kind : CopyKind) (r : Nat) : State := sHead sEng 1 (copyEnt kind r)
def copyWork (r n : Nat) : Act Bool :=
  copyRun 0 (portOfEnt (sCopy .plain r) (copyEnt .plain r)) .plain r (copyEls .plain r []) n ((copySectors (copyEls .plain r [])).drop 0)
def copyFrom (r : Nat) : Work := ⟨sBegun (sCopy .plain r) 1 (copyEnt .plain r), []⟩
def gatherWork (r : Nat) : Act Bool := gatherStart 0 (portOfEnt (sCopy .gather r) (copyEnt .gather r)) r
/-- The publication and then the completion of the copy answer. -/
def publishes (w : Work) : Bool :=
  leaves (headReached 0 1) w (fun ok u => ok && decide (u.cur = w.cur)) && decide (((gOf w.cur).queue 1).ents.length = 1) &&
  leaves (publish (portOfEnt (sMid pubBits) (copyMid pubBits)) (w.cur.instOf (.group 0)) 8 0) w (fun c w2 => decide (c = none) &&
    gives (complete 0 1 ((((gOf w.cur).queue 1).ents.head?.map (fun e => e.status.toNat)).getD 0 / 16) 0) w2 (fun _ => true))

theorem witness_CopyEntries :
    (HeadPerforms sRange 0 0 (gOf sRange) rangeEnt [] ∧ gives (rangeWork 1) ⟨sRange, []⟩ (fun ok => !ok) = true ∧
      leaves (rangeWork 2) ⟨sRange, []⟩ (fun ok w => ok && gives (complete 0 0 0 0) w (fun _ => true)) = true) ∧
    (HeadPerforms (sCopy .plain copyBits) 0 1 (gOf (sCopy .plain copyBits)) (copyEnt .plain copyBits) [] ∧
      (sCopy .plain copyBits).copiesBegun 0 < 16 ∧ gives (copyWork copyBits 1) (copyFrom copyBits) (fun b => !b) = true) ∧
    (HeadPerforms (sMid copyBits) 0 1 (gOf (sMid copyBits)) (copyMid copyBits) [] ∧
      leaves (midWork copyBits 1) (midFrom copyBits) (fun b v => b && finishes 1 v) = true ∧ bit copyBits 146 = false) ∧
    (HeadPerforms (sMid pubBits) 0 1 (gOf (sMid pubBits)) (copyMid pubBits) [] ∧
      leaves (midWork pubBits 1) (midFrom pubBits) (fun b v => b && publishes v) = true ∧ bit pubBits 146 = true) ∧
    (HeadPerforms (sCopy .gather gatherBits) 0 1 (gOf (sCopy .gather gatherBits)) (copyEnt .gather gatherBits) [] ∧
      gives (gatherWork gatherBits) ⟨sCopy .gather gatherBits, []⟩ (fun b => b) = true) ∧
    (HeadPerforms (sCopy .gather gatherFar) 0 1 (gOf (sCopy .gather gatherFar)) (copyEnt .gather gatherFar) [] ∧
      gives (gatherWork gatherFar) ⟨sCopy .gather gatherFar, []⟩ (fun b => !b) = true) :=
  ⟨⟨head_of (by decide +kernel), by decide +kernel⟩, ⟨head_of (by decide +kernel), by decide +kernel⟩,
    ⟨head_of (by decide +kernel), by decide +kernel⟩, ⟨head_of (by decide +kernel), by decide +kernel⟩,
    ⟨head_of (by decide +kernel), by decide +kernel⟩, head_of (by decide +kernel), by decide +kernel⟩

/-- Context 0 with this entry at the head of queue M, over a matrix engine with row 0 filled and accumulator 7 live. -/
def sCtxHead (op : EOp) : State :=
  let s := modGa sC (fun g => { g with
    hold := [(0, [1])], matrix := [(0, { Matrix.empty with
      bank0 := ⟨[(0, ⟨List.replicate 32 0, some 1⟩)], []⟩, accs := [(7, accOf (matBits true) 0)]
      tiles := [(3, ⟨128, 1, 1, [], [], []⟩)] })] })
  modX s (fun x => { x with queue := { Queue.empty with next := 2, ents := [mkEnt op 0] } })
def ctxReady (s : State) : Bool :=
  decide (Tab.find s.ctxs 0 = some (xOf s)) && decide (Tab.find s.gangs 0 = some (gaOf s)) && decide ((xOf s).queue.halt = none) &&
  s.instRuns (gaOf s).inst && decide ((xOf s).st.stopped = false)
def loadOp : EOp := .mloadb 3 (matBits true) 0
def mmaOp : EOp := .mma false 7 (matBits true) 3 false
def zeroOp : EOp := .mzero 7 (matBits true) true
def clearTiles : Act Unit :=
  forM (namedCores (matBits true)) (fun x => modMatrix 0 x.2 (fun m => { m with tiles := Tab.del m.tiles 3 }))
def loadOne (s : State) : Act (Except (Nat × Nat) Nat) := onCores (fun j pos => (do
  match ← loadTile (s.portOf (.ctx 0)) (matBits true) 0 j with
  | .error e => return .error e
  | .ok (x, st) =>
    modMatrix 0 pos (fun m => { m with tiles := Tab.set m.tiles 3 x })
    return .ok st : Act (Except (Nat × Nat) Nat))) (namedCores (matBits true)) 0
def zeroNamed (y : Sram) : Bool := (namedCores (matBits true)).any (fun x => Sram.ofAcc 0 x.2 7 y)
def zeroAccs : Act Unit := forM (namedCores (matBits true)) (fun x => modMatrix 0 x.2 (fun m => { m with accs := Tab.del m.accs 7 }))
def freshTiles (s : State) : State := s.rewrite (fun y => (namedCores (matBits true)).any (fun x => Sram.ofTile 0 x.2 3 y))
def sLoadB : State := sCtxHead loadOp
def sMma : State := sCtxHead mmaOp
/-- The entry of the context completes, and the next may take its banks. -/
def ctxEnds (code aux : Nat) (w : Work) : Bool :=
  leaves (ctxComplete 0 code aux) w (fun _ v => gives (takeBanks 0) v (fun _ => true))
/-- The MMA's work from taking its banks to its end. -/
def mmaAnswers (s : State) : Bool :=
  leaves (takeBanks 0) ⟨s, []⟩ (fun _ w0 => ctxReady w0.cur && decide ((xOf w0.cur).queue.ents.length = 1) &&
    (feedersOf false (matBits true)).all (fun f => (xOf w0.cur).queue.ents.all (fun e => decide (e.op = mmaOp) && (Tab.find e.reads f).isSome)) &&
    leaves (readScales (w0.cur.portOf (.ctx 0)) (shAcsa (matBits true)) (shK (matBits true))) w0 (fun x w1 => match x with
      | .error _ => false
      | .ok (acol, bc) =>
        leaves (onCores (multiplyCore 0 (w0.cur.portOf (.ctx 0)) false 7 (matBits true) 3 acol bc (!(w1.cur.corrections == w0.cur.corrections)))
          (namedCores (matBits true)) 0) w1 (fun y w2 => match y with
          | .error _ => false
          | .ok st => leaves (forM (feedersOf false (matBits true)) (fun f => modMatrix 0 f (fun m => { m with kept := false }))) w2 (fun _ w3 =>
              ctxEnds (st / 16) (st % 16) w3))))

/-- The load of a tile from bytes that are not mapped. -/
def farBits : Nat := matBits true + 2 ^ 104
def loadFar (s : State) : Act (Except (Nat × Nat) Nat) := onCores (fun j pos => (do
  match ← loadTile (s.portOf (.ctx 0)) (matBits true) (2 ^ 40) j with
  | .error e => return .error e
  | .ok (x, st) =>
    modMatrix 0 pos (fun m => { m with tiles := Tab.set m.tiles 3 x })
    return .ok st : Act (Except (Nat × Nat) Nat))) (namedCores (matBits true)) 0
def farOp : EOp := .mloadb 3 (matBits true) (2 ^ 40)

theorem witness_MatrixEntries :
    (ctxReady sLoadB = true ∧ (xOf sLoadB).queue.ents = mkEnt loadOp 0 :: [] ∧
      leaves clearTiles ⟨sLoadB, []⟩ (fun _ v => leaves (loadOne sLoadB) v (fun r u => match r with
        | .ok st => decide (st = 0) && ctxEnds (0 / 16) (0 % 16) ⟨freshTiles u.cur, u.stores⟩
        | .error _ => false)) = true) ∧
    (ctxReady (sCtxHead farOp) = true ∧ (xOf (sCtxHead farOp)).queue.ents = mkEnt farOp 0 :: [] ∧
      leaves clearTiles ⟨sCtxHead farOp, []⟩ (fun _ v => leaves (loadFar (sCtxHead farOp)) v (fun r u => match r with
        | .ok _ => false
        | .error (c, a) => leaves clearTiles u (fun _ w => gives (ctxHalt 0 c a) w (fun _ => true)))) = true) ∧
    (ctxReady sMma = true ∧ (xOf sMma).queue.ents = mkEnt mmaOp 0 :: [] ∧ namedCores (matBits true) = [(0, 0)] ∧
      mmaAnswers sMma = true) ∧
    (Tab.find sMma.gangs 0 = some (gaOf sMma) ∧ sMma.sramBad = [] ∧ sMma.sramCorr = [] ∧
      shAfmt (matBits true) ≠ 13 ∧ badVote ((gaOf sMma).matrixOf 0).bank0 (matBits true) = false) ∧
    (ctxReady (sCtxHead zeroOp) = true ∧ (xOf (sCtxHead zeroOp)).queue.ents = mkEnt zeroOp 0 :: [] ∧
      leaves (readWords (gaOf (sCtxHead zeroOp)).die zeroNamed) ⟨sCtxHead zeroOp, []⟩ (fun code w1 => decide (code = 0) &&
        leaves zeroAccs w1 (fun _ w2 => ctxEnds 0 0 ⟨w2.cur.rewrite zeroNamed, w2.stores⟩)) = true) := by
  decide +kernel

/-- The same engine under group 0, with an entry of its lane words. -/
def sRowHead (op : EOp) : State := sHead (modGa sEng (fun g => { g with matrix := (gaOf sMma).matrix })) 2 (mkEnt op 0)
def feedOp : EOp := .mfeed 127 (List.replicate 32 1) none
def scaleOp : EOp := .mscale [(127, 0x80)]
def drainOp : EOp := .mdrain 7 true false false 0 0 none
def accLive : Acc := accOf (matBits true) 0
def drainSectors : List Nat := sortBy (fun x => x) (((drainBytes accLive true 0).map (fun x => x.1 / 32)).eraseDups)
def sDrain : State := sRowHead drainOp
def drainPort : Port := portOfEnt sDrain (mkEnt drainOp 0)
def drainAhead : Act Unit := forM (([0, 4096].filter (fun i => decide (i < accLive.m * accLive.n)))) (drainTake 0 7 accLive)
def drainMid : Ent := { mkBegun drainOp 0 with merge := [(0, 5)], reads := [(0, 7)] }
def sDrainMid : State := sHead (modGa sEng (fun g => { g with matrix := (gaOf sMma).matrix })) 2 drainMid
def drainWork (n : Nat) : Act Bool := thenDoes drainAhead (drainRun 0 drainPort 7 true false false 0 0 n (drainSectors.drop 0))
/-- Row 127 lies in the bank; an accumulator that was never live. -/
def fedAfter : State :=
  let s := sRowHead feedOp
  let m := (gaOf s).matrixOf (gOf s).id.pos
  let m1 := m.setFill { m.fill with rows := Tab.set m.fill.rows 127 ⟨List.replicate 32 1, none⟩ }
  s.setGang 0 { gaOf s with matrix := Tab.set (gaOf s).matrix (gOf s).id.pos m1 }
def drainNone : EOp := .mdrain 8 true false false 0 0 none

theorem witness_RowEntries :
    (HeadPerforms (sRowHead feedOp) 0 2 (gOf (sRowHead feedOp)) (mkEnt feedOp 0) [] ∧
      Tab.find (sRowHead feedOp).gangs 0 = some (gaOf (sRowHead feedOp)) ∧
      Tab.find ((gaOf (sRowHead feedOp)).matrixOf (gOf (sRowHead feedOp)).id.pos).fill.rows 127 = none ∧
      leaves (takeBanks 0) ⟨fedAfter, []⟩ (fun _ w => gives (complete 0 2 0 0) w (fun _ => true)) = true) ∧
    (HeadPerforms (sRowHead scaleOp) 0 2 (gOf (sRowHead scaleOp)) (mkEnt scaleOp 0) [] ∧
      Tab.find ((gaOf (sRowHead scaleOp)).matrixOf 0).fill.rows 127 = none ∧ gives (complete 0 2 0 0) ⟨sRowHead scaleOp, []⟩ (fun _ => true) = true) ∧
    (HeadPerforms sDrain 0 2 (gOf sDrain) (mkEnt drainOp 0) [] ∧
      Tab.find ((gaOf sDrain).matrixOf (gOf sDrain).id.pos).accs 7 = some accLive ∧
      gives (drainWork 9) ⟨sBegun sDrain 2 (mkEnt drainOp 0), []⟩ (fun b => !b) = true) ∧
    (HeadPerforms sDrainMid 0 2 (gOf sDrainMid) drainMid [] ∧
      leaves (drainWork 9) ⟨sBegun sDrainMid 2 drainMid, []⟩ (fun b v => b && finishes 2 v) = true) ∧
    (HeadPerforms (sRowHead drainNone) 0 2 (gOf (sRowHead drainNone)) (mkEnt drainNone 0) [] ∧
      Tab.find ((gaOf (sRowHead drainNone)).matrixOf (gOf (sRowHead drainNone)).id.pos).accs 8 = none ∧
      leaves (joinStatus 0 2 0x40) ⟨sRowHead drainNone, []⟩ (fun _ v => finishes 2 v) = true) :=
  ⟨⟨head_of (by decide +kernel), by decide +kernel⟩, ⟨head_of (by decide +kernel), by decide +kernel⟩,
    ⟨head_of (by decide +kernel), by decide +kernel⟩, ⟨head_of (by decide +kernel), by decide +kernel⟩, head_of (by decide +kernel), by decide +kernel⟩

/-- Queue G: a bilinear patch to dice into slot 0, an image to fill it from, a spill that is written, a grid to read and to write. -/
def dicePatch : Nat := patchBits 0 + 2 ^ 64
def diceOp : EOp := .dice 0x50000 dicePatch (slot0 sEng) false (bucketBits 1) none
def fillOp : EOp := .fill 0x90000 (slot0 sEng) false (bucketBits 1) none
def spillOp : EOp := .spill (slot0 sEng) 0x90000 none
def greadOp1 : EOp := .gread (slot0 sEng) ⟨handle0, 0, 0, 8⟩ 8 [(0, false)] 0
def gwriteOp1 : EOp := .gwrite (slot0 sEng) 1 1 [(0, [7])] ⟨handle0, 0, 0, 8⟩
def sDice : State := sHead sEng 3 (mkEnt diceOp 0)
def diceHead : Nat := gridHeader 0x50000 dicePatch (bucketBits 1) 3
def diceVerts : Act Unit := forM (gridRecords dicePatch 1 1) (fun x => poke (cupolaKey (slot0 sEng) + x.1) x.2.1 x.2.2)
def setState (w : Work) (st : SlotState) : Work := ⟨w.cur.setSlot (slot0 sEng) { w.cur.slotAt (slot0 sEng) with state := st }, w.stores⟩
def sFill : State := sHead sEng 3 (mkEnt fillOp 0)
def sGread : State := sHead sEng 3 (mkEnt greadOp1 0)
def sGwrite : State := sHead sEng 3 (mkEnt gwriteOp1 0)
def greadHead : Nat := sGread.gridHead (slot0 sEng)
def greadVals : Act Unit := resultReady 0 0 ([(0, false)].flatMap (fun x => (upFrom 0 12).map (fun i =>
  (x.1, 8 + i, BitVec.ofNat 32 (nth (sGread.vertexWords (slot0 sEng) (hdNu greadHead) (hdNv greadHead) ⟨handle0, 0, 0, 8⟩ x.1 x.2) i 0)))))
def gwriteVals : Act Unit := forM [(0, [(7 : W32)])] (fun x => forM ((bitsOf 12 1).zip x.2) (fun y =>
  poke (cupolaKey (slot0 sEng) + vertexOff 1 ((⟨handle0, 0, 0, 8⟩ : GMap).vertex x.1).1.toNat ((⟨handle0, 0, 0, 8⟩ : GMap).vertex x.1).2.toNat + 4 * y.1) 4
    y.2.toNat))
/-- The work, the completion of queue q's head and the release of slot 0 all answer. -/
def endsWith {α : Type} (s : State) (m : Act α) (q : Nat) : Bool :=
  leaves m ⟨s, []⟩ (fun _ v => leaves (complete 0 q 0 0) v (fun _ u => gives (releaseSlot (slot0 sEng)) u (fun _ => true)))
/-- Slot 0 is SAMPLED with nothing left, or SPILLING. -/
def sSlotIn (st : SlotState) : State := withSlot sEng { heldSlot with state := st }

def spillEnt (pos : Nat) : Ent := mkEnt spillOp pos
def sSpill (pos : Nat) : State := sHead sEng 3 (spillEnt pos)
/-- BSPILL's next n sectors from position pos, and what is noted of them. -/
def spillPart (pos n : Nat) (q : Work → Bool) : Bool :=
  let s := sSpill pos
  leaves (putHead (slot0 sEng) (setFld (s.gridHead (slot0 sEng)) 118 1 1)) ⟨s, []⟩ (fun _ w0 =>
    leaves (spillSectors (portOfEnt s (spillEnt pos)) (portOfEnt s (spillEnt pos)).die (slot0 sEng) 0x90000 n pos 0 [] 0) w0 (fun r w1 =>
      match r with
      | (m, sent, st, cause) => decide (m = n ∧ cause = none) && leaves (spillNote 0 m sent st) w1 (fun _ w2 =>
        leaves (setHead 0 3 (fun x => { x with pos := pos + m })) w2 (fun _ w3 => q w3))))
/-- A slot whose victim is still to be spilled. -/
def sVictim : State :=
  let s := withSlot sDice { heldSlot with oldGen := some 2, image := some 0x90000 }
  s.setMem (Mem.put s.mem (cupolaKey (slot0 sEng)) 32 (setFld (s.gridHead (slot0 sEng)) 144 5 3))

theorem witness_DiceAndSpillEntries :
    (sDice.slotAt (slot0 sEng)).oldGen = none ∧
    (HeadPerforms (sHead sEng 3 (mkEnt diceOp 1024)) 0 3 (gOf (sHead sEng 3 (mkEnt diceOp 1024))) (mkEnt diceOp 1024) [] ∧
      gives (geoDone 0) ⟨sHead sEng 3 (mkEnt diceOp 1024), []⟩ (fun _ => true) = true) ∧
    (HeadPerforms sDice 0 3 (gOf sDice) (mkEnt diceOp 0) [] ∧ gives (victimFirst 0 (slot0 sEng) 1) ⟨sDice, []⟩ (fun b => b) = true ∧
      (sDice.slotAt (slot0 sEng)).nu = 1 ∧ (sDice.slotAt (slot0 sEng)).nv = 1 ∧ (sDice.slotAt (slot0 sEng)).gen = 3 ∧
      leaves diceVerts ⟨sDice.store (cupolaKey (slot0 sEng)) 512 diceHead, [(cupolaKey (slot0 sEng), 512, diceHead)]⟩
        (fun _ w => decide ((w.cur.slotAt (slot0 sEng)).state = .ready) && gives (geoDone 0) (setState w .ready) (fun _ => true)) = true) ∧
    (HeadPerforms sVictim 0 3 (gOf sVictim) (mkEnt diceOp 0) [] ∧ (sVictim.slotAt (slot0 sEng)).oldGen = some 2 ∧
      gives (victimFirst 0 (slot0 sEng) 1) ⟨sVictim, []⟩ (fun b => !b) = true) ∧
    (HeadPerforms (sHead sEng 3 (mkEnt fillOp 1024)) 0 3 (gOf (sHead sEng 3 (mkEnt fillOp 1024))) (mkEnt fillOp 1024) [] ∧
      gives (geoDone 0) ⟨sHead sEng 3 (mkEnt fillOp 1024), []⟩ (fun _ => true) = true) :=
  ⟨by decide +kernel, ⟨head_of (by decide +kernel), by decide +kernel⟩, ⟨head_of (by decide +kernel), by decide +kernel⟩,
    ⟨head_of (by decide +kernel), by decide +kernel⟩, head_of (by decide +kernel), by decide +kernel⟩

theorem witness_SpillEntries :
    (HeadPerforms (sSpill 1024) 0 3 (gOf (sSpill 1024)) (spillEnt 1024) [] ∧
      gives (geoDone 0) ⟨sSpill 1024, []⟩ (fun _ => true) = true) ∧
    (HeadPerforms (sSpill 0) 0 3 (gOf (sSpill 0)) (spillEnt 0) [] ∧ (sSpill 0).naming (slot0 sEng) = 1 ∧
      spillPart 0 1 (fun _ => true) = true) ∧
    (HeadPerforms (sSpill 511) 0 3 (gOf (sSpill 511)) (spillEnt 511) [] ∧ (sSpill 511).naming (slot0 sEng) = 1 ∧
      spillPart 511 1 (fun w3 => leaves (spillEnd (portOfEnt (sSpill 511) (spillEnt 511)) (slot0 sEng) (2 ^ 63 + 0x90000 % 2 ^ 48)) w3
        (fun c w4 => decide (c = none) && gives (geoDone 0) w4 (fun _ => true))) = true) ∧
    ((sSlotIn .sampled).slotIdle (slot0 sEng) = true ∧ ((sSlotIn .sampled).slotAt (slot0 sEng)).holders = [] ∧
      ((sSlotIn .sampled).slotAt (slot0 sEng)).oldGen = none ∧ ((sSlotIn .sampled).slotAt (slot0 sEng)).failed = false ∧
      ((sSlotIn .sampled).slotAt (slot0 sEng)).state = .sampled ∧ hdRemain ((sSlotIn .sampled).gridHead (slot0 sEng)) = 0 ∧
      gives (releaseSlot (slot0 sEng)) ⟨sSlotIn .sampled, []⟩ (fun _ => true) = true) :=
  ⟨⟨head_of (by decide +kernel), by decide +kernel⟩, ⟨head_of (by decide +kernel), by decide +kernel⟩,
    ⟨head_of (by decide +kernel), by decide +kernel⟩, by decide +kernel⟩

theorem witness_GridAccessEntries :
    (HeadPerforms sGread 0 3 (gOf sGread) (mkEnt greadOp1 0) [] ∧ sGread.gridReadyFor (slot0 sEng) 0 = true ∧ endsWith sGread greadVals 3 = true) ∧
    (HeadPerforms sGwrite 0 3 (gOf sGwrite) (mkEnt gwriteOp1 0) [] ∧ endsWith sGwrite gwriteVals 3 = true) :=
  ⟨⟨head_of (by decide +kernel), by decide +kernel⟩, head_of (by decide +kernel), by decide +kernel⟩

/-- The last sector of an image, its header put right, and the end of the fill; an image that is not mapped. -/
def fillEnt (image pos : Nat) : Ent := mkEnt (.fill image (slot0 sEng) false (bucketBits 1) none) pos
def sFillAt (image pos : Nat) : State := sHead sEng 3 (fillEnt image pos)
def fillPart (image pos n : Nat) : Act (Option (Nat × Nat)) :=
  fillSectors 0 (portOfEnt (sFillAt image pos) (fillEnt image pos)) (slot0 sEng) image n pos
def filledTo (w : Work) (pos : Nat) : State :=
  w.cur.setGroup 0 { gOf w.cur with
    queues := Tab.set (gOf w.cur).queues 3 { (gOf w.cur).queue 3 with ents := ((gOf w.cur).queue 3).ents.map (fun e => { e with pos := pos }) } }
def fillTail (w : Work) : Bool :=
  let s2 := filledTo w 512
  let h := setFld (setFld (setFld (s2.gridHead (slot0 sEng)) 117 2 1) 192 32 (s2.slotAt (slot0 sEng)).gen) 224 32 (fld (bucketBits 1) 0 32)
  leaves (putHead (slot0 sEng) h) ⟨s2, w.stores⟩ (fun _ w2 => gives (geoDone 0) ⟨w2.cur.setSlot (slot0 sEng) { w2.cur.slotAt (slot0 sEng) with
    state := if hdSampled h then .sampled else .ready
    nu := hdNu h
    nv := hdNv h }, w2.stores⟩ (fun _ => true))
/-- No area for spilled grids is bound: a spill writes no image. -/
def sNoArea : State := modGa (sSlotIn .spilling) (fun g => { g with bucket := none })
def spillAway : Act (Nat × Tab Nat × Spilled) := spillSlot (sNoArea.slotPort (slot0 sEng)) (slotPlace (slot0 sEng)).2.1 (slot0 sEng)

theorem witness_FillAndEngineSpill :
    (HeadPerforms (sFillAt 0x90000 0) 0 3 (gOf (sFillAt 0x90000 0)) (fillEnt 0x90000 0) [] ∧
      gives (victimFirst 0 (slot0 sEng) 1) ⟨sFillAt 0x90000 0, []⟩ (fun b => b) = true ∧
      leaves (fillPart 0x90000 0 1) ⟨sFillAt 0x90000 0, []⟩ (fun r w => decide (r = none) &&
        decide (Tab.find w.cur.groups 0 = some (gOf w.cur)) && decide (((gOf w.cur).queue 3).ents.length = 1)) = true) ∧
    (HeadPerforms (sFillAt 0x90000 511) 0 3 (gOf (sFillAt 0x90000 511)) (fillEnt 0x90000 511) [] ∧
      gives (victimFirst 0 (slot0 sEng) 1) ⟨sFillAt 0x90000 511, []⟩ (fun b => b) = true ∧
      leaves (fillPart 0x90000 511 1) ⟨sFillAt 0x90000 511, []⟩ (fun r w => decide (r = none) && fillTail w) = true) ∧
    (HeadPerforms (sFillAt (2 ^ 40) 0) 0 3 (gOf (sFillAt (2 ^ 40) 0)) (fillEnt (2 ^ 40) 0) [] ∧
      leaves (fillPart (2 ^ 40) 0 1) ⟨sFillAt (2 ^ 40) 0, []⟩ (fun r w => match r with
        | none => false
        | some (c, a) => gives (haltHead 0 3 c a) w (fun _ => true)) = true) ∧
    (sNoArea.slotIdle (slot0 sEng) = true ∧ (sNoArea.slotAt (slot0 sEng)).holders = [] ∧ (sNoArea.slotAt (slot0 sEng)).oldGen = none ∧
      (sNoArea.slotAt (slot0 sEng)).failed = false ∧ (sNoArea.slotAt (slot0 sEng)).state = .spilling ∧
      gives spillAway ⟨sNoArea.setSlot (slot0 sEng) { sNoArea.slotAt (slot0 sEng) with state := .spilling }, []⟩ (fun r => match r.2.2 with
        | .done st => decide (st = 0)
        | .fault _ _ => false) = true) :=
  ⟨⟨head_of (by decide +kernel), by decide +kernel⟩, ⟨head_of (by decide +kernel), by decide +kernel⟩,
    ⟨head_of (by decide +kernel), by decide +kernel⟩, by decide +kernel⟩

/-! ## Hypotheses that are met: the entries of queues Z and Y -/

def bindFar : Raster := { bind1 with sbuf := 2 ^ 40 }
def flushOp (b : Raster) : EOp := .sflush b 0 0 0x3F800000 none
def sFlush (b : Raster) (pos : Nat) : State := sHead sEng 4 (mkEnt (flushOp b) pos)
def flushWork (b : Raster) (pos n : Nat) : Act Bool := flushRun 0 (portOfEnt (sFlush b pos) (mkEnt (flushOp b) pos)) b 0x3F800000 n pos
def gridOp (sent : Tab Nat) : Ent := { mkEnt (.sgrid bind1 0 0 (slot0 sEng) 0 none) 0 with sent := sent }
/-- The grid in slot 0 is one opaque quad of two pixels on a side. -/
def vertexAt (x y : Nat) : Nat := x + y * 2 ^ 32 + 0x3F800000 * 2 ^ 64 + 0x3C00 * 2 ^ 272
def quadGrid (m : List Host.Cell) : List Host.Cell :=
  let base := cupolaKey (slot0 sEng)
  Mem.put (Mem.put (Mem.put (Mem.put (Mem.put m base 32 (2 ^ 64 + 2 ^ 72)) (base + 512) 48 (vertexAt 0 0)) (base + 560) 48
    (vertexAt 0x40000000 0)) (base + 608) 48 (vertexAt 0 0x40000000)) (base + 656) 48 (vertexAt 0x40000000 0x40000000)
def sGridEnt (sent : Tab Nat) : State :=
  let s := sHead sEng 4 (gridOp sent)
  s.setMem (quadGrid s.mem)
def gridEnd (sent : Tab Nat) : Ent := { gridOp sent with pos := 65536 }
def sGridDone (sent : Tab Nat) : State := sHead sEng 4 (gridEnd sent)
def gridWords (s : State) : Nat := s.gridHead (slot0 sEng)
def hits0 (s : State) : List Hit × Nat :=
  gridHits bind1 0 0 (gridWords s) (hdNu (gridWords s)) (hdNv (gridWords s)) (s.gridRows (slot0 sEng) (hdNu (gridWords s)) (hdNv (gridWords s)))
def slotRead (s : State) (sent : Tab Nat) : Act Nat :=
  readSlot (portOfEnt s (gridOp sent)).die (slot0 sEng) (hdNu (gridWords s)) (hdNv (gridWords s))
def sampleHits (s : State) (sent : Tab Nat) (n : Nat) : Act Bool :=
  sampleRun 0 (portOfEnt s (gridOp sent)) bind1 (bestHits (hits0 s).1) n
    ((sortBy (fun x => x) (((bestHits (hits0 s).1).map (fun h => h.1 / 2)).eraseDups)).filter (fun z => decide (0 ≤ z)))
/-- The parts of SGRID's work up to its sample sectors answer, and what they leave meets a test. -/
def gridSamples (sent : Tab Nat) (n : Nat) (p : Bool → Work → Bool) : Bool :=
  let s := sGridEnt sent
  leaves (slotRead s sent) ⟨s, []⟩ (fun slot w0 => leaves (zNote 0 0 (worseSts slot (hits0 s).2) none) w0 (fun _ w1 =>
    leaves (sampleHits s sent n) w1 p))
/-- All of it up to the release of the slot answers. -/
def gridWork (sent : Tab Nat) (p : Work → Bool) : Bool :=
  gridSamples sent 9999 (fun ok w2 => ok && leaves (markSampled (slot0 sEng) 0 0 0) w2 (fun _ w3 =>
    leaves (setHead 0 4 (fun e => { e with pos := 65536 })) w3 (fun _ w4 => p w4)))
def resolveOp (b : Nat) : EOp := .sresolve bind1 0 0 b none
def resolveSectors (base : Nat) : List Nat := sortBy (fun x => x) (((upFrom 0 32).flatMap (fun y => (upFrom 0 32).map (fun x =>
  (base + y * patPitch bind1.header + 8 * x) / 32))).eraseDups)
def sResolve : State := sHead sEng 4 (mkEnt (resolveOp 0x80000) 255)
def resolveWork (n : Nat) : Act Bool :=
  resolveRun 0 (portOfEnt sResolve (mkEnt (resolveOp 0x80000) 255)) bind1 0x80000 n ((resolveSectors 0x80000).drop 255)

theorem witness_FlushAndResolveEntries :
    (HeadPerforms (sFlush bindFar 0) 0 4 (gOf (sFlush bindFar 0)) (mkEnt (flushOp bindFar) 0) [] ∧
      gives (flushWork bindFar 0 1) ⟨sBegun (sFlush bindFar 0) 4 (mkEnt (flushOp bindFar) 0), []⟩ (fun b => !b) = true) ∧
    (HeadPerforms (sFlush bind1 0) 0 4 (gOf (sFlush bind1 0)) (mkEnt (flushOp bind1) 0) [] ∧
      leaves (flushWork bind1 0 1) ⟨sBegun (sFlush bind1 0) 4 (mkEnt (flushOp bind1) 0), []⟩ (fun b w => b &&
        decide (((gOf w.cur).queue 4).ents.map (fun e => e.pos) = [1])) = true ∧ 1 < 512 * patSamples bind1.header) ∧
    (HeadPerforms (sFlush bind1 511) 0 4 (gOf (sFlush bind1 511)) (mkEnt (flushOp bind1) 511) [] ∧
      leaves (flushWork bind1 511 1) ⟨sBegun (sFlush bind1 511) 4 (mkEnt (flushOp bind1) 511), []⟩ (fun b w => b &&
        decide (((gOf w.cur).queue 4).ents.map (fun e => e.pos) = [512]) && gives (zDone 0) w (fun _ => true)) = true) ∧
    (HeadPerforms sResolve 0 4 (gOf sResolve) (mkEnt (resolveOp 0x80000) 255) [] ∧
      gives (resolveWork 0) ⟨sBegun sResolve 4 (mkEnt (resolveOp 0x80000) 255), []⟩ (fun b => !b) = true ∧
      leaves (resolveWork 1) ⟨sBegun sResolve 4 (mkEnt (resolveOp 0x80000) 255), []⟩ (fun b w => b && gives (zDone 0) w (fun _ => true)) = true) :=
  ⟨⟨head_of (by decide +kernel), by decide +kernel⟩, ⟨head_of (by decide +kernel), by decide +kernel⟩,
    ⟨head_of (by decide +kernel), by decide +kernel⟩, head_of (by decide +kernel), by decide +kernel⟩

theorem witness_SgridEntry :
    (HeadPerforms (sGridDone []) 0 4 (gOf (sGridDone [])) (gridEnd []) [] ∧ (sGridDone []).gridReadyFor (slot0 sEng) 0 = true ∧
      leaves (zDone 0) ⟨sGridDone [], []⟩ (fun ok w => ok && gives (releaseSlot (slot0 sEng)) w (fun _ => true)) = true) ∧
    (HeadPerforms (sGridDone [(1, 5)]) 0 4 (gOf (sGridDone [(1, 5)])) (gridEnd [(1, 5)]) [] ∧
      gives (zDone 0) ⟨sGridDone [(1, 5)], []⟩ (fun ok => !ok) = true) ∧
    (HeadPerforms (sGridEnt []) 0 4 (gOf (sGridEnt [])) (gridOp []) [] ∧ (sGridEnt []).gridReadyFor (slot0 sEng) 0 = true ∧
      (gridOp []).pos ≠ 65536 ∧ (sGridEnt []).badAt (cupolaKey (slot0 sEng)) 32 = false ∧
      ((sGridEnt []).gridRows (slot0 sEng) (hdNu (gridWords (sGridEnt []))) (hdNv (gridWords (sGridEnt [])))).isEmpty = false ∧
      (hits0 (sGridEnt [])).1 ≠ [] ∧ gridSamples [] 0 (fun ok _ => !ok) = true ∧
      gridWork [] (fun w4 => leaves (zDone 0) w4 (fun ok w5 => ok && gives (releaseSlot (slot0 sEng)) w5 (fun _ => true))) = true) ∧
    (HeadPerforms (sGridEnt [(1, 5)]) 0 4 (gOf (sGridEnt [(1, 5)])) (gridOp [(1, 5)]) [] ∧
      gridWork [(1, 5)] (fun w4 => gives (zDone 0) w4 (fun ok => !ok)) = true) :=
  ⟨⟨head_of (by decide +kernel), by decide +kernel⟩, ⟨head_of (by decide +kernel), by decide +kernel⟩,
    ⟨head_of (by decide +kernel), by decide +kernel⟩, head_of (by decide +kernel), by decide +kernel⟩

def targ (ws : List W32) : List TArg := [⟨0, false, ws⟩]
def coverOp : EOp := .scover bind1 0 0 (slot0 sEng) 8 (targ [0]) 0
def sreadOp : EOp := .sread bind1 8 (targ [0]) 0
def swriteOp (b : Raster) (pos : Nat) : Ent := mkEnt (.swrite b true (targ [0, 0, 1, 2, 3]) 0) pos
/-- The group still runs, or has exited. -/
def sSwrite (b : Raster) (x : Bool) : State := modG (sHead sEng 4 (swriteOp b 0)) (fun g => { g with exited := x })
def writeSectors (b : Raster) : List Nat :=
  sortBy (fun x => x) ((((targ [0, 0, 1, 2, 3]).filter (fun t => !t.helper)).map (fun t => b.selected (nth t.words 0 0).toNat / 32)).eraseDups)
def swriteWork (b : Raster) (n : Nat) : Act (Bool × Option (Nat × Nat × Nat)) :=
  swriteRun 0 (portOfEnt (sSwrite b false) (swriteOp b 0)) b true ((targ [0, 0, 1, 2, 3]).filter (fun t => !t.helper)) n (writeSectors b)
/-- The write ends at a cause, and what follows it answers. -/
def swriteEnds (m : Nat → Nat → Nat → Work → Bool) (x : Bool) : Bool :=
  leaves (swriteWork bindFar 1) ⟨sSwrite bindFar x, []⟩ (fun r w => match r with
    | (_, some (c, i, a)) => m c i a w
    | _ => false)

/-- An entry heads queue q of the engines' state, and its work answers. -/
def EngineDoes (q : Nat) (op : EOp) (m : State → Act Unit) : Prop :=
  Works (sHead sEng q (mkEnt op 0)) q (mkEnt op 0) (m (sHead sEng q (mkEnt op 0))) ()

theorem witness_SampleRecordEntries :
    (EngineDoes 4 coverOp (fun s => scoverRun 0 (slot0 sEng) bind1 0 0 8 0 (targ [0])) ∧
      (sHead sEng 4 (mkEnt coverOp 0)).gridReadyFor (slot0 sEng) 0 = true) ∧
    EngineDoes 4 sreadOp (fun s => sreadRun 0 (portOfEnt s (mkEnt sreadOp 0)) bind1 8 0 1 (targ [0])) ∧
    (HeadPerforms (sSwrite bind1 false) 0 4 (gOf (sSwrite bind1 false)) (swriteOp bind1 0) [] ∧
      gives (swriteWork bind1 0) ⟨sSwrite bind1 false, []⟩ (fun r => decide (r = (false, none))) = true ∧
      leaves (swriteWork bind1 1) ⟨sSwrite bind1 false, []⟩ (fun r w => decide (r = (true, none)) && gives (zDone 0) w (fun _ => true)) = true) ∧
    (HeadPerforms (sSwrite bindFar true) 0 4 (gOf (sSwrite bindFar true)) (swriteOp bindFar 0) [] ∧ (gOf (sSwrite bindFar true)).exited = true ∧
      swriteEnds (fun c _ a w => gives (haltHead 0 4 c a) w (fun _ => true)) true = true) ∧
    (HeadPerforms (sSwrite bindFar false) 0 4 (gOf (sSwrite bindFar false)) (swriteOp bindFar 0) [] ∧ (gOf (sSwrite bindFar false)).exited = false ∧
      swriteEnds (fun c i a w => leaves (setHead 0 4 (fun e => { e with pos := 32 })) w (fun _ w2 =>
        gives (zDone 0) ⟨w2.cur.later (.group 0) (Cause.ofThread c i a), w2.stores⟩ (fun _ => true))) false = true) :=
  ⟨⟨works_of _ (by decide +kernel) (by decide +kernel), by decide +kernel⟩, works_of _ (by decide +kernel) (by decide +kernel),
    ⟨head_of (by decide +kernel), by decide +kernel⟩, ⟨head_of (by decide +kernel), by decide +kernel⟩, head_of (by decide +kernel), by decide +kernel⟩

/-- A helper alone traces; a thread's ray meets a cause, since no node is mapped there. -/
def bvhFar : Nat := bvhBits - 0x10000 + 2 ^ 40
def helperArg : List TArg := [⟨0, true, List.replicate 8 0⟩]
def rayArg : List TArg := targ [0, 0, 0, 0x3F800000, 0, 0, 0, 0x7F800000]
def traceOp (b : Nat) (a : List TArg) : EOp := .trace b false false 8 a 0
def sTrace (b : Nat) (a : List TArg) : State := sHead sEng 5 (mkEnt (traceOp b a) 0)
def traceWork (b : Nat) (a : List TArg) (n : Nat) : Act Bool := traceRun 0 (portOfEnt (sTrace b a) (mkEnt (traceOp b a) 0)) b false false 8 0 n a
/-- The same entry of a fragment that waits for its TRACE.SORT. -/
def sTraceSort : State := modG (sTrace bvhBits helperArg) (fun g => { g with
  run := { g.run with frags := g.run.frags.map (fun (f : Frag) => { f with wait := .tracing 0 }) } })
def fadeOp (pos : Nat) : Ent := mkEnt (.rcfade bvhBits 128 none) pos
def sFade (pos : Nat) : State := sHead sEng 5 (fadeOp pos)
def fadeWork (b pos n : Nat) : Act Bool := fadeRun 0 (portOfEnt (sFade pos) (fadeOp pos)) b 128 n pos
def fadeFar : Ent := mkEnt (.rcfade (bvhBits + 2 ^ 424) 128 none) 0
def sFadeFar : State := sHead sEng 5 fadeFar
def insArg : List TArg := targ [0, 0, 0, 0, 0, 0x3F800000, 0, 0x10000]
def bvhInsFar : Nat := bvhBits + 2 ^ 424
def insOp (b : Nat) : Ent := mkEnt (.rcins b insArg 0) 0
def sIns (b : Nat) (x : Bool) : State := modG (sHead sEng 5 (insOp b)) (fun g => { g with exited := x })
def insWork (b n : Nat) : Act (Bool × Option (Nat × Nat × Nat)) := rcinsRun 0 (portOfEnt (sIns b false) (insOp b)) b n insArg
def insEnds (m : Nat → Nat → Nat → Work → Bool) (x : Bool) : Bool :=
  leaves (insWork bvhInsFar 1) ⟨sIns bvhInsFar x, []⟩ (fun r w => match r with
    | (_, some (c, i, a)) => m c i a w
    | _ => false)

theorem witness_TraceEntries :
    (HeadPerforms (sTrace bvhBits helperArg) 0 5 (gOf (sTrace bvhBits helperArg)) (mkEnt (traceOp bvhBits helperArg) 0) [] ∧
      gives (traceWork bvhBits helperArg 0) ⟨sTrace bvhBits helperArg, []⟩ (fun ok => !ok) = true ∧
      leaves (traceWork bvhBits helperArg 1) ⟨sTrace bvhBits helperArg, []⟩ (fun ok w1 => ok && leaves (resultReady 0 0 []) w1 (fun _ w2 =>
        gives (complete 0 5 0 0) w2 (fun _ => true))) = true ∧
      ((gOf (sTrace bvhBits helperArg)).run.frags.all (fun f => decide (f.wait = .none))) = true) ∧
    (HeadPerforms (sTrace bvhFar rayArg) 0 5 (gOf (sTrace bvhFar rayArg)) (mkEnt (traceOp bvhFar rayArg) 0) [] ∧
      gives (traceWork bvhFar rayArg 1) ⟨sTrace bvhFar rayArg, []⟩ (fun ok => !ok) = true) ∧
    (HeadPerforms sTraceSort 0 5 (gOf sTraceSort) (mkEnt (traceOp bvhBits helperArg) 0) [] ∧
      ((gOf sTraceSort).run.frags.any (fun f => decide (f.wait = .tracing 0))) = true ∧
      ((gOf sTraceSort).run.frags.all (fun f => f.wins.all (fun y => decide (y.1 ≠ 0)))) = true ∧
      leaves (traceWork bvhBits helperArg 1) ⟨sTraceSort, []⟩ (fun ok w1 => ok && leaves (resultReady 0 0 []) w1 (fun _ w2 =>
        leaves (complete 0 5 0 0) w2 (fun _ w3 => leaves (modGroup 0 (fun g => g.writeTags [0])) w3 (fun _ w4 =>
          gives (sortTraced 0) w4 (fun _ => true))))) = true) :=
  ⟨⟨head_of (by decide +kernel), by decide +kernel⟩, ⟨head_of (by decide +kernel), by decide +kernel⟩, head_of (by decide +kernel), by decide +kernel⟩

theorem witness_LanternEntries :
    EngineDoes 5 (.hitget bvhBits 1 8 (targ [4]) 0)
      (fun s => hitgetRun 0 (portOfEnt s (mkEnt (.hitget bvhBits 1 8 (targ [4]) 0) 0)) bvhBits 1 8 0 1 (targ [4])) ∧
    EngineDoes 5 (.rclook bvhBits 8 (targ (List.replicate 6 0)) 0)
      (fun s => rclookRun 0 (portOfEnt s (mkEnt (.rclook bvhBits 8 (targ (List.replicate 6 0)) 0) 0)) bvhBits 8 0 1 (targ (List.replicate 6 0))) ∧
    (HeadPerforms (sIns bvhBits false) 0 5 (gOf (sIns bvhBits false)) (insOp bvhBits) [] ∧
      gives (insWork bvhBits 0) ⟨sIns bvhBits false, []⟩ (fun r => decide (r = (false, none))) = true ∧
      leaves (insWork bvhBits 1) ⟨sIns bvhBits false, []⟩ (fun r w => decide (r = (true, none)) && gives (yDone 0) w (fun _ => true)) = true) ∧
    (HeadPerforms (sIns bvhInsFar true) 0 5 (gOf (sIns bvhInsFar true)) (insOp bvhInsFar) [] ∧ (gOf (sIns bvhInsFar true)).exited = true ∧
      insEnds (fun c _ a w => gives (haltHead 0 5 c a) w (fun _ => true)) true = true) ∧
    (HeadPerforms (sIns bvhInsFar false) 0 5 (gOf (sIns bvhInsFar false)) (insOp bvhInsFar) [] ∧ (gOf (sIns bvhInsFar false)).exited = false ∧
      insEnds (fun c i a w => leaves (setHead 0 5 (fun e => { e with pos := 32 })) w (fun _ w2 =>
        gives (yDone 0) ⟨w2.cur.later (.group 0) (Cause.ofThread c i a), w2.stores⟩ (fun _ => true))) false = true) ∧
    (HeadPerforms sFadeFar 0 5 (gOf sFadeFar) fadeFar [] ∧
      gives (fadeRun 0 (portOfEnt sFadeFar fadeFar) (bvhBits + 2 ^ 424) 128 1 0) ⟨sBegun sFadeFar 5 fadeFar, []⟩ (fun b => !b) = true) ∧
    (HeadPerforms (sFade 6) 0 5 (gOf (sFade 6)) (fadeOp 6) [] ∧
      leaves (fadeWork bvhBits 6 1) ⟨sBegun (sFade 6) 5 (fadeOp 6), []⟩ (fun b w => b &&
        decide (((gOf w.cur).queue 5).ents.map (fun e => e.pos) = [7])) = true ∧ 7 < 2 ^ bvhRclog bvhBits) ∧
    (HeadPerforms (sFade 7) 0 5 (gOf (sFade 7)) (fadeOp 7) [] ∧
      leaves (fadeWork bvhBits 7 1) ⟨sBegun (sFade 7) 5 (fadeOp 7), []⟩ (fun b w => b &&
        decide (((gOf w.cur).queue 5).ents.map (fun e => e.pos) = [8]) && gives (yDone 0) w (fun _ => true)) = true) :=
  ⟨works_of _ (by decide +kernel) (by decide +kernel), works_of _ (by decide +kernel) (by decide +kernel),
    ⟨head_of (by decide +kernel), by decide +kernel⟩, ⟨head_of (by decide +kernel), by decide +kernel⟩,
    ⟨head_of (by decide +kernel), by decide +kernel⟩, ⟨head_of (by decide +kernel), by decide +kernel⟩,
    ⟨head_of (by decide +kernel), by decide +kernel⟩, head_of (by decide +kernel), by decide +kernel⟩

/-! ## Hypotheses that are met: the entries of queues H, X, K and B -/

/-- Everything of queue 7 (or 8) that lets the entry perform. -/
def poolReady (q : Nat) (m : Act (Group × Queue × Ent)) (s : State) (e : Ent) : Bool :=
  headReady s q e && leaves m ⟨s, []⟩ (fun x u => decide (x = (gOf s, (gOf s).queue q, e)) && decide (u.cur = s) && decide (u.stores = []))

theorem pool_of {q : Nat} {m : Act (Group × Queue × Ent)} {s : State} {e : Ent} (h : poolReady q m s e = true) :
    HeadPerforms s 0 q (gOf s) e [] ∧ Answers m ⟨s, []⟩ (gOf s, (gOf s).queue q, e) ⟨s, []⟩ := by
  unfold poolReady at h
  simp only [Bool.and_eq_true] at h
  refine ⟨head_of h.1, ?_⟩
  have h2 := h.2
  unfold leaves at h2
  unfold Answers
  cases e : m ⟨s, []⟩ with
  | ok r =>
    rw [e] at h2
    obtain ⟨a, u⟩ := r
    obtain ⟨c, t⟩ := u
    simp only [Bool.and_eq_true, decide_eq_true_eq] at h2
    obtain ⟨⟨rfl, rfl⟩, rfl⟩ := h2
    rfl
  | error x => rw [e] at h2; simp at h2

theorem pipe_of {s : State} {e : Ent} (h : poolReady 7 (pipeHead 0) s e = true) : PipePerforms s 0 (gOf s) e [] := pool_of h
theorem array_of {s : State} {e : Ent} (h : poolReady 8 (arrayHead 0) s e = true) : ArrayPerforms s 0 (gOf s) e [] := pool_of h

/-- A started entry heads queue X, the pipe holds it, and its work answers. -/
def PipeDoes (e : Ent) (m : State → Act Unit) : Prop :=
  PipePerforms (sHead sEng 7 e) 0 (gOf (sHead sEng 7 e)) e [] ∧ e.started = true ∧
    Answers (m (sHead sEng 7 e)) ⟨sHead sEng 7 e, []⟩ () (workOf (m (sHead sEng 7 e)) ⟨sHead sEng 7 e, []⟩)

def pipeDoes (e : Ent) (m : State → Act Unit) : Bool :=
  poolReady 7 (pipeHead 0) (sHead sEng 7 e) e && e.started && gives (m (sHead sEng 7 e)) ⟨sHead sEng 7 e, []⟩ (fun _ => true)

theorem pipeDoes_of {e : Ent} {m : State → Act Unit} (h : pipeDoes e m = true) : PipeDoes e m := by
  unfold pipeDoes at h
  simp only [Bool.and_eq_true] at h
  exact ⟨pipe_of h.1.1, h.1.2, answers_of_gives _ (fun _ _ => rfl) h.2⟩

/-- A sampler's entry, the reads it makes ahead, and its threads. -/
def texEnt : Ent := mkEnt (.tex texBits 0 8 (targ [0, 0, 0]) none 0) 0
def texqEnt : Ent := mkEnt (.texq texBits 8 (targ [0, 0]) none 0) 0
def texAheadOf (s : State) (ahead : List Nat) : Act Unit :=
  readAhead 0 (portOfEnt s texEnt) (fun t => texReads texBits 0 (t.words.map (fun x => x.toNat))) (targ [0, 0, 0]) ahead
def texqAheadOf (s : State) (ahead : List Nat) : Act Unit := readAhead 0 (portOfEnt s texqEnt) (texqReads texBits) (targ [0, 0]) ahead

theorem witness_SamplerEntries :
    (HeadPerforms (sHead sEng 6 texEnt) 0 6 (gOf (sHead sEng 6 texEnt)) texEnt [] ∧
      leaves (texAheadOf (sHead sEng 6 texEnt) [0]) ⟨sHead sEng 6 texEnt, []⟩ (fun _ w1 =>
        decide (((gOf w1.cur).queue 6).ents.map (fun e => e.reads.length) = [1]) &&
        gives (texRun 0 (portOfEnt (sHead sEng 6 texEnt) texEnt) texBits 0 8 0 (targ [0, 0, 0]) 1 (targ [0, 0, 0])) w1 (fun _ => true)) = true) ∧
    (HeadPerforms (sHead sEng 6 texqEnt) 0 6 (gOf (sHead sEng 6 texqEnt)) texqEnt [] ∧
      leaves (texqAheadOf (sHead sEng 6 texqEnt) [0]) ⟨sHead sEng 6 texqEnt, []⟩ (fun _ w1 =>
        gives (texqRun 0 (portOfEnt (sHead sEng 6 texqEnt) texqEnt) texBits 8 0 1 (targ [0, 0])) w1 (fun _ => true)) = true) :=
  ⟨⟨head_of (by decide +kernel), by decide +kernel⟩, head_of (by decide +kernel), by decide +kernel⟩

/-- The entry as issued, or begun. -/
def notBegun : Ent := mkEnt (.xdcmp sfBits 0) 0
theorem witness_PipeTakes : PipePerforms (sHead sEng 7 notBegun) 0 (gOf (sHead sEng 7 notBegun)) notBegun [] ∧ notBegun.started = false :=
  ⟨pipe_of (by decide +kernel), by decide +kernel⟩

/-- A colour matrix at 0x70000, one of another kind, and one that is not mapped. -/
def colEnt (a : Nat) (buf : List Byte) : Ent := { mkBegun (.colour 1 a 8 (targ [0, 0, 0]) 0) 0 with buf := buf }
def sColourAt (a kind : Nat) (buf : List Byte) : State :=
  let s := sHead sEng 7 (colEnt a buf)
  s.setMem (Mem.put s.mem 0x70000 64 (kind * 2 ^ 504))
/-- The descriptor's read answers, and how the entry goes on. -/
def colourThen (a kind : Nat) (p : Except (Nat × Nat) Nat → Work → Bool) : Bool :=
  leaves (readRange (portOfEnt (sColourAt a kind []) (colEnt a [])) fresh a 64) ⟨sColourAt a kind [], []⟩ p

theorem witness_ColourEntries :
    (PipePerforms (sColourAt 0x70000 1 []) 0 (gOf (sColourAt 0x70000 1 [])) (colEnt 0x70000 []) [] ∧ xdOk 1 (1 * 2 ^ 504) = true ∧
      colourThen 0x70000 1 (fun r w1 => (match r with
        | .ok x => decide (x = 1 * 2 ^ 504)
        | .error _ => false) && decide (((gOf w1.cur).queue 7).ents = [colEnt 0x70000 []])) = true) ∧
    (PipePerforms (sColourAt 0x70000 2 []) 0 (gOf (sColourAt 0x70000 2 [])) (colEnt 0x70000 []) [] ∧ xdOk 1 (2 * 2 ^ 504) = false ∧
      colourThen 0x70000 2 (fun r w1 => (match r with
        | .ok x => decide (x = 2 * 2 ^ 504)
        | .error _ => false) && gives (xFault 0 0 (targ [0, 0, 0]) 0x80 0x70000) w1 (fun _ => true)) = true) ∧
    (PipePerforms (sColourAt (2 ^ 40) 1 []) 0 (gOf (sColourAt (2 ^ 40) 1 [])) (colEnt (2 ^ 40) []) [] ∧
      colourThen (2 ^ 40) 1 (fun r w1 => match r with
        | .ok _ => false
        | .error (c, x) => gives (xFault 0 0 (targ [0, 0, 0]) c x) w1 (fun _ => true)) = true) ∧
    PipeDoes (colEnt 0x70000 (toBytes 64 (1 * 2 ^ 504))) (fun s => colourRun 0 (portOfEnt s (colEnt 0x70000 (toBytes 64 (1 * 2 ^ 504)))) 1
      (ofBytes (toBytes 64 (1 * 2 ^ 504))) 8 0 (targ [0, 0, 0]) (targ [0, 0, 0]) [] 0) :=
  ⟨⟨pipe_of (by decide +kernel), by decide +kernel⟩, ⟨pipe_of (by decide +kernel), by decide +kernel⟩,
    ⟨pipe_of (by decide +kernel), by decide +kernel⟩, pipeDoes_of (by decide +kernel)⟩

def packEnt : Ent := mkBegun (.pack 0x70000 8 (targ [5]) 0) 0
def packHeld : Ent := { packEnt with committed := true, merge := [(0x70000 / 32, 5)] }
def rawOp (chain : Bool) : EOp := .xraw 0x70000 12 chain 8 (targ []) 0

theorem witness_PackAndRawEntries :
    PipeDoes packEnt (fun _ => packRun 0 0x70000 8 0 (targ [5]) packEnt) ∧
    PipeDoes packHeld (fun _ => packRun 0 0x70000 8 0 (targ [5]) packHeld) ∧
    PipeDoes (mkBegun (.unpack 0x70000 8 true 8 (targ []) 0) 0) (fun _ => unpackRun 0 0x70000 8 true 8 0 (targ [])) ∧
    PipeDoes (mkBegun (rawOp true) 0) (fun s => rawRun 0 { gOf s with poison := true } 0x70000 12 true 8 0 (targ [])) ∧
    PipeDoes (mkBegun (rawOp true) 0) (fun s => rawEnd 0 8 0 (targ []) [] (gOf s).p0 (gOf s).p1 true 0xA1) ∧
    PipeDoes (mkBegun (rawOp false) 0) (fun s => rawRun 0 (gOf s) 0x70000 12 false 8 0 (targ [])) :=
  ⟨pipeDoes_of (by decide +kernel), pipeDoes_of (by decide +kernel), pipeDoes_of (by decide +kernel), pipeDoes_of (by decide +kernel),
    pipeDoes_of (by decide +kernel), pipeDoes_of (by decide +kernel)⟩

/-- A clear of 33 mode bytes from tile 0 on; a delta of the first tile and a decompression of it, each from what it holds. -/
def clearOp : EOp := .xfclr sfBits 0 33
def sfFar : Nat := sfBits + 2 ^ 104
def clearFar : EOp := .xfclr sfFar 0 33
def clearWork (op : EOp) (r pos n : Nat) : Act (Option (Nat × Nat)) :=
  clearModes 0 (portOfEnt (sHead sEng 7 (mkBegun op pos)) (mkBegun op pos)) (sfModes r + 0 + 33) n (sfModes r + 0 + pos)
def sClear (op : EOp) (pos : Nat) : State := sHead sEng 7 (mkBegun op pos)
def deltaEnt (reads : Tab Nat) (pos : Nat) : Ent := { mkBegun (.xdelta sfBits 0 0 1) pos with reads := reads, buf := if pos = 0 then [] else [0] }
def dcmpEnt (reads : Tab Nat) (pos : Nat) : Ent := { mkBegun (.xdcmp sfBits 0) pos with reads := reads, buf := if pos = 0 then [] else tileBuf 1 0 }
def deltaPieces (n : Nat) : Tab Nat := (upFrom 16 n).map (fun i => (i, 0))
/-- The parts of XDELTA's work: whether the mode, the data and the source are there, and what follows. -/
def deltaParts (mode : Nat) (reads : Tab Nat) (p : List Bool → Work → Bool) : Bool :=
  let s := sHead sEng 7 (deltaEnt reads 0)
  let q := portOfEnt s (deltaEnt reads 0)
  leaves (havePieces 0 (memPiece q true) 0 [(sfModes sfBits + 0, 1)]) ⟨s, []⟩ (fun a w1 => if !a then p [a] w1 else
    leaves (havePieces 0 (memPiece q false) 1 (tilePieces sfBits 0 mode)) w1 (fun b w2 => if !b then p [a, b] w2 else
      leaves (havePieces 0 (spadPiece 0) 16 (sectorPieces 10 0 256)) w2 (fun c w3 => p [a, b, c] w3)))
/-- As much of XDCMP's. -/
def dcmpParts (reads : Tab Nat) (p : Nat → Bool → Work → Bool) : Bool :=
  let s := sHead sEng 7 (dcmpEnt reads 0)
  let q := portOfEnt s (dcmpEnt reads 0)
  let m := Tab.getD reads 0 0
  leaves (havePieces 0 (memPiece q true) 0 [(sfModes sfBits + 0, 1)]) ⟨s, []⟩ (fun a w1 => if !a then p 0 a w1 else
    leaves (joinStatus 0 7 (worseSts (pieceSt m) (if (tileLen (m / 4)).isNone then 0xA2 else 0))) w1 (fun _ w2 =>
      if decide (tileLen (m / 4) = none ∨ m / 4 = 1) then p 1 true w2 else
        leaves (havePieces 0 (memPiece q false) 1 (tilePieces sfBits 0 (m / 4))) w2 (fun b w3 => p 2 b w3)))

theorem witness_ClearEntries :
    PipeDoes (mkBegun clearOp 33) (fun _ => xDone 0) ∧
    (PipePerforms (sClear clearOp 0) 0 (gOf (sClear clearOp 0)) (mkBegun clearOp 0) [] ∧
      min (sfModes sfBits + 0 + 33 - (sfModes sfBits + 0 + 0)) (32 - (sfModes sfBits + 0 + 0) % 32) = 32 ∧
      leaves (clearWork clearOp sfBits 0 32) ⟨sClear clearOp 0, []⟩ (fun r _ => decide (r = none)) = true ∧ 0 + 32 < 33) ∧
    (PipePerforms (sClear clearOp 32) 0 (gOf (sClear clearOp 32)) (mkBegun clearOp 32) [] ∧
      leaves (clearWork clearOp sfBits 32 1) ⟨sClear clearOp 32, []⟩ (fun r w => decide (r = none) && gives (xDone 0) w (fun _ => true)) = true ∧
      33 ≤ 32 + 1) ∧
    (PipePerforms (sClear clearFar 0) 0 (gOf (sClear clearFar 0)) (mkBegun clearFar 0) [] ∧
      min (sfModes sfFar + 0 + 33 - (sfModes sfFar + 0 + 0)) (32 - (sfModes sfFar + 0 + 0) % 32) = 32 ∧
      leaves (clearWork clearFar sfFar 0 32) ⟨sClear clearFar 0, []⟩ (fun r w => match r with
        | none => false
        | some (c, x) => gives (haltHead 0 7 c x) w (fun _ => true)) = true) :=
  ⟨pipeDoes_of (by decide +kernel), ⟨pipe_of (by decide +kernel), by decide +kernel⟩, ⟨pipe_of (by decide +kernel), by decide +kernel⟩,
    pipe_of (by decide +kernel), by decide +kernel⟩

theorem witness_DeltaEntries :
    PipeDoes (deltaEnt [] 1) (fun s => tileNext 0 (portOfEnt s (deltaEnt [] 1)) sfBits 0 (deltaEnt [] 1)) ∧
    (PipePerforms (sHead sEng 7 (deltaEnt [] 0)) 0 (gOf (sHead sEng 7 (deltaEnt [] 0))) (deltaEnt [] 0) [] ∧
      deltaParts 0 [] (fun l _ => decide (l = [false])) = true) ∧
    (PipePerforms (sHead sEng 7 (deltaEnt [(0, 4)] 0)) 0 (gOf (sHead sEng 7 (deltaEnt [(0, 4)] 0))) (deltaEnt [(0, 4)] 0) [] ∧
      deltaParts 1 [(0, 4)] (fun l _ => decide (l = [true, false])) = true) ∧
    (PipePerforms (sHead sEng 7 (deltaEnt [(0, 0)] 0)) 0 (gOf (sHead sEng 7 (deltaEnt [(0, 0)] 0))) (deltaEnt [(0, 0)] 0) [] ∧
      deltaParts 0 [(0, 0)] (fun l _ => decide (l = [true, true, false])) = true) ∧
    (let e := deltaEnt ((0, 0) :: deltaPieces 8) 0
     PipePerforms (sHead sEng 7 e) 0 (gOf (sHead sEng 7 e)) e [] ∧
      deltaParts 0 ((0, 0) :: deltaPieces 8) (fun l w3 => decide (l = [true, true, true]) &&
        gives (deltaMerge 0 (portOfEnt (sHead sEng 7 e) e) sfBits 0 0 1 e) w3 (fun _ => true)) = true) :=
  ⟨pipeDoes_of (by decide +kernel), ⟨pipe_of (by decide +kernel), by decide +kernel⟩, ⟨pipe_of (by decide +kernel), by decide +kernel⟩,
    ⟨pipe_of (by decide +kernel), by decide +kernel⟩, pipe_of (by decide +kernel), by decide +kernel⟩

theorem witness_ExpandEntries :
    PipeDoes (dcmpEnt [] 9) (fun s => tileNext 0 (portOfEnt s (dcmpEnt [] 9)) sfBits 0 (dcmpEnt [] 9)) ∧
    (PipePerforms (sHead sEng 7 (dcmpEnt [] 0)) 0 (gOf (sHead sEng 7 (dcmpEnt [] 0))) (dcmpEnt [] 0) [] ∧
      dcmpParts [] (fun i b _ => decide (i = 0) && !b) = true) ∧
    (PipePerforms (sHead sEng 7 (dcmpEnt [(0, 4)] 0)) 0 (gOf (sHead sEng 7 (dcmpEnt [(0, 4)] 0))) (dcmpEnt [(0, 4)] 0) [] ∧
      dcmpParts [(0, 4)] (fun i _ w2 => decide (i = 1) && gives (tileDone 0) w2 (fun _ => true)) = true) ∧
    (PipePerforms (sHead sEng 7 (dcmpEnt [(0, 64)] 0)) 0 (gOf (sHead sEng 7 (dcmpEnt [(0, 64)] 0))) (dcmpEnt [(0, 64)] 0) [] ∧
      dcmpParts [(0, 64)] (fun i b _ => decide (i = 2) && !b) = true) ∧
    (let e := dcmpEnt [(0, 0)] 0
     PipePerforms (sHead sEng 7 e) 0 (gOf (sHead sEng 7 e)) e [] ∧
      dcmpParts [(0, 0)] (fun i b w3 => decide (i = 2) && b &&
        gives (dcmpExpand 0 (portOfEnt (sHead sEng 7 e) e) sfBits 0 0 e) w3 (fun _ => true)) = true) :=
  ⟨pipeDoes_of (by decide +kernel), ⟨pipe_of (by decide +kernel), by decide +kernel⟩, ⟨pipe_of (by decide +kernel), by decide +kernel⟩,
    ⟨pipe_of (by decide +kernel), by decide +kernel⟩, pipe_of (by decide +kernel), by decide +kernel⟩

/-- Group 0 alone waits in the meeting of its first TRACE.SORT. -/
def sMeet : State := modG sL (fun g => { g with
  run := { g.run with frags := g.run.frags.map (fun (f : Frag) => { f with wait := .meeting 0 0 }) } })

theorem witness_TraceSortMeeting :
    sMeet.groups = [(groupKey 0 0, gOf sMeet)] ∧ groupKey 0 0 / 65536 = 0 ∧ (gOf sMeet).exited = false ∧ (gOf sMeet).sorts ≤ 0 ∧
      (gOf sMeet).meetingAt 0 = some 0 ∧ (gOf sMeet).st.stopped = false := by decide +kernel

def kHead (op : EOp) : State := sHead sEng 8 (mkEnt op 0)
def twinWork : Act Unit := modCarillon (gaOf (kHead (.ktwin 1024))) (fun c => { c with twin := 1024 })
def pealEnt (pos : Nat) : Ent :=
  { mkBegun (.kpeal 0 15 none) pos with buf := if pos = 128 then List.replicate 4096 0 else [] }
def sPealAt (pos : Nat) : State := sHead sEng 8 (pealEnt pos)
def pealFar : Ent := mkEnt (.kpeal (2 ^ 20) 15 none) 0
def pealWords (src pos n : Nat) : Act (Except Nat (List Nat × Nat)) := pealSectors 0 (min n (128 - pos)) (src + 32 * pos)
def launchOp (go : Bool) : EOp := .klaunch 15 true go [(31, 7)] none
def sLaunch (go : Bool) : State := sHead sEng 8 (mkEnt (launchOp go) 0)
def kVecAfter (s : State) : State :=
  let g := gOf s
  (s.setGroup 0 { g with kvec := { g.kvec with lv := driveHalf g.kvec.lv true [(31, 7)] } }).rewrite (lvWords 0 (32 * b2n true) 32)
def captOp : EOp := .kcapt true 8 [31] 0
/-- The entry of queue K completes from this state. -/
def kDone (s : State) : Bool := gives (complete 0 8 0 0) ⟨s, []⟩ (fun _ => true)
def captVals (s : State) : Act Unit :=
  resultReady 0 0 ([31].map (fun t => (t, 8, BitVec.ofNat 32 (Tab.getD (gOf s).kvec.cv (32 * b2n true + t) 0xFFFF))))
def krstAfter (lv cv : Bool) : State :=
  let s := kHead (.krst lv cv)
  let g := gOf s
  (s.setGroup 0 { g with kvec := { g.kvec with
    lv := if lv then [] else g.kvec.lv
    cv := if cv then [] else g.kvec.cv } }).rewrite (fun w => (lv && lvWords 0 0 64 w) || (cv && cvWords 0 0 w))

theorem witness_CarillonEntries :
    (ArrayPerforms (kHead (.ktwin 1024)) 0 (gOf (kHead (.ktwin 1024))) (mkEnt (.ktwin 1024) 0) [] ∧
      Tab.find (kHead (.ktwin 1024)).gangs 0 = some (gaOf (kHead (.ktwin 1024))) ∧
      leaves twinWork ⟨kHead (.ktwin 1024), []⟩ (fun _ w => gives (complete 0 8 0 0) w (fun _ => true)) = true) ∧
    (ArrayPerforms (sPealAt 128) 0 (gOf (sPealAt 128)) (pealEnt 128) [] ∧ gives (pealEnd 0 15 (pealEnt 128)) ⟨sPealAt 128, []⟩ (fun _ => true) = true ∧
      Tab.find (sPealAt 128).gangs 0 = some (gaOf (sPealAt 128)) ∧
      leaves (modCarillon (gaOf (sPealAt 128)) (fun c => { c with
        peals := Tab.set c.peals 15 (List.replicate 2048 0)
        loaded := c.loaded ||| 2 ^ 15 })) ⟨sPealAt 128, []⟩ (fun _ w1 => kDone (w1.cur.rewrite (w1.cur.pealWords (gaOf (sPealAt 128)) 15))) = true) ∧
    (ArrayPerforms (sPealAt 127) 0 (gOf (sPealAt 127)) (pealEnt 127) [] ∧
      leaves (pealWords 0 127 9) ⟨sPealAt 127, []⟩ (fun r w1 => (match r with
        | .ok x => decide (x = (List.replicate 16 0, 0))
        | .error _ => false) && decide (((gOf w1.cur).queue 8).ents = [pealEnt 127])) = true) ∧
    (ArrayPerforms (sHead sEng 8 pealFar) 0 (gOf (sHead sEng 8 pealFar)) pealFar [] ∧
      leaves (pealWords (2 ^ 20) 0 1) ⟨sHead sEng 8 pealFar, []⟩ (fun r w1 => match r with
        | .ok _ => false
        | .error c => gives (haltHead 0 8 c (2 ^ 20)) w1 (fun _ => true)) = true) ∧
    (ArrayPerforms (kHead (.krst true false)) 0 (gOf (kHead (.krst true false))) (mkEnt (.krst true false) 0) [] ∧
      kDone (krstAfter true false) = true) ∧
    (ArrayPerforms (sLaunch false) 0 (gOf (sLaunch false)) (mkEnt (launchOp false) 0) [] ∧ kDone (kVecAfter (sLaunch false)) = true) ∧
    (ArrayPerforms (sLaunch true) 0 (gOf (sLaunch true)) (mkEnt (launchOp true) 0) [] ∧
      (sLaunch true).sramBad = [] ∧ (sLaunch true).sramCorr = [] ∧
      leaves (ring 0 15) ⟨kVecAfter (sLaunch true), []⟩ (fun st w1 => decide (st = 0) && kDone w1.cur) = true) ∧
    (ArrayPerforms (kHead captOp) 0 (gOf (kHead captOp)) (mkEnt captOp 0) [] ∧ Tab.find (kHead captOp).gangs 0 = some (gaOf (kHead captOp)) ∧
      leaves (readWords (gaOf (kHead captOp)).die (cvRead 0 true [31])) ⟨kHead captOp, []⟩ (fun x w1 => decide (x = 0) &&
        leaves (captVals (kHead captOp)) w1 (fun _ w2 => gives (complete 0 8 0 0) w2 (fun _ => true))) = true) :=
  ⟨⟨array_of (by decide +kernel), by decide +kernel⟩, ⟨array_of (by decide +kernel), by decide +kernel⟩,
    ⟨array_of (by decide +kernel), by decide +kernel⟩, ⟨array_of (by decide +kernel), by decide +kernel⟩,
    ⟨array_of (by decide +kernel), by decide +kernel⟩, ⟨array_of (by decide +kernel), by decide +kernel⟩,
    ⟨array_of (by decide +kernel), by decide +kernel⟩, array_of (by decide +kernel), by decide +kernel⟩

/-- A deposit at 0x70000 of die 0, one of die 1, a return of weight to root 0, and a return of the weight that memory holds. -/
def depOp (pa : Nat) : EOp := .deposit [(pa, BitVec.ofNat 64 (weightWord 0 1 2))]
def sDeposit (pa : Nat) : State := sHead (sRoots sEng) 9 (mkEnt (depOp pa) 0)
def depWork (pa : Nat) : Act Bool := depositRun 0 ((sDeposit pa).dieOf 0) ([(pa, BitVec.ofNat 64 (weightWord 0 1 2))].drop 0)
def retOp : EOp := .qretw (BitVec.ofNat 64 (weightWord 0 1 2))
def sReturn : State := sHead (sRoots sEng) 9 (mkEnt retOp 0)
def retWork : Act Unit := returnWeight (sReturn.dieOf 0) (BitVec.ofNat 64 (weightWord 0 1 2)).toNat
def farPa : Nat := 2 ^ 45
def memOp : EOp := .qretm 0x70000
def sReturnMem (v : Nat) : State :=
  let s := sHead (sRoots sEng) 9 (mkEnt memOp 0)
  s.setMem (Mem.put s.mem 0x70000 8 v)
/-- The word is read and taken, weight goes back, and the entry completes with the status given. -/
def memWork (v want : Nat) : Bool :=
  let s := sReturnMem v
  let ok := fun (old : Nat) => match s.root (rootOf old) with
    | none => false
    | some r => r.live && r.launch == s.launchOf 0 && r.gen % 64 == tagOf old
  leaves (wordStep (s.dieOf 0) 0x70000 (fun old => if old = 0 then (0, 0) else if ok old then (0, 0) else (old, 0x42))) ⟨s, []⟩ (fun r w1 =>
    match r with
    | (st, old) => decide (st = want ∧ old = v) &&
      leaves (if st ≠ 0x42 ∧ st ≠ 0x33 then returnWeight (homeOf (s.wordAt 0x70000).target) old else pure ()) w1 (fun _ w2 =>
        gives (complete 0 9 (st / 16) (st % 16)) w2 (fun _ => true)))

theorem witness_DepositAndReturn :
    (HeadPerforms (sDeposit 0x70000) 0 9 (gOf (sDeposit 0x70000)) (mkEnt (depOp 0x70000) 0) [] ∧
      leaves (depWork 0x70000) ⟨sDeposit 0x70000, []⟩ (fun b w => b &&
        decide (((gOf w.cur).queue 9).ents.map (fun e => (e.pos, e.status)) = [(1, 0)]) && gives (complete 0 9 (0 / 16) (0 % 16)) w (fun _ => true)) = true) ∧
    (HeadPerforms (sDeposit farPa) 0 9 (gOf (sDeposit farPa)) (mkEnt (depOp farPa) 0) [] ∧
      gives (depWork farPa) ⟨sDeposit farPa, []⟩ (fun b => !b) = true) ∧
    (HeadPerforms sReturn 0 9 (gOf sReturn) (mkEnt retOp 0) [] ∧
      leaves retWork ⟨sReturn, []⟩ (fun _ w => gives (complete 0 9 0 0) w (fun _ => true)) = true) ∧
    (HeadPerforms (sReturnMem (weightWord 0 1 2)) 0 9 (gOf (sReturnMem (weightWord 0 1 2))) (mkEnt memOp 0) [] ∧
      homeOf ((sReturnMem (weightWord 0 1 2)).wordAt 0x70000).target = (sReturnMem (weightWord 0 1 2)).dieOf 0 ∧
      memWork (weightWord 0 1 2) 0 = true) ∧
    memWork 0 0 = true ∧ memWork 7 0x42 = true :=
  ⟨⟨head_of (by decide +kernel), by decide +kernel⟩, ⟨head_of (by decide +kernel), by decide +kernel⟩,
    ⟨head_of (by decide +kernel), by decide +kernel⟩, ⟨head_of (by decide +kernel), by decide +kernel⟩, by decide +kernel⟩

/-! ## Hypotheses that are met: messages -/

/-- One message from src to dst. -/
def sMsg (s : State) (src dst : Nat) (b : MsgBody) : State := { s with msgs := [⟨src, dst, [], b⟩] }
/-- The message of `sMsg` comes, and nothing is behind it. -/
def coming (s : State) (src dst : Nat) (b : MsgBody) : Bool :=
  let t := sMsg s src dst b
  t.linkUp src dst && decide (takeFirst (fun x => x.src == src && x.dst == dst) t.msgs = some (⟨src, dst, [], b⟩, [])) &&
    covers (t.clockOf dst) []

theorem comes_of {s : State} {src dst : Nat} {b : MsgBody} (h : coming s src dst b = true) :
    Comes (sMsg s src dst b) src dst ⟨src, dst, [], b⟩ [] := by
  unfold coming at h
  simp only [Bool.and_eq_true, decide_eq_true_eq] at h
  exact ⟨⟨h.1.1, h.1.2⟩, h.2⟩

/-- Root 0 of die 0 is live with tag 1 and all but 5 of 2^32 returned; root 1 is not. -/
def sRetn : State := { sS with dies := Tab.set sS.dies 0 { sS.die 0 with
  roots := [(0, ⟨true, 0, 1, 2 ^ 32, 2 ^ 32 - 5, []⟩), (1, ⟨false, 0, 1, 2 ^ 32, 2 ^ 32, []⟩)] } }
def sRetnDone : State := (sMsg sRetn 1 0 (.ret 0 1 5)).onLinks [] |>.setDie 0 { sRetn.die 0 with
  roots := Tab.set (sRetn.die 0).roots 0 ⟨true, 0, 1, 2 ^ 32, 2 ^ 32, []⟩ }
/-- Group 0 asks for a borrow, and a fragment of it does. -/
def sAsk : State := modSt (sWgt 4 2) (fun t => { t with wait := .borrow none 3 })
/-- Queue B of group 0 is headed by a deposit whose word is on its way to die 0. -/
def sDepMsg : State := sHead (sRoots sEng) 9 { mkEnt (depOp 0x70000) 0 with wrote := 1 }
def depBody : MsgBody := .deposit 0 0x70000 (BitVec.ofNat 64 (weightWord 0 1 2))
def depHere : Act Nat := Sys2Proof.Machine.deposit 0x70000 (weightWord 0 1 2)

theorem witness_BallastMessages :
    (coming sRetn 1 0 (.ret 4 1 5) = true ∧ (Tab.find (sRetn.die 0).roots 1).map (fun r => r.live) = some false) ∧
    (coming sRetn 1 0 (.ret 0 1 4) = true ∧ 2 ^ 32 - 5 + 4 ≠ 2 ^ 32 ∧ 1 % 64 = 1) ∧
    (coming sRetn 1 0 (.ret 0 1 5) = true ∧ gives (settleRoot 0) ⟨sRetnDone, []⟩ (fun _ => true) = true) ∧
    (coming sRetn 1 0 (.borrow 0 1 0 9) = true ∧ coming sRetn 1 0 (.borrow 0 2 0 9) = true ∧ 2 ^ 32 + 2 ^ 24 ≤ 2 ^ 63) ∧
    (coming sAsk 1 0 (.grant 0 1 0) = true ∧ Tab.find sAsk.groups 0 = some (gOf sAsk) ∧ (tOf sAsk).wait = .borrow none 3 ∧
      (tOf sAsk).twait = .none ∧ joinWeight (gOf sAsk).wgt.toNat (weightWord 0 1 (2 ^ 24)) = some (weightWord 0 1 (2 ^ 24 + 4))) ∧
    (coming sAsk 1 0 (.refuse 0) = true ∧ coming sAsk 1 0 (.refuse 1) = true) ∧
    (coming sDepMsg 1 0 depBody = true ∧ leaves depHere ⟨(sMsg sDepMsg 1 0 depBody).onLinks [], []⟩ (fun st w =>
      decide (st = 0) && decide (Tab.find w.cur.groups 0 = some (gOf w.cur)) &&
      decide (((gOf w.cur).queue 9).ents.map (fun e => (e.op, e.pos, e.wrote)) = [(depOp 0x70000, 0, 1)])) = true) ∧
    (coming sS 1 0 (.deposit 7 0x70000 0) = true ∧ leaves depHere ⟨(sMsg sS 1 0 (.deposit 7 0x70000 0)).onLinks [], []⟩ (fun _ w =>
      (Tab.find w.cur.groups 7).isNone) = true) ∧
    coming sS 1 0 (.wake 0 1 5) = true := by decide +kernel

/-- Launch 0 runs with a deque of n entries on die 0. -/
def sSteal (n : Nat) : State := sDeque n 0

theorem witness_TetherMessages :
    (coming (sSteal 0) 1 0 (.stealRequest 0) = true ∧ Tab.find (sSteal 0).launches 0 = some (lOf (sSteal 0)) ∧
      ((lOf (sSteal 0)).tether 0).deque = []) ∧
    (coming (sSteal 2) 1 0 (.stealRequest 0) = true ∧ ((lOf (sSteal 2)).tether 0).deque = dqEnt :: [dqEnt]) ∧
    coming (sSteal 0) 1 0 (.stealReply 0) = true ∧
    (coming (sSteal 1) 1 0 (.transfer 0 dqEnt) = true ∧ (lOf (sSteal 1)).state = 1 ∧ ((lOf (sSteal 1)).tether 0).deque.length < 4096 ∧
      (Tab.find (sSteal 1).insts (instKey 0 3)).isSome = true) ∧
    coming (sSteal 1) 1 0 (.depth 0 3 1 2) = true := by decide +kernel

/-- A reply whose clock the receiver does not cover; a write and a notice waiting to be applied. -/
def sInbox (b : MsgBody) : State := { sS with inbox := [⟨1, 0, [(1, 1)], b⟩] }
def applyIn (b : MsgBody) : Act Unit := applyShared ⟨1, 0, [(1, 1)], b⟩
def sendOut : Act Nat := sendShared 4 (some 0) (.write 0x70000 4 (ofBytes [1, 2, 3, 4]) true) 0x70000 4
def hostSpot : Nat := 2 ^ 47

theorem witness_MemoryMessages :
    (coming sS 1 0 (.read 5) = true ∧ coming sS 1 0 (.rdata 5 7 [] 0) = true ∧ Tab.find sS.dies 0 = some (sS.die 0) ∧
      covers (sS.die 0).vclock [] = true ∧ coming sS 1 0 (.rdata 5 7 [(1, 1)] 0) = true ∧ covers (sS.die 0).vclock [(1, 1)] = false) ∧
    (coming sS 0 4 (.ack 3) = true ∧ coming sS 1 0 (.ack 3) = true) ∧
    (coming sS 1 0 (.write 0x70000 4 5 true) = true ∧ coming sS 1 0 (.notice 0x70000 4) = true) ∧
    (sS.target hostSpot = some .host ∧ sS.target (hostSpot + 1) = some .host) ∧
    (sS.hostMay 0 0x70000 4 = true ∧ gives sendOut ⟨sS, []⟩ (fun _ => true) = true) ∧
    (takeFirst (fun x => x.src == 1 && x.dst == 0) (sInbox (.write 0x70000 4 5 true)).inbox = some (⟨1, 0, [(1, 1)], .write 0x70000 4 5 true⟩, []) ∧
      leaves (applyIn (.write 0x70000 4 5 true)) ⟨{ sInbox (.write 0x70000 4 5 true) with inbox := [] }, []⟩ (fun _ w =>
        gives (takeReplies 0 (w.cur.die 0).rdata) w (fun _ => true)) = true) ∧
    (coming sS 0 4 (.hostResponse 1 2) = true ∧ coming sS 0 4 (.event 4 5) = true) := by decide +kernel

theorem witness_MessagesActOnArrival : ∃ (s : State) (src dst : Nat) (m : Msg), Comes s src dst m [] :=
  ⟨_, 1, 0, _, comes_of (s := sS) (b := .ret 4 1 5) (by decide +kernel)⟩

/-! ## Hypotheses that are met: what happens without an instruction, and what the host does -/

def modD (s : State) (f : Die → Die) : State := s.setDie 0 (f (s.die 0))
def hasDie0 (s : State) : Bool := decide (Tab.find s.dies 0 = some (s.die 0))
/-- Die 0 with its clk at this value, its link down since clk 0, an accumulator begun then. -/
def sClk (c : Nat) : State := modD sS (fun d => { d with
  clk := c
  links := [(1, ⟨0, 0, 0, 0, some 0⟩)]
  accums := [⟨5, 1, 7, 0⟩] })
/-- Group 0 waits in BQPOP, and die 1 has reported a depth. -/
def sIdle : State :=
  modL (modSt sS (fun t => { t with wait := .bqpop false })) (fun l =>
    { l with dies := [(0, [0]), (1, [0])] }.setTether 0 (fun t => { t with heard := [(1, (2, 0, 0))] }))

theorem witness_PowerLinkAndAgentEvents :
    (hasDie0 (sClk 1500000) = true ∧ ((sClk 1500000).die 0).energy.length ≤ (1500000 + 2 ^ 64 - ((sClk 1500000).die 0).energy.began) % 2 ^ 64) ∧
    1500000 ≤ (((sClk 1500000).die 0).clk + 2 ^ 64 - ((sClk 1500000).die 0).energy.winBegan) % 2 ^ 64 ∧
    (hasDie0 sS = true ∧ (sS.die 0).thermalHold = false ∧ 1760 ≤ (2000 : Int) ∧ (2000 : Int) < 32768) ∧
    ((List.replicate 17 (1679 : Int)).length = 17 ∧ (List.replicate 17 (1679 : Int)).all (fun t => decide (-32768 ≤ t) && decide (t < 1680)) = true) ∧
    ((1 ^^^ 0 : Nat) = 1 ∧ (Tab.find sS.dies 1).isSome = true ∧ sS.hasLink 0 1 = true) ∧
    (let s := modD sS (fun d => { d with links := [(0, ⟨2, 16, 32, 0, none⟩)] })
     hasDie0 s = true ∧ ((s.die 0).link 0).state = 2) ∧
    (((sClk 15000000).die 0).link 1).downAt = some 0 ∧
    (((sClk 256).die 0).accums[0]? = some ⟨5, 1, 7, 0⟩ ∧ 256 ≤ (((sClk 256).die 0).clk + 2 ^ 64 - 0) % 2 ^ 64) ∧
    (Tab.find sIdle.launches 0 = some (lOf sIdle) ∧ (lOf sIdle).state = 1 ∧ (Tab.find (lOf sIdle).dies 0).isSome = true ∧
      sIdle.tetherIdle (lOf sIdle) 0 0 = true ∧ ((lOf sIdle).tether 0).stealing = false ∧
      reached64 (sIdle.die 0).clk ((lOf sIdle).tether 0).retryAt = true ∧ (lOf sIdle).victim 0 = some 1) ∧
    ((lOf sIdle).out = false ∧ (lOf sIdle).dieSet.filter (fun d => !(d == 0)) = [1] ∧
      1024 * ((lOf sIdle).tether 0).reports ≤ ((sIdle.die 0).clk + 2 ^ 64 - ((lOf sIdle).tether 0).start) % 2 ^ 64) := by decide +kernel

/-- Die 0 is open to the host, and its registers of the host are as given. -/
def sOpen (f : HostRegs → HostRegs) : State := modD sS (fun d => { d with host := f d.host, boot := { d.boot with opened := true } })
def hostReaches (s : State) : Bool := s.hasDie 0 && s.linkUp 4 0 && covers (s.die 0).vclock s.hostClock

theorem witness_HostRegisterAccesses :
    (HostReaches (sOpen id) 0 ∧ Tab.find (sOpen id).dies 0 = some ((sOpen id).die 0)) ∧
    (((sOpen id).die 0).host.lqtail < 2 ^ 32 ∧ (1 ≤ (1 + 2 ^ 32 - ((sOpen id).die 0).host.lqhead) % 2 ^ 32) ∧
      (1 + 2 ^ 32 - ((sOpen id).die 0).host.lqhead) % 2 ^ 32 ≤ 2 ^ ((sOpen id).die 0).host.lqctl) ∧
    (((sOpen id).die 0).host.hcmd = none ∧ (6 : Nat) % 256 = 6 ∧ ((sOpen id).die 0).boot.attBusy = false) ∧
    (0x18 / 8 * 8 ∉ [0x10, 0x368, 0x1008, 0x8010, 0x8040] ∧ 0x18 < 2 ^ 43 ∧ 0x18 % 8 = 0) := by
  unfold HostReaches; decide +kernel

/-- A write of BOOTADDR has asked die 0's ROM to run; nothing answers at the address, or an image of zeros lies there. -/
def sBoot (a : Nat) : State := modD sS (fun d => { d with boot := { d.boot with bootReq := true, bootaddr := a } })
def readHead (a : Nat) : Act (Option (List Byte)) := bootRead 0 a 1024
def readBody (a : Nat) : Act (Option (List Byte)) := bootRead 0 (a + 1024) (ofBytes (((List.replicate 1024 (0 : Byte)).drop 8).take 8))
def nowhere : Nat := 2 ^ 44 * 5

theorem witness_BootAndReset :
    (hasDie0 (sBoot nowhere) = true ∧ leaves (readHead nowhere) ⟨sBoot nowhere, []⟩ (fun r w => decide (r = none) && hasDie0 w.cur) = true) ∧
    (hasDie0 (sBoot 0x80000) = true ∧ leaves (readHead 0x80000) ⟨sBoot 0x80000, []⟩ (fun r w =>
      decide (r = some (List.replicate 1024 0)) && leaves (readBody 0x80000) w (fun b u => decide (b = some []) && hasDie0 u.cur)) = true) ∧
    (modD sS (fun d => { d with boot := { d.boot with attBusy := true } }) |> hasDie0) = true := by decide +kernel

/-- Die 0 has booted, and the record at the head of its ring at 0x90000 is r. -/
def ringRec (set bad : Nat) : Nat :=
  0x80000 + 2 ^ 64 + 0x1000 * 2 ^ 192 + 2 ^ 736 + 2 ^ 739 + 2 ^ 747 + set * 2 ^ 750 + bad * 2 ^ 800 + 0x50000 * 2 ^ 896 + 0x40000 * 2 ^ 928
/-- The node with no slot in use. -/
def nodeRec1 : Nat := nth (lOf sS).nodes 0 0 + ((upFrom 0 12).map (fun i => 0xFFFF * 2 ^ (384 + 32 * i))).foldl (fun a b => a + b) 0
def sRing (r : Nat) : State :=
  let s := modD sS (fun d => { d with
    host := { d.host with lqbase := 0x90000, lqtail := 1 }
    boot := { d.boot with bootsts := 1, opened := true } })
  s.setMem (Mem.put (Mem.put s.mem 0x80000 96 nodeRec1) 0x90000 128 r)
def readRing : Act Nat := physRead 0 0x90000 128
def nextHead (w : Work) : Work := ⟨modD w.cur (fun d => d.hostSet { d.host with lqhead := (d.host.lqhead + 1) % 2 ^ 32 }), w.stores⟩
def ringThen (r : Nat) (p : Work → Bool) : Bool :=
  hasDie0 (sRing r) && leaves readRing ⟨sRing r, []⟩ (fun x w => decide (x = r) && hasDie0 w.cur && p (nextHead w))
def launchIt (r : Nat) : Act (Option Launch) := readLaunch 0 0 0x90000 r
def refuseIt : Act Unit := writeState 0 0x90000 3 0xB0

theorem witness_LaunchRecords :
    (bitsOf 4 (fld (ringRec 2 0) 750 4) = [1] ∧ ringThen (ringRec 2 0) (fun _ => true) = true) ∧
    (bitsOf 4 (fld (ringRec 0 0) 750 4) = [] ∧ ringThen (ringRec 0 0) (fun w => gives refuseIt w (fun _ => true)) = true) ∧
    (bitsOf 4 (fld (ringRec 1 1) 750 4) = [0] ∧ ringThen (ringRec 1 1) (fun w => leaves (launchIt (ringRec 1 1)) w (fun r u =>
      decide (r = none) && gives refuseIt u (fun _ => true))) = true) ∧
    ringThen (ringRec 1 0) (fun w => gives (launchIt (ringRec 1 0)) w (fun r => r.isSome)) = true := by decide +kernel

/-- A command of the host is in progress on die 0, over this launch. -/
def sCmd (op arg : Nat) (f : Launch → Launch) : State := modL (modD sS (fun d => { d with host := { d.host with hcmd := some (op, arg) } })) f
def freeAll (s : State) : Act Unit := forM s.insts (fun i => freeBlock 0 i.2)
def endIt : Act Unit := endLaunch 0 4
def doneAll (s : State) : Act Unit := forM (s.switchers (lOf s) ++ s.resumers 0) commandDone
def abortEnds (s : State) : Bool :=
  leaves (freeAll s) ⟨s, []⟩ (fun _ w1 => leaves endIt ⟨(w1.cur.discardLaunch 0).setMem w1.cur.mem, w1.stores⟩ (fun _ w2 =>
    leaves (doneAll s) w2 (fun _ w3 => gives (commandDone 0) w3 (fun _ => true))))
def tlbState : State :=
  let s := sCmd 5 0 id
  modD s (fun d => { d with clusters := d.clusters.map (fun (c : Nat × Cluster) => (c.1, { c.2 with tlb := [] })) })
def seeAll : Act Unit := observeAll (fun i => i.die == 0 && i.phase == .pool) (fun w => w.2.2) (sCmd 5 0 id).insts

theorem witness_Commands :
    ((sCmd 4 0 id).named 0 0 = some (0, lOf (sCmd 4 0 id)) ∧ (sCmd 4 9 id).named 0 9 = none ∧ hasDie0 (sCmd 4 0 id) = true) ∧
    ((sCmd 3 0 (fun l => { l with state := 0 })).named 0 0 ≠ none ∨ (sCmd 3 0 (fun l => { l with out := true })).named 0 0 ≠ none) ∧
    ((sCmd 3 0 id).named 0 0 = some (0, lOf (sCmd 3 0 id)) ∧ (lOf (sCmd 3 0 id)).state ≠ 0 ∧ (lOf (sCmd 3 0 id)).out = false ∧
      (lOf (sCmd 3 0 id)).stopping = false) ∧
    ((sCmd 2 0 id).named 0 0 = some (0, lOf (sCmd 2 0 id)) ∧ (lOf (sCmd 2 0 id)).state = 1) ∧
    (let s := sCmd 2 0 (fun l => { l with stopping := true })
     s.named 0 0 = some (0, lOf s) ∧ (lOf s).stopping = true ∧ s.saveReady (s.gangsIn 0) = true ∧ abortEnds s = true) ∧
    leaves seeAll ⟨tlbState, []⟩ (fun _ w => gives (commandDone 0) w (fun _ => true)) = true := by decide +kernel

/-- Instance 0 is parked with this cause at 0xA0000, whose RESUME byte is m, and a RESUME is in progress. -/
def parkedOf (code : Nat) : Park := ⟨0, { Cause.zero with code := code }, 0, ⟨true, Cause.zero, 0, 0, [], 0⟩, some 0xA0000, 0, none⟩
def sResume (m code : Nat) (arg : Nat) : State :=
  let s := modI (sCmd 1 arg id) (fun i => { i with phase := .parked, park := some (parkedOf code) })
  s.setMem (Mem.put s.mem (0xA0000 + 20) 1 m)
def readMode : Act Nat := physRead 0 (0xA0000 + 20) 1
def setBlock (v : Nat) : Act Unit := blockState 0 0xA0000 v
def askMode (m code : Nat) : Act Unit := modInst 0 (fun i => { i with park := some { parkedOf code with resuming := some m } })
def leaveInst : Act Unit := modInst 0 (fun i => { i with
  phase := .aborted
  park := none
  unstarted := [] })
def dropAll (w : Work) (gangs : List Nat) : Act Unit := dropFailed gangs w.cur.slots
def modeThen (s : State) (m : Nat) (p : Work → Bool) : Bool := leaves readMode ⟨s, []⟩ (fun x w => decide (x = m) && p w)

theorem witness_ResumeCommand :
    ((sResume 0 0x04 0xA00).parkedAt 0 0xA0000 = some (0, iOf (sResume 0 0x04 0xA00)) ∧ fld 0xA00 0 40 * 256 = 0xA0000 ∧
      (sResume 0 0x04 0).parkedAt 0 0 = none ∧ (iOf (sResume 0 0x04 0xA00)).park = some (parkedOf 0x04) ∧
      (sResume 0 0x04 0xA00).insts.all (fun i => (i.2.park.map (fun p => p.resuming.isNone)).getD true) = true) ∧
    ((parkedOf 0x04).permits 3 = false ∧ modeThen (sResume 3 0x04 0xA00) 3 (fun w => gives (commandBad 0) w (fun _ => true)) = true) ∧
    ((parkedOf 0x0C).permits 2 = true ∧ (lOf (sResume 2 0x0C 0xA00)).state = 1 ∧ (lOf (sResume 2 0x0C 0xA00)).out = false ∧
      (lOf (sResume 2 0x0C 0xA00)).stopping = false ∧
      modeThen (sResume 2 0x0C 0xA00) 2 (fun w => leaves (setBlock 1) w (fun _ w2 => leaves (askMode 2 0x0C) w2 (fun _ w3 =>
        gives (finishResume 0) w3 (fun _ => true)))) = true) ∧
    modeThen (sResume 0xFF 0x0C 0xA00) 0xFF (fun w1 => leaves leaveInst w1 (fun _ w2 =>
      leaves (dropAll w2 (w1.cur.gangsOf 0)) w2 (fun _ w3 =>
        leaves (setBlock 3) ⟨(w3.cur.abandon (w1.cur.gangsOf 0)).setMem w3.cur.mem, w3.stores⟩ (fun _ w4 => gives (commandDone 0) w4 (fun _ => true))))) = true := by
  decide +kernel

/-! ## Hypotheses that are met: launches, gangs and partitions -/

/-- Launch 0 is pending on a booted die; nothing of it has started. -/
def sStart : State :=
  let s := modL (modD sS (fun d => { d with boot := { d.boot with bootsts := 1 } })) (fun l => { l with state := 0, dies := [] })
  { s with insts := [], gangs := [], groups := [], ctxs := [] }
def startDies : Tab (List Nat) := (sStart.freeDies (lOf sStart)).take 1
def startL : Launch := { lOf sStart with
  state := 1
  dies := startDies
  since := (sStart.die (lOf sStart).home).clk
  tethers := startDies.map (fun d => (d.1, Tether.fresh (sStart.die d.1).clk)) }
def tellStart : Act Unit := writeState 0 (lOf sStart).addr 1 0
def startAll : Act Unit := startNodes 0 (startDies.map (fun d => d.1)) (lOf sStart).nodes 0

/-- Instance 0 is ready and not admitted. -/
def sReady : State := modI sS (fun i => { i with phase := .ready 0, admitted := false })
def readEst : Act (Except Nat Nat) := readHome (sReady.schedPort 0 0) (sReady.estimateAt 0 0) 4
/-- Launch 0 is out, and launch 1 of a lower rank holds every partition of die 0. -/
def lowRank : Launch := { lOf sS with record := (lOf sS).record + 1000 * 2 ^ 768, dies := [(0, [0])] }
def sOut : State :=
  let s := modL sReady (fun l => { l with record := l.record + 2 ^ 743, out := true })
  modD { s with launches := Tab.set s.launches 1 lowRank } (fun d => { d with parts := [(0, 1), (1, 1), (2, 1), (3, 1)] })
/-- Launch 1 has run for a slice of 1 µs, and launch 0 of its rank is out. -/
def sSlice : State :=
  let s := modL sReady (fun l => { l with out := true })
  modD { s with launches := Tab.set s.launches 1 lowRank } (fun d => { d with clk := 1500000 })
/-- Instance 0 waits for a place for its gang (1, 0, 0), with or without a reservation. -/
def sPlace (rs : List Resv) : State :=
  let s := modD sS (fun d => { d with clusters := Tab.set d.clusters 0 { Tab.getD d.clusters 0 .off with powered := true } })
  { modI s (fun i => { i with unstarted := [(1, 0, 0)] }) with resvs := rs }
def resv1 (held : Bool) : Resv := ⟨0, 1, 0, 0, 0, 0, 1, held, 0, 0⟩
def reserveIt : Act Unit := reserve 0 1 0 0 (some 0)
def reserveAny : Act Unit := reserve 0 1 0 0 none
def commitIt : Act Unit := commitGang 0 1 0 0

theorem witness_LaunchAndDispatch :
    (Tab.find sStart.launches 0 = some (lOf sStart) ∧ (lOf sStart).state = 0 ∧
      fld (lOf sStart).record 736 3 ≤ (sStart.freeDies (lOf sStart)).length ∧ fld (lOf sStart).record 739 3 = 1 ∧
      leaves tellStart ⟨(sStart.takeParts 0 startDies).setLaunch 0 startL, []⟩ (fun _ w1 => leaves startAll w1 (fun _ w2 =>
        gives (endCheck 0) w2 (fun _ => true))) = true) ∧
    (hasDie0 sReady = true ∧ Tab.find sReady.insts 0 = some (iOf sReady) ∧ (iOf sReady).readyAt.isSome = true ∧ (iOf sReady).admitted = false ∧
      (sReady.die 0).powerHold = false ∧ (sReady.die 0).thermalHold = false ∧
      sReady.insts.all (fun j => !(sReady.dispatchBefore j (0, iOf sReady))) = true ∧
      sReady.admits (iOf sReady) (nodePrio (sReady.instNode 0)) 0 = true ∧ leaves readEst ⟨sReady, []⟩ (fun r w => (match r with
        | .ok x => decide (x = 0)
        | .error _ => false) && hasDie0 w.cur && (Tab.find w.cur.insts 0).isSome) = true) ∧
    (Tab.find sOut.launches 0 = some (lOf sOut) ∧ (lOf sOut).out = true ∧ sOut.outranks (lOf sOut) 0 = true ∧ sOut.lowestRanked 0 = some 1 ∧
      sOut.placing 1 = true ∧ (iOf sOut).readyAt.isSome = true) ∧
    (Tab.find sSlice.launches 1 = some lowRank ∧ sSlice.placing 1 = true ∧ fld lowRank.record 768 32 = 1000 ∧
      1000 * 1500 ≤ ((sSlice.die lowRank.home).clk + 2 ^ 64 - lowRank.since) % 2 ^ 64 ∧ (lOf sSlice).state = 1 ∧ (lOf sSlice).out = true ∧
      fld (lOf sSlice).record 743 4 = fld lowRank.record 743 4 ∧ (Tab.find lowRank.dies (iOf sSlice).die).isSome = true ∧
      (iOf sSlice).readyAt.isSome = true ∧ sSlice.launches.map (fun x => x.1) = [0, 1]) ∧
    gives reserveIt ⟨sPlace [], []⟩ (fun _ => true) = true ∧
    ((sPlace [resv1 true]).resvOf 0 1 0 0 = some (resv1 true) ∧ leaves commitIt ⟨sPlace [resv1 true], []⟩ (fun _ w =>
      gives (finishResume 0) w (fun _ => true)) = true) ∧
    ((sPlace [resv1 false]).resvOf 0 1 0 0 = some (resv1 false) ∧ gives reserveAny ⟨sPlace [resv1 false], []⟩ (fun _ => true) = true) ∧
    ((sPlace []).wantsPlace 0 1 0 0 = true ∧ Tab.find (sPlace []).insts 0 = some (iOf (sPlace [])) ∧
      (sPlace []).heldBack 0 (iOf (sPlace [])) = false ∧ (sPlace []).placeFor (lOf (sPlace [])) ((sPlace []).instNode 0) 0 = some (0, 1) ∧ (sPlace []).resvOf 0 1 0 0 = none ∧
      (sPlace []).windowFits [] ((sPlace []).instNode 0) 0 0 1 = true) := by decide +kernel

/-- Gang 0 is done; the instance is running or has no gang left; its launch may publish, or its counter is not mapped. -/
def sDone : State := modX (modG sS (fun g => { g with exited := true })) (fun x => { x with st := { x.st with ended := true } })
def endGang : Act Unit := endHolds 0
def retireAll : Act Unit := retireSlots (sDone.ownedBy 0)
def sLast (far : Bool) : State :=
  modL (modGa sDone (fun g => { g with placed := false, retired := true })) (fun l =>
    { l with regions := [1 + 2 ^ 16 + 2 ^ 32 + (if far then 2 ^ 45 else 0x60000) * 2 ^ 64] })
def publishAll (far : Bool) : Act (Option (Nat × Nat)) := publishRest ((sLast far).schedPort 0 0) 0
def weightOf : Act Unit := returnWeight 0 0
def retireInst : Act Unit := modInst 0 (fun i => { i with
  phase := .retired
  wgt := 0 })

theorem witness_GangsAndInstancesRetire :
    (Tab.find sDone.gangs 0 = some (gaOf sDone) ∧ (gaOf sDone).retired = false ∧ (gaOf sDone).placed = true ∧ sDone.instGoes 0 = true ∧
      sDone.gangDone 0 = true ∧ sDone.contHeld 0 (gaOf sDone) = false ∧ (gaOf sDone).handoffs = [] ∧
      leaves endGang ⟨sDone, []⟩ (fun _ w1 => leaves retireAll w1 (fun _ w2 => decide (w2.cur.ownedBy 0 = []) && (Tab.find w2.cur.gangs 0).isSome)) = true) ∧
    (Tab.find (sLast false).insts 0 = some (iOf (sLast false)) ∧ (iOf (sLast false)).phase = .running ∧ (iOf (sLast false)).bucket = false ∧
      (iOf (sLast false)).park = none ∧ (iOf (sLast false)).unstarted = [] ∧ (sLast false).gangsOf 0 = [] ∧ (sLast false).placing 0 = true ∧
      leaves (publishAll false) ⟨sLast false, []⟩ (fun r w1 => decide (r = none) && leaves (settleEnergy (iOf (sLast false)) (w1.cur.energyOf (iOf (sLast false)))) w1 (fun _ w2 => leaves weightOf w2 (fun _ w3 =>
        leaves retireInst w3 (fun _ w4 => gives (endCheck 0) w4 (fun _ => true))))) = true) ∧
    gives (publishAll true) ⟨sLast true, []⟩ (fun r => r.isSome) = true := by decide +kernel

/-- Group 0 stands at a step boundary; its launch may be asked to withdraw. -/
def sAtStep : State := modSt sS (fun t => { t with wait := .stepb none })
/-- The gang is on die 1 of two and has an entry still to perform: die 1 cannot withdraw yet. -/
def sStays : State :=
  let s := modL (sHead sAtStep 0 rangeEnt) (fun l => { l with dies := [(0, [0]), (1, [0])], withdraw := [1], safe := [0x40000] })
  modGa (modI s (fun i => { i with die := 1 })) (fun g => { g with die := 1 })
def goAway (s : State) : Act Bool := withdrawAll 0 (lOf s).dieSet.reverse
def sStop : State := modL sS (fun l => { l with stopping := true })
def allOut (s : State) : Work :=
  let gangs := s.gangsIn 0
  let s1 := (s.settleAll gangs).maskAll (lOf s) gangs
  let s2 := s1.setLaunch 0 { lOf s with
    out := true
    stopping := false }
  ⟨((s2.freeParts 0).gateAll (lOf s).dies).setMem s.mem, []⟩
def tellSwitchers : Act Unit := forM (sStop.switchers (lOf sStop)) commandDone
def sBackIn : State := modL sS (fun l => { l with out := true })

theorem witness_StepsAndPartitions :
    (sAtStep.placing 0 = true ∧ (sAtStep.groupsIn 0).all (fun g => g.2.exited || g.2.atStep) = true ∧
      (sAtStep.groupsIn 0).any (fun g => g.2.atStep) = true ∧ leaves (goAway sAtStep) ⟨sAtStep, []⟩ (fun b w1 => b &&
        leaves (addDies 0 4) w1 (fun _ w2 => (Tab.find w2.cur.launches 0).isSome)) = true) ∧
    (sStays.placing 0 = true ∧ (sStays.groupsIn 0).all (fun g => g.2.exited || g.2.atStep) = true ∧
      (sStays.groupsIn 0).any (fun g => g.2.atStep) = true ∧ gives (goAway sStays) ⟨sStays, []⟩ (fun b => !b) = true) ∧
    ((lOf sStop).state = 1 ∧ (lOf sStop).stopping = true ∧ (lOf sStop).out = false ∧ sStop.saveReady (sStop.gangsIn 0) = true ∧
      sStop.resvs = [] ∧ gives tellSwitchers (allOut sStop) (fun _ => true) = true) ∧
    (Tab.find sBackIn.launches 0 = some (lOf sBackIn) ∧ (lOf sBackIn).state = 1 ∧ (lOf sBackIn).out = true ∧
      sBackIn.partsOk (lOf sBackIn) [(0, [3])] = true ∧
      sBackIn.gangs.all (fun x => (Tab.find sBackIn.insts x.2.inst).isSome) = true) := by decide +kernel

/-- Instance 0 is to be parked with reason r in an area of n bytes at 0xA0000; the fault ring holds u entries. -/
def parkNew (r : Nat) : Park := ⟨r, Cause.zero, 0, ⟨true, Cause.zero, 0, 0, [], 0⟩, none, 0, none⟩
def sParkIn (r n u base : Nat) : State :=
  let s := modL sS (fun l => { l with record := l.record + 0xA0000 * 2 ^ 448 + n * 2 ^ 512 })
  let t := modD s (fun d => { d with host := { d.host with fqbase := base, fqctl := 4, fqtail := u } })
  modI t (fun i => { i with park := some (parkNew r) })
def parkFits (s : State) : Bool :=
  decide (Tab.find s.insts 0 = some (iOf s)) && s.saveReady (s.gangsOf 0) && hasDie0 s && !(s.die 0).host.fqwait && !(lOf s).out
def parkPlace (n : Nat) : Option Nat := placeBlock 0xA0000 n 192 (sParkIn 0 n 0 0xB0000).blocks
def sParked : State := sParkIn 0 256 0 0xB0000
def putHeader : Act Unit := physWrite 0 0xA0000 64 (blockHeader (iOf sParked) (parkNew 0) 0)
def putWords (w : Work) : Act Unit := physWrite 0 (0xA0000 + 64) 128 (w.cur.parkWords 0 (parkNew 0))
def putImage : Act Unit := physWrite 0 (0xA0000 + 192) 0 (ofBytes [])
def putFault : Act Unit := physWrite 0 0xB0000 16 (faultEntry (iOf sParked) (parkNew 0) 0xA0000)
def writtenBlock : Work :=
  let s := sParked
  let w1 := workOf putHeader ⟨((s.settleAll (s.gangsOf 0)).maskAll (lOf s) (s.gangsOf 0)).setMem s.mem, []⟩
  workOf putFault (workOf putImage (workOf (putWords w1) w1))
def vacated : Work :=
  let w4 := writtenBlock
  let s5 := modD w4.cur (fun d => d.hostSet { d.host with fqtail := (d.host.fqtail + 1) % 2 ^ 32 })
  let s6 := modI s5 (fun i => { i with
    phase := .parked
    park := some { parkNew 0 with
      block := some 0xA0000
      isize := 0 } })
  ⟨s6, w4.stores⟩
def leavePlaces : Act Unit := vacate (sParked.gangsOf 0)

theorem witness_ParkBlocks :
    (parkFits (sParkIn 0 0 0 0xB0000) = true ∧ parkPlace 0 = none) ∧
    (parkFits (sParkIn 0 256 16 0xB0000) = true ∧ parkPlace 256 = some 0xA0000 ∧
      2 ^ ((sParkIn 0 256 16 0xB0000).die 0).host.fqctl ≤ (16 + 2 ^ 32 - ((sParkIn 0 256 16 0xB0000).die 0).host.fqhead) % 2 ^ 32) ∧
    (parkFits (sParkIn 0 256 0 nowhere) = true ∧ (sParkIn 0 256 0 nowhere).target nowhere = none) ∧
    (parkFits sParked = true ∧ (sParked.target 0xB0000).isSome = true ∧ hasDie0 writtenBlock.cur = true ∧
      Tab.find writtenBlock.cur.insts 0 = some (iOf writtenBlock.cur) ∧ sParked.resvs = [] ∧
      leaves leavePlaces vacated (fun _ w6 => gives (notify 0 2) w6 (fun _ => true)) = true) := by decide +kernel

/-! ## Hypotheses that are met: steps, encodings and frames -/

/-- The state in which the turn of a stream begins, and its stream. -/
def sTurn (w : Nat) : State := State.reset.withFetchWord 32 w
def turnOf (ctl : Bool) : Turn := { clk := 0, act := if ctl then .control 0 else .scalar 0 }
def laneTurn : Turn := { clk := 0, act := .lane 0 0 }
def begun (ctl : Bool) (s : State) : State := s.begin (turnOf ctl) []
def whoOf (ctl : Bool) : Who := if ctl then .ctx 0 else .group 0
/-- Everything that lets the stream's word w be fetched and run. -/
def runsWord (ctl : Bool) (w : Nat) : Bool :=
  let s := State.reset.withFetchWord 32 w
  let s0 := begun ctl s
  !s.frozen && decide (s.agenda = [turnOf ctl]) && !s0.outranked (turnOf ctl).act && !s0.boundaryFirst (turnOf ctl).act &&
  (match s0.stream (whoOf ctl) with
  | none => false
  | some st =>
    !st.ended && !st.stopped && decide (st.held = none) && decide (st.dueNow = []) && decide (st.pc % 4 = 0) &&
    (match decodeFor ctl w with | .ok _ => true | .error _ => false) && decide (st.wait = .none) && !s0.broken (whoOf ctl) st.pc &&
    leaves (fetchWords (s0.portOf (whoOf ctl)) 1 st.pc) ⟨s0.setStream (whoOf ctl) st.tick, []⟩ (fun r w1 => (match r with
      | .ok x => decide (x = w)
      | .error _ => false) && (w1.cur.stream (whoOf ctl)).isSome))
/-- Everything that lets the lane word of fragment 0 be fetched and run. -/
def runsLane (w : Nat) : Bool :=
  let s := State.reset.withFetchWord 96 w
  let s0 := s.begin laneTurn []
  let g := gOf s0
  !s.frozen && decide (s.agenda = [laneTurn]) && !s0.outranked laneTurn.act && !s0.boundaryFirst laneTurn.act && decide (Tab.find s0.groups 0 = some g) && !g.st.stopped && decide (g.st.held = none) &&
  !g.st.tmode && g.run.active && decide (g.st.dueNow = []) &&
  (match g.run.frags[0]?, g.tickFrag 0 with
  | some fr, some g1 => decide (fr.wait = .none) && (match decodeLane w with | .ok _ => true | .error _ => false) &&
    leaves (fetchWords { s0.portOf (.group 0) with core := none } 3 (s0.laneAddr (.group 0) fr.pc)) ⟨s0.setGroup 0 g1, []⟩ (fun r w1 => (match r with
      | .ok x => decide (x = w)
      | .error _ => false) && decide (((Tab.find w1.cur.groups 0).bind (fun g2 => g2.run.frags[0]?)).isSome))
  | _, _ => false)
/-- A stream that waits in SLEEP with its word held. -/
def sHeldWord : State := modSt (State.reset.withFetchWord 32 0x08000000) (fun t => { t with wait := .sleep 3, word := 0x08070030 })
/-- The energy period of die 0 is over. -/
def late : State := modD (sTurn 0x04642800) (fun d => { d with clk := 1500000 })
def frozen1 : State := { sTurn 0x08000000 with frozen := true }

theorem witness_StepRunsTheIssuedInstruction :
    (State.reset.agenda = [] ∧ frozen1.agenda = turnOf false :: [] ∧ frozen1.frozen = true ∧ thaws (turnOf false).act = false ∧
      thaws (.event .thaw) = true) ∧
    (late.agenda = [turnOf false] ∧ (late.begin (turnOf false) []).boundaryFirst (turnOf false).act = true ∧
      ((sTurn 0x04642800).begin (turnOf false) []).boundaryFirst (.event .thaw) = false) ∧
    (runsWord false 0x04642800 = true ∧ runsWord true 0xF0804830 = true) ∧
    (((begun false sHeldWord).stream (.group 0)).map (fun t => (t.wait, t.word)) = some (.sleep 3, 0x08070030) ∧
      (match decodeFor false 0x08070030 with | .ok _ => true | .error _ => false) = true) ∧
    runsLane 0x14074102FE02000300000005 = true ∧
    (let s := sTurn 0x04642800
     let p := s.portOf (.group 0)
     (match s.translate p 0x40000 with
      | .leaf pte _ pa => bit pte 4 && decide (pa = 0x40000)
      | _ => false) = true ∧ s.target 0x40000 = some (.gddr p.die) ∧ s.walked p 0x40000 = s ∧ s.badAt 0x40000 4 = false ∧ s.corrAt 0x40000 4 = false) := by
  decide +kernel

theorem witness_Encodings :
    ((Instr.add 3 4 5).wellFormed = true ∧ encode (.add 3 4 5) = some (32, 0x04642800)) ∧
    ((Instr.ld ⟨3, 0, 7, 0, 6, 0x2, 0x0, 0x0, 0x60, 0x7, 0x40⟩).wellFormed = true ∧
      encode (.ld ⟨3, 0, 7, 0, 6, 0x2, 0x0, 0x0, 0x60, 0x7, 0x40⟩) = some (96, 0x603706020000600700000040)) ∧
    ((decodeTableWord 32 0x04642800).isSome = true ∧ (decodeTableWord 96 0x603706020000600700000040).isSome = true) := by decide +kernel

theorem witness_EveryStepKeepsMemoryCanonical :
    Safe (sTurn 0x04642800) ∧ after (step (sTurn 0x04642800)) (fun _ => true) = true := by
  unfold Safe; decide +kernel

theorem witness_ResetHoldsTheStatedValues : (0 : Nat) ∈ diesOf 1 ∧ 3 ∈ diesOf 1 ∧ 0 ∈ diesOf 0 ∧ (0x1000 : Nat) ≤ 0x1000 := by decide +kernel

theorem witness_ScalarWordsKeepTheRest :
    (Issues sS (.group 0) (tOf sS) ∧ after (exec (.add 1 2 3) sS) (fun _ => true) = true) ∧
    (Issues sC (.ctx 0) (txOf sC) ∧ after (exec (.brSet 3 0 5) sC) (fun _ => true) = true) ∧
    after (exec (.shlImm 1 2 63) sS) (fun _ => true) = true ∧ after (exec (.cmp 3 1 2) sS) (fun _ => true) = true ∧
    after (exec .yield sS) (fun _ => true) = true := by
  unfold Issues; decide +kernel

theorem witness_ScalarStoresKeepTheRest :
    let s := sAddr 0
    Safe s ∧ Issues s (.group 0) (tOf s) ∧ (tOf s).wait = .none ∧ after (exec (.sst 2 1 2 0) s) (fun _ => true) = true ∧
      (match s.translate (s.portOf (.group 0)) 0x40000 with
       | .leaf _ _ pa => decide (s.target pa = some (.gddr 0)) && decide ((s.portOf (.group 0)).die = 0)
       | _ => false) = true ∧ s.writeKey (s.portOf (.group 0)) 0x40000 = some 0x40000 ∧
      ((Tab.find s.groups 0).map Group.aldPending) = some false := by
  unfold Safe Issues; decide +kernel

theorem witness_LaneWordsKeepTheRest :
    (LaneReady sL (lw 4 62 0x9F 0xFF 0 62) true (typed2 (lw 4 62 0x9F 0xFF 0 62)) ∧
      after (exec (.iadd (lw 4 62 0x9F 0xFF 0 62)) sL) (fun _ => true) = true) ∧
    (LaneReady sPop (lw 9 0x41 2 0 0 63) false (plain2 (lw 9 0x41 2 0 0 63)) ∧
      after (exec (.fadd (lw 9 0x41 2 0 0 63)) sPop) (fun _ => true) = true) :=
  ⟨⟨laneReady_of (by decide +kernel), by decide +kernel⟩, laneReady_of (by decide +kernel), by decide +kernel⟩

/-! ## The manual's worked examples -/

/-- What a step from a state right after reset with this word placed leaves (see `State.withFetchWord`), with registers as given. -/
def stepWord (w : Nat) (rs : List (Nat × W64)) : Host.Outcome State Fault Refusal :=
  step (rs.foldl (fun s r => withReg s r.1 r.2) (State.reset.withFetchWord 32 w))

/-- 05_sequencer.md, after R139: `lea s6, s4, s5, 3` is 0x04C429B0, and with s4 = 0x1000 and s5 = 5 it writes 0x1028 to s6. -/
theorem test_lea_step : after (stepWord 0x04C429B0 [(4, 0x1000), (5, 5)]) (fun t =>
    decide ((tOf t).get 6 = 0x1028) && decide ((tOf t).pc = 0x40004) && decide ((tOf t).get 4 = 0x1000)) = true := by decide +kernel

/-- 05_sequencer.md, after R141: `cmp f0, s3, s4` with s3 all ones and s4 = 1 gives EQ 0, LT 1, LTN 0, OVF 0. -/
theorem test_cmp_negative : after (exec (.cmp 0 3 4) (withReg (withReg sS 3 0xFFFFFFFFFFFFFFFF) 4 1)) (fun t =>
    decide ((tOf t).flag 0 = ⟨false, true, false, false⟩)) = true := by decide +kernel
/-- The same with s3 = 2^63 gives OVF 1. -/
theorem test_cmp_overflow : after (exec (.cmp 0 3 4) (withReg (withReg sS 3 0x8000000000000000) 4 1)) (fun t =>
    decide ((tOf t).flag 0 = ⟨false, true, false, true⟩)) = true := by decide +kernel

/-- 04_numbers.md, after R120: 500.0 and +∞ go to 448 in E4M3, 2^−10 to +0, a NaN to the canonical NaN. -/
theorem test_to_e4m3 :
    satF fmtE4M3 (encodeF fmtE4M3 0 (decodeF fmt32 0x43FA0000)) = 0x7E ∧ satF fmtE4M3 (encodeF fmtE4M3 0 (decodeF fmt32 0x7F800000)) = 0x7E ∧
      satF fmtE4M3 (encodeF fmtE4M3 0 (decodeF fmt32 0x3A800000)) = 0 ∧ satF fmtE4M3 (encodeF fmtE4M3 0 (decodeF fmt32 0x7FC00000)) = 0x7F := by
  decide +kernel

/-- 04_numbers.md, after R132: the FP16 row gives 0x40286600, its value truncated below the window. -/
theorem test_aligned_sum :
    (alignedSum 10 10 16 false [0x4200, 0x2E66, 0x2801, 0xB800] [0x3C00, 0x3C00, 0x3C00, 0x3C00] [127, 127, 127, 127] [127, 127, 127, 127]
      127 127).map (encodeF fmt32 0) = some 0x40286600 := by decide +kernel

/-- 04_numbers.md, after R132: the LNS6 row gives 0x3F7C3400. -/
theorem test_log_sum :
    (logSum false [0x04, 0x23] [0x03, 0x02] [127, 127] [127, 127] 127 127).map (encodeF fmt32 0) = some 0x3F7C3400 := by decide +kernel

/-- 06_lanes.md, after R184: 1.0, 2^24, 1.0 and −2^24 in threads 0 to 3, alone in AMASK's place as the fragment. -/
def sFour : State := modFr (modG sL (fun g => { g with
  threads := (([0x3F800000, 0x4B800000, 0x3F800000, 0xCB800000] : List W32).zip (upFrom 0 4)).foldl (fun ts x =>
    Tab.set ts x.2 ⟨[(2, x.1)], 0, 0, .normal, false⟩) g.threads })) (fun f => { f with mask := 0xF })
/-- Register 63 of threads 0 to 3 of the group. -/
def four (t : State) : List W32 := (upFrom 0 4).map (fun n => Tab.getD ((gOf t).thread n).v 63 0)

theorem test_gred_order : after (exec (.gred (lw 9 2 0 0 0 63)) sFour) (fun t => decide (four t = [0, 0, 0, 0])) = true := by decide +kernel
theorem test_gscan_order :
    after (exec (.gscan (lw 9 2 0 0 0 63)) sFour) (fun t => decide (four t = [0x3F800000, 0x4B800000, 0x4B800000, 0])) = true ∧
    after (exec (.gscan (lw 9 2 0 8 0 63)) sFour) (fun t => decide (four t = [0x80000000, 0x3F800000, 0x4B800000, 0x4B800000])) = true := by
  decide +kernel

/-- 01_device.md, after R29: a phase that expects 3 arrivals keeps the status of the highest rank. -/
def sPhase : State :=
  let s := modGa sS (fun g => { g with nbar := 4 })
  s.setMem (Mem.put s.mem (barKey 0 16) 16 (3 + 0xFFFF * 2 ^ 96))
def threeArrivals : Act Unit := do
  arrive 0 16 1 0x02100041
  arrive 0 16 1 0x09600007
  arrive 0 16 1 0x00100042

theorem test_barrier_status : leaves threeArrivals ⟨sPhase, []⟩ (fun _ w =>
    let v := Mem.read w.cur.mem (barKey 0 16) 16
    decide (fld v 64 32 = 0x09600007) && decide (fld v 32 16 = 0) && decide (fld v 31 1 = 1)) = true := by decide +kernel

/-- 14_lantern.md, after R400: eight valid probes with other keys; the first of the least CONF, at position 1, is replaced. -/
theorem test_rcins_victim : insertAt 99 (([9, 3, 7, 5, 3, 8, 6, 4] : List Nat).map (fun c => 7 + c * 2 ^ 64 + 2 ^ 80)) = 1 := by decide +kernel

/-- 12_geometry.md: a bilinear patch of RATE 1.5 and EXPAND 2.0; nu = 16, nv = 7, buckets (0, 0) to (1, 0), Y0 of vertex (5, 1). -/
def examplePatch : Nat :=
  let pts := fun (t : Nat) (ps : List (Nat × Nat)) => ((upFrom 0 4).zip ps).foldl (fun a (x : Nat × Nat × Nat) =>
    a + x.2.1 * 2 ^ (8 * (128 + 192 * t + 12 * x.1)) + x.2.2 * 2 ^ (8 * (128 + 192 * t + 12 * x.1 + 4))) 0
  2 ^ 64 + 0x3FC00000 * 2 ^ 128 + 0x40000000 * 2 ^ 160 + pts 0 [(0, 0), (0x41C00000, 0), (0, 0x41200000), (0x41C00000, 0x41200000)] +
    pts 1 [(0x41000000, 0), (0x42000000, 0), (0x41000000, 0x41200000), (0x42000000, 0x41200000)]

theorem test_patch_rates :
    patchNu examplePatch = 16 ∧ patchNv examplePatch = 7 ∧ patchRect examplePatch 4 4 = some (0, 0, 1, 0) ∧
      surface examplePatch 0 0 (gridParam 5 16) (gridParam 1 7) = 0x40F00000 ∧ surface examplePatch 0 1 (gridParam 5 16) (gridParam 1 7) = 0x3FB6DB6E := by
  decide +kernel

/-- 15_sampler.md, after R418: a 4 × 4 texture at 0x10000 with a residency byte at 0x20000 and a latent at 0x30000. -/
def exampleTex : Nat := 0x10000 + 0x20000 * 2 ^ 64 + 0x30000 * 2 ^ 128 + 2 * 2 ^ 192 + 2 * 2 ^ 196
def sTexture (b : Nat) : State :=
  let row := 0xFF000000 + 0xFF0000FF * 2 ^ 32 + 0xFF0000FF * 2 ^ 64 + 0xFF0000FF * 2 ^ 96
  let rows := (upFrom 0 4).foldl (fun m i => Mem.put m (0x10000 + 64 * i) 16 row) sS.mem
  let dec := (upFrom 0 4).foldl (fun m c => Mem.put (Mem.put m (0x30000 + 16 * c) 2 0x3800) (0x30000 + 64 + 2 * c) 2 0x3400) rows
  sS.setMem (Mem.put (Mem.put dec (0x30000 + 128) 2 0x3C00) 0x20000 1 b)
def exampleSample (b : Nat) : Act (Except (Nat × Nat) TexOut) := texThread ⟨0, (sTexture b).engine 0, 0⟩ exampleTex 0 [0x3E99999A, 0x3F000000, 0]

theorem test_tex_resident : gives (exampleSample 1) ⟨sTexture 1, []⟩ (fun r => match r with
    | .ok o => decide (o.words = [0x3F330000, 0, 0, 0x3F800000]) && !o.approx
    | .error _ => false) = true := by decide +kernel
theorem test_tex_latent : gives (exampleSample 0) ⟨sTexture 0, []⟩ (fun r => match r with
    | .ok o => decide (o.words = [0x3F400000, 0x3F400000, 0x3F400000, 0x3F400000]) && o.approx
    | .error _ => false) = true := by decide +kernel

/-- 16_transform.md: a block of 8 bytes of zeros after LEN decodes to 32 samples of 0x800 with W = 12. -/
theorem test_raw_block : rawBlock 12 (fun _ => 2 ^ 11) 8 = some (List.replicate 32 0x800) := by decide +kernel

/-- 19_ballast.md, after R496: at ISSUED 2^63 − 2^24 a borrow is granted and ISSUED is 2^63; at 2^63 − 2^23 it is refused. -/
def sIssued (n : Nat) : State := { sWgt 1 0 with dies := Tab.set sS.dies 0 { sS.die 0 with roots := [(0, ⟨true, 0, 1, n, 0, []⟩)] } }
def askOne : Act (Option Bool) := askRoot 0 0
theorem test_borrow_at_the_limit :
    leaves askOne ⟨sIssued (2 ^ 63 - 2 ^ 24), []⟩ (fun r w => decide (r = some true) && decide ((w.cur.root 0).map (fun x => x.issued) = some (2 ^ 63)) &&
      decide (amtOf (gOf w.cur).wgt.toNat = 2 ^ 24 + 1)) = true ∧
    leaves askOne ⟨sIssued (2 ^ 63 - 2 ^ 23), []⟩ (fun r w => decide (r = some false) && decide (amtOf (gOf w.cur).wgt.toNat = 1)) = true := by
  decide +kernel

/-! ## Hypotheses that are met: entries on their last turn, and forms that complete in states given by their fields -/

/-- The entry is alone in queue q of group 0 and on its last turn. -/
def lastTurn (s : State) (q : Nat) (e : Ent) : Bool :=
  decide (Tab.find s.groups 0 = some (gOf s)) && decide (Tab.find s.gangs 0 = some (gaOf s)) && decide (((gOf s).queue q).ents = [e]) &&
  decide (((gOf s).queue q).halt = none) && s.instRuns (gaOf s).inst && !(gOf s).st.stopped && e.started && decide (e.op.bar = none) &&
  s.reached (gaOf s).die e.sent

theorem last_of {s : State} {q : Nat} {e : Ent} (h : lastTurn s q e = true) : LastTurn s 0 q (gOf s) (gaOf s) e [] := by
  unfold lastTurn at h
  simp only [Bool.and_eq_true, decide_eq_true_eq, Bool.not_eq_true'] at h
  exact ⟨h.1.1.1.1.1.1.1.1, h.1.1.1.1.1.1.1.2, h.1.1.1.1.1.1.2, h.1.1.1.1.1.2, h.1.1.1.1.2, h.1.1.1.2, Or.inl h.1.1.2, h.1.2, h.2⟩

/-- An entry of this kind that has begun and come to pos, at the head of queue q of the engines' state, is on its last turn there. -/
def LastOf (q : Nat) (op : EOp) (pos : Nat) : Prop :=
  LastTurn (sHead sEng q (mkBegun op pos)) 0 q (gOf (sHead sEng q (mkBegun op pos))) (gaOf (sHead sEng q (mkBegun op pos))) (mkBegun op pos) []

theorem lastOf_all {l : List (Nat × EOp × Nat)}
    (h : l.all (fun x => lastTurn (sHead sEng x.1 (mkBegun x.2.1 x.2.2)) x.1 (mkBegun x.2.1 x.2.2)) = true) :
    ∀ x ∈ l, LastOf x.1 x.2.1 x.2.2 :=
  fun x hx => last_of (List.all_eq_true.mp h x hx)

/-- What the entries of each queue have come to when they are done. -/
def lastL : List (Nat × EOp × Nat) :=
  [(0, .range 2 0x40000 64, 2), (1, .copy .plain copyBits 1, (copySectors (copyEls .plain copyBits [])).length), (2, feedOp, 0),
    (2, scaleOp, 0), (2, drainNone, 0)]
def lastG : List (Nat × EOp × Nat) :=
  [(3, diceOp, 1024), (3, fillOp, 1024), (3, spillOp, 1024), (3, greadOp1, 0), (3, gwriteOp1, 0), (4, flushOp bind1, 512),
    (4, .sgrid bind1 0 0 (slot0 sEng) 0 none, 65536), (4, resolveOp 0x80000, 1024), (4, .scover bind1 0 0 (slot0 sEng) 8 [] 0, 0),
    (4, .sread bind1 8 (targ [0]) 0, 1), (4, .swrite bind1 true (targ [0]) 0, 1)]
def lastY : List (Nat × EOp × Nat) :=
  [(5, traceOp bvhBits helperArg, 1), (5, .hitget bvhBits 1 8 (targ [4]) 0, 1), (5, .rclook bvhBits 8 (targ [0]) 0, 1),
    (5, .rcins bvhBits (targ [0]) 0, 1), (5, .rcfade bvhBits 128 none, 8), (6, texEnt.op, 1), (6, texqEnt.op, 1)]
def lastX : List (Nat × EOp × Nat) :=
  [(7, .pack 0x70000 8 [] 0, 0), (7, .xraw 0x70000 8 true 8 [] 0, 0), (7, .xfclr sfBits 0 33, 33), (7, .xdelta sfBits 0 0 1, 1),
    (7, .xdcmp sfBits 0, 1), (8, .ktwin 1024, 0), (8, .kpeal 0 15 none, 128), (8, .krst true false, 0), (8, launchOp true, 0),
    (8, captOp, 0), (9, .deposit [], 0), (9, .qretw 0, 0)]

theorem witness_RangeCopyAndFeedEntriesEnd :
    (∀ x ∈ lastL, LastOf x.1 x.2.1 x.2.2) ∧ bit copyBits 146 = false ∧
    (let s := sHead sEng 2 (mkBegun feedOp 0)
     Tab.find ((gaOf s).matrixOf (gOf s).id.pos).fill.rows 127 = none ∧ (Tab.find s.ctxs 0).all (fun c => decide (c.queue.ents = [])) = true) ∧
    Tab.find ((gaOf (sHead sEng 2 (mkBegun drainNone 0))).matrixOf (gOf (sHead sEng 2 (mkBegun drainNone 0))).id.pos).accs 8 = none :=
  ⟨lastOf_all (by decide +kernel), by decide +kernel⟩

theorem witness_GridEntriesEnd :
    (∀ x ∈ lastG, LastOf x.1 x.2.1 x.2.2) ∧ ((sHead sEng 3 (mkBegun greadOp1 0)).slotAt (slot0 sEng)).state ≠ .sampled ∧
    [(3, greadOp1, 0), (4, .sgrid bind1 0 0 (slot0 sEng) 0 none, 65536)].all (fun (x : Nat × EOp × Nat) =>
      (sHead sEng x.1 (mkBegun x.2.1 x.2.2)).gridReadyFor (slot0 sEng) 0) = true :=
  ⟨lastOf_all (by decide +kernel), by decide +kernel⟩

/-- An entry of queue X or K is alone on the machine. -/
def alone (x : Nat × EOp × Nat) : Bool :=
  let s := sHead sEng x.1 (mkBegun x.2.1 x.2.2)
  decide (s.groups = [(0, gOf s)]) && decide (s.sramBad = []) && decide (s.sramCorr = [])
def colDone : Ent := { mkBegun (.colour 1 0x70000 8 [] 0) 0 with buf := [0] }
/-- The group has lost its memory chain. -/
def sPoisoned : State := modG (sHead sEng 7 (mkBegun (.xraw 0x70000 8 true 8 [] 0) 0)) (fun g => { g with poison := true })

theorem witness_LaneEngineEntriesEnd :
    (∀ x ∈ lastY, LastOf x.1 x.2.1 x.2.2) ∧ (∀ x ∈ lastX, LastOf x.1 x.2.1 x.2.2) ∧
    (LastTurn (sHead sEng 7 colDone) 0 7 (gOf (sHead sEng 7 colDone)) (gaOf (sHead sEng 7 colDone)) colDone [] ∧
      Sole (sHead sEng 7 colDone) 0 (gOf (sHead sEng 7 colDone)) colDone) ∧
    (lastX.all alone = true ∧ (packBits 8 []).1 = 0 ∧ amtOf (0 : W64).toNat = 0 ∧
      (gOf (sHead sEng 5 (mkBegun (traceOp bvhBits helperArg) 1))).run.frags.all (fun f => decide (f.wait = .none)) = true) ∧
    (lastTurn sPoisoned 7 (mkBegun (.xraw 0x70000 8 true 8 [] 0) 0) = true ∧ sPoisoned.groups = [(0, gOf sPoisoned)] ∧
      (gOf sPoisoned).poison = true) :=
  ⟨lastOf_all (by decide +kernel), lastOf_all (by decide +kernel), ⟨last_of (by decide +kernel), by unfold Sole; decide +kernel⟩,
    by decide +kernel, by decide +kernel⟩

/-- The cluster holds a translation of an uncached page at 0. -/
def held0 : Tlb := ⟨0x1000, 0, 30, 0x7F, 0⟩
def sHeld (s : State) : State := modD s (fun d => { d with clusters := Tab.set d.clusters 0 { Cluster.off with tlb := [held0] } })
def sTaken : State := modX (sHeld sMma) (fun x => { x with queue := { x.queue with ents := [{ mkEnt mmaOp 0 with reads := [(0, 0)] }] } })
def plainly (s : State) (p : Port) (va n : Nat) : Bool :=
  decide (va < 2 ^ 48) && decide (s.kept p va = some held0) && decide (s.target (held0.pa va) = some (.gddr p.die)) &&
  !s.badAt (held0.pa va) n && !s.corrAt (held0.pa va) n

theorem plain_of {s : State} {p : Port} {va n : Nat} (h : plainly s p va n = true) : s.plainAt p va n := by
  unfold plainly at h
  simp only [Bool.and_eq_true, decide_eq_true_eq, Bool.not_eq_true'] at h
  exact ⟨h.1.1.1.1, held0, h.1.1.1.2, by decide, by decide, h.1.1.2, h.1.2, h.2⟩

theorem witness_ContextEntriesEnd :
    (CtxHeadPerforms (sHeld sLoadB) 0 (xOf (sHeld sLoadB)) (gaOf (sHeld sLoadB)) (mkEnt loadOp 0) [] ∧ (mkEnt loadOp 0).report = none ∧
      shBrsa (matBits true) = 0 ∧ shBcsa (matBits true) = 0 ∧
      (∀ x ∈ namedCores (matBits true), ∀ i ∈ List.range (shK (matBits true)), ∀ j ∈ List.range (shN (matBits true)),
        (sHeld sLoadB).plainAt ((sHeld sLoadB).portOf (.ctx 0))
          (elemVA ((shBbase (matBits true) + 0) % 2 ^ 64)
            ((i : Int) * shBrs (matBits true) + (((x.1 % 4) * shN (matBits true) + j) * shBes (matBits true) * matSize (shBfmt (matBits true)) : Nat)))
          (matSize (shBfmt (matBits true))))) ∧
    (CtxHeadPerforms sTaken 0 (xOf sTaken) (gaOf sTaken) { mkEnt mmaOp 0 with reads := [(0, 0)] } [] ∧
      shAsrc (matBits true) = false ∧ shAcsa (matBits true) = 0 ∧
      (feedersOf false (matBits true)).all (fun f => (Tab.find ([(0, 0)] : Tab Nat) f).isSome) = true ∧ sTaken.sramBad = [] ∧ sTaken.sramCorr = []) ∧
    CtxHeadPerforms (sCtxHead zeroOp) 0 (xOf (sCtxHead zeroOp)) (gaOf (sCtxHead zeroOp)) (mkEnt zeroOp 0) [] := by
  unfold CtxHeadPerforms
  exact ⟨⟨by decide +kernel, by decide +kernel, by decide +kernel, by decide +kernel, fun x hx i hi j hj => plain_of
      (List.all_eq_true.mp (List.all_eq_true.mp (List.all_eq_true.mp (show ((namedCores (matBits true)).all (fun x =>
        (List.range (shK (matBits true))).all (fun i => (List.range (shN (matBits true))).all (fun j => plainly (sHeld sLoadB)
          ((sHeld sLoadB).portOf (.ctx 0)) (elemVA ((shBbase (matBits true) + 0) % 2 ^ 64) ((i : Int) * shBrs (matBits true) +
            (((x.1 % 4) * shN (matBits true) + j) * shBes (matBits true) * matSize (shBfmt (matBits true)) : Nat))) (matSize (shBfmt (matBits true)))))))
        = true by decide +kernel) x hx) i hi) j hj)⟩, by decide +kernel, by decide +kernel⟩

/-- Slot 0 is SAMPLED with nothing left, and its patch record lies on a page that is held. -/
def sSampled0 : State := sHeld (sSlotIn .sampled)
/-- Bank 0 of core 0 is in mode 1, and s1 and s2 name it and that mode; the launch is privileged, and s1 holds WMASK. -/
def sKeepBank : State := withReg (withReg (modGa sS (fun g => { g with hold := [(0, [1])] })) 1 0) 2 1
def sKeepWays : State :=
  let s := { sS with launches := sS.launches.map (fun x => (x.1, { x.2 with record := x.2.record + 2 ^ 742 })) }
  withReg s 1 (BitVec.ofNat 64 (s.die 0).wmask)

theorem witness_ModeAndGridWordsAnswer :
    (Issues sS (.group 0) (tOf sS) ∧ (tOf sS).wait = .none) ∧
    (GangIssues sKeepBank 0 (gOf sKeepBank) (gaOf sKeepBank) ∧ (tOf sKeepBank).tmode = false ∧ (gOf sKeepBank).noRun ∧ (gOf sKeepBank).settled = true ∧
      ((tOf sKeepBank).get 1).toNat = 0 ∧ (gaOf sKeepBank).cores = 1 ∧ (Tab.getD (gaOf sKeepBank).hold 0 []) = [1] ∧ (gaOf sKeepBank).nbar = 0 ∧
      ((tOf sKeepBank).get 2).toNat = 1) ∧
    (GangIssues sKeepWays 0 (gOf sKeepWays) (gaOf sKeepWays) ∧ sKeepWays.privileged (.group 0) = true ∧ (gOf sKeepWays).settled = true ∧
      Tab.find sKeepWays.dies (gaOf sKeepWays).die = some (sKeepWays.die 0) ∧ (sKeepWays.die 0).wmask < 2 ^ 16 ∧ popcount 16 (sKeepWays.die 0).wmask ≤ 12 ∧
      ((tOf sKeepWays).get 1).toNat = (sKeepWays.die 0).wmask) := by
  unfold Issues GangIssues GroupIssues Group.noRun; decide +kernel

/-- PATCH, SPLIT, GBOUND, BSPILL, the raster words and DICE and BFILL on a HANDLE of KIND 0 or 2 have theirs in witness_Patch,
witness_Split, witness_GboundAndSpill, witness_RasterWords, witness_DiceTakesASlot and witness_DiceAnswers. -/
theorem witness_FormsCompleteFromTheirState :
    let s := sSampled0
    let k := slot0 sEng
    s.slotIdle k = true ∧ (s.slotAt k).holders = [] ∧ (s.slotAt k).oldGen = none ∧ (s.slotAt k).failed = false ∧
      (s.slotAt k).state = .sampled ∧ hdRemain (s.gridHead k) = 0 ∧ hdPatch (s.gridHead k) = 0 ∧ s.kept (s.slotPort k) 0 = some held0 ∧
      (bit held0.pte 2 && bit held0.pte 3 && bit held0.pte 5 && decide (fld held0.pte 6 2 = 1)) = true ∧
      s.target (held0.pa 0) = some (.gddr (s.slotPort k).die) ∧ s.badAt (held0.pa 0) 8 = false ∧ s.corrAt (held0.pa 0) 8 = false ∧
      s.toldOf (s.slotPort k).die (held0.pa 0) 8 = false := by
  decide +kernel

end Sys2Proof.Tests
end

section
/-! SUPPORT. Memory is little-endian (R6): a number as its bytes lowest first, what `Mem.put` leaves at every address,
what `Mem.read` gathers, and the decoder reading a word from its bytes. -/

namespace Sys2Proof.Machine

open Sys2Proof

/-! ## A number as its bytes, the lowest first -/

theorem upFrom_eq_range' (a n : Nat) : upFrom a n = List.range' a n := by
  induction n generalizing a with
  | zero => rfl
  | succ n ih => rw [upFrom, ih, List.range'_succ]

@[simp] theorem mem_upFrom {i a n : Nat} : i ∈ upFrom a n ↔ a ≤ i ∧ i < a + n := by
  rw [upFrom_eq_range', List.mem_range'_1]

/-- A list over `upFrom 0` has its first element and then those of the shifted function. -/
theorem map_upFrom_succ {α : Type} (f : Nat → α) (n : Nat) :
    (upFrom 0 (n + 1)).map f = f 0 :: (upFrom 0 n).map (fun i => f (i + 1)) := by
  simp [upFrom_eq_range', List.range'_succ, List.range'_eq_map_range, Nat.add_comm]

@[simp] theorem length_toBytes (n v : Nat) : (toBytes n v).length = n := by
  induction n generalizing v with
  | zero => rfl
  | succ n ih => rw [toBytes, List.length_cons, ih]

/-- Dropping the lowest byte moves every other one place down. -/
theorem div_256_div_pow (v i : Nat) : v / 256 / 2 ^ (8 * i) = v / 2 ^ (8 * (i + 1)) := by
  rw [Nat.div_div_eq_div_mul, Nat.mul_add, Nat.pow_add, Nat.mul_comm]

theorem toBytes_eq_map (n v : Nat) :
    toBytes n v = (upFrom 0 n).map (fun i => BitVec.ofNat 8 (v / 2 ^ (8 * i))) := by
  induction n generalizing v with
  | zero => rfl
  | succ n ih => simp [toBytes, map_upFrom_succ, ih, div_256_div_pow]

@[simp] theorem ofBytes_nil : ofBytes [] = 0 := rfl

@[simp] theorem ofBytes_cons (b : Byte) (bs : List Byte) : ofBytes (b :: bs) = b.toNat + 256 * ofBytes bs := rfl

/-- The bytes of a number give back its low bits. -/
theorem ofBytes_toBytes (n v : Nat) : ofBytes (toBytes n v) = v % 2 ^ (8 * n) := by
  induction n generalizing v with
  | zero => simp [toBytes, Nat.mod_one]
  | succ n ih =>
    rw [toBytes, ofBytes_cons, ih, BitVec.toNat_ofNat, Nat.mul_add, Nat.add_comm (8 * n), Nat.pow_add,
      Nat.mod_mul]

/-! ## The decoder on the bytes of a word -/

theorem decodeLaneBytes_toBytes (w : Nat) : decodeLaneBytes (toBytes 12 w) = decodeLane (w % 2 ^ 96) := by
  show decodeLane (ofBytes ((toBytes 12 w).take 12)) = _
  rw [List.take_of_length_le (Nat.le_of_eq (length_toBytes 12 w)), ofBytes_toBytes]

theorem decodeScalarBytes_toBytes (w : Nat) : decodeScalarBytes (toBytes 4 w) = decodeScalar (w % 2 ^ 32) := by
  show decodeScalar (ofBytes ((toBytes 4 w).take 4)) = _
  rw [List.take_of_length_le (Nat.le_of_eq (length_toBytes 4 w)), ofBytes_toBytes]

/-! ## Every address after a write -/

/-- Above its first address, a range of n + 1 bytes is the range of n bytes from the next address. -/
theorem inside_succ {k n a : Nat} (h : k < a) : (k + 1 ≤ a ∧ a < k + 1 + n) ↔ (k ≤ a ∧ a < k + (n + 1)) := by omega

theorem sub_eq_sub_succ {k a : Nat} (h : k < a) : a - k = a - (k + 1) + 1 := by omega

theorem get_write {m : List Host.Cell} (k n v : Nat) (h : Mem.wf m = true) (a : Nat) :
    Mem.get (Mem.write m k n v) a =
      if k ≤ a ∧ a < k + n then BitVec.ofNat 8 (v / 2 ^ (8 * (a - k))) else Mem.get m a := by
  induction n generalizing m k v with
  | zero => simp [Mem.write, show ¬(k ≤ a ∧ a < k) by omega]
  | succ n ih =>
    rw [Mem.write, ih (k + 1) (v / 256) (wf_set k _ h), get_set h]
    obtain hlt | rfl | hgt := Nat.lt_trichotomy a k
    · rw [if_neg (by omega), if_neg (by omega), if_neg (by omega)]
    · rw [if_neg (by omega), if_pos rfl, if_pos (by omega), Nat.sub_self, Nat.mul_zero, Nat.pow_zero, Nat.div_one]
    · simp only [inside_succ hgt, sub_eq_sub_succ hgt, div_256_div_pow, Nat.ne_of_gt hgt, if_false]

/-- Keeping the cells whose address has a property leaves the bytes there and clears the others. -/
theorem get_filter (p : Nat → Bool) (m : List Host.Cell) (a : Nat) :
    Mem.get (m.filter (fun c => p c.1)) a = if p a = true then Mem.get m a else 0 := by
  induction m with
  | nil => simp [Mem.get]
  | cons c t ih =>
    obtain ⟨x, b⟩ := c
    by_cases hx : x = a
    · subst hx
      by_cases hp : p x = true <;> simp [Mem.get, hp, ih]
    · by_cases hp : p x = true <;> simp [Mem.get, hp, ih, hx]

theorem get_clear (m : List Host.Cell) (k n a : Nat) :
    Mem.get (Mem.clear m k n) a = if k ≤ a ∧ a < k + n then 0 else Mem.get m a := by
  rw [Mem.clear, get_filter (fun j => !(decide (k ≤ j) && decide (j < k + n)))]
  by_cases ha : k ≤ a ∧ a < k + n
  · simp [ha]
  · rw [if_neg ha, ← Bool.decide_and, decide_eq_false ha, Bool.not_false, if_pos rfl]

/-- R6: after a write the lowest byte stands at the lowest address, and every byte outside is as before. -/
theorem get_put {m : List Host.Cell} (k n v : Nat) (h : Mem.wf m = true) (a : Nat) :
    Mem.get (Mem.put m k n v) a =
      if k ≤ a ∧ a < k + n then BitVec.ofNat 8 (v / 2 ^ (8 * (a - k))) else Mem.get m a := by
  unfold Mem.put
  split
  next hv => simp [get_clear, hv]
  next => exact get_write k n v h a

theorem get_put_inside {m : List Host.Cell} {k n i : Nat} (v : Nat) (h : Mem.wf m = true) (hi : i < n) :
    Mem.get (Mem.put m k n v) (k + i) = BitVec.ofNat 8 (v / 2 ^ (8 * i)) := by
  simp [get_put k n v h, hi]

theorem get_put_outside {m : List Host.Cell} {k n a : Nat} (v : Nat) (h : Mem.wf m = true) (ha : a < k ∨ k + n ≤ a) :
    Mem.get (Mem.put m k n v) a = Mem.get m a := by
  rw [get_put k n v h, if_neg (by omega)]

/-! ## A read gathers the bytes at its addresses -/

/-- What a listed cell adds to a read. -/
def readTerm (k n : Nat) (c : Host.Cell) : Nat := if k ≤ c.1 ∧ c.1 < k + n then c.2.toNat * 2 ^ (8 * (c.1 - k)) else 0

theorem read_eq_sum (m : List Host.Cell) (k n : Nat) : Mem.read m k n = (m.map (readTerm k n)).sum := by
  have hstep : (fun (acc : Nat) (c : Host.Cell) =>
      if k ≤ c.1 ∧ c.1 < k + n then acc + c.2.toNat * 2 ^ (8 * (c.1 - k)) else acc) = fun acc c => acc + readTerm k n c := by
    funext acc c
    unfold readTerm
    split <;> rfl
  rw [Mem.read, hstep, List.sum_eq_foldl, List.foldl_map]

theorem read_cons (c : Host.Cell) (t : List Host.Cell) (k n : Nat) :
    Mem.read (c :: t) k n = readTerm k n c + Mem.read t k n := by
  simp only [read_eq_sum, List.map_cons, List.sum_cons]

theorem read_zero (m : List Host.Cell) (k : Nat) : Mem.read m k 0 = 0 := by
  induction m with
  | nil => rfl
  | cons c t ih => rw [read_cons, ih, readTerm, if_neg (by omega)]

theorem readTerm_at (k n : Nat) (b : Byte) : readTerm k (n + 1) (k, b) = b.toNat := by simp [readTerm]

theorem readTerm_below {k n a : Nat} (b : Byte) (h : a < k) : readTerm k n (a, b) = 0 := if_neg (by simp; omega)

theorem readTerm_elsewhere {k n a : Nat} (b : Byte) (h : a ≠ k) :
    readTerm k (n + 1) (a, b) = 256 * readTerm (k + 1) n (a, b) := by
  obtain hlt | hgt := Nat.lt_or_gt_of_ne h
  · rw [readTerm_below b hlt, readTerm_below b (by omega)]
  · simp only [readTerm, inside_succ hgt, sub_eq_sub_succ hgt]
    split
    · rw [Nat.mul_add, Nat.pow_add, ← Nat.mul_assoc, Nat.mul_comm 256]
    · rfl

/-- R6: a read is its first byte and, 256 times as high, the read of the bytes above. -/
theorem read_succ {m : List Host.Cell} {lo : Nat} (h : Mem.wfFrom lo m = true) (k n : Nat) :
    Mem.read m k (n + 1) = (Mem.get m k).toNat + 256 * Mem.read m (k + 1) n := by
  induction m generalizing lo with
  | nil => rfl
  | cons c t ih =>
    obtain ⟨a, b⟩ := c
    simp only [Mem.wfFrom, Bool.and_eq_true] at h
    obtain ⟨-, ht⟩ := h
    rw [read_cons, read_cons, ih ht, Mem.get]
    by_cases ha : a = k
    · subst ha
      simp [readTerm_at, readTerm_below, get_below ht]
    · rw [readTerm_elsewhere b ha, if_neg ha, Nat.mul_add, Nat.add_left_comm]

theorem read_eq_ofBytes {m : List Host.Cell} (h : Mem.wf m = true) (k n : Nat) :
    Mem.read m k n = ofBytes ((upFrom 0 n).map (fun i => Mem.get m (k + i))) := by
  induction n generalizing k with
  | zero => exact read_zero m k
  | succ n ih =>
    rw [read_succ h, ih, map_upFrom_succ, ofBytes_cons]
    simp [Nat.add_comm, Nat.add_left_comm]

theorem read_put {m : List Host.Cell} (k n v : Nat) (h : Mem.wf m = true) :
    Mem.read (Mem.put m k n v) k n = v % 2 ^ (8 * n) := by
  have hbytes : (upFrom 0 n).map (fun i => Mem.get (Mem.put m k n v) (k + i)) = toBytes n v := by
    rw [toBytes_eq_map]
    exact List.map_congr_left fun i hi => get_put_inside v h (by simpa using hi)
  rw [read_eq_ofBytes (wf_put k n v h), hbytes, ofBytes_toBytes]

/-- Settles O13: the words by their bytes, the memory by what every address holds after a write. -/
theorem memoryHoldsWhatIsWritten : Obligations.MemoryHoldsWhatIsWritten := by
  unfold Obligations.MemoryHoldsWhatIsWritten
  refine ⟨fun w => ?_, fun w => ?_, fun m k n v h => ⟨wf_put k n v h, ?_, ?_, read_put k n v h⟩⟩
  · rw [← toBytes_eq_map, decodeLaneBytes_toBytes]
  · rw [← toBytes_eq_map, decodeScalarBytes_toBytes]
  · exact fun i hi => get_put_inside v h hi
  · exact fun a ha => get_put_outside v h ha

end Sys2Proof.Machine
end

section
/-! SUPPORT. The scalar sequencer (R133 to R148): what a word of a stream does by the flow it answers, the word operations
as integers, comparisons, and the loop hardware. -/

namespace Sys2Proof.Machine

open Sys2Proof

/-! ## A word of a stream by its flow -/

section

variable {s : State} {u : Who} {st t : Stream} {f : Stream → Flow}

theorem onStream_next (hi : Issues s u st) (hf : f st = .next t) :
    onStream f s = .next (s.setStream u (s.stepped u st.pc t.complete)) := by
  rw [onStream_eq hi.1 hi.2, hf]

theorem onStream_jump {pc : Nat} (hi : Issues s u st) (hf : f st = .jump t pc) :
    onStream f s = .next (s.setStream u (s.stepped u st.pc (t.jump pc))) := by
  rw [onStream_eq hi.1 hi.2, hf]

theorem onStream_raise {code : Nat} (hi : Issues s u st) (hf : f st = .raise code) :
    onStream f s = .next (s.raise u (Cause.atWord code st.pc 0)) := by
  rw [onStream_eq hi.1 hi.2, hf]

end

/-! ## Scalar registers -/

theorem Stream.get_zero (st : Stream) : st.get 0 = 0 := rfl

theorem Stream.put_zero (st : Stream) (v : W64) : st.put 0 v = st := rfl

theorem Stream.put_tmode (st : Stream) (n : Nat) (v : W64) : (st.put n v).tmode = st.tmode := by
  unfold Stream.put
  split
  · rfl
  · split <;> rfl

/-- The table that holds register n: the trap bank or the ordinary registers (R133, R261). -/
def Stream.bankOf (st : Stream) (n : Nat) : Tab W64 := if st.tmode && decide (24 ≤ n) then st.bank else st.regs

theorem Stream.get_eq_bankOf (st : Stream) {n : Nat} (hn : n ≠ 0) : st.get n = Tab.getD (st.bankOf n) n 0 := by
  rw [Stream.get, if_neg hn, Stream.bankOf]
  split <;> rfl

/-- A write goes to the table of its register and leaves the other one. -/
theorem Stream.bankOf_put (st : Stream) {n : Nat} (hn : n ≠ 0) (m : Nat) (v : W64) :
    (st.put n v).bankOf m = if (st.tmode && decide (24 ≤ m)) = (st.tmode && decide (24 ≤ n))
      then Tab.set (st.bankOf m) n v else st.bankOf m := by
  unfold Stream.bankOf
  rw [Stream.put_tmode, Stream.put, if_neg hn]
  cases st.tmode && decide (24 ≤ m) <;> cases st.tmode && decide (24 ≤ n) <;> rfl

theorem Stream.get_put_same (st : Stream) {n : Nat} (hn : n ≠ 0) (v : W64) : (st.put n v).get n = v := by
  rw [Stream.get_eq_bankOf _ hn, Stream.bankOf_put st hn, if_pos rfl, Tab.getD_set_same]

theorem Stream.get_put_ne (st : Stream) {n m : Nat} (hm : m ≠ n) (v : W64) : (st.put n v).get m = st.get m := by
  by_cases hn : n = 0
  · rw [hn, Stream.put_zero]
  by_cases hm0 : m = 0
  · rw [hm0, Stream.get_zero, Stream.get_zero]
  rw [Stream.get_eq_bankOf _ hm0, Stream.get_eq_bankOf _ hm0, Stream.bankOf_put st hn]
  split
  · exact Tab.getD_set_ne _ v 0 hm
  · rfl

theorem scalarRegistersHoldWhatIsWritten : ScalarRegistersHoldWhatIsWritten := fun st _ _ v =>
  ⟨Stream.put_zero st v, Stream.get_zero _, fun hn => Stream.get_put_same st hn v, fun hm => Stream.get_put_ne st hm v⟩

/-! ## The word operations, as integers wrapped to 64 bits -/

section

variable (x y : W64)

theorem add_eq_ofNat : x + y = BitVec.ofNat 64 (x.toNat + y.toNat) := by
  rw [BitVec.ofNat_add, BitVec.ofNat_toNat, BitVec.ofNat_toNat, BitVec.setWidth_eq, BitVec.setWidth_eq]

theorem sub_eq_ofInt : x - y = BitVec.ofInt 64 (x.toInt - y.toInt) :=
  BitVec.eq_of_toInt_eq (by rw [BitVec.toInt_sub, BitVec.toInt_ofInt])

theorem mul_eq_ofInt : x * y = BitVec.ofInt 64 (x.toInt * y.toInt) := by
  rw [BitVec.ofInt_mul, BitVec.ofInt_toInt, BitVec.ofInt_toInt]

theorem shiftLeft_eq_ofNat (n : Nat) : x <<< n = BitVec.ofNat 64 (x.toNat * 2 ^ n) :=
  BitVec.eq_of_toNat_eq (by rw [BitVec.toNat_shiftLeft, BitVec.toNat_ofNat, Nat.shiftLeft_eq])

theorem ushiftRight_eq_ofNat (n : Nat) : x >>> n = BitVec.ofNat 64 (x.toNat / 2 ^ n) :=
  BitVec.eq_of_toNat_eq (by
    rw [BitVec.toNat_ushiftRight, BitVec.toNat_ofNat, Nat.shiftRight_eq_div_pow,
      Nat.mod_eq_of_lt (Nat.lt_of_le_of_lt (Nat.div_le_self _ _) x.isLt)])

theorem sshiftRight_eq_ofInt (n : Nat) : x.sshiftRight n = BitVec.ofInt 64 (x.toInt / 2 ^ n) := by
  rw [BitVec.sshiftRight_eq, Int.shiftRight_eq_div_pow, Int.natCast_pow, Int.cast_ofNat_Int]

/-- R139: a signed shift of 64 or more leaves the sign. -/
theorem toInt_ediv_two_pow_of_le {n : Nat} (hn : 64 ≤ n) : x.toInt / 2 ^ n = if x.toInt < 0 then -1 else 0 := by
  have hlo : -2 ^ 63 ≤ x.toInt := x.le_toInt
  have hhi : x.toInt < 2 ^ 63 := x.toInt_lt
  have hpow : (2 ^ 64 : Int) ≤ 2 ^ n := by
    exact_mod_cast Nat.pow_le_pow_right (n := 2) (by decide) hn
  split
  next hneg => exact Int.ediv_eq_neg_one_of_neg_of_le hneg (by omega)
  next hpos => exact Int.ediv_eq_zero_of_lt (by omega) (by omega)

theorem shiftLeft_eq_ite (n : Nat) : x <<< n = if 64 ≤ n then 0 else BitVec.ofNat 64 (x.toNat * 2 ^ n) := by
  split
  next h => exact BitVec.shiftLeft_eq_zero h
  next => exact shiftLeft_eq_ofNat x n

theorem ushiftRight_eq_ite (n : Nat) : x >>> n = if 64 ≤ n then 0 else BitVec.ofNat 64 (x.toNat / 2 ^ n) := by
  split
  next h => exact BitVec.ushiftRight_eq_zero h
  next => exact ushiftRight_eq_ofNat x n

theorem sshiftRight_eq_ite (n : Nat) : x.sshiftRight n =
    if 64 ≤ n then (if x.toInt < 0 then -1 else 0) else BitVec.ofInt 64 (x.toInt / 2 ^ n) := by
  rw [sshiftRight_eq_ofInt]
  split
  next h =>
    rw [toInt_ediv_two_pow_of_le x h]
    split <;> rfl
  next => rfl

theorem minI_eq_ofInt : (if x.toInt ≤ y.toInt then x else y) = BitVec.ofInt 64 (min x.toInt y.toInt) := by
  rw [Int.min_def, apply_ite (BitVec.ofInt 64), BitVec.ofInt_toInt, BitVec.ofInt_toInt]

theorem maxI_eq_ofInt : (if x.toInt ≤ y.toInt then y else x) = BitVec.ofInt 64 (max x.toInt y.toInt) := by
  rw [Int.max_def, apply_ite (BitVec.ofInt 64), BitVec.ofInt_toInt, BitVec.ofInt_toInt]

theorem minN_eq_ofNat : (if x.toNat ≤ y.toNat then x else y) = BitVec.ofNat 64 (min x.toNat y.toNat) := by
  rw [Nat.min_def, apply_ite (BitVec.ofNat 64), BitVec.ofNat_toNat, BitVec.ofNat_toNat, BitVec.setWidth_eq, BitVec.setWidth_eq]

theorem maxN_eq_ofNat : (if x.toNat ≤ y.toNat then y else x) = BitVec.ofNat 64 (max x.toNat y.toNat) := by
  rw [Nat.max_def, apply_ite (BitVec.ofNat 64), BitVec.ofNat_toNat, BitVec.ofNat_toNat, BitVec.setWidth_eq, BitVec.setWidth_eq]

theorem add_shiftLeft_eq_ofNat (n : Nat) : x + y <<< n = BitVec.ofNat 64 (x.toNat + y.toNat * 2 ^ n) := by
  rw [shiftLeft_eq_ofNat, BitVec.ofNat_add, BitVec.ofNat_toNat, BitVec.setWidth_eq]

end

/-! ## Register-form words (R138, R139) -/

/-- A word whose meaning is `alu` with g writes f, when g and f agree. -/
theorem writesReg_of_alu {mk : BitVec 5 → BitVec 5 → BitVec 5 → Instr} {g f : W64 → W64 → W64}
    (hmk : ∀ d a b s, exec (mk d a b) s = alu d a b g s) (hgf : ∀ x y, g x y = f x y) : WritesReg mk f := by
  intro s u st d a b hi
  rw [hmk, alu, ← hgf]
  exact onStream_next hi rfl

theorem registerFormWords : RegisterFormWords :=
  ⟨writesReg_of_alu (fun _ _ _ s => exec_add s _ _ _) add_eq_ofNat,
    writesReg_of_alu (fun _ _ _ s => exec_sub s _ _ _) sub_eq_ofInt,
    writesReg_of_alu (fun _ _ _ s => exec_mul s _ _ _) mul_eq_ofInt,
    writesReg_of_alu (fun _ _ _ s => exec_mulhI64 s _ _ _) (fun _ _ => rfl),
    writesReg_of_alu (fun _ _ _ s => exec_mulhN64 s _ _ _) (fun _ _ => rfl),
    writesReg_of_alu (fun _ _ _ s => exec_andS s _ _ _) (fun _ _ => rfl),
    writesReg_of_alu (fun _ _ _ s => exec_orS s _ _ _) (fun _ _ => rfl),
    writesReg_of_alu (fun _ _ _ s => exec_xorS s _ _ _) (fun _ _ => rfl),
    writesReg_of_alu (fun _ _ _ s => exec_shl s _ _ _) (fun x y => shiftLeft_eq_ite x y.toNat),
    writesReg_of_alu (fun _ _ _ s => exec_shr s _ _ _) (fun x y => ushiftRight_eq_ite x y.toNat),
    writesReg_of_alu (fun _ _ _ s => exec_sra s _ _ _) (fun x y => sshiftRight_eq_ite x y.toNat),
    writesReg_of_alu (fun _ _ _ s => exec_minI64 s _ _ _) minI_eq_ofInt,
    writesReg_of_alu (fun _ _ _ s => exec_minN64 s _ _ _) minN_eq_ofNat,
    writesReg_of_alu (fun _ _ _ s => exec_maxI64 s _ _ _) maxI_eq_ofInt,
    writesReg_of_alu (fun _ _ _ s => exec_maxN64 s _ _ _) maxN_eq_ofNat,
    fun h => writesReg_of_alu (fun _ _ _ s => exec_lea s _ _ _ h) (fun x y => add_shiftLeft_eq_ofNat x y h.toNat)⟩

/-- Settles O4: every register-form word is `alu` with its operation as an integer, and a register reads back its table. -/
theorem registerFormsWriteTheirResult : Obligations.RegisterFormsWriteTheirResult :=
  ⟨registerFormWords, scalarRegistersHoldWhatIsWritten⟩

/-! ## Comparisons (R141, R142) -/

/-- Table 5-1, OVF: a difference is outside the signed range exactly when it is not its own word. -/
theorem outside_signed_range_eq (z : Int) :
    (decide (z < -(2 ^ 63 : Int)) || decide (z > (2 ^ 63 : Int) - 1)) = !(BitVec.ofInt 64 z).toInt == z := by
  have hlo : -2 ^ 63 ≤ (BitVec.ofInt 64 z).toInt := BitVec.le_toInt _
  have hhi : (BitVec.ofInt 64 z).toInt < 2 ^ 63 := BitVec.toInt_lt
  have hself : (BitVec.ofInt 64 z).toInt = z ↔ -2 ^ 63 ≤ z ∧ z < 2 ^ 63 :=
    ⟨fun h => h ▸ ⟨hlo, hhi⟩, fun ⟨h, h'⟩ => BitVec.toInt_ofInt_eq_self (by decide) h h'⟩
  rw [Bool.beq_eq_decide_eq, decide_eq_decide.mpr hself, ← Bool.decide_or, ← decide_not]
  exact decide_eq_decide.mpr (by omega)

theorem cmpFlag_eq (x y : W64) : cmpFlag x y = ⟨x == y, decide (x.toInt < y.toInt), decide (x.toNat < y.toNat),
    !(BitVec.ofInt 64 (x.toInt - y.toInt)).toInt == x.toInt - y.toInt⟩ := by
  rw [cmpFlag, outside_signed_range_eq]

theorem tstFlag_eq (x y : W64) : tstFlag x y = ⟨(x &&& y) == 0, (x &&& y).getLsbD 63, false, false⟩ := by
  rw [tstFlag, BitVec.msb_eq_getLsbD_last]

section

variable {s : State} {u : Who} {st : Stream} {f : BitVec 5} (g : Stream → Flag)

theorem compare_writes (hi : Issues s u st) (hf : f.toNat < 4) :
    compare f g s = .next (s.setStream u (s.stepped u st.pc (st.setFlag f.toNat (g st)).complete)) :=
  onStream_next hi (if_neg (by omega))

theorem compare_raises (hi : Issues s u st) (hf : 4 ≤ f.toNat) :
    compare f g s = .next (s.raise u (Cause.atWord 0x04 st.pc 0)) :=
  onStream_raise hi (if_pos hf)

end

theorem encode_of_scalar {i : Instr} {v w : Nat} (hl : i.laneOp = none) (he : encodeScalar i = some v) (hv : v = w) :
    encode i = some (32, w) := by
  rw [encode, hl, he, hv]

section

variable (f a b : BitVec 5) (i : BitVec 16)

theorem encode_cmp : encode (.cmp f a b) =
    some (32, 0x01 * 2 ^ 26 + (f.toNat * 2 ^ 21 + a.toNat * 2 ^ 16) + b.toNat * 2 ^ 11 + 0x0F * 2 ^ 4) :=
  encode_of_scalar rfl rfl (by unfold place; omega)

theorem encode_tst : encode (.tst f a b) =
    some (32, 0x01 * 2 ^ 26 + (f.toNat * 2 ^ 21 + a.toNat * 2 ^ 16) + b.toNat * 2 ^ 11 + 0x10 * 2 ^ 4) :=
  encode_of_scalar rfl rfl (by unfold place; omega)

theorem encode_cmpImm : encode (.cmpImm f a i) =
    some (32, 0x0B * 2 ^ 26 + (f.toNat * 2 ^ 21 + a.toNat * 2 ^ 16) + i.toNat) :=
  encode_of_scalar rfl rfl (by unfold place; omega)

end

/-- Settles O2: the three comparisons are `compare` with their flag, and SEL writes as a register form does. -/
theorem comparisonsWriteTheirFlag : Obligations.ComparisonsWriteTheirFlag := by
  refine ⟨fun f a b i => ⟨encode_cmp f a b, encode_tst f a b, encode_cmpImm f a i⟩, ?_, ?_, ?_⟩
  · intro s u st f a b i hi hf
    refine ⟨?_, ?_, ?_⟩
    · rw [exec_cmp, execCmp, compare_writes _ hi hf, cmpFlag_eq]
    · rw [exec_cmpImm, execCmpImm, compare_writes _ hi hf, cmpFlag_eq]
      rfl
    · rw [exec_tst, execTst, compare_writes _ hi hf, tstFlag_eq]
  · intro s u st f a b i hi hf
    exact ⟨compare_raises _ hi hf, compare_raises _ hi hf, compare_raises _ hi hf⟩
  · intro s u st d a b f c hi
    rw [exec_sel, execSel]
    exact onStream_next hi rfl

/-! ## Loops (R145 to R147) -/

theorem addr64_eq_mod {a n : Nat} {x : Int} (hx : x = n) : addr64 a x = (a + n) % 2 ^ 64 := by
  subst hx
  unfold addr64 wrap
  omega

theorem addr64_four (a : Nat) : addr64 a 4 = (a + 4) % 2 ^ 64 := addr64_eq_mod rfl

/-- The stream inside a new loop that ends n words on and runs count times. -/
def Stream.entered (st : Stream) (n count : Nat) : Stream :=
  { st with
    loops := ⟨(st.pc + 4) % 2 ^ 64, (st.pc + 4 * n) % 2 ^ 64, count⟩ :: st.loops
    lc := Tab.set st.lc st.loops.length 0 }

section

variable {st : Stream} {e n : Nat}

theorem loopWord_enters (he : e ≠ 0) (hn : n ≠ 0) (hlt : n < 2 ^ 32) (hd : st.loops.length < 4) :
    loopWord st e n = .jump (st.entered e n) ((st.pc + 4) % 2 ^ 64) := by
  rw [loopWord, if_neg he, if_neg (by omega), if_neg hn, if_neg (by omega), addr64_four,
    addr64_eq_mod (n := 4 * e) (by omega), Stream.entered]

theorem loopWord_skips (he : e ≠ 0) : loopWord st e 0 = .jump st ((st.pc + 4 * e + 4) % 2 ^ 64) := by
  rw [loopWord, if_neg he, if_neg (by decide), if_pos rfl, addr64_eq_mod (n := 4 * e + 4) (by omega), Nat.add_assoc]

theorem loopWord_raises (he : e ≠ 0) (hn : n ≠ 0) (hlt : n < 2 ^ 32) (hd : 4 ≤ st.loops.length) :
    loopWord st e n = .raise 0x05 := by
  rw [loopWord, if_neg he, if_neg (by omega), if_neg hn, if_pos hd]

end

/-- R146: at an address where no loop ends, the loop hardware does nothing. -/
theorem loopEnd_of_ne {y : Nat} {ls : List LoopEnt} (h : ∀ l ∈ ls, l.fin ≠ y) (lc : Tab Nat) :
    loopEnd y ls lc = (none, ls, lc) := by
  cases ls with
  | nil => rfl
  | cons l t => rw [loopEnd, if_neg (h l List.mem_cons_self)]

theorem loopEnd_again {l : LoopEnt} {t : List LoopEnt} {lc : Tab Nat} (h : Tab.getD lc t.length 0 + 1 < l.count) :
    loopEnd l.fin (l :: t) lc = (some l.start, l :: t, Tab.set lc t.length (Tab.getD lc t.length 0 + 1)) := by
  rw [loopEnd, if_pos rfl, if_pos h]

theorem loopEnd_outer {l : LoopEnt} {t : List LoopEnt} {lc : Tab Nat} (h : l.count ≤ Tab.getD lc t.length 0 + 1) :
    loopEnd l.fin (l :: t) lc = loopEnd l.fin t lc := by
  rw [loopEnd, if_pos rfl, if_neg (by omega)]

section

variable {st : Stream}

theorem complete_of_no_end (h : ∀ l ∈ st.loops, l.fin ≠ st.pc) :
    st.complete.pc = (st.pc + 4) % 2 ^ 64 ∧ st.complete.loops = st.loops ∧ st.complete.lc = st.lc := by
  rw [Stream.complete, loopEnd_of_ne h]
  exact ⟨addr64_four st.pc, rfl, rfl⟩

theorem complete_again {l : LoopEnt} {t : List LoopEnt} (hl : st.loops = l :: t) (hy : l.fin = st.pc)
    (h : Tab.getD st.lc t.length 0 + 1 < l.count) :
    st.complete.pc = l.start ∧ st.complete.loops = st.loops ∧
      st.complete.lc = Tab.set st.lc t.length (Tab.getD st.lc t.length 0 + 1) := by
  rw [Stream.complete, hl, ← hy, loopEnd_again h]
  exact ⟨rfl, rfl, rfl⟩

theorem complete_outer {l : LoopEnt} {t : List LoopEnt} (hl : st.loops = l :: t) (hy : l.fin = st.pc)
    (h : l.count ≤ Tab.getD st.lc t.length 0 + 1) : st.complete = { st with loops := t }.complete := by
  rw [Stream.complete, Stream.complete, hl, ← hy, loopEnd_outer h]

end

theorem encode_lexit : encode .lexit = some (32, 0x02 * 2 ^ 26 + 0x07 * 2 ^ 4) :=
  encode_of_scalar rfl rfl rfl

section

variable {s : State} {u : Who} {st : Stream}

theorem exec_lexit_leaves (hi : Issues s u st) {l : LoopEnt} {t : List LoopEnt} (hl : st.loops = l :: t) :
    exec .lexit s = .next (s.setStream u (s.stepped u st.pc ({ st with loops := t }.jump ((l.fin + 4) % 2 ^ 64)))) :=
  onStream_jump hi (by simp only [hl, addr64_four])

theorem exec_lexit_raises (hi : Issues s u st) (hl : st.loops = []) :
    exec .lexit s = .next (s.raise u (Cause.atWord 0x04 st.pc 0)) :=
  onStream_raise hi (by simp only [hl])

end

theorem loopsRepeatTheirBody : LoopsRepeatTheirBody := by
  refine ⟨encode_lexit, ?_, fun _ => complete_of_no_end, fun _ _ _ => complete_again, fun _ _ _ => complete_outer⟩
  intro s u st e c a hi
  refine ⟨?_, ?_, ?_, ?_, fun _ _ => exec_lexit_leaves hi, exec_lexit_raises hi⟩
  · intro he hc hd
    exact onStream_jump hi (loopWord_enters he hc (by omega) hd)
  · intro he hc
    exact onStream_jump hi (by rw [hc]; exact loopWord_skips he)
  · intro he hn hlt hd
    exact onStream_jump hi (loopWord_enters he hn hlt hd)
  · intro he hn hlt hd
    exact onStream_raise hi (loopWord_raises he hn hlt hd)

theorem nopAndYieldOnlyComplete : NopAndYieldOnlyComplete := fun _ _ _ hi =>
  ⟨onStream_next hi rfl, onStream_next hi rfl, rfl, rfl, rfl, rfl⟩

/-- Settles O5: loops by what LOOP and the loop hardware answer in each case, the hints by their flow. -/
theorem loopsRepeatAndHintsComplete : Obligations.LoopsRepeatAndHintsComplete :=
  ⟨loopsRepeatTheirBody, nopAndYieldOnlyComplete⟩

end Sys2Proof.Machine
end

section
/-! SUPPORT. Causes (R34, R262, R269 to R271, R287): what a unit that comes to hold a cause does, what taking it leaves in the
stream or in the record of instances, and the words and events that raise or take one. -/

namespace Sys2Proof.Machine

open Sys2Proof

/-! ## Writing the outstanding scalar results -/

/-- A long-latency result changes a register or the trap bank, and nothing else of its stream (R89). -/
theorem Stream.result_eq (st : Stream) (p : SPend) :
    st.result p = { st with regs := (st.result p).regs, bank := (st.result p).bank } := by
  unfold Stream.result
  split
  · rfl
  · split <;> rfl

theorem Stream.foldl_result_eq (ps : List SPend) (st : Stream) : ps.foldl Stream.result st =
    { st with regs := (ps.foldl Stream.result st).regs, bank := (ps.foldl Stream.result st).bank } := by
  induction ps generalizing st with
  | nil => rfl
  | cons p ps ih =>
    rw [List.foldl_cons, ih, Stream.result_eq]

theorem Stream.flush_eq (st : Stream) :
    st.flush = { st with regs := st.flush.regs, bank := st.flush.bank, pend := [] } := by
  rw [Stream.flush, Stream.foldl_result_eq]

section

variable (st : Stream)

@[simp] theorem Stream.flush_pc : st.flush.pc = st.pc := by rw [Stream.flush_eq]
@[simp] theorem Stream.flush_tmode : st.flush.tmode = st.tmode := by rw [Stream.flush_eq]
@[simp] theorem Stream.flush_hmask : st.flush.hmask = st.hmask := by rw [Stream.flush_eq]
@[simp] theorem Stream.flush_frec : st.flush.frec = st.frec := by rw [Stream.flush_eq]
@[simp] theorem Stream.flush_cause : st.flush.cause = st.cause := by rw [Stream.flush_eq]
@[simp] theorem Stream.flush_rstack : st.flush.rstack = st.rstack := by rw [Stream.flush_eq]
@[simp] theorem Stream.flush_loops : st.flush.loops = st.loops := by rw [Stream.flush_eq]
@[simp] theorem Stream.flush_flags : st.flush.flags = st.flags := by rw [Stream.flush_eq]

end

/-! ## Coming to hold a cause -/

/-- The stream that comes to hold a cause: in trap mode CAUSE goes on naming the cause that is handled (R34, Table 9-1). -/
def Stream.withHeld (st : Stream) (c : Cause) : Stream :=
  { st with held := some c, cause := if st.tmode then st.cause else some c }

theorem Stream.result_withHeld (st : Stream) (c : Cause) (p : SPend) :
    (st.withHeld c).result p = (st.result p).withHeld c := by
  unfold Stream.result
  split
  · rfl
  · split <;> rfl

theorem Stream.flush_withHeld (st : Stream) (c : Cause) : (st.withHeld c).flush = st.flush.withHeld c := by
  have h := List.foldl_hom (l := st.pend) (init := st) (fun t => t.withHeld c) (fun t p => t.result_withHeld c p)
  unfold Stream.flush
  exact congrArg (fun t : Stream => { t with pend := [] }) h

/-- The machine in which a unit holds a cause and its lane results have been written (R92, R262). -/
def State.withHeld (s : State) (u : Who) (st : Stream) (c : Cause) : State :=
  (s.setStream u (st.withHeld c)).settleLanes u

section

variable (s : State) (u : Who)

@[simp] theorem settleLanes_insts : (s.settleLanes u).insts = s.insts := by
  cases u <;> simp only [State.settleLanes]
  split <;> rfl

@[simp] theorem settleLanes_gangs : (s.settleLanes u).gangs = s.gangs := by
  cases u <;> simp only [State.settleLanes]
  split <;> rfl

@[simp] theorem settleLanes_launches : (s.settleLanes u).launches = s.launches := by
  cases u <;> simp only [State.settleLanes]
  split <;> rfl

@[simp] theorem settleLanes_stream : (s.settleLanes u).stream u = s.stream u := by
  cases u with
  | ctx k => rfl
  | group k =>
    cases hg : Tab.find s.groups k with
    | none => simp [State.settleLanes, hg]
    | some g => simp [State.settleLanes, State.stream, hg, Group.flushLanes]

@[simp] theorem settleLanes_regionOf : (s.settleLanes u).regionOf u = s.regionOf u := by
  cases u with
  | ctx k => rfl
  | group k =>
    cases hg : Tab.find s.groups k with
    | none => simp [State.settleLanes, hg]
    | some g => simp [State.settleLanes, State.regionOf, hg, Group.flushLanes]

@[simp] theorem setStream_regionOf (t : Stream) : (s.setStream u t).regionOf u = s.regionOf u := by
  cases u with
  | ctx k => rfl
  | group k => cases hg : Tab.find s.groups k <;> simp [State.setStream, State.regionOf, hg]

/-- What a held cause waits for lies outside the scalar stream (R262). -/
@[simp] theorem setStream_quiet (t : Stream) : (s.setStream u t).quiet u = s.quiet u := by
  cases u with
  | ctx k => rfl
  | group k =>
    cases hg : Tab.find s.groups k with
    | none => simp [State.setStream, hg]
    | some g =>
      simp only [State.setStream, hg, State.quiet, setGroup_groups, Tab.find_set_same, Option.map_some, Option.getD_some]
      rfl

end

section

variable {s t : State} (u : Who)

theorem instOf_congr (h : t.gangs = s.gangs) : t.instOf u = s.instOf u := by
  unfold State.instOf State.gangOf
  rw [h]

theorem handler_congr (hg : t.gangs = s.gangs) (hl : t.launches = s.launches) : t.handler u = s.handler u := by
  unfold State.handler State.gangOf State.launchRec
  rw [hg, hl]

end

section

variable (s : State) (u : Who) (st : Stream) (c : Cause)

@[simp] theorem withHeld_insts : (s.withHeld u st c).insts = s.insts := by simp [State.withHeld]

@[simp] theorem withHeld_instOf : (s.withHeld u st c).instOf u = s.instOf u := instOf_congr u (by simp [State.withHeld])

@[simp] theorem withHeld_handler : (s.withHeld u st c).handler u = s.handler u :=
  handler_congr u (by simp [State.withHeld]) (by simp [State.withHeld])

@[simp] theorem withHeld_regionOf : (s.withHeld u st c).regionOf u = s.regionOf u := by simp [State.withHeld]

variable {s u st}

theorem withHeld_stream (hs : s.stream u = some st) : (s.withHeld u st c).stream u = some (st.withHeld c) := by
  rw [State.withHeld, settleLanes_stream, setStream_stream hs]

/-- R34, R262: with nothing outstanding a cause is taken as soon as it is held. -/
theorem raise_eq_take (hs : s.stream u = some st) (hh : st.held = none) (hq : s.quiet u = true) :
    s.raise u c = (s.withHeld u st c).take u := by
  unfold State.raise
  rw [hs]
  dsimp only
  rw [hh, if_neg (by simp), if_pos (by rwa [setStream_quiet])]
  rfl

end

/-! ## Taking a cause -/

/-- A queue halt of a context, which no handler takes (R262, Table 9-4). -/
def Who.halts : Who → Cause → Bool
  | .ctx _, c => c.kind == 2
  | .group _, _ => false

/-- Among the instances being parked is the one of this unit (R277). -/
def State.parking (s : State) (u : Who) : Bool :=
  ((Tab.find s.insts (s.instOf u)).map (fun i => i.park.isSome)).getD false

/-- The fault record that a unit's stream has after taking a cause: in the region of the unit (Table 9-2). -/
def State.recordOf (s : State) (u : Who) (st : Stream) (c : Cause) : FaultRec :=
  st.record c (s.regionOf u).1 (s.regionOf u).2.1 (s.regionOf u).2.2

/-- The stream in its handler: trap mode, with where it stood kept for TRET (R261, R262). -/
def Stream.inHandler (st : Stream) (frec : FaultRec) (pc : Nat) : Stream :=
  { st with
    held := none, frec := frec, tmode := true, tpc := st.pc, twait := st.wait, tword := st.word, pc := pc, wait := .none, age := 0 }

theorem recordOf_group (s : State) (k : Nat) (st : Stream) (c : Cause) : s.recordOf (.group k) st c =
    st.record c (((Tab.find s.groups k).map (fun g => g.epc)).getD 0) (((Tab.find s.groups k).map (fun g => g.regnc)).getD 0)
      (((Tab.find s.groups k).map (fun g => g.base)).getD []) := by
  simp only [State.recordOf, State.regionOf]
  cases Tab.find s.groups k <;> rfl

section

variable {s : State} {u : Who} {st : Stream} {c : Cause}

/-- R262: the one operation, for a unit that holds a cause and is not already being parked. -/
theorem take_eq (hs : s.stream u = some st) (hc : st.held = some c) (hp : s.parking u = false) :
    s.take u = (parkReason st.flush c (s.handler u) (u.halts c)).elim
      (s.setStream u (st.flush.inHandler (s.recordOf u st.flush c) (s.handler u)))
      (fun reason => (s.setStream u { st.flush with held := none, frec := s.recordOf u st.flush c }).park
        (s.instOf u) reason (s.recordOf u st.flush c).cause (s.whoWord u) (s.recordOf u st.flush c)) := by
  unfold State.parking at hp
  simp only [State.take, hs, hc, hp, Bool.false_eq_true, if_false]
  cases u with
  | ctx k =>
    simp only [Who.halts, Bool.true_and]
    cases parkReason st.flush c (s.handler (.ctx k)) (c.kind == 2) <;> rfl
  | group k =>
    simp only [Who.halts, Bool.false_and, recordOf_group]
    cases parkReason st.flush c (s.handler (.group k)) false <;> rfl

theorem take_enters (hs : s.stream u = some st) (hc : st.held = some c) (hp : s.parking u = false)
    (hr : parkReason st.flush c (s.handler u) (u.halts c) = none) :
    s.take u = s.setStream u (st.flush.inHandler (s.recordOf u st.flush c) (s.handler u)) := by
  rw [take_eq hs hc hp, hr, Option.elim_none]

theorem take_parks {reason : Nat} (hs : s.stream u = some st) (hc : st.held = some c) (hp : s.parking u = false)
    (hr : parkReason st.flush c (s.handler u) (u.halts c) = some reason) :
    s.take u = (s.setStream u { st.flush with held := none, frec := s.recordOf u st.flush c }).park
      (s.instOf u) reason (s.recordOf u st.flush c).cause (s.whoWord u) (s.recordOf u st.flush c) := by
  rw [take_eq hs hc hp, hr, Option.elim_some]

end

/-! ## Handler or park (R262, Table 9-4) -/

section

variable {st : Stream} {c : Cause} {handler : Nat}

theorem bit_eq_true_iff {x i : Nat} : bit x i = true ↔ x / 2 ^ i % 2 = 1 := decide_eq_true_iff

theorem parkReason_eq_none (ht : st.tmode = false) (hu : c.code ≠ 0x13) (hd : c.code < 0xF0) (hh : handler ≠ 0)
    (hm : st.hmask.toNat / 2 ^ (c.code / 16) % 2 = 1) : parkReason st c handler false = none := by
  simp [parkReason, ht, hu, hh, bit_eq_true_iff.mpr hm, Nat.not_le.mpr hd]

theorem parkReason_eq_some
    (h : st.tmode = true ∨ c.code = 0x13 ∨ 0xF0 ≤ c.code ∨ handler = 0 ∨ st.hmask.toNat / 2 ^ (c.code / 16) % 2 = 0) :
    parkReason st c handler false =
      some (if st.tmode then 2 else if c.code = 0x13 then 1 else if 0xF0 ≤ c.code then 4 else 0) := by
  unfold parkReason
  by_cases ht : st.tmode = true
  · rw [if_pos ht, if_pos ht]
  by_cases hu : c.code = 0x13
  · rw [if_neg ht, if_neg ht, if_pos hu, if_pos hu]
  by_cases hd : 0xF0 ≤ c.code
  · rw [if_neg ht, if_neg ht, if_neg hu, if_neg hu, if_pos hd, if_pos hd]
  rw [if_neg ht, if_neg ht, if_neg hu, if_neg hu, if_neg hd, if_neg hd, if_neg Bool.false_ne_true]
  by_cases hh : handler = 0
  · rw [if_pos hh]
  have hm : st.hmask.toNat / 2 ^ (c.code / 16) % 2 = 0 := by simpa [ht, hu, hd, hh] using h
  rw [if_neg hh, if_neg (by rw [bit_eq_true_iff]; omega)]

end

/-- R277: parking, where it has not begun, records the reason, the cause, the unit and the fault record. -/
theorem park_insts {s : State} {k : Nat} {i : Inst} (hi : Tab.find s.insts k = some i) (hp : i.park = none)
    (reason : Nat) (c : Cause) (who : Nat) (f : FaultRec) : Tab.find (s.park k reason c who f).insts k =
      some { i with park := some ⟨reason, c, who, f, none, 0, none⟩ } := by
  simp [State.park, hi, hp, State.setStopped]

/-! ## A cause raised with nothing outstanding -/

section

variable (s : State) (u : Who) (st : Stream) (c : Cause)

@[simp] theorem withHeld_parking : (s.withHeld u st c).parking u = s.parking u := by
  unfold State.parking
  rw [withHeld_insts, withHeld_instOf]

@[simp] theorem withHeld_recordOf :
    (s.withHeld u st c).recordOf u (st.withHeld c).flush c = s.recordOf u st.flush c := by
  unfold State.recordOf
  rw [withHeld_regionOf, Stream.flush_withHeld]
  rfl

/-- What parks a cause is the stream's mode and mask, whatever results are still to be written. -/
@[simp] theorem parkReason_flush_withHeld (handler : Nat) (b : Bool) :
    parkReason (st.withHeld c).flush c handler b = parkReason st c handler b := by
  unfold parkReason
  rw [Stream.flush_tmode, Stream.flush_hmask]
  rfl

variable {s u st c}

theorem raise_enters (hs : s.stream u = some st) (hh : st.held = none) (hq : s.quiet u = true) (hp : s.parking u = false)
    (hr : parkReason st c (s.handler u) (u.halts c) = none) : (s.raise u c).stream u =
      some ((st.flush.withHeld c).inHandler (s.recordOf u st.flush c) (s.handler u)) := by
  have hs' := withHeld_stream c hs
  rw [raise_eq_take c hs hh hq, take_enters hs' rfl (by simpa using hp) (by simpa using hr), setStream_stream hs',
    withHeld_recordOf, Stream.flush_withHeld, withHeld_handler]

theorem raise_parks {reason : Nat} {i : Inst} (hs : s.stream u = some st) (hh : st.held = none) (hq : s.quiet u = true)
    (hi : Tab.find s.insts (s.instOf u) = some i) (hp : i.park = none)
    (hr : parkReason st c (s.handler u) (u.halts c) = some reason) :
    ∃ who, Tab.find (s.raise u c).insts (s.instOf u) = some { i with
      park := some ⟨reason, (s.recordOf u st.flush c).cause, who, s.recordOf u st.flush c, none, 0, none⟩ } := by
  have hpk : s.parking u = false := by simp [State.parking, hi, hp]
  rw [raise_eq_take c hs hh hq,
    take_parks (withHeld_stream c hs) rfl (by simpa using hpk) (by simpa using hr), withHeld_recordOf, withHeld_instOf]
  exact ⟨_, park_insts (by simpa using hi) hp reason _ _ _⟩

end

theorem takingACauseEntersTheHandler : TakingACauseEntersTheHandler := by
  intro s u st c hs hh ht hq hp hu hd hk hz hm
  have hc : u.halts c = false := by
    cases u with
    | ctx n => simpa [Who.halts] using hk n rfl
    | group k => rfl
  have hr : parkReason st c (s.handler u) (u.halts c) = none := hc ▸ parkReason_eq_none ht hu hd hz hm
  refine ⟨_, raise_enters hs hh hq hp hr, ?_⟩
  simp [Stream.inHandler, Stream.withHeld, State.recordOf, Stream.record, ht]

theorem unhandledCausesParkTheInstance : UnhandledCausesParkTheInstance := by
  intro s u st c i hs hh hq hi hp hu hw
  have hc : u.halts c = false := by
    cases u with
    | ctx n => exact absurd rfl (hu n)
    | group k => rfl
  have hr := parkReason_eq_some hw
  obtain ⟨who, hpark⟩ := raise_parks hs hh hq hi hp (hc ▸ hr)
  refine ⟨_, by rw [hpark]; rfl, rfl, fun ht => ?_, fun ht => ?_⟩
  · simp [State.recordOf, Stream.record, ht]
  · simp [State.recordOf, Stream.record, ht]

/-! ## TRAP, TAKE_CAUSE and SOFT_ERROR -/

/-- R271, R70: the word of major 0x18 is TRAP, and its unused field must be zero. -/
theorem decodeScalar_major_trap {w : Nat} (h : fld w 26 6 = 0x18) :
    decodeScalar w = zeros (fld w 16 10) (.trap (BitVec.ofNat 16 (fld w 0 16))) := by
  simp [decodeScalar, h]

theorem decodeTableWord_trap (u : BitVec 16) {r : Nat} (hr : r < 2 ^ 10) :
    decodeTableWord 32 (0x18 * 2 ^ 26 + r * 2 ^ 16 + u.toNat) = if r = 0 then some (.trap u) else none := by
  have hu := u.isLt
  have hw : (0x18 * 2 ^ 26 + r * 2 ^ 16 + u.toNat) % 2 ^ 32 = 0x18 * 2 ^ 26 + r * 2 ^ 16 + u.toNat := by omega
  have hmajor : fld (0x18 * 2 ^ 26 + r * 2 ^ 16 + u.toNat) 26 6 = 0x18 := by unfold fld; omega
  have hunused : fld (0x18 * 2 ^ 26 + r * 2 ^ 16 + u.toNat) 16 10 = r := by unfold fld; omega
  have himm : fld (0x18 * 2 ^ 26 + r * 2 ^ 16 + u.toNat) 0 16 = u.toNat := by unfold fld; omega
  rw [decodeTableWord, if_pos (by decide), hw, decodeScalar_major_trap hmajor, hunused, himm, zeros, BitVec.ofNat_toNat,
    BitVec.setWidth_eq]
  split <;> rfl

/-- The cause of a TRAP at a word: 0x0C, precise there, with the immediate in USER (R271). -/
def Cause.ofTrap (n : BitVec 16) (pc : Nat) : Cause := ⟨0x0C, 0, 0, 0, n.toNat, pc, 0, 0, 0, 0⟩

theorem exec_trap_raises {s : State} {u : Who} {st : Stream} (n : BitVec 16) (hi : Issues s u st) (hw : st.wait = .none) :
    exec (.trap n) s = .next (s.raise u (Cause.ofTrap n st.pc)) := by
  obtain ⟨hu, hs⟩ := hi
  rw [exec_trap, execTrap]
  refine perform_raise ?_ hu hs (by simp [hw])
  rw [run_bind, run_myStream _ hu hs]
  rfl

theorem exec_trap_enters {s : State} {u : Who} {st : Stream} {n : BitVec 16} (hi : Issues s u st) (hw : st.wait = .none)
    (hh : st.held = none) (ht : st.tmode = false) (hq : s.quiet u = true) (hp : s.parking u = false)
    (hz : s.handler u ≠ 0) (hm : st.hmask.toNat % 2 = 1) :
    ∃ t st', exec (.trap n) s = .next t ∧ t.stream u = some st' ∧ st'.pc = s.handler u ∧ st'.tmode = true ∧ st'.held = none ∧
      st'.tpc = st.pc ∧ st'.frec = ⟨true, ⟨0x0C, 0, 0, 0, n.toNat, st.pc, 0, 0, 0, 0⟩, (s.regionOf u).1, (s.regionOf u).2.1,
        (s.regionOf u).2.2, 0⟩ ∧ st'.hmask = st.hmask ∧ st'.regs = st.flush.regs ∧ t.mem = s.mem := by
  have hc : u.halts (Cause.ofTrap n st.pc) = false := by cases u <;> rfl
  have hm0 : st.hmask.toNat / 2 ^ ((Cause.ofTrap n st.pc).code / 16) % 2 = 1 := by simpa [Cause.ofTrap] using hm
  have hr := parkReason_eq_none ht (by simp [Cause.ofTrap]) (by simp [Cause.ofTrap]) hz hm0
  refine ⟨_, _, exec_trap_raises n hi hw, raise_enters hi.2 hh hq hp (hc ▸ hr), ?_⟩
  simp [Stream.inHandler, Stream.withHeld, State.recordOf, Stream.record, ht, raise_mem, Cause.ofTrap]

/-- A meaning that stores nothing and leaves the memory alone ends in the machine it computed. -/
theorem perform_of_no_stores {m : Act Unit} {s t : State} (h : m ⟨s, []⟩ = .ok ((), ⟨t, []⟩)) (hm : t.mem = s.mem) :
    perform m s = .next t := by
  rw [perform_ok s h]
  show Host.Outcome.next (t.setMem s.mem) = _
  rw [← hm, setMem_self]

theorem exec_takeCause_takes {s : State} {unit who : Nat} {st : Stream} {c : Cause}
    (hs : s.stream (whoOf unit who) = some st) (hh : st.held = some c) (hn : st.stopped = false)
    (hq : s.quiet (whoOf unit who) = true) :
    exec (.takeCause unit who) s = .next ((s.settleLanes (whoOf unit who)).take (whoOf unit who)) := by
  have hmem : ((s.settleLanes (whoOf unit who)).take (whoOf unit who)).mem = s.mem := by rw [take_mem, settleLanes_mem]
  rw [exec_takeCause, execTakeCause]
  refine perform_of_no_stores ?_ hmem
  simp only [run_bind, run_now, hs, hh, hn, hq, Option.map_some, Option.getD_some, Option.isSome_some, Bool.not_false,
    Bool.and_self, run_guardA, if_true, run_upd]
  rw [← hmem, setMem_self]

section

variable (s : State) (d : Nat)

@[simp] theorem countBad_mem : (s.countBad d).mem = s.mem := by
  unfold State.countBad
  split <;> rfl

@[simp] theorem countBad_tick : (s.countBad d).tick = s.tick := by
  unfold State.countBad
  split <;> rfl

@[simp] theorem countBad_stream (u : Who) : (s.countBad d).stream u = s.stream u := by
  unfold State.countBad
  split <;> rfl

end

theorem run_leaveWait {w : Work} {u : Who} {st : Stream} (hs : w.cur.stream u = some st)
    (hw : ∀ b, st.wait ≠ .barWait b none) : leaveWait u w = .ok ((), w) := by
  have hn : w.cur.waiterStore u = none := by
    unfold State.waiterStore
    rw [hs]
    dsimp only
    split
    · exact absurd ‹_› (hw _)
    · rfl
  simp [leaveWait, hn]

/-- A unit that does not sleep in BAR.WAIT comes to hold a cause, and no memory changes. -/
theorem run_raiseUnit {w : Work} {u : Who} {st : Stream} (hs : w.cur.stream u = some st)
    (hw : ∀ b, st.wait ≠ .barWait b none) (c : Cause) : raiseUnit u c w = .ok ((), ⟨w.cur.raise u c, w.stores⟩) := by
  rw [raiseUnit, run_bind, run_leaveWait hs hw]
  show Except.ok ((), Work.mk ((w.cur.raise u c).setMem w.cur.mem) w.stores) = _
  rw [← raise_mem w.cur u c, setMem_self]

theorem exec_softError_raises {s : State} {unit who : Nat} {st : Stream} (hs : s.stream (whoOf unit who) = some st)
    (hh : st.held = none) (hw : ∀ b, st.wait ≠ .barWait b none) :
    exec (.softError unit who) s = .next
      (((s.countBad (((s.gangOf (whoOf unit who)).map (fun g => g.die)).getD 0)).tickOn).raise (whoOf unit who)
        ⟨0x13, (Config.softKind s.tick).toNat, 0, 0, 0, 0, 0, 0, 0, 0⟩) := by
  generalize hd : ((s.gangOf (whoOf unit who)).map (fun g => g.die)).getD 0 = d
  have hcount : ({ s.countBad d with tick := s.tick + 1 } : State).setMem s.mem = (s.countBad d).tickOn := by
    rw [← countBad_mem s d, ← countBad_tick s d]
    rfl
  have hs' : (s.countBad d).tickOn.stream (whoOf unit who) = some st := by simpa using hs
  rw [exec_softError, execSoftError]
  refine perform_of_no_stores ?_ (by simp [raise_mem])
  simp only [run_bind, run_now, hs, hh, hd, Option.map_some, Option.getD_some, Option.isSome_none, Bool.not_false,
    run_guardA, if_true, run_upd, hcount]
  exact run_raiseUnit hs' hw _

theorem trapAndHeldCausesAreTaken : TrapAndHeldCausesAreTaken :=
  ⟨fun u _ hr => decodeTableWord_trap u hr, fun _ _ _ n hi hw => exec_trap_raises n hi hw,
    fun _ _ _ _ hi hw hh ht hq hp hz hm => exec_trap_enters hi hw hh ht hq hp hz hm,
    fun _ _ _ _ _ hs hh hn hq => exec_takeCause_takes hs hh hn hq,
    fun _ _ _ _ hs hh hw => exec_softError_raises hs hh hw⟩

/-- Settles O10: a raised cause is taken by one operation, which enters the handler where `parkReason` gives no reason to
park, and parks with that reason otherwise; TRAP and SOFT_ERROR raise, TAKE_CAUSE takes. -/
theorem causesEnterTheHandlerOrPark : Obligations.CausesEnterTheHandlerOrPark :=
  ⟨takingACauseEntersTheHandler, unhandledCausesParkTheInstance, trapAndHeldCausesAreTaken⟩

end Sys2Proof.Machine
end

section
/-! SUPPORT. The encodings (R69 to R93): the fields of a word, the word that a decoded instruction encodes to, and the
instruction that an encoded word decodes to, for scalar and for lane words. -/

namespace Sys2Proof.Machine

open Sys2Proof

/-! ## Fields of a word (R5) -/

theorem fld_lt (w lo n : Nat) : fld w lo n < 2 ^ n := Nat.mod_lt _ (Nat.two_pow_pos n)

@[simp] theorem toNat_ofNat_fld (w lo n : Nat) : (BitVec.ofNat n (fld w lo n)).toNat = fld w lo n :=
  Nat.mod_eq_of_lt (fld_lt w lo n)

/-- A field that lies below bit b is not changed by what stands from there on. -/
theorem fld_mod_two_pow (w : Nat) {lo n b : Nat} (h : lo + n ≤ b) : fld (w % 2 ^ b) lo n = fld w lo n := by
  obtain ⟨c, rfl⟩ := Nat.exists_eq_add_of_le h
  unfold fld
  rw [Nat.add_assoc, Nat.pow_add, Nat.mod_mul_right_div_self, Nat.pow_add,Nat.mod_mul_right_mod]

theorem fld_place_below (acc v : Nat) {lo lo' n : Nat} (h : lo' + n ≤ lo) :
    fld (place acc v lo) lo' n = fld acc lo' n := by
  rw [← fld_mod_two_pow _ h, ← fld_mod_two_pow acc h, place, Nat.add_mul_mod_self_right]

/-- A value placed in a field that is zero leaves the fields above it. -/
theorem div_place (acc v : Nat) {lo k : Nat} (hv : v < 2 ^ k) (hz : fld acc lo k = 0) :
    place acc v lo / 2 ^ (lo + k) = acc / 2 ^ (lo + k) := by
  unfold fld at hz
  rw [place, Nat.pow_add, ← Nat.div_div_eq_div_mul, ← Nat.div_div_eq_div_mul,
    Nat.add_mul_div_right _ _ (Nat.two_pow_pos lo)]
  obtain ⟨c, hc⟩ := Nat.dvd_of_mod_eq_zero hz
  rw [hc, Nat.mul_add_div (Nat.two_pow_pos k), Nat.div_eq_of_lt hv, Nat.mul_div_cancel_left _ (Nat.two_pow_pos k), Nat.add_zero]

theorem fld_place_above (acc : Nat) {k lo lo' n : Nat} (x : BitVec k) (h : lo + k ≤ lo') (hz : fld acc lo k = 0) :
    fld (place acc x.toNat lo) lo' n = fld acc lo' n := by
  obtain ⟨c, rfl⟩ := Nat.exists_eq_add_of_le h
  unfold fld
  rw [Nat.pow_add, ← Nat.div_div_eq_div_mul, ← Nat.div_div_eq_div_mul, div_place acc _ x.isLt hz]

theorem fld_place_same (acc lo : Nat) {k : Nat} (x : BitVec k) (hz : fld acc lo k = 0) :
    fld (place acc x.toNat lo) lo k = x.toNat := by
  unfold fld at *
  rw [place, Nat.add_mul_div_right _ _ (Nat.two_pow_pos lo), Nat.add_mod, hz, Nat.zero_add, Nat.mod_mod,
    Nat.mod_eq_of_lt x.isLt]

/-- What a decoder answers for a word: every instruction in it encodes to the word. -/
def EncodesTo (w : Nat) (r : Except DecErr Instr) : Prop := ∀ i, r = .ok i → encodeScalar i = some w

theorem EncodesTo.error {w : Nat} {e : DecErr} : EncodesTo w (.error e) := nofun

theorem EncodesTo.ok {w : Nat} {i : Instr} (h : encodeScalar i = some w) : EncodesTo w (.ok i) := by
  rintro _ ⟨⟩
  exact h

theorem EncodesTo.cases {w : Nat} {c : Prop} [Decidable c] {a b : Except DecErr Instr} (ha : c → EncodesTo w a)
    (hb : ¬c → EncodesTo w b) : EncodesTo w (if c then a else b) := by
  split
  · exact ha ‹_›
  · exact hb ‹_›

theorem EncodesTo.ite {w : Nat} {c : Prop} [Decidable c] {a b : Except DecErr Instr} (ha : c → EncodesTo w a)
    (hb : EncodesTo w b) : EncodesTo w (if c then a else b) := .cases ha fun _ => hb

theorem EncodesTo.zeros {w z : Nat} {i : Instr} (h : z = 0 → encodeScalar i = some w) : EncodesTo w (zeros z i) :=
  .ite (fun hz => .ok (h hz)) .error


/-- A field is its low part and, above it, its high part. -/
theorem fld_add (w lo m n : Nat) : fld w lo (m + n) = fld w lo m + fld w (lo + m) n * 2 ^ m := by
  unfold fld
  rw [Nat.pow_add, Nat.mod_mul, Nat.pow_add, Nat.div_div_eq_div_mul, Nat.mul_comm (2 ^ m)]

/-- A word of 32 bits as a word of Table 3-2: major, D, A, and the 16 bits below. -/
theorem word_eq_major {w : Nat} (hw : w < 2 ^ 32) :
    w = fld w 26 6 * 2 ^ 26 + fld w 21 5 * 2 ^ 21 + fld w 16 5 * 2 ^ 16 + fld w 0 16 := by
  unfold fld
  omega

theorem low_eq_code (w : Nat) : fld w 0 16 = fld w 11 5 * 2 ^ 11 + fld w 4 7 * 2 ^ 4 + fld w 0 4 := by
  unfold fld
  omega

theorem unused_eq_fields (w : Nat) : fld w 16 10 = fld w 16 5 + fld w 21 5 * 2 ^ 5 ∧
    fld w 11 10 = fld w 11 5 + fld w 16 5 * 2 ^ 5 ∧
    fld w 11 15 = fld w 11 5 + fld w 16 5 * 2 ^ 5 + fld w 21 5 * 2 ^ 10 := by
  unfold fld
  omega

/-- The formats that are neither D, A and a function code nor D, A and an immediate cut a word at other bits (Table 3-2). -/
theorem formats_eq (w : Nat) : fld w 16 5 = fld w 16 2 + fld w 18 3 * 2 ^ 2 ∧
    fld w 0 16 = fld w 0 10 + fld w 10 2 * 2 ^ 10 + fld w 12 4 * 2 ^ 12 ∧
    fld w 21 5 = fld w 21 2 + fld w 23 1 * 2 ^ 2 + fld w 24 2 * 2 ^ 3 ∧
    fld w 0 20 = fld w 0 10 + fld w 10 10 * 2 ^ 10 ∧
    fld w 0 20 + fld w 20 1 * 2 ^ 20 = fld w 0 16 + fld w 16 5 * 2 ^ 16 ∧
    fld w 0 22 + fld w 22 4 * 2 ^ 22 = fld w 0 16 + fld w 16 5 * 2 ^ 16 + fld w 21 5 * 2 ^ 21 ∧
    fld w 22 4 = fld w 22 2 + fld w 24 2 * 2 ^ 2 ∧
    fld w 0 3 + fld w 3 23 * 2 ^ 3 = fld w 0 22 + fld w 22 4 * 2 ^ 22 ∧
    fld w 0 10 + fld w 10 16 * 2 ^ 10 = fld w 0 22 + fld w 22 4 * 2 ^ 22 ∧
    fld w 0 16 + fld w 16 10 * 2 ^ 16 = fld w 0 22 + fld w 22 4 * 2 ^ 22 := by
  unfold fld
  omega

section

variable {w : Nat} (hw : w < 2 ^ 32)
include hw

theorem decAlu_encodesTo (hm : fld w 26 6 = 0x01) : EncodesTo w (decAlu w) := by
  have hword := word_eq_major hw
  have hlow := low_eq_code w
  have hlea : fld w 4 7 = fld w 4 3 + fld w 7 4 * 2 ^ 3 := fld_add w 4 3 4
  have hsel : fld w 7 4 = fld w 7 2 + fld w 9 2 * 2 ^ 2 := fld_add w 7 2 2
  unfold decAlu
  repeat' refine EncodesTo.ite (fun hc => EncodesTo.zeros fun hz => ?_) ?_
  rotate_right
  · exact EncodesTo.error
  all_goals
    refine congrArg some ?_
    simp only [toNat_ofNat_fld, place]
    omega

theorem decSystem_encodesTo (hm : fld w 26 6 = 0x02) : EncodesTo w (decSystem w) := by
  have hword := word_eq_major hw
  have hlow := low_eq_code w
  have hunused := unused_eq_fields w
  unfold decSystem
  repeat' refine EncodesTo.ite (fun hc => EncodesTo.zeros fun hz => ?_) ?_
  rotate_right
  · exact EncodesTo.error
  all_goals
    simp only [encodeScalar, toNat_ofNat_fld, place, Option.some.injEq]
    omega

theorem decLoadStore_encodesTo (hm : fld w 26 6 = 0x31) : EncodesTo w (decLoadStore w) := by
  have hword := word_eq_major hw
  have hlow := low_eq_code w
  have hunused := unused_eq_fields w
  unfold decLoadStore
  repeat' refine EncodesTo.ite (fun hc => EncodesTo.zeros fun hz => ?_) ?_
  rotate_right
  · exact EncodesTo.error
  all_goals
    refine congrArg some ?_
    simp only [toNat_ofNat_fld, place]
    omega

theorem decCopy_encodesTo (hm : fld w 26 6 = 0x32) : EncodesTo w (decCopy w) := by
  have hword := word_eq_major hw
  have hlow := low_eq_code w
  have hunused := unused_eq_fields w
  unfold decCopy
  repeat' refine EncodesTo.ite (fun hc => EncodesTo.zeros fun hz => ?_) ?_
  rotate_right
  · exact EncodesTo.error
  all_goals
    refine congrArg some ?_
    simp only [toNat_ofNat_fld, place]
    omega

theorem decGeometry_encodesTo (hm : fld w 26 6 = 0x33) : EncodesTo w (decGeometry w) := by
  have hword := word_eq_major hw
  have hlow := low_eq_code w
  have hunused := unused_eq_fields w
  unfold decGeometry
  repeat' refine EncodesTo.ite (fun hc => EncodesTo.zeros fun hz => ?_) ?_
  rotate_right
  · exact EncodesTo.error
  all_goals
    refine congrArg some ?_
    simp only [toNat_ofNat_fld, place]
    omega

theorem decRaster_encodesTo (hm : fld w 26 6 = 0x34) : EncodesTo w (decRaster w) := by
  have hword := word_eq_major hw
  have hlow := low_eq_code w
  have hunused := unused_eq_fields w
  unfold decRaster
  repeat' refine EncodesTo.ite (fun hc => EncodesTo.zeros fun hz => ?_) ?_
  rotate_right
  · exact EncodesTo.error
  all_goals
    refine congrArg some ?_
    simp only [toNat_ofNat_fld, place]
    omega

theorem decLantern_encodesTo (hm : fld w 26 6 = 0x35) : EncodesTo w (decLantern w) := by
  have hword := word_eq_major hw
  have hlow := low_eq_code w
  have hunused := unused_eq_fields w
  unfold decLantern
  repeat' refine EncodesTo.ite (fun hc => EncodesTo.zeros fun hz => ?_) ?_
  rotate_right
  · exact EncodesTo.error
  all_goals
    refine congrArg some ?_
    simp only [toNat_ofNat_fld, place]
    omega

theorem decTransform_encodesTo (hm : fld w 26 6 = 0x36) : EncodesTo w (decTransform w) := by
  have hword := word_eq_major hw
  have hlow := low_eq_code w
  have hunused := unused_eq_fields w
  unfold decTransform
  repeat' refine EncodesTo.ite (fun hc => EncodesTo.zeros fun hz => ?_) ?_
  rotate_right
  · exact EncodesTo.error
  all_goals
    refine congrArg some ?_
    simp only [toNat_ofNat_fld, place]
    omega

theorem decCarillon_encodesTo (hm : fld w 26 6 = 0x37) : EncodesTo w (decCarillon w) := by
  have hword := word_eq_major hw
  have hlow := low_eq_code w
  have hunused := unused_eq_fields w
  unfold decCarillon
  repeat' refine EncodesTo.ite (fun hc => EncodesTo.zeros fun hz => ?_) ?_
  rotate_right
  · exact EncodesTo.error
  all_goals
    refine congrArg some ?_
    simp only [toNat_ofNat_fld, place]
    omega

theorem decScheduler_encodesTo (hm : fld w 26 6 = 0x38) : EncodesTo w (decScheduler w) := by
  have hword := word_eq_major hw
  have hlow := low_eq_code w
  have hunused := unused_eq_fields w
  unfold decScheduler
  repeat' refine EncodesTo.ite (fun hc => EncodesTo.zeros fun hz => ?_) ?_
  rotate_right
  · exact EncodesTo.error
  all_goals
    refine congrArg some ?_
    simp only [toNat_ofNat_fld, place]
    omega

theorem decMatrix_encodesTo (hm : fld w 26 6 = 0x3C) : EncodesTo w (decMatrix w) := by
  have hword := word_eq_major hw
  have hlow := low_eq_code w
  have hunused := unused_eq_fields w
  unfold decMatrix
  repeat' refine EncodesTo.ite (fun hc => EncodesTo.zeros fun hz => ?_) ?_
  rotate_right
  · exact EncodesTo.error
  all_goals
    refine congrArg some ?_
    simp only [toNat_ofNat_fld, place]
    omega

theorem decPartition_encodesTo (hm : fld w 26 6 = 0x30) : EncodesTo w (decPartition w) := by
  have hword := word_eq_major hw
  have hlow := low_eq_code w
  have hunused := unused_eq_fields w
  unfold decPartition
  refine EncodesTo.ite (fun hc => EncodesTo.ite (fun hz => ?_) .error) ?_
  · refine EncodesTo.ite (fun hf => .ok ?_) (EncodesTo.ite (fun hf => .ok ?_) (EncodesTo.ite (fun hf => .ok ?_) .error))
    all_goals
      refine congrArg some ?_
      omega
  · repeat' refine EncodesTo.ite (fun hc => EncodesTo.zeros fun hz => ?_) ?_
    rotate_right
    · exact EncodesTo.error
    all_goals
      simp only [encodeScalar, toNat_ofNat_fld, place, Option.some.injEq]
      omega

theorem decBallast_encodesTo (hm : fld w 26 6 = 0x39) : EncodesTo w (decBallast w) := by
  have hword := word_eq_major hw
  have hlow := low_eq_code w
  have hunused := unused_eq_fields w
  unfold decBallast
  repeat' refine EncodesTo.ite (fun hc => EncodesTo.zeros fun hz => ?_) ?_
  rotate_right
  refine EncodesTo.ite (fun hc => EncodesTo.ite (fun hz => ?_) .error) .error
  refine EncodesTo.ite (fun hf => .ok ?_) (EncodesTo.ite (fun hf => .ok ?_) .error)
  all_goals
    refine congrArg some ?_
    simp only [toNat_ofNat_fld, place]
    omega

/-- R69 to R76: a scalar word that decodes is the word of its instruction. -/
theorem decodeScalar_encodesTo : EncodesTo w (decodeScalar w) := by
  have hword := word_eq_major hw
  have hformats := formats_eq w
  have hbit := fld_lt w 20 1
  unfold decodeScalar
  refine EncodesTo.ite (decAlu_encodesTo hw) ?_
  refine EncodesTo.ite (decSystem_encodesTo hw) ?_
  repeat' refine EncodesTo.ite (fun hm => EncodesTo.zeros fun hz => ?_) ?_
  rotate_right
  focus
    refine EncodesTo.ite (fun hm => .cases (fun hf => .zeros fun hz => ?_) (fun hf => .zeros fun hz => ?_))
      (EncodesTo.ite (fun hm => .cases (fun hf => .zeros fun hz => ?_) (fun hf => .zeros fun hz => ?_)) ?_)
    rotate_right
    focus
      repeat' refine EncodesTo.ite (fun hm => EncodesTo.zeros fun hz => ?_) ?_
      rotate_right
      refine EncodesTo.ite (decPartition_encodesTo hw) ?_
      refine EncodesTo.ite (decLoadStore_encodesTo hw) ?_
      refine EncodesTo.ite (decCopy_encodesTo hw) ?_
      refine EncodesTo.ite (decGeometry_encodesTo hw) ?_
      refine EncodesTo.ite (decRaster_encodesTo hw) ?_
      refine EncodesTo.ite (decLantern_encodesTo hw) ?_
      refine EncodesTo.ite (decTransform_encodesTo hw) ?_
      refine EncodesTo.ite (decCarillon_encodesTo hw) ?_
      refine EncodesTo.ite (decScheduler_encodesTo hw) ?_
      refine EncodesTo.ite (decBallast_encodesTo hw) ?_
      exact EncodesTo.ite (decMatrix_encodesTo hw) .error
  all_goals
    refine congrArg some ?_
    simp only [toNat_ofNat_fld, place]
    omega

end

/-- A field of a literal is computed. -/
theorem fld_ofNat (w lo n : Nat) : fld (no_index (OfNat.ofNat w)) lo n = OfNat.ofNat w / 2 ^ lo % 2 ^ n := by simp only [fld]

theorem fld_mod_word (w : Nat) {lo n : Nat} (h : lo + n ≤ 32) : fld (w % 4294967296) lo n = fld w lo n :=
  fld_mod_two_pow w h

/-- The function codes of LEA and SEL hold a field of their own. -/
theorem fld_mod_lane (w : Nat) {lo n : Nat} (h : lo + n ≤ 96) :
    fld (w % 79228162514264337593543950336) lo n = fld w lo n := fld_mod_two_pow w h

theorem decAlu_lea {w : Nat} (h : fld w 7 4 = 3) (hz : fld w 0 4 = 0) : decAlu w =
    .ok (.lea (BitVec.ofNat 5 (fld w 21 5)) (BitVec.ofNat 5 (fld w 16 5)) (BitVec.ofNat 5 (fld w 11 5))
      (BitVec.ofNat 3 (fld w 4 3))) := by
  have hcode : fld w 4 7 = fld w 4 3 + fld w 7 4 * 2 ^ 3 := fld_add w 4 3 4
  have hn : ∀ c, c < 24 → fld w 4 7 ≠ c := by omega
  simp [decAlu, hn, h, zeros, hz]

theorem decAlu_sel {w : Nat} (h : fld w 9 2 = 2) (hz : fld w 0 4 = 0) : decAlu w =
    .ok (.sel (BitVec.ofNat 5 (fld w 21 5)) (BitVec.ofNat 5 (fld w 16 5)) (BitVec.ofNat 5 (fld w 11 5))
      (BitVec.ofNat 2 (fld w 7 2)) (BitVec.ofNat 3 (fld w 4 3))) := by
  have hcode : fld w 4 7 = fld w 4 3 + fld w 7 4 * 2 ^ 3 := fld_add w 4 3 4
  have hhigh : fld w 7 4 = fld w 7 2 + fld w 9 2 * 2 ^ 2 := fld_add w 7 2 2
  have hn : ∀ c, c < 24 → fld w 4 7 ≠ c := by omega
  have hl : fld w 7 4 ≠ 3 := by omega
  simp [decAlu, hn, hl, h, zeros, hz]

theorem decodeScalar_of_major_alu {w : Nat} (h : fld w 26 6 = 0x01) : decodeScalar w = decAlu w := if_pos h

theorem decodeScalar_of_encodeScalar {i : Instr} {w : Nat} (h : encodeScalar i = some w) :
    decodeScalar (w % 2 ^ 32) = .ok i := by
  cases i <;> simp only [encodeScalar, Option.some.injEq, reduceCtorEq] at h
  case lea d a b n =>
    subst h
    rw [decodeScalar_of_major_alu, decAlu_lea] <;>
      simp [fld_mod_word, fld_place_below, fld_place_same, fld_place_above, fld_ofNat]
  case sel d a b f c =>
    subst h
    rw [decodeScalar_of_major_alu, decAlu_sel] <;>
      simp [fld_mod_word, fld_place_below, fld_place_same, fld_place_above, fld_ofNat]
  all_goals
    subst h
    simp only [decodeScalar, decAlu, decSystem, decPartition, decLoadStore, decCopy, decGeometry, decRaster, decLantern,
      decTransform, decCarillon, decScheduler, decBallast, decMatrix, zeros, fld_mod_word, fld_place_below, fld_place_same,
      fld_place_above, fld_ofNat, ↓reduceIte, Nat.reduceAdd, Nat.reduceLeDiff, Nat.reducePow, Nat.reduceDiv, Nat.reduceMod,
      Nat.reduceEqDiff, BitVec.ofNat_toNat, BitVec.setWidth_eq]

/-- An instruction with a scalar word has no lane word. -/
theorem laneOp_of_encodeScalar {i : Instr} {w : Nat} (h : encodeScalar i = some w) : i.laneOp = none := by
  cases i <;> simp only [encodeScalar, reduceCtorEq] at h <;> rfl

/-! ## Lane words (Table 3-4) -/

@[simp] theorem fld_zero (lo n : Nat) : fld 0 lo n = 0 := by simp [fld]

/-- A lane word places its opcode and then every field below it (Table 3-4). -/
theorem laneBits_eq_place (op : BitVec 8) (w : LaneW) : laneBits op.toNat w =
    place (place (place (place (place (place (place (place (place (place (place (place 0 op.toNat 88) w.la.toNat 84)
      w.u.toNat 83) w.psel.toNat 80) w.pneg.toNat 79) w.d.toNat 72) w.a.toNat 64) w.b.toNat 56) w.c.toNat 48)
      w.mod.toNat 40) w.ty.toNat 32) w.imm.toNat 0 := by
  simp only [laneBits, place]
  omega

theorem laneFields_laneBits (op : BitVec 8) (w : LaneW) : laneFields (laneBits op.toNat w % 2 ^ 96) = w := by
  simp [laneFields, laneBits_eq_place, fld_mod_lane, fld_place_below, fld_place_same, fld_place_above]

theorem opcode_laneBits (op : BitVec 8) (w : LaneW) : fld (laneBits op.toNat w % 2 ^ 96) 88 8 = op.toNat := by
  simp [laneBits_eq_place, fld_mod_lane, fld_place_below, fld_place_same, fld_place_above]

theorem laneBits_laneFields {w : Nat} (hw : w < 2 ^ 96) : laneBits (fld w 88 8) (laneFields w) = w := by
  have hself : fld w 0 96 = w := by
    rw [fld, Nat.pow_zero, Nat.div_one, Nat.mod_eq_of_lt hw]
  have himm := fld_add w 0 32 64
  have hty := fld_add w 32 8 56
  have hmod := fld_add w 40 8 48
  have hc := fld_add w 48 8 40
  have hb := fld_add w 56 8 32
  have ha := fld_add w 64 8 24
  have hd := fld_add w 72 7 17
  have hpneg := fld_add w 79 1 16
  have hpsel := fld_add w 80 3 13
  have hu := fld_add w 83 1 12
  have hla := fld_add w 84 4 8
  simp only [laneBits, laneFields, toNat_ofNat_fld, Nat.reduceAdd] at *
  omega

/-! ## The opcodes of lane words (Table 3-9) -/

theorem lowest_eq_zero {l : List Nat} (h : lowest l = 0) : ∀ c ∈ l, c = 0 := by
  induction l with
  | nil => nofun
  | cons c l ih =>
    simp only [lowest] at h
    have hc : c = 0 := Decidable.byContradiction fun hc => by
      rw [if_neg hc] at h
      split at h <;> omega
    rw [if_pos hc] at h
    exact List.forall_mem_cons.mpr ⟨hc, ih h⟩

/-- R78: the C of GREAD and SWRITE is a sub-code below 2. -/
theorem subCode_lt_two {w : LaneW} {op : Nat} (ho : op = 0x78 ∨ op = 0x82) (h : laneCause op w = 0) : w.c.toNat < 2 := by
  have hslot : slotCause op w false (.sub 2) w.c.toNat = 0 ∨ slotCause op w true (.sub 2) w.c.toNat = 0 := by
    obtain rfl | rfl := ho
    · exact .inl (lowest_eq_zero h _ (by simp [engine]))
    · exact .inr (lowest_eq_zero h _ (by simp [arith]))
  refine Nat.lt_of_not_le fun hle => ?_
  have hc := Nat.not_lt.mpr hle
  simp [slotCause, hc] at hslot

/-- A lane constructor is the one its opcode names, when C holds its sub-code. -/
theorem laneInstr_of_laneOp {i : Instr} {op c : Nat} {w : LaneW} (h : i.laneOp = some (op, w, c))
    (hc : c = 2 ∨ w.c.toNat = c) : laneInstr op w = some i := by
  cases i <;> simp only [Instr.laneOp, Option.some.injEq, Prod.mk.injEq, reduceCtorEq] at h <;>
    obtain ⟨rfl, rfl, rfl⟩ := h
  case gread w => simp [laneInstr, BitVec.toNat_eq, hc.resolve_left (by decide)]
  case greadApron w => simp [laneInstr, BitVec.toNat_eq, hc.resolve_left (by decide)]
  case swrite w => simp [laneInstr, BitVec.toNat_eq, hc.resolve_left (by decide)]
  case swriteZ w => simp [laneInstr, BitVec.toNat_eq, hc.resolve_left (by decide)]
  all_goals rfl

theorem laneOp_lt {i : Instr} {op c : Nat} {w : LaneW} (h : i.laneOp = some (op, w, c)) : op < 2 ^ 8 := by
  cases i <;> simp only [Instr.laneOp, Option.some.injEq, Prod.mk.injEq, reduceCtorEq] at h <;>
    obtain ⟨rfl, rfl, rfl⟩ := h <;> decide

/-- The instruction that an opcode and its C name stands for that opcode and C. -/
theorem laneOp_of_laneInstr {i : Instr} {op : Nat} {w : LaneW} (h : laneInstr op w = some i) (hcause : laneCause op w = 0) :
    ∃ c, i.laneOp = some (op, w, c) ∧ (c = 2 ∨ w.c.toNat = c) := by
  unfold laneInstr at h
  split at h <;> simp only [Option.some.injEq, reduceCtorEq] at h
  case h_68 | h_73 =>
    have hlt := subCode_lt_two (by decide) hcause
    split at h <;> subst h
    · exact ⟨0, rfl, .inr (by simp [*])⟩
    · have hne : w.c.toNat ≠ 0 := fun h0 => ‹¬w.c = 0› (BitVec.eq_of_toNat_eq h0)
      exact ⟨1, rfl, .inr (by omega)⟩
  all_goals
    subst h
    exact ⟨2, rfl, .inl rfl⟩

theorem laneOp_of_decodeLane {i : Instr} {w : Nat} (h : decodeLane w = .ok i) :
    laneCause (fld w 88 8) (laneFields w) = 0 ∧ laneInstr (fld w 88 8) (laneFields w) = some i := by
  unfold decodeLane at h
  dsimp only at h
  split at h
  · split at h
    · cases h
      exact ⟨‹_›, ‹_›⟩
    · cases h
  all_goals cases h

theorem decodeLane_eq {i : Instr} {w : Nat} (hcause : laneCause (fld w 88 8) (laneFields w) = 0)
    (hi : laneInstr (fld w 88 8) (laneFields w) = some i) : decodeLane w = .ok i := by
  simp [decodeLane, hcause, hi]

/-! ## Decoding and encoding -/

theorem ok_of_toOption_eq_some {i : Instr} {r : Except DecErr Instr} (h : r.toOption = some i) : r = .ok i := by
  cases r <;> cases h
  rfl

theorem wellFormed_of_laneOp {i : Instr} {op c : Nat} {w : LaneW} (h : i.laneOp = some (op, w, c)) :
    i.wellFormed = true ↔ laneCause op w = 0 ∧ (c = 2 ∨ w.c.toNat = c) := by
  simp [Instr.wellFormed, h]

/-- Settles O50: a lane word gives back its opcode and fields, a scalar word every field placed in it. -/
theorem encodedInstructionsDecode : Obligations.EncodedInstructionsDecode := by
  intro i hwf n w he
  unfold encode at he
  split at he
  next op x c hl =>
    cases he
    obtain ⟨hcause, hc⟩ := (wellFormed_of_laneOp hl).mp hwf
    obtain ⟨op, rfl⟩ : ∃ o : BitVec 8, o.toNat = op := ⟨.ofNat 8 op, Nat.mod_eq_of_lt (laneOp_lt hl)⟩
    rw [decodeTableWord, if_neg (by decide), decodeLane_eq (i := i)]
    · rfl
    · rwa [laneFields_laneBits, opcode_laneBits]
    · rw [laneFields_laneBits, opcode_laneBits, laneInstr_of_laneOp hl hc]
  next hl =>
    split at he <;> cases he
    rw [decodeTableWord, if_pos (by decide), decodeScalar_of_encodeScalar ‹_›]
    rfl

/-- Settles O51: a decoder answers only instructions whose encoding is the word. -/
theorem decodedWordsEncode : Obligations.DecodedWordsEncode := by
  refine fun w i => ⟨fun h => ?_, fun h => ?_⟩
  · rw [decodeTableWord, if_pos (by decide)] at h
    have he := decodeScalar_encodesTo (Nat.mod_lt w (by decide)) i (ok_of_toOption_eq_some h)
    have hl := laneOp_of_encodeScalar he
    exact ⟨by simp [Instr.wellFormed, hl], by simp [encode, hl, he]⟩
  · rw [decodeTableWord, if_neg (by decide)] at h
    obtain ⟨hcause, hi⟩ := laneOp_of_decodeLane (ok_of_toOption_eq_some h)
    obtain ⟨c, hl, hc⟩ := laneOp_of_laneInstr hi hcause
    refine ⟨(wellFormed_of_laneOp hl).mpr ⟨hcause, hc⟩, ?_⟩
    rw [encode, hl]
    exact congrArg (fun v => some (96, v)) (laneBits_laneFields (Nat.mod_lt w (by decide)))

end Sys2Proof.Machine
end

section
/-! SUPPORT. The shape of every meaning, and the canonical form of memory along a step. -/

namespace Sys2Proof.Machine

open Sys2Proof

/-! ## The shape of a meaning -/

section

variable (s : State)

/-- An outcome that is a flow of the issuing stream. -/
def IsFlow (o : Host.Outcome State Fault Refusal) : Prop := ∃ f, o = onStream f s

/-- An outcome that is a computation of the state monad. -/
def IsAct (o : Host.Outcome State Fault Refusal) : Prop := ∃ m, o = perform m s

/-- What an instruction answers is a flow of its stream, a computation of the state monad, or RESET. -/
theorem exec_cases (i : Instr) : IsFlow s (exec i s) ∨ IsAct s (exec i s) ∨ ∃ form, i = .resetAll form := by
  cases i
  case resetAll form => exact .inr (.inr ⟨form, rfl⟩)
  case add | sub | mul | mulhI64 | mulhN64 | andS | orS | xorS | shl | shr | sra | minI64 | minN64 | maxI64 | maxN64 |
    lea | addImm | andImm | orImm | xorImm | mulImm | sel | movi | movhi | jmp =>
    simp only [exec_add, execAdd, exec_sub, execSub, exec_mul, execMul, exec_mulhI64, execMulhI64, exec_mulhN64,
      execMulhN64, exec_andS, execAndS, exec_orS, execOrS, exec_xorS, execXorS, exec_shl, execShl, exec_shr, execShr,
      exec_sra, execSra, exec_minI64, execMinI64, exec_minN64, execMinN64, exec_maxI64, execMaxI64, exec_maxN64,
      execMaxN64, exec_lea, execLea, exec_addImm, execAddImm, exec_andImm, execAndImm, exec_orImm, execOrImm,
      exec_xorImm, execXorImm, exec_mulImm, execMulImm, exec_sel, execSel, exec_movi, execMovi, exec_movhi, execMovhi,
      exec_jmp, execJmp, alu, aluImm]
    exact .inl ⟨_, rfl⟩
  case nop => exact .inl ⟨_, exec_nop s⟩
  case yield => exact .inl ⟨_, exec_yield s⟩
  case cacheLineExpire => exact .inr (.inl ⟨_, exec_cacheLineExpire ..⟩)
  case freeze => exact .inr (.inl ⟨_, exec_freeze s⟩)
  case freezeCommand => exact .inr (.inl ⟨_, exec_freezeCommand s⟩)
  case thaw => exact .inr (.inl ⟨_, exec_thaw s⟩)
  case thawCommand => exact .inr (.inl ⟨_, exec_thawCommand s⟩)
  case cmp | tst | shlImm | shrImm | sraImm | cmpImm | loopImm | loopSreg |
    brSet | brClear | call | jmpr | ret | lexit => exact .inl ⟨_, rfl⟩
  all_goals exact .inr (.inl ⟨_, rfl⟩)

end

/-! ## No refusal -/

theorem onStream_ne_refused (f : Stream → Flow) (s : State) (r : Refusal) : onStream f s ≠ .refused r := by
  unfold onStream
  repeat' split
  all_goals nofun

theorem perform_ne_refused (m : Act Unit) (s : State) (r : Refusal) : perform m s ≠ .refused r := by
  obtain ⟨_, -, h⟩ | ⟨_, _, -, -, h⟩ | ⟨_, -, -, h⟩ := perform_cases s m
  all_goals
    rw [h]
    nofun

/-- Settles O56: a flow of a stream and a computation of the monad refuse nothing, RESET always answers a next state, and
there is one fault. -/
theorem nothingIsRefused : Obligations.NothingIsRefused := by
  refine fun i s => ⟨fun r => ?_, fun f _ => by cases f; rfl⟩
  obtain ⟨f, h⟩ | ⟨m, h⟩ | ⟨form, rfl⟩ := exec_cases s i
  · exact h ▸ onStream_ne_refused f s r
  · exact h ▸ perform_ne_refused m s r
  · exact nofun

/-! ## The canonical form of memory -/

/-- Whatever the instruction, a next state has memory in the canonical form. -/
theorem exec_wf {i : Instr} {s t : State} (h : Mem.wf s.mem = true) (ht : exec i s = .next t) : Mem.wf t.mem = true := by
  obtain ⟨f, hf⟩ | ⟨m, hm⟩ | ⟨form, rfl⟩ := exec_cases s i
  · exact onStream_wf h (hf ▸ ht)
  · exact perform_wf h (hm ▸ ht)
  · cases ht
    exact wf_filter _ h

@[simp] theorem pass_mem (s : State) (n : Nat) : (s.pass n).mem = s.mem := by
  unfold State.pass
  split <;> rfl

@[simp] theorem metered_mem (s : State) (x : Nat × Nat × Nat) : (s.metered x).mem = s.mem := by
  unfold State.metered
  split <;> rfl

@[simp] theorem lose_mem (s : State) (w : Sram) : (s.lose w).mem = s.mem := by
  unfold State.lose
  repeat' split
  all_goals rfl

@[simp] theorem countCorr_mem (s : State) (d : Nat) : (s.countCorr d).mem = s.mem := by
  unfold State.countCorr
  split <;> rfl

@[simp] theorem strike_mem (s : State) (x : Upset × Bool) : (s.strike x).mem = s.mem := by
  unfold State.strike
  repeat' split
  all_goals simp

/-- A change of the machine that leaves the memory alone, once for every element of a list, leaves it alone. -/
theorem foldl_mem {α : Type} {f : State → α → State} (hf : ∀ s x, (f s x).mem = s.mem) (l : List α) (s : State) :
    (l.foldl f s).mem = s.mem := by
  induction l generalizing s with
  | nil => rfl
  | cons x l ih => rw [List.foldl_cons, ih, hf]

/-- Time that passes, readings of meters and errors that strike store nothing. -/
theorem begin_mem (s : State) (t : Turn) (rest : List Turn) : (s.begin t rest).mem = s.mem := by
  show (List.foldl State.metered _ _).mem = _
  rw [foldl_mem metered_mem, foldl_mem strike_mem, pass_mem]

/-- The machine in which the issued instruction runs has memory in the canonical form. -/
theorem issue_ok_wf {s t : State} {a : TurnAct} {i : Instr} (h : Mem.wf s.mem = true) (hi : s.issue a = .ok (t, i)) :
    Mem.wf t.mem = true := by
  unfold State.issue at hi
  split at hi
  · cases hi
  · split at hi
    · cases hi
      exact wf_storeAll _ h
    · cases hi
    · split at hi <;> cases hi

/-- So does the machine in which a turn ends at its issue. -/
theorem issue_error_wf {s t : State} {a : TurnAct} (h : Mem.wf s.mem = true) (hi : s.issue a = .error (.next t)) :
    Mem.wf t.mem = true := by
  unfold State.issue at hi
  split at hi
  · cases hi
    exact h
  · split at hi
    · cases hi
    · cases hi
      exact wf_storeAll _ h
    · split at hi <;> cases hi
      exact stop_wf h ‹_›

/-- Settles O54: what begins a turn stores nothing, its issue and its meaning store canonically. -/
theorem everyStepKeepsMemoryCanonical : Obligations.EveryStepKeepsMemoryCanonical := by
  intro s t hs ht
  unfold step at ht
  split at ht
  · cases ht
    exact hs
  · split at ht
    · cases ht
      exact hs
    · have hb : Mem.wf (s.begin ‹_› ‹_›).mem = true := (begin_mem ..).symm ▸ hs
      split at ht
      next o ho =>
        subst ht
        exact issue_error_wf hb ho
      next s1 i hok => exact exec_wf (issue_ok_wf hb hok) ht

end Sys2Proof.Machine
end

section
/-! SUPPORT. Words worked in the spec, the values at reset and at the start of a group, and what a fetch may meet. -/

namespace Sys2Proof.Machine

open Sys2Proof

/-- Settles O52: the decoder computes each word. -/
theorem wordsDecodeAsTheSpecEncodes : Obligations.WordsDecodeAsTheSpecEncodes :=
  ⟨rfl, rfl, rfl, rfl, rfl, rfl, rfl, rfl, rfl, rfl, rfl, rfl, rfl, rfl, rfl, rfl, rfl, rfl, rfl, rfl, rfl, rfl, rfl, rfl, rfl,
    rfl, rfl, rfl, rfl, rfl⟩

/-! ## Reset and the start of a group -/

/-- Every die that a form of supply has is as reset. -/
theorem find_resetDies {l : List Nat} {d : Nat} (hd : d ∈ l) :
    Tab.find (l.map (fun d => (d, Die.reset))) d = some Die.reset := by
  induction l with
  | nil => cases hd
  | cons x l ih =>
    by_cases hx : x = d
    · simp [Tab.find, hx]
    · simp [Tab.find, hx, ih ((List.mem_cons.mp hd).resolve_left (Ne.symm hx))]

theorem resetForm_find_die {form d : Nat} (hd : d ∈ diesOf form) : Tab.find (State.resetForm form).dies d = some Die.reset :=
  find_resetDies hd

theorem resetForm_die {form d : Nat} (hd : d ∈ diesOf form) : (State.resetForm form).die d = Die.reset := by
  rw [State.die, Tab.getD, resetForm_find_die hd, Option.getD_some]

theorem resetForm_hasDie {form d : Nat} (hd : d ∈ diesOf form) : (State.resetForm form).hasDie d = true := by
  rw [State.hasDie, resetForm_find_die hd, Option.isSome_some]

/-- R521: nothing beyond the boot block answers before BOOTADDR is written. -/
theorem resetForm_reg64 {form d off : Nat} (hd : d ∈ diesOf form) (ho : 0x1000 ≤ off) : (State.resetForm form).reg64 d off = 0 := by
  simp only [State.reg64, resetForm_die hd, if_neg (Nat.not_lt.mpr ho)]
  rfl

/-- A table over `upFrom a` holds at each of its numbers what the function gives. -/
theorem find_map_upFrom {α : Type} (f : Nat → α) {a n t : Nat} (h : a ≤ t ∧ t < a + n) :
    Tab.find ((upFrom a n).map (fun i => (i, f i))) t = some (f t) := by
  induction n generalizing a with
  | zero => omega
  | succ n ih =>
    by_cases ht : a = t
    · simp [upFrom, Tab.find, ht]
    · simpa [upFrom, Tab.find, ht] using ih (a := a + 1) (by omega)

theorem thread_start (id : GroupId) (pc n prio : Nat) (w : W64) {t : Nat} (ht : t < 32) :
    (Group.start id pc n prio w []).thread t = Thread.start id.gidx t := by
  rw [Group.thread, Tab.getD, Group.start, find_map_upFrom _ (by omega), Option.getD_some]

theorem get_of_no_regs {st : Stream} (hr : st.regs = []) (hb : st.bank = []) (r : Nat) : st.get r = 0 := by
  unfold Stream.get
  rw [hr, hb]
  split
  · rfl
  · split <;> rfl

/-- Settles O55: the reset of a die and the start of a group and its threads are records of these values. -/
theorem resetHoldsTheStatedValues : Obligations.ResetHoldsTheStatedValues := by
  refine ⟨rfl, fun _ => rfl, fun form d hd => ?_, fun id pc n prio w => ?_⟩
  · dsimp only
    rw [resetForm_die hd]
    exact ⟨resetForm_hasDie hd, rfl, rfl, rfl, rfl, rfl, rfl, rfl, rfl, rfl, rfl, rfl, rfl, rfl, rfl, rfl, rfl, rfl, rfl, rfl, rfl,
      rfl, rfl, rfl, rfl, fun _ ho => resetForm_reg64 hd ho⟩
  · refine ⟨rfl, rfl, rfl, rfl, rfl, rfl, rfl, get_of_no_regs rfl rfl, fun _ => rfl, rfl, rfl, rfl, fun t ht => ?_⟩
    rw [thread_start id pc n prio w ht]
    exact ⟨congrArg (t + ·) (Nat.mul_comm ..), rfl, fun _ => rfl⟩

/-! ## A fetch from a device page -/

/-- A port of an entry that must not yet reach a device page, holding the translation of one (R265, R268). -/
def heldDevicePort : Port :=
  { die := 0, cluster := 0, core := none, root := 0, held := [⟨0, 0, 12, 0x90, 0⟩], clear := false }

theorem heldDevicePort_fetchable : State.reset.fetchable heldDevicePort 0 0 := ⟨0x90, 12, rfl, rfl, rfl, rfl, rfl, rfl⟩

theorem fetchWords_heldDevicePort_stalls : fetchWords heldDevicePort 1 0 ⟨State.reset, []⟩ = .error .stall := rfl

/-- Refutes O53: its last clause takes every port, and a port that must not yet reach a device page (`Port.clear` false)
stalls at an executable page of type device, which `State.fetchable` allows. -/
theorem not_stepRunsTheIssuedInstruction : ¬ Obligations.StepRunsTheIssuedInstruction := by
  rintro ⟨-, -, -, -, -, -, hfetch⟩
  have h := hfetch State.reset heldDevicePort 0 0 heldDevicePort_fetchable
  rw [Answers, fetchWords_heldDevicePort_stalls] at h
  cases h

end Sys2Proof.Machine
end

section
/-! SUPPORT. The scalar sequencer, continued (R138 to R144): immediate forms, MOVI and MOVHI, transfers, and what a word of a
stream leaves unchanged. -/

namespace Sys2Proof.Machine

open Sys2Proof

/-! ## A field set in a number (R5) -/

/-- A number with a field set, from its part above the field, the field, and its part below. -/
theorem setFld_eq (x lo n v : Nat) : setFld x lo n v = 2 ^ lo * (2 ^ n * (x / 2 ^ (lo + n)) + v % 2 ^ n) + x % 2 ^ lo := by
  have hlow : 2 ^ lo * (x / 2 ^ lo) + x % 2 ^ lo = x := Nat.div_add_mod x (2 ^ lo)
  have hhigh : 2 ^ n * (x / 2 ^ (lo + n)) + fld x lo n = x / 2 ^ lo := by
    rw [fld, Nat.pow_add, ← Nat.div_div_eq_div_mul, Nat.div_add_mod]
  have hx : 2 ^ lo * (2 ^ n * (x / 2 ^ (lo + n))) + fld x lo n * 2 ^ lo + x % 2 ^ lo = x := by
    rw [Nat.mul_comm (fld x lo n), ← Nat.mul_add, hhigh, hlow]
  rw [setFld, Nat.mul_add, Nat.mul_comm (v % 2 ^ n)]
  omega

theorem testBit_setFld (x lo n v i : Nat) :
    (setFld x lo n v).testBit i = if lo ≤ i ∧ i < lo + n then v.testBit (i - lo) else x.testBit i := by
  rw [setFld_eq, Nat.testBit_two_pow_mul_add _ (Nat.mod_lt _ (Nat.two_pow_pos lo)),
    Nat.testBit_two_pow_mul_add _ (Nat.mod_lt _ (Nat.two_pow_pos n)), Nat.testBit_mod_two_pow, Nat.testBit_mod_two_pow,
    Nat.testBit_div_two_pow]
  by_cases h1 : i < lo
  · simp [h1, show ¬lo ≤ i by omega]
  · by_cases h2 : i < lo + n
    · simp [h1, h2, show i - lo < n by omega, show lo ≤ i by omega]
    · simp [h1, h2, show ¬i - lo < n by omega, show i - lo - n + (lo + n) = i by omega]

/-! ## Immediate forms (R138 to R140) -/

section

variable (x : W64) (i : BitVec 16)

theorem immS_eq_ofInt : immS i = BitVec.ofInt 64 i.toInt := rfl

theorem toNat_immZ : (immZ i).toNat = i.toNat := by
  rw [immZ, BitVec.toNat_setWidth, Nat.mod_eq_of_lt (by have := i.isLt; omega)]

theorem add_immS_eq_ofInt : x + immS i = BitVec.ofInt 64 (x.toInt + i.toInt) := by
  rw [immS_eq_ofInt, BitVec.ofInt_add, BitVec.ofInt_toInt]

theorem mul_immS_eq_ofInt : x * immS i = BitVec.ofInt 64 (x.toInt * i.toInt) := by
  rw [immS_eq_ofInt, BitVec.ofInt_mul, BitVec.ofInt_toInt]

theorem and_immZ_eq_ofNat : x &&& immZ i = BitVec.ofNat 64 (x.toNat &&& i.toNat) := by
  rw [← toNat_immZ, ← BitVec.toNat_and, BitVec.ofNat_toNat, BitVec.setWidth_eq]

theorem or_immZ_eq_ofNat : x ||| immZ i = BitVec.ofNat 64 (x.toNat ||| i.toNat) := by
  rw [← toNat_immZ, ← BitVec.toNat_or, BitVec.ofNat_toNat, BitVec.setWidth_eq]

theorem xor_immZ_eq_ofNat : x ^^^ immZ i = BitVec.ofNat 64 (x.toNat ^^^ i.toNat) := by
  rw [← toNat_immZ, ← BitVec.toNat_xor, BitVec.ofNat_toNat, BitVec.setWidth_eq]

end

/-- A word whose meaning is `aluImm` writes f, when its operation on the extended immediate is f. -/
theorem writesImm_of_aluImm {mk : BitVec 5 → BitVec 5 → BitVec 16 → Instr} {e : BitVec 16 → W64} {g : W64 → W64 → W64}
    {f : W64 → BitVec 16 → W64} (hmk : ∀ d a i s, exec (mk d a i) s = aluImm d a (e i) g s)
    (hgf : ∀ x i, g x (e i) = f x i) : WritesImm mk f := by
  intro s u st d a i hi
  rw [hmk, aluImm, ← hgf]
  exact onStream_next hi rfl

section

variable {s : State} {u : Who} {st : Stream} {d a : BitVec 5} {i : BitVec 16} {f : W64 → Nat → W64}

theorem shiftImm_writes (hi : Issues s u st) (h : i.toNat < 64) : shiftImm d a i f s =
    .next (s.setStream u (s.stepped u st.pc (st.put d.toNat (f (st.get a.toNat) i.toNat)).complete)) :=
  onStream_next hi (if_neg (by omega))

theorem shiftImm_raises (hi : Issues s u st) (h : 64 ≤ i.toNat) :
    shiftImm d a i f s = .next (s.raise u (Cause.atWord 0x04 st.pc 0)) :=
  onStream_raise hi (if_pos h)

end

/-- Settles O1: immediate forms are `aluImm` or `shiftImm` with their operation as an integer; MOVHI sets one field. -/
theorem immediateFormsWriteTheirResult : Obligations.ImmediateFormsWriteTheirResult := by
  refine ⟨writesImm_of_aluImm (fun _ _ _ s => exec_addImm s _ _ _) add_immS_eq_ofInt,
    writesImm_of_aluImm (fun _ _ _ s => exec_mulImm s _ _ _) mul_immS_eq_ofInt,
    writesImm_of_aluImm (fun _ _ _ s => exec_andImm s _ _ _) and_immZ_eq_ofNat,
    writesImm_of_aluImm (fun _ _ _ s => exec_orImm s _ _ _) or_immZ_eq_ofNat,
    writesImm_of_aluImm (fun _ _ _ s => exec_xorImm s _ _ _) xor_immZ_eq_ofNat, ?_, ?_, ?_, ?_⟩
  · intro s u st d a i hi h
    rw [← shiftLeft_eq_ofNat, ← ushiftRight_eq_ofNat, ← sshiftRight_eq_ofInt]
    exact ⟨shiftImm_writes hi h, shiftImm_writes hi h, shiftImm_writes hi h⟩
  · intro s u st d a i hi h
    exact ⟨shiftImm_raises hi h, shiftImm_raises hi h, shiftImm_raises hi h⟩
  · intro s u st d i hi
    rw [exec_movi, execMovi]
    exact onStream_next hi rfl
  · intro s u st d h i hi
    refine ⟨_, by rw [exec_movhi, execMovhi]; exact onStream_next hi rfl, fun n hn => ?_⟩
    rw [BitVec.getLsbD_ofNat, testBit_setFld, decide_eq_true hn, Bool.true_and]
    rfl

/-! ## Transfers (R143, R144) -/

section

variable {s : State} {u : Who} {st : Stream} {f c : BitVec 2} {o : BitVec 22} {want : Bool}

theorem branch_goes (hi : Issues s u st) (h : (st.flag f.toNat).outcome c.toNat = want) :
    branch f c o want s = .next (s.setStream u (s.stepped u st.pc (st.jump (branchTarget st.pc o)))) :=
  onStream_jump hi (if_pos h)

theorem branch_falls (hi : Issues s u st) (h : (st.flag f.toNat).outcome c.toNat ≠ want) :
    branch f c o want s = .next (s.setStream u (s.stepped u st.pc st.complete)) :=
  onStream_next hi (if_neg h)

end

/-- Settles O3: each transfer by its flow, whose target and return address wrap to 64 bits. -/
theorem transfersGoToTheirTarget : Obligations.TransfersGoToTheirTarget := by
  intro s u st hi
  refine ⟨fun f c o h => ⟨branch_goes hi h, branch_falls hi (by simp [h])⟩,
    fun f c o h => ⟨branch_goes hi h, branch_falls hi (by simp [h])⟩, fun o => ?_, ?_, ?_, ?_, ?_, ?_, ?_⟩
  · rw [exec_jmp, execJmp]
    exact onStream_jump hi rfl
  · intro o h
    exact onStream_jump hi (by rw [if_neg (by omega), addr64_four]; rfl)
  · intro o h
    exact onStream_raise hi (if_pos h)
  · intro r t h
    exact onStream_jump hi (by simp only [Stream.flush_rstack, h])
  · intro h
    exact onStream_raise hi (by simp only [Stream.flush_rstack, h])
  · intro a h
    exact onStream_jump hi (if_neg (by omega))
  · intro a h
    exact onStream_raise hi (if_pos h)

/-! ## What a scalar word leaves unchanged -/

/-- One stream differs from another at most as `ScalarFrame` says: registers ds, flag f, the pc, the loops and what completing
resets. -/
def Stream.Keeps (st st1 : Stream) (ds : List Nat) (f : Option Nat) : Prop :=
  (∀ n, n ∉ ds → st1.get n = st.get n) ∧ (∀ n, f ≠ some n → st1.flag n = st.flag n) ∧
    { st1 with
      regs := st.regs
      bank := st.bank
      flags := st.flags
      pc := st.pc
      loops := st.loops
      lc := st.lc
      wait := st.wait
      age := st.age
      due := st.due } = st

section

variable {st t : Stream} {ds : List Nat} {f : Option Nat}

theorem Stream.Keeps.refl (st : Stream) : st.Keeps st [] none := ⟨fun _ _ => rfl, fun _ _ => rfl, rfl⟩

theorem Stream.keeps_put (st : Stream) (d : Nat) (v : W64) : st.Keeps (st.put d v) [d] none := by
  refine ⟨fun n hn => Stream.get_put_ne st (by simpa using hn) v, fun n _ => ?_, ?_⟩
  all_goals
    unfold Stream.put
    repeat' split
    all_goals rfl

theorem Stream.keeps_setFlag (st : Stream) (k : Nat) (x : Flag) : st.Keeps (st.setFlag k x) [] (some k) := by
  refine ⟨fun _ _ => rfl, fun n hn => ?_, rfl⟩
  exact Tab.getD_set_ne _ _ _ (fun h => hn (congrArg some h.symm))

/-- Completing and transferring change what every word changes. -/
theorem Stream.Keeps.complete (h : st.Keeps t ds f) : st.Keeps t.complete ds f := h

theorem Stream.Keeps.jump (h : st.Keeps t ds f) (pc : Nat) : st.Keeps (t.jump pc) ds f := h

theorem Stream.Keeps.stepped (h : st.Keeps t ds f) (s : State) (u : Who) (y : Nat) : st.Keeps (s.stepped u y t) ds f := by
  unfold State.stepped
  split <;> exact h

theorem Stream.Keeps.frame {s : State} {u : Who} (h : st.Keeps t ds f) (hs : s.stream u = some st) :
    ScalarFrame s (s.setStream u t) u st ds f := by
  obtain ⟨hget, hflag, hrest⟩ := h
  exact ⟨t, rfl, setStream_stream hs t, hget, hflag, fun a => by rw [setStream_mem], hrest⟩

variable {i : Instr} {m : Stream → Flow}

/-- A word that is a flow of its stream keeps what its flow keeps. -/
theorem keepsBut_of_next {g : Stream → Stream} (hm : ∀ s, exec i s = onStream m s) (hn : ∀ st, m st = .next (g st))
    (hk : ∀ st : Stream, st.Keeps (g st) ds f) : KeepsBut i ds f := by
  intro s u st t hi ht
  rw [hm, onStream_next hi (hn st)] at ht
  cases ht
  exact ((hk st).complete.stepped s u st.pc).frame hi.2

theorem keepsBut_of_jump {pc : Stream → Nat} (hm : ∀ s, exec i s = onStream m s) (hn : ∀ st, m st = .jump st (pc st)) :
    KeepsBut i [] none := by
  intro s u st t hi ht
  rw [hm, onStream_jump hi (hn st)] at ht
  cases ht
  exact (((Stream.Keeps.refl st).jump _).stepped s u st.pc).frame hi.2

theorem keepsBut_alu {d a b : BitVec 5} {g : W64 → W64 → W64} (hm : ∀ s, exec i s = alu d a b g s) :
    KeepsBut i [d.toNat] none :=
  keepsBut_of_next (fun s => (hm s).trans (by rw [alu])) (fun _ => rfl) fun st => st.keeps_put _ _

theorem keepsBut_aluImm {d a : BitVec 5} {x : W64} {g : W64 → W64 → W64} (hm : ∀ s, exec i s = aluImm d a x g s) :
    KeepsBut i [d.toNat] none :=
  keepsBut_of_next (fun s => (hm s).trans (by rw [aluImm])) (fun _ => rfl) fun st => st.keeps_put _ _

theorem keepsBut_shiftImm {d a : BitVec 5} {n : BitVec 16} {g : W64 → Nat → W64} (hm : ∀ s, exec i s = shiftImm d a n g s)
    (h : n.toNat < 64) : KeepsBut i [d.toNat] none :=
  keepsBut_of_next hm (fun _ => if_neg (by omega)) fun st => st.keeps_put _ _

theorem keepsBut_compare {k : BitVec 5} {g : Stream → Flag} (hm : ∀ s, exec i s = compare k g s) (h : k.toNat < 4) :
    KeepsBut i [] (some k.toNat) :=
  keepsBut_of_next hm (fun _ => if_neg (by omega)) fun st => st.keeps_setFlag _ _

theorem keepsBut_branch {k c : BitVec 2} {o : BitVec 22} {want : Bool} (hm : ∀ s, exec i s = branch k c o want s) :
    KeepsBut i [] none := by
  intro s u st t hi ht
  rw [hm] at ht
  by_cases h : (st.flag k.toNat).outcome c.toNat = want
  · rw [branch_goes hi h] at ht
    cases ht
    exact (((Stream.Keeps.refl st).jump _).stepped s u st.pc).frame hi.2
  · rw [branch_falls hi h] at ht
    cases ht
    exact ((Stream.Keeps.refl st).complete.stepped s u st.pc).frame hi.2

end

/-- Settles O57: every such word is a flow of its stream that puts a register, sets a flag, or neither. -/
theorem scalarWordsKeepTheRest : Obligations.ScalarWordsKeepTheRest := by
  refine ⟨fun _ _ _ => keepsBut_alu fun s => exec_add s _ _ _, fun _ _ _ => keepsBut_alu fun s => exec_sub s _ _ _,
    fun _ _ _ => keepsBut_alu fun s => exec_mul s _ _ _, fun _ _ _ => keepsBut_alu fun s => exec_mulhI64 s _ _ _,
    fun _ _ _ => keepsBut_alu fun s => exec_mulhN64 s _ _ _, fun _ _ _ => keepsBut_alu fun s => exec_andS s _ _ _,
    fun _ _ _ => keepsBut_alu fun s => exec_orS s _ _ _, fun _ _ _ => keepsBut_alu fun s => exec_xorS s _ _ _,
    fun _ _ _ => keepsBut_alu fun s => exec_shl s _ _ _, fun _ _ _ => keepsBut_alu fun s => exec_shr s _ _ _,
    fun _ _ _ => keepsBut_alu fun s => exec_sra s _ _ _, fun _ _ _ => keepsBut_alu fun s => exec_minI64 s _ _ _,
    fun _ _ _ => keepsBut_alu fun s => exec_minN64 s _ _ _, fun _ _ _ => keepsBut_alu fun s => exec_maxI64 s _ _ _,
    fun _ _ _ => keepsBut_alu fun s => exec_maxN64 s _ _ _, fun _ _ _ _ => keepsBut_alu fun s => exec_lea s _ _ _ _,
    fun _ _ _ _ _ => ?_, fun _ _ _ => keepsBut_aluImm fun s => exec_addImm s _ _ _,
    fun _ _ _ => keepsBut_aluImm fun s => exec_mulImm s _ _ _, fun _ _ _ => keepsBut_aluImm fun s => exec_andImm s _ _ _,
    fun _ _ _ => keepsBut_aluImm fun s => exec_orImm s _ _ _, fun _ _ _ => keepsBut_aluImm fun s => exec_xorImm s _ _ _,
    fun _ _ _ h => ⟨keepsBut_shiftImm (fun s => exec_shlImm s _ _ _) h, keepsBut_shiftImm (fun s => exec_shrImm s _ _ _) h,
      keepsBut_shiftImm (fun s => exec_sraImm s _ _ _) h⟩, fun _ _ _ => ⟨?_, ?_⟩,
    fun _ _ _ _ h => ⟨keepsBut_compare (fun s => exec_cmp s _ _ _) h, keepsBut_compare (fun s => exec_tst s _ _ _) h,
      keepsBut_compare (fun s => exec_cmpImm s _ _ _) h⟩,
    fun _ _ _ => ⟨keepsBut_branch fun s => exec_brSet s _ _ _, keepsBut_branch fun s => exec_brClear s _ _ _, ?_⟩, ?_, ?_⟩
  · exact keepsBut_of_next (fun s => exec_sel s ..) (fun _ => rfl) fun st => st.keeps_put _ _
  · exact keepsBut_of_next (fun s => exec_movi s ..) (fun _ => rfl) fun st => st.keeps_put _ _
  · exact keepsBut_of_next (fun s => exec_movhi s ..) (fun _ => rfl) fun st => st.keeps_put _ _
  · exact keepsBut_of_jump (fun s => exec_jmp s _) (fun _ => rfl)
  · exact keepsBut_of_next exec_nop (fun _ => rfl) Stream.Keeps.refl
  · exact keepsBut_of_next exec_yield (fun _ => rfl) Stream.Keeps.refl

end Sys2Proof.Machine
end

section
/-! SUPPORT. The rest of the sequencer (R46, R51, R89, R135, R148 to R164): special registers, SLEEP, lane runs, register
trading, and the windows that end. -/

namespace Sys2Proof.Machine

open Sys2Proof

/-! ## The issuing group: its causes, its run and its windows -/

section

variable {w : Work} {k : Nat} {g : Group} (h : w.cur.issuer = some (.group k)) (hg : Tab.find w.cur.groups k = some g)
include h hg

@[simp] theorem run_groupRaise {α : Type} (code : Nat) :
    (raise code : Act α) w = .error (.raise (Cause.atWord code g.st.pc 0)) := run_raise h (stream_group hg) code

@[simp] theorem run_groupNoTrapMode (ht : g.st.tmode = false) : noTrapMode w = .ok ((), w) := by
  simp [noTrapMode, h, hg, ht]

@[simp] theorem run_closeWindows : closeWindows w = .ok ((), ⟨w.cur.setGroup k { g with st := g.st.flush }, w.stores⟩) := by
  simp [closeWindows, h, hg]

end

@[simp] theorem run_waitRun {w : Work} {k : Nat} {g : Group} (hg : Tab.find w.cur.groups k = some g) (hr : g.noRun) (j : Bool) :
    waitRun k j w = .ok ((), w) := by
  obtain ⟨hactive, haccs, hpend⟩ := hr
  simp [waitRun, run_getGroup w hg, hactive, haccs, hpend]

section

variable {s : State} {u : Who} {st : Stream} {k : Nat} {g : Group} {ga : Gang}

/-- A cause of a group's word, which a group that only issues does not sleep through. -/
theorem perform_groupRaise {m : Act Unit} {c : Cause} (hi : GroupIssues s k g) (hw : g.st.wait = .none)
    (hm : m ⟨s, []⟩ = .error (.raise c)) : perform m s = .next (s.raise (.group k) c) :=
  perform_raise hm hi.1 (stream_group hi.2) (by simp [hw])

theorem perform_unitRaise {m : Act Unit} {c : Cause} (hi : Issues s u st) (hw : st.wait = .none)
    (hm : m ⟨s, []⟩ = .error (.raise c)) : perform m s = .next (s.raise u c) :=
  perform_raise hm hi.1 hi.2 (by simp [hw])

/-! ## Special registers (R135, R161, R162) -/

theorem execGets_group {v : Nat} (d : BitVec 5) (n : BitVec 16) (hi : GangIssues s k g ga)
    (hv : s.groupReg g ga n.toNat = some v) :
    execGets d n s = .next (s.wordDone k g g.st.pc (g.st.put d.toNat (BitVec.ofNat 64 v))) := by
  obtain ⟨⟨hu, hg⟩, hga⟩ := hi
  refine perform_of_no_stores ?_ rfl
  simp [hu, hg, hga, hv, State.wordDone]

theorem execGets_group_raises (d : BitVec 5) (n : BitVec 16) (hi : GangIssues s k g ga) (hw : g.st.wait = .none)
    (hv : s.groupReg g ga n.toNat = none) :
    execGets d n s = .next (s.raise (.group k) (Cause.atWord 0x04 g.st.pc 0)) := by
  obtain ⟨hi, hga⟩ := hi
  have ⟨hu, hg⟩ := hi
  refine perform_groupRaise hi hw ?_
  simp [hu, hg, hga, hv]

theorem execGets_ctx {c : Nat} {x : Ctx} {v : Nat} (d : BitVec 5) (n : BitVec 16) (hi : CtxIssues s c x ga)
    (hv : s.ctxReg x ga n.toNat = some v) :
    execGets d n s = .next (s.unitDone (.ctx c) x.st.pc (x.st.put d.toNat (BitVec.ofNat 64 v))) := by
  obtain ⟨hu, hx, hga⟩ := hi
  refine perform_of_no_stores ?_ (by simp [State.unitDone])
  have hme : me ⟨s, []⟩ = .ok (.ctx c, ⟨s, []⟩) := run_me _ hu
  have hgang : myGang ⟨s, []⟩ = .ok ((c, ga), ⟨s, []⟩) := run_myGang (w := ⟨s, []⟩) hu hga
  simp [hgang, hme, hx, hv, State.unitDone, run_unitFinishWith (w := ⟨s, []⟩) hu (stream_ctx hx)]

/-- Settles O6: GETS by the value of its number, SETS by the four numbers it takes. -/
theorem specialRegistersReadAndWrite : Obligations.SpecialRegistersReadAndWrite := by
  refine ⟨fun s k g ga d n v hi hv => execGets_group d n hi hv, fun s c x ga d n v hi hv => execGets_ctx d n hi hv,
    fun s k g ga d n hi hw hv => execGets_group_raises d n hi hw hv, fun s k g a hi => ?_, fun s k g a n hi hw h1 h2 h3 h4 => ?_⟩
  · obtain ⟨hu, hg⟩ := hi
    refine ⟨?_, ?_, ?_, ?_⟩
    all_goals
      refine perform_of_no_stores ?_ rfl
      simp [hu, hg, State.wordDone]
  · have ⟨hu, hg⟩ := hi
    replace h1 : ¬ n = 48#16 := h1
    replace h2 : ¬ n = 49#16 := h2
    replace h3 : ¬ n = 304#16 := h3
    replace h4 : ¬ n = 321#16 := h4
    refine perform_groupRaise hi hw ?_
    simp [hu, hg, h1, h2, h3, h4]

/-! ## Lane runs and register trading (R51, R150 to R152, R163, R164) -/

/-- LRUN at an index below 2^20 with no run active. -/
theorem startLanes_starts {n : Nat} (hi : GroupIssues s k g) (ht : g.st.tmode = false) (hr : g.noRun) (hn : n < 2 ^ 20) :
    perform (startLanes n) s =
      .next (s.wordDone k (({ g with st := g.st.flush }).startRun n) g.st.flush.pc g.st.flush) := by
  obtain ⟨hu, hg⟩ := hi
  have hn' : decide (2 ^ 20 ≤ n) = false := by simpa using hn
  refine perform_of_no_stores ?_ rfl
  simp only [startLanes, run_bind, run_myGroup (w := ⟨s, []⟩) hu, run_groupStream (w := ⟨s, []⟩) hu hg, check_cons ht,
    check_cons hn', check_nil, run_pure, run_waitRun (w := ⟨s, []⟩) hg hr]
  simp [hu, hg, State.wordDone, Group.startRun]

/-- Settles O7: LRUN checks, finds no run to wait for, closes the windows and starts the run. -/
theorem laneRunsStartAndJoin : Obligations.LaneRunsStartAndJoin := by
  refine ⟨fun s k g l hi ht hr => startLanes_starts hi ht hr l.isLt, fun s k g a l hi ht hr hn => ?_,
    fun s k g a l hi ht hw hn => ?_, fun s k g hi ht hr => ?_, fun g n => ⟨rfl, rfl, rfl, rfl⟩⟩
  · obtain ⟨hu, hg⟩ := hi
    rw [← startLanes_starts ⟨hu, hg⟩ ht hr hn]
    simp [execLrunSreg, perform, hu, hg]
  · have ⟨hu, hg⟩ := hi
    refine perform_groupRaise hi hw ?_
    have hn' : decide (2 ^ 20 ≤ (g.st.flush.get a.toNat).toNat + l.toNat) = true := by simpa using hn
    simp only [run_bind, run_groupStream (w := ⟨s, []⟩) hu hg, startLanes, run_myGroup (w := ⟨s, []⟩) hu, check_cons ht, hn']
    simp [check, hu, hg, leastOf]
  · obtain ⟨hu, hg⟩ := hi
    refine perform_of_no_stores ?_ rfl
    simp [hu, hg, ht, hr, State.wordDone]

/-- Putting back the memory that is there changes nothing. -/
theorem setMem_of_mem_eq {t : State} {m : List Host.Cell} (h : t.mem = m) : t.setMem m = t := h ▸ setMem_self t

/-- A group and a gang are put in either order. -/
theorem setGroup_setGang (s : State) (k j : Nat) (g : Group) (ga : Gang) :
    (s.setGroup k g).setGang j ga = (s.setGang j ga).setGroup k g := rfl

/-- Settles O8: REGGIVE and REGCLAIM move registers between the group and its lane. -/
theorem registersAreTraded : Obligations.RegistersAreTraded := by
  refine ⟨?_, ?_, ?_⟩
  · intro s k g ga d a ⟨⟨hu, hg⟩, hga⟩ ht hr hs n hn hle
    have hok : ¬ (n % 8 ≠ 0 ∨ g.regcnt < n + 8) := by omega
    refine perform_of_no_stores ?_ rfl
    simp [hu, hg, ht, hr, run_waitSettled (w := ⟨s, []⟩) hu hg hs, hok, hga, n, State.wordDone, setGroup_setGang]
  · intro s k g ga d a ⟨⟨hu, hg⟩, hga⟩ ht hr hs n m hn hle
    have hok : ¬ (n % 8 ≠ 0 ∨ 64 < g.regcnt + n) := by omega
    refine perform_of_no_stores ?_ rfl
    simp [hu, hg, ht, hr, run_waitSettled (w := ⟨s, []⟩) hu hg hs, hok, hga, n, m, State.wordDone, setGroup_setGang]
  · intro s k g ga d a ⟨⟨hu, hg⟩, hga⟩ ht hr hs hw hbad
    refine perform_groupRaise ⟨hu, hg⟩ hw ?_
    simp [hu, hg, ht, hr, run_waitSettled (w := ⟨s, []⟩) hu hg hs, hbad]

/-! ## Regions (R264, R266) -/

@[simp] theorem run_waitAld {w : Work} (h : w.cur.issuer = some (.group k)) (hg : Tab.find w.cur.groups k = some g)
    (ha : g.aldPending = false) : waitAld w = .ok ((), w) := by
  simp [waitAld, h, hg, ha]

@[simp] theorem run_commits {w : Work} (hg : Tab.find w.cur.groups k = some g) (hc : g.committed = true) :
    commits k w = .ok (true, w) := by
  simp [commits, hg, hc]

/-- Settles O9: with nothing to wait for, REGN closes the windows and takes the checkpoint. -/
theorem regnTakesACheckpoint : Obligations.RegnTakesACheckpoint := by
  refine ⟨fun s k g hi ht hr ha hc => ?_, fun g pc => ⟨rfl, rfl, rfl, rfl, rfl, rfl, rfl, rfl, rfl, rfl, rfl⟩⟩
  obtain ⟨hu, hg⟩ := hi
  refine perform_of_no_stores ?_ rfl
  simp [hu, hg, ht, hr, ha, hc, State.wordDone, Group.region]

/-! ## SLEEP and the windows (R52, R89, R148) -/

/-- A meaning that leaves a word waiting. -/
theorem perform_unitWait {m : Act Unit} {x : Wait} (hi : Issues s u st) (hm : m ⟨s, []⟩ = .error (.wait x)) :
    perform m s = .next (s.setStream u { st with wait := x }) :=
  perform_stop s hm (by simp [State.halted, State.stop, State.setWait, hi.1, hi.2])

/-- What SLEEP does in a stream that does not sleep yet. -/
def sleepFor (a : BitVec 5) : Act Unit := do
  let n ← sreg a.toNat
  if 2 ^ 32 ≤ n then raise 0x04
  else if n = 0 then finish
  else halt (.wait (.sleep n))

theorem execSleep_awake {a : BitVec 5} (hi : Issues s u st) (hw : ∀ n, st.wait ≠ .sleep n) :
    execSleep a s = perform (sleepFor a) s := by
  unfold execSleep perform
  rw [run_bind, run_myStream ⟨s, []⟩ hi.1 hi.2]
  dsimp only
  cases hst : st.wait
  case sleep n => exact absurd hst (hw n)
  all_goals rfl

theorem sleepHoldsTheStream : SleepHoldsTheStream := by
  refine ⟨fun s u st a hi hw h0 => ?_, fun s u st a hi hw hpos hlt => ?_, fun s u st a hi hw hbig => ?_,
    fun s unit who st hs hw hstop hh => ?_, fun st n left hw hstop => ?_⟩
  · rw [exec_sleep, execSleep_awake hi hw]
    refine perform_of_no_stores ?_ (by simp [State.unitDone])
    simp [sleepFor, run_unitSreg (w := ⟨s, []⟩) hi.1 hi.2, h0, run_unitFinish (w := ⟨s, []⟩) hi.1 hi.2, State.unitDone]
  · rw [exec_sleep, execSleep_awake hi hw]
    refine perform_unitWait hi ?_
    simp [sleepFor, run_unitSreg (w := ⟨s, []⟩) hi.1 hi.2, Nat.ne_of_gt hpos]
    omega
  · rw [exec_sleep, execSleep_awake hi (by simp [hw])]
    refine perform_unitRaise hi hw ?_
    simp [sleepFor, run_unitSreg (w := ⟨s, []⟩) hi.1 hi.2, run_raise (w := ⟨s, []⟩) hi.1 hi.2]
    omega
  · refine perform_of_no_stores ?_ (by simp [State.unitDone])
    simp [hs, hw, hstop, hh, finishOf, State.unitDone]
  · simp [Stream.pass, hw, hstop]

theorem endedWindowsWriteTheirResult : EndedWindowsWriteTheirResult := by
  refine ⟨fun s unit who k st p hne hs hp hleft => ?_, fun s who k g p hg hp hready hwins => ?_⟩
  · refine perform_of_no_stores ?_ (by simp)
    simp [hne, hs, hp, hleft]
  · refine perform_of_no_stores ?_ rfl
    have hall : (g.run.frags.all fun f => f.wins.all fun w => !(w.1 == p.tag) || w.2 == 0) = true := by
      simp only [List.all_eq_true, Bool.or_eq_true, Bool.not_eq_true', beq_eq_false_iff_ne, beq_iff_eq]
      intro f hf w hwin
      by_cases ht : w.1 = p.tag
      · exact .inr (hwins f hf w hwin ht)
      · exact .inl ht
    simp only [run_bind, run_getGroup (w := ⟨s, []⟩) hg, hp, run_need_some, hready, hall, if_pos]
    simp

/-- Settles O11: SLEEP by the clauses of its operand, and the windows by theirs. -/
theorem streamsWaitForTimeAndResults : Obligations.StreamsWaitForTimeAndResults :=
  ⟨sleepHoldsTheStream, endedWindowsWriteTheirResult⟩

/-! ## The return from a handler (R273) -/

theorem returnsFromTheHandler : ReturnsFromTheHandler := by
  refine ⟨fun s k g hi ht => ⟨?_, rfl, rfl, rfl, rfl, rfl, rfl, rfl, rfl, fun h => ?_, fun h => ?_⟩,
    ?_, fun s c st hi ht hw => ?_, fun s u st hi ht hw => ⟨?_, ?_, ?_⟩⟩
  · obtain ⟨hu, hg⟩ := hi
    refine perform_of_no_stores ?_ rfl
    simp [onlyTrapMode, hu, hg, ht, State.steppedOn, stream_group, setStream_group]
  · simp [Group.replay, h, addr64_four]
  · simp [Group.replay, h]
  · intro s u st hi ht back
    have run : ∀ f t, f st = some t → perform (leaveTrap f) s = .next (s.setStream u (s.stepped u st.pc t)) := by
      intro f t hf
      refine perform_of_no_stores ?_ (by simp)
      simp [leaveTrap, onlyTrapMode, run_myStream (w := ⟨s, []⟩) hi.1 hi.2, ht, hf, hi.1]
    refine ⟨fun h => ?_, fun h => ?_, fun h => ?_⟩
    · exact run _ _ (by simp [Stream.again, h, Stream.leave])
    · exact run _ _ (by simp [Stream.again, h, Stream.leave])
    · exact run _ _ (by simp [Stream.pastTrap, h, Stream.leave, addr64_four])
  · refine perform_unitRaise hi hw ?_
    simp [onlyTrapMode, run_myStream (w := ⟨s, []⟩) hi.1 hi.2, ht, run_raise (w := ⟨s, []⟩) hi.1 hi.2, hi.1]
  · refine perform_unitRaise hi hw ?_
    simp [onlyTrapMode, run_myStream (w := ⟨s, []⟩) hi.1 hi.2, ht, run_raise (w := ⟨s, []⟩) hi.1 hi.2]
  · refine perform_unitRaise hi hw ?_
    simp [leaveTrap, onlyTrapMode, run_myStream (w := ⟨s, []⟩) hi.1 hi.2, ht, run_raise (w := ⟨s, []⟩) hi.1 hi.2]
  · refine perform_unitRaise hi hw ?_
    simp [leaveTrap, onlyTrapMode, run_myStream (w := ⟨s, []⟩) hi.1 hi.2, ht, run_raise (w := ⟨s, []⟩) hi.1 hi.2]

/-- With nothing that can still raise a cause, no unit waits. -/
theorem run_unitSettled {w : Work} (h : w.cur.issuer = some u) (hs : w.cur.unitSettled u) : waitSettled w = .ok ((), w) := by
  cases u with
  | ctx c => simp [waitSettled, h]
  | group k =>
    obtain ⟨g, hg, hset⟩ := Option.map_eq_some_iff.mp (hs k rfl)
    exact run_waitSettled h hg hset

theorem handlerMaskRecordAndSuspension : HandlerMaskRecordAndSuspension := by
  refine ⟨fun s u st d a hi hlt => ?_, fun s u st d a hi hlt => ?_, ?_, fun s u st d a hi hw hbig => ⟨?_, ?_, ?_⟩⟩
  · have hlt' : (st.get a.toNat).toNat < 65536 := hlt
    have hs' := setStream_stream hi.2 { st with hmask := (st.get a.toNat).setWidth 16 }
    refine perform_of_no_stores ?_ (by simp [State.unitDone])
    simp [run_unitSreg (w := ⟨s, []⟩) hi.1 hi.2, run_myStream (w := ⟨s, []⟩) hi.1 hi.2, run_unitPutStream, hi.1,
      run_unitFinishWith (w := ⟨s.setStream u _, []⟩) (by simpa using hi.1) hs', setStream_setStream, setStream_stepped,
      State.unitDone, Nat.not_le.mpr hlt']
  · refine perform_of_no_stores ?_ (by simp [State.unitDone])
    simp [run_unitSreg (w := ⟨s, []⟩) hi.1 hi.2, Nat.not_le.mpr hlt, run_myStream (w := ⟨s, []⟩) hi.1 hi.2, hi.1,
      run_unitFinishWith (w := ⟨s, []⟩) hi.1 hi.2, State.unitDone]
  · intro s u st a hi hlt hset frec s1
    have hlt' : (st.get a.toNat).toNat < 65536 := hlt
    refine perform_of_no_stores ?_ (by simp [s1, park_mem])
    simp [run_unitSreg (w := ⟨s, []⟩) hi.1 hi.2, run_myStream (w := ⟨s, []⟩) hi.1 hi.2, run_unitPutStream, hi.1,
      run_unitSettled (w := ⟨s, []⟩) hi.1 hset, s1, frec, Nat.not_le.mpr hlt']
    exact setMem_of_mem_eq (by simp [park_mem])
  · refine perform_unitRaise hi hw ?_
    simp [run_unitSreg (w := ⟨s, []⟩) hi.1 hi.2, run_raise (w := ⟨s, []⟩) hi.1 hi.2]
    omega
  · refine perform_unitRaise hi hw ?_
    simp [run_unitSreg (w := ⟨s, []⟩) hi.1 hi.2, run_raise (w := ⟨s, []⟩) hi.1 hi.2]
    omega
  · refine perform_unitRaise hi hw ?_
    simp [run_unitSreg (w := ⟨s, []⟩) hi.1 hi.2, run_raise (w := ⟨s, []⟩) hi.1 hi.2]
    omega

/-- Settles O12: TRET by its modes, and the words of a handler by their operand. -/
theorem handlersRunAndReturn : Obligations.HandlersRunAndReturn := ⟨returnsFromTheHandler, handlerMaskRecordAndSuspension⟩

end

end Sys2Proof.Machine
end

section
/-! SUPPORT. Scalar loads and stores, operand queues and sector waits (R6, R72, R154 to R160, R201, R230, R240). -/

namespace Sys2Proof.Machine

open Sys2Proof

/-- A meaning whose stores its machine already shows ends in that machine. -/
theorem perform_of_stores {m : Act Unit} {s t : State} {l : List (Nat × Nat × Nat)} (h : m ⟨s, []⟩ = .ok ((), ⟨t, l⟩))
    (hm : t.mem = storeAll s.mem l) : perform m s = .next t := by
  rw [perform_ok s h]
  exact congrArg Host.Outcome.next (setMem_of_mem_eq hm)

/-- A meaning that answers ends in what it leaves. -/
theorem perform_after {m : Act Unit} {s : State} {v : Work} (h : m ⟨s, []⟩ = .ok ((), v)) : perform m s = .next (s.after v) :=
  perform_ok s h

/-! ## Addresses and what a stream waits for -/

theorem smAddr_eq (st : Stream) (b : BitVec 5) (z : BitVec 2) (o : BitVec 10) :
    smAddr (st.get b.toNat).toNat o (sizeBytes z) = st.smAddr b z o := by
  simp [smAddr, sizeBytes, Stream.smAddr, addr64, wrap]

@[simp] theorem run_checkAddr {w : Work} {a n : Nat} (h : Placed48 a n) : checkAddr a n w = .ok ((), w) := by
  obtain ⟨hlt, hmod⟩ := h
  simp only [checkAddr, Nat.not_le.mpr hlt, if_false, hmod, ne_eq, not_true_eq_false]
  rfl

@[simp] theorem run_unitWaitAld {w : Work} {u : Who} (h : w.cur.issuer = some u) (ha : w.cur.aldsDone u) :
    waitAld w = .ok ((), w) := by
  cases u with
  | ctx c => simp [waitAld, h]
  | group k =>
    obtain ⟨g, hg, hp⟩ := Option.map_eq_some_iff.mp (ha k rfl)
    exact run_waitAld h hg hp

section

variable {s : State} {u : Who} {st : Stream} {k : Nat} {g : Group}

/-- A word that puts its stream and completes. -/
theorem run_unitPutFinish {w : Work} (h : w.cur.issuer = some u) (hs : w.cur.stream u = some st) (t : Stream) :
    (do putStream t; finish : Act Unit) w =
      .ok ((), ⟨w.cur.setStream u (w.cur.stepped u t.pc t.complete), w.stores⟩) := by
  have ht := run_unitFinish (w := ⟨w.cur.setStream u t, w.stores⟩) (by simpa using h) (setStream_stream hs t)
  simp only [run_bind, run_unitPutStream h, ht, setStream_setStream, setStream_stepped]

/-! ## SLD and SST (R154, R155) -/

/-- Where the address is outside 48 bits or misaligned, the word raises its cause at once. -/
theorem run_checkAddr_raises {w : Work} (h : w.cur.issuer = some u) (hs : w.cur.stream u = some st) {a n : Nat} :
    (2 ^ 48 ≤ a → checkAddr a n w = .error (.raise (Cause.atWord 0x10 st.pc a))) ∧
    (a < 2 ^ 48 → a % n ≠ 0 → checkAddr a n w = .error (.raise (Cause.atWord 0x12 st.pc a))) := by
  refine ⟨fun hbig => ?_, fun hlt hmod => ?_⟩
  · rw [checkAddr, if_pos hbig, run_raiseAt h hs]
  · rw [checkAddr, if_neg (Nat.not_le.mpr hlt), if_pos hmod, run_raiseAt h hs]

section

variable {d b : BitVec 5} {l : BitVec 4} {z : BitVec 2} {o : BitVec 10} {c : Cause}

theorem execSld_raises (hi : Issues s u st) (hw : st.wait = .none)
    (hc : checkAddr (st.smAddr b z o) (2 ^ z.toNat) ⟨s, []⟩ = .error (.raise c)) : execSld d b l z o s = .next (s.raise u c) := by
  refine perform_unitRaise hi hw ?_
  simp only [run_bind, run_unitSreg (w := ⟨s, []⟩) hi.1 hi.2, smAddr_eq]
  simp only [sizeBytes, hc]

theorem execSst_raises (hi : Issues s u st) (hw : st.wait = .none)
    (hc : checkAddr (st.smAddr b z o) (2 ^ z.toNat) ⟨s, []⟩ = .error (.raise c)) : execSst d b z o s = .next (s.raise u c) := by
  refine perform_unitRaise hi hw ?_
  simp only [run_bind, run_unitSreg (w := ⟨s, []⟩) hi.1 hi.2, smAddr_eq]
  simp only [sizeBytes, hc]

end

/-- Settles O14: SLD and SST check their address, wait for the ALDs, and then read or write it. -/
theorem scalarLoadsAndStoresComplete : Obligations.ScalarLoadsAndStoresComplete := by
  refine ⟨fun s u st d b l z o x w st1 hi hp ha hr hi1 => ⟨fun hl => ?_, fun hl => ?_⟩,
    fun s u st d b z o r w st1 hi hp ha hr hi1 => ?_, fun s u st d b l z o hi hw => ⟨fun hbig => ?_, fun hlt hmod => ?_⟩⟩
  · refine perform_after ?_
    have hr' : streamRead u (s.portOf u) ⟨true, 0⟩ (st.smAddr b z o) (sizeBytes z) ⟨s, []⟩ = .ok (.ok x, w) := hr
    have hp' : Placed48 (st.smAddr b z o) (sizeBytes z) := hp
    simp [run_unitSreg (w := ⟨s, []⟩) hi.1 hi.2, smAddr_eq, hp', hi.1, ha, hr', hl, run_unitFinishWith hi1.1 hi1.2,
      State.unitDone]
  · refine perform_after ?_
    have hr' : streamRead u (s.portOf u) ⟨true, 0⟩ (st.smAddr b z o) (sizeBytes z) ⟨s, []⟩ = .ok (.ok x, w) := hr
    have hp' : Placed48 (st.smAddr b z o) (sizeBytes z) := hp
    have hf := run_unitPutFinish hi1.1 hi1.2
      { st1 with pend := st1.pend ++ [⟨d.toNat, BitVec.ofNat 64 x, l.toNat, st1.tmode⟩] }
    rw [run_bind] at hf
    simp [run_unitSreg (w := ⟨s, []⟩) hi.1 hi.2, smAddr_eq, hp', hi.1, ha, hr', run_myStream w hi1.1 hi1.2, hf,
      State.unitDone]
    exact fun h => absurd h hl
  · refine perform_after ?_
    have hr' : streamWrite u (s.portOf u) (st.smAddr b z o) (sizeBytes z) ((st.get d.toNat).toNat % 2 ^ (8 * sizeBytes z)) ⟨s, []⟩
        = .ok (.ok r, w) := hr
    have hp' : Placed48 (st.smAddr b z o) (sizeBytes z) := hp
    simp [run_unitSreg (w := ⟨s, []⟩) hi.1 hi.2, smAddr_eq, hp', hi.1, ha, hr', run_unitFinish hi1.1 hi1.2,
      State.unitDone]
  · have hc := (run_checkAddr_raises (w := ⟨s, []⟩) (n := 2 ^ z.toNat) hi.1 hi.2).1 hbig
    exact ⟨execSld_raises hi hw hc, execSst_raises hi hw hc⟩
  · have hc := (run_checkAddr_raises (w := ⟨s, []⟩) hi.1 hi.2).2 hlt hmod
    exact ⟨execSld_raises hi hw hc, execSst_raises hi hw hc⟩

/-! ## ALD and AST (R155 to R160, R240) -/

/-- Elements whose addresses are all placed raise nothing. -/
@[simp] theorem run_checkElems {w : Work} {base n : Nat} {stride : Int} {mask : W32}
    (h : ∀ i ∈ elems mask, Placed48 (elemAddr base stride n i) n) : checkElems base stride n mask w = .ok ((), w) := by
  have h1 : ((elems mask).map (elemAddr base stride n)).find? (fun a => decide (a ≥ 2 ^ 48)) = none := by
    simp only [List.find?_eq_none, List.mem_map, decide_eq_true_eq, forall_exists_index, and_imp]
    intro _ i hi rfl
    exact Nat.not_le.mpr (h i hi).1
  have h2 : ((elems mask).map (elemAddr base stride n)).find? (fun a => decide (a % n ≠ 0)) = none := by
    simp only [List.find?_eq_none, List.mem_map, decide_eq_true_eq, forall_exists_index, and_imp]
    intro _ i hi rfl
    exact not_not_intro (h i hi).2
  simp only [checkElems, h1, h2, run_pure]

theorem ald_allocates {x : BitVec 1} {q z : BitVec 2} {b : BitVec 5} {o : BitVec 10} (hi : GroupIssues s k g) (hz : z ≠ 3)
    (hxz : ¬ (x = 1 ∧ z = 2))
    (hp : ∀ i ∈ elems g.amask, Placed48 (elemAddr (g.st.smAddr b z o) g.astr.toInt (sizeBytes z) i) (sizeBytes z))
    (hroom : (Tab.getD g.opq q.toNat OpQ.empty).fill g.present < 16) :
    execAld x q b z o s = .next (s.tickOn.wordDone k { g with opq := Tab.set g.opq q.toNat { Tab.getD g.opq q.toNat OpQ.empty with
      ents := (Tab.getD g.opq q.toNat OpQ.empty).ents ++
        [⟨[], some ⟨g.st.smAddr b z o, g.astr.toInt, sizeBytes z, x == 1, g.amask, false, s.tick⟩⟩] } } g.st.pc g.st) := by
  obtain ⟨hu, hg⟩ := hi
  have hno : ¬ (z = 3#2 ∨ (x = 1#1 ∧ z = 2#2)) := not_or.mpr ⟨hz, hxz⟩
  refine perform_of_no_stores ?_ rfl
  simp [hu, hg, hno, smAddr_eq, run_checkElems (w := ⟨s, []⟩) hp, Nat.not_le.mpr hroom, State.wordDone, setGroup_tickOn]

theorem ald_full_raises {x : BitVec 1} {q z : BitVec 2} {b : BitVec 5} {o : BitVec 10} (hi : GroupIssues s k g) (hw : g.st.wait = .none)
    (hz : z ≠ 3) (hxz : ¬ (x = 1 ∧ z = 2)) (hfull : 16 ≤ (Tab.getD g.opq q.toNat OpQ.empty).fill g.present)
    (hr : g.run.active = false) :
    execAld x q b z o s = .next (s.raise (.group k) (Cause.atWord 0x04 g.st.pc 0)) := by
  have ⟨hu, hg⟩ := hi
  have hno : ¬ (z = 3#2 ∨ (x = 1#1 ∧ z = 2#2)) := not_or.mpr ⟨hz, hxz⟩
  refine perform_groupRaise hi hw ?_
  simp [hu, hg, hno, smAddr_eq, hfull, hr]

/-- The next element of an ALD reads its word, and its queue entry takes it. -/
theorem aldReadsPerform_reads {gk q n : Nat} {oq : OpQ} {e : QEnt} {j : AldJob} {x : W32} {w : Work} {g1 : Group}
    (hg : Tab.find s.groups gk = some g) (hq : Tab.find g.opq q = some oq) (he : oq.ents[n]? = some e) (hj : e.job = some j)
    (hf : j.failed = false) (hb : g.aldBefore j.born = false)
    (hr : aldWord gk (s.portOf (.group gk)) j e.words.length ⟨s, []⟩ = .ok (.ok x, w)) (hg1 : Tab.find w.cur.groups gk = some g1) :
    execAldReadsPerform gk q n s = .next (s.after ⟨w.cur.setGroup gk { g1 with
      opq := Tab.set g1.opq q { oq with ents := setNth oq.ents n (e.add x) } }, w.stores⟩) := by
  refine perform_after ?_
  simp [hg, hq, he, hj, hf, hb, hr, hg1]

theorem bit_eq_getLsbD {n : Nat} (x : BitVec n) (i : Nat) : bit x.toNat i = x.getLsbD i := by
  rw [BitVec.getLsbD, Nat.testBit_eq_decide_div_mod_eq, bit]

theorem elems_pairwise (mask : W32) : (elems mask).Pairwise (· < ·) := by
  rw [elems, bitsOf, upFrom_eq_range']
  exact (List.pairwise_lt_range' ..).filter _

/-- The element numbers from n on, when one of them is the least. -/
theorem filter_elems_least {mask : W32} {n i : Nat} (hi : i ∈ elems mask) (hn : n ≤ i)
    (hl : ∀ y ∈ elems mask, n ≤ y → i ≤ y) :
    ∃ rest, (elems mask).filter (fun y => decide (n ≤ y)) = i :: rest ∧ (∀ y, y ∈ rest ↔ y ∈ elems mask ∧ i < y) := by
  have hp := (elems_pairwise mask).filter (fun y => decide (n ≤ y))
  have hmem : ∀ y, y ∈ (elems mask).filter (fun y => decide (n ≤ y)) ↔ y ∈ elems mask ∧ n ≤ y := by simp
  cases hf : (elems mask).filter (fun y => decide (n ≤ y)) with
  | nil => exact absurd ((hmem i).mpr ⟨hi, hn⟩) (by simp [hf])
  | cons a t =>
    rw [hf] at hp hmem
    obtain ⟨hat, -⟩ := List.pairwise_cons.mp hp
    have ha : a = i := by
      obtain ⟨hae, hna⟩ := (hmem a).mp (by simp)
      rcases List.mem_cons.mp ((hmem i).mpr ⟨hi, hn⟩) with h | h
      · exact h.symm
      · exact absurd (hat i h) (Nat.not_lt.mpr (hl a hae hna))
    subst ha
    refine ⟨t, rfl, fun y => ⟨fun hy => ⟨((hmem y).mp (by simp [hy])).1, hat y hy⟩, fun ⟨hy, hay⟩ => ?_⟩⟩
    rcases List.mem_cons.mp ((hmem y).mpr ⟨hy, by omega⟩) with h | h
    · omega
    · exact h

theorem filter_zero_le (l : List Nat) : l.filter (fun i => decide (0 ≤ i)) = l :=
  List.filter_eq_self.mpr fun i _ => decide_eq_true (Nat.zero_le i)

/-- Settles O15: ALD allocates, its reads go element by element, and AST stores the next element of the mask. -/
theorem operandLoadsAndStoresComplete : Obligations.OperandLoadsAndStoresComplete := by
  refine ⟨?_, ?_, ?_, ?_, ?_⟩
  · intro s k g x q b z o hi hz hxz base oq hp hroom
    exact ald_allocates hi hz hxz hp hroom
  · intro s k g x q b z o hi hw hz hxz hp hfull hr
    exact ald_full_raises hi hw hz hxz hfull hr
  · intro s gk q k g oq e j x w g1 hg hq he hj hf hb hr hg1 e1
    rw [exec_aldReadsPerform, aldReadsPerform_reads hg hq he hj hf hb hr hg1, QEnt.add, hj]
  · intro gk p j i w hm
    simp [Answers, aldWord, bit_eq_getLsbD, hm]
  · intro s k g v b z o n ⟨hu, hg⟩ ht hz hr ha hn base addr x hp
    have hz' : ¬ z = 3#2 := hz
    have hp' : ∀ i ∈ elems g.amask, Placed48 (elemAddr (g.st.smAddr b z o) g.astr.toInt (sizeBytes z) i) (sizeBytes z) := hp
    have hc := run_checkElems (w := ⟨s, []⟩) hp'
    refine ⟨fun hall => ?_, fun i r w g1 hi hni hl hw ⟨hu1, hg1⟩ => ?_⟩
    · have hnil : (elems g.amask).filter (fun i => decide (n ≤ i)) = [] := by
        simpa using hall
      have hnil0 : n = 0 → elems g.amask = [] := by
        rintro rfl
        exact (filter_zero_le _).symm.trans hnil
      refine perform_of_no_stores ?_ rfl
      rcases hn with hn | ⟨rfl, hn⟩ <;>
        simp [hu, hg, ht, hz', hr, ha, smAddr_eq, hc, hn, hnil, hnil0, State.wordDone]
    · obtain ⟨rest, hf, hrest⟩ := filter_elems_least hi hni hl
      have hf0 : n = 0 → elems g.amask = i :: rest := by
        rintro rfl
        exact (filter_zero_le _).symm.trans hf
      have hw' : streamWrite (.group k) (s.portOf (.group k)) (elemAddr (g.st.smAddr b z o) g.astr.toInt (sizeBytes z) i) (sizeBytes z)
          ((if v.toNat < g.regcnt then (Tab.getD (g.thread i).v v.toNat 0#32).toNat else 0) % 2 ^ (8 * sizeBytes z))
          ⟨s, []⟩ = .ok (.ok r, w) := hw
      refine ⟨fun hlast => ?_, fun ⟨y, hy, hiy⟩ => ?_⟩
      · have hnil : rest = [] := List.eq_nil_iff_forall_not_mem.mpr fun y hy =>
          absurd (hlast y ((hrest y).mp hy).1) (Nat.not_le.mpr ((hrest y).mp hy).2)
        refine perform_after ?_
        rcases hn with hn | ⟨rfl, hn⟩ <;>
          simp [hu, hg, ht, hz', hr, ha, smAddr_eq, hc, hn, hf, hf0, hw', hnil, hu1, hg1, State.wordDone]
      · have hne : rest ≠ [] := List.ne_nil_of_mem ((hrest y).mpr ⟨hy, hiy⟩)
        have hsome : ¬ ∀ j, j ∉ rest := fun hno => hno y ((hrest y).mpr ⟨hy, hiy⟩)
        refine perform_after ?_
        rcases hn with hn | ⟨rfl, hn⟩ <;>
          simp [hu, hg, ht, hz', hr, ha, smAddr_eq, hc, hn, hf, hf0, hw', hne, hsome, hu1, hg1]

/-! ## MWAIT (R230) -/

/-- A word that ends its unit's wait completes with the stream it names. -/
theorem run_finishOf {w : Work} (hs : w.cur.stream u = some st) (f : Stream → Stream) :
    finishOf u f w = .ok ((), ⟨w.cur.setStream u (w.cur.stepped u st.pc (f st).complete), w.stores⟩) := by
  simp [finishOf, hs]

/-- Settles O16: the word read decides between completing and waiting, and a wake reads it again. -/
theorem mwaitWatchesItsSector : Obligations.MwaitWatchesItsSector := by
  refine ⟨fun s u st d a b x sec w st1 hi hn hp hr hi1 => ⟨fun hne => ?_, fun heq => ?_⟩,
    fun s unit who st sec d a b x y w st1 hs hstop hh hw hd hr hs1 => ?_⟩
  · have hr' : watchRead u (st.get a.toNat).toNat ⟨s, []⟩ = .ok (.ok (x, sec), w) := hr
    refine perform_after ?_
    simp [run_myStream ⟨s, []⟩ hi.1 hi.2, hn, run_unitSreg (w := ⟨s, []⟩) hi.1 hi.2, hp, hi.1, hr',
      run_unitSreg hi1.1 hi1.2, hne, run_unitFinishWith hi1.1 hi1.2, State.unitDone]
  · have hr' : watchRead u (st.get a.toNat).toNat ⟨s, []⟩ = .ok (.ok (x, sec), w) := hr
    refine perform_after ?_
    simp [run_myStream ⟨s, []⟩ hi.1 hi.2, hn, run_unitSreg (w := ⟨s, []⟩) hi.1 hi.2, hp, hi.1, hr',
      run_unitSreg hi1.1 hi1.2, heq, run_myStream w hi1.1 hi1.2, run_unitPutStream hi1.1]
  · have hr' : watchRead (whoOf unit who) (st.get a.toNat).toNat ⟨s, []⟩ = .ok (.ok (x, y), w) := hr
    refine perform_after ?_
    simp [hs, hstop, hh, hw, hd, hr', run_finishOf hs1, State.unitDone]

end

end Sys2Proof.Machine
end

section
/-! SUPPORT. Fences, range maintenance and the steps of the memory system (R20, R207, R219 to R221, R232, R247, R255 to R257). -/

namespace Sys2Proof.Machine

open Sys2Proof

section

variable {s : State} {u : Who} {st : Stream} {k : Nat} {g : Group}

/-! ## What an acquire leaves alone -/

section

variable (s : State) (p : Port)

@[simp] theorem dropCore_mem : (s.dropCore p).mem = s.mem := by
  unfold State.dropCore
  split <;> rfl

@[simp] theorem dropCore_groups : (s.dropCore p).groups = s.groups := by
  unfold State.dropCore
  split <;> rfl

@[simp] theorem dropCore_ctxs : (s.dropCore p).ctxs = s.ctxs := by
  unfold State.dropCore
  split <;> rfl

@[simp] theorem dropCore_actor : (s.dropCore p).actor = s.actor := by
  unfold State.dropCore
  split <;> rfl

@[simp] theorem dropCore_issuer : (s.dropCore p).issuer = s.issuer := by
  simp [State.issuer]

@[simp] theorem dropCore_stream (v : Who) : (s.dropCore p).stream v = s.stream v := by
  cases v <;> simp [State.stream]

/-- A unit without cache ways drops nothing. -/
theorem dropCore_of_no_core (h : p.core = none) : s.dropCore p = s := by
  simp [State.dropCore, h]

end

theorem portOf_ctx_core (s : State) (c : Nat) : (s.portOf (.ctx c)).core = none := by
  unfold State.portOf
  split <;> rfl

@[simp] theorem run_acquireHere {w : Work} (h : w.cur.issuer = some u) :
    acquireHere w = .ok ((), ⟨w.cur.dropCore (w.cur.portOf u), w.stores⟩) := by
  simp [acquireHere, h, setMem_of_mem_eq]

/-! ## FENCE (R255) -/

@[simp] theorem run_waitEarlier {w : Work} (h : w.cur.issuer = some u) (hc : w.cur.unitClear u) :
    waitEarlier w = .ok ((), w) := by
  cases u with
  | ctx c => simp [waitEarlier, h]
  | group k =>
    obtain ⟨g, hg, hrun, hald⟩ := hc k rfl
    rcases hrun with hrun | hrun <;> simp [waitEarlier, h, hg, hrun, hald]

/-- A word completes after an acquire. -/
theorem run_finishDropped {l : List (Nat × Nat × Nat)} (hi : Issues s u st) (p : Port) :
    finish ⟨s.dropCore p, l⟩ = .ok ((), ⟨(s.dropCore p).setStream u ((s.dropCore p).stepped u st.pc st.complete), l⟩) :=
  run_unitFinish (by simpa using hi.1) (by simpa using hi.2)

theorem fence_completes {sc : BitVec 3} (hi : Issues s u st) (hc : s.unitClear u) (hle : sc.toNat ≤ 5)
    (hn : ∀ n, st.wait ≠ .fence n) :
    let p := s.portOf u
    (sc.toNat < 2 → execFence sc s = .next (s.unitDone u st.pc st)) ∧
    (2 ≤ sc.toNat → sc.toNat < 5 → execFence sc s = .next ((s.dropCore p).unitDone u st.pc st)) ∧
    (sc.toNat = 5 → (∀ o ∈ s.others p.die, Tab.getD (s.clockOf p.die) p.die 0 ≤ Tab.getD (s.clockOf o) p.die 0) →
      execFence sc s = .next ((s.dropCore p).unitDone u st.pc st)) := by
  refine ⟨fun h2 => ?_, fun h2 h5 => ?_, fun h5 hall => ?_⟩
  · have h5 : sc.toNat < 5 := by omega
    refine perform_of_no_stores ?_ (by simp [State.unitDone])
    simp [Nat.not_lt.mpr hle, run_myStream ⟨s, []⟩ hi.1 hi.2, hi.1, hc, h5, Nat.not_le.mpr h2,
      run_unitFinish (w := ⟨s, []⟩) hi.1 hi.2, State.unitDone]
  · refine perform_of_no_stores ?_ (by simp [State.unitDone])
    simp [Nat.not_lt.mpr hle, run_myStream ⟨s, []⟩ hi.1 hi.2, hi.1, hc, h5, h2, run_finishDropped hi, State.unitDone]
  · have hall' : ((s.others (s.portOf u).die).all fun o =>
        decide (Tab.getD (s.clockOf (s.portOf u).die) (s.portOf u).die 0 ≤ Tab.getD (s.clockOf o) (s.portOf u).die 0)) = true := by
      simpa using hall
    refine perform_of_no_stores ?_ (by simp [State.unitDone])
    simp [run_myStream ⟨s, []⟩ hi.1 hi.2, hi.1, hc, h5, run_finishDropped hi, State.unitDone]
    exact fun x hx hlt => absurd (hall x hx) (Nat.not_le.mpr hlt)

/-! ## QFENCE (R20, R256, R257) -/

theorem run_filterAuxM_none {w : Work} {f : Nat × W16 → Act Bool} {l : List (Nat × W16)}
    (h : ∀ t ∈ l, f t w = .ok (false, w)) (acc : List (Nat × W16)) : l.filterAuxM f acc w = .ok (acc, w) := by
  induction l with
  | nil => rfl
  | cons a l ih => simp [List.filterAuxM, h a (by simp), ih (fun t ht => h t (by simp [ht]))]

/-- With no entry from before its mark, no queue of a list is waited for. -/
theorem run_filterM_none {w : Work} {f : Nat × W16 → Act Bool} {l : List (Nat × W16)} (h : ∀ t ∈ l, f t w = .ok (false, w)) :
    l.filterM f w = .ok ([], w) := by
  simp [List.filterM, run_filterAuxM_none h]

theorem run_pendingEntry {w : Work} (h : w.cur.issuer = some (.group k)) (hg : Tab.find w.cur.groups k = some g)
    (t : Nat × W16) : pendingEntry t w = .ok ((g.queue t.1).before t.2, w) := by
  simp [pendingEntry, h, hg]

/-- A QFENCE with nothing left to wait for is an acquire and completes. -/
theorem qfence_completes {m : BitVec 10} {ts : List (Nat × W16)} (hi : GroupIssues s k g) (hc : g.clear) (hm : m ≠ 0)
    (ht : g.st.wait = .qfence ts ∨ ((∀ l, g.st.wait ≠ .qfence l) ∧ ts = (bitsOf 10 m.toNat).map (fun q => (q, (g.queue q).next))))
    (hb : ∀ t ∈ ts, (g.queue t.1).before t.2 = false) :
    execQfence m s = .next ((s.dropCore (s.portOf (.group k))).wordDone k g g.st.pc g.st) := by
  obtain ⟨hu, hg⟩ := hi
  obtain ⟨hrun, hald⟩ := hc
  have hm' : ¬ m = 0#10 := hm
  have hleft : ts.filterM pendingEntry ⟨s, []⟩ = .ok ([], ⟨s, []⟩) :=
    run_filterM_none fun t htm => by rw [run_pendingEntry (w := ⟨s, []⟩) hu hg, hb t htm]
  refine perform_of_no_stores ?_ (by simp [State.wordDone])
  rcases ht with ht | ⟨hn, rfl⟩ <;> rcases hrun with hrun | hrun
  all_goals simp [hu, hg, hm', *, qfenceTargets, State.wordDone]

theorem qfence_zero (hi : Issues s u st) : execQfence 0 s = .next (s.unitDone u st.pc st) := by
  refine perform_of_no_stores ?_ (by simp [State.unitDone])
  simp [run_myStream ⟨s, []⟩ hi.1 hi.2, hi.1, run_unitFinish (w := ⟨s, []⟩) hi.1 hi.2, State.unitDone]

/-- The head of a queue that a waiting QFENCE names, issued after it, is held back. -/
theorem headOf_fenced {q : Nat} {e : Ent} {ts : List (Nat × W16)} {n : W16} (hg : Tab.find s.groups k = some g)
    (he : (g.queue q).ents.head? = some e) (hw : g.st.wait = .qfence ts) (hts : (q, n) ∈ ts)
    (hlt : (e.seq - n).toNat < 32768) (hst : e.started = false) : headOf k q ⟨s, []⟩ = .error .stall := by
  have hf : g.fenced q e = true := by
    rw [Group.fenced, hw]
    exact List.any_eq_true.mpr ⟨(q, n), hts, by simpa using hlt⟩
  simp only [headOf, run_bind, run_now, run_getGroup (w := ⟨s, []⟩) hg, he, run_need_some, hst, hf]
  cases s.mayPerform k g (g.queue q) e || ((g.queue q).halt.isNone && s.instRuns (s.instOf (.group k)) && g.neededBy q e) <;> rfl

theorem fencesComplete : FencesComplete := by
  refine ⟨fun s u st sc hi hc hle hn => fence_completes hi hc hle hn, fun s u st hi => qfence_zero hi, ?_, ?_,
    fun s k q g e ts n hg he hw hts hlt hst => headOf_fenced hg he hw hts hlt hst, ?_⟩
  · intro s k g m hi hn hc hq hm
    refine qfence_completes hi hc hm (.inr ⟨hn, rfl⟩) fun t ht => ?_
    obtain ⟨q, hq', rfl⟩ := List.mem_map.mp ht
    simp [Queue.before, hq q hq']
  · intro s k g m ts hi hw hc hm hts
    exact qfence_completes hi hc hm (.inl hw) fun t ht => by simpa [Queue.before] using hts t ht
  · intro s c x ga ⟨hu, hx, hga⟩ hn he
    have hdrop : s.dropCore (s.portOf (.ctx c)) = s := dropCore_of_no_core s _ (portOf_ctx_core s c)
    have hleft : [(2, x.queue.next)].filterM pendingEntry ⟨s, []⟩ = .ok ([], ⟨s, []⟩) :=
      run_filterM_none fun t ht => by simp [pendingEntry, hu, hx, Queue.before, he]
    refine perform_of_no_stores ?_ (by simp [State.unitDone])
    simp [run_myStream ⟨s, []⟩ hu (stream_ctx hx), hu, qfenceTargets, hx, hleft, hdrop,
      run_unitFinish (w := ⟨s, []⟩) hu (stream_ctx hx), State.unitDone]

/-! ## Range maintenance (R232) -/

/-- A word of range maintenance goes by its two operands. -/
theorem rangeOp_cases {fn x n : Nat} {a b : BitVec 5} (hi : GroupIssues s k g) (hx : (g.st.get a.toNat).toNat = x)
    (hn : (g.st.get b.toNat).toNat = n) :
    (x % 32 = 0 → n % 32 = 0 → n ≤ 2 ^ 32 → s.roomFor k 0 = true →
      perform (rangeOp fn a b) s = .next (s.entryIssued k g 0 (.range fn x n) g.st)) ∧
    (g.st.wait = .none → (x % 32 ≠ 0 ∨ n % 32 ≠ 0) →
      perform (rangeOp fn a b) s = .next (s.raise (.group k) (Cause.atWord (if n ≤ 2 ^ 32 then 0x12 else 0x04) g.st.pc 0))) ∧
    (g.st.wait = .none → x % 32 = 0 → n % 32 = 0 → 2 ^ 32 < n →
      perform (rangeOp fn a b) s = .next (s.raise (.group k) (Cause.atWord 0x04 g.st.pc 0))) := by
  have ⟨hu, hg⟩ := hi
  have hraise (c : Nat) : (raise c : Act Unit) ⟨s, []⟩ = .error (.raise (Cause.atWord c g.st.pc 0)) := run_groupRaise hu hg c
  refine ⟨fun hx0 hn0 hle hr => ?_, fun hw hbad => ?_, fun hw hx0 hn0 hgt => ?_⟩
  · have h1 : decide (x % 32 ≠ 0 ∨ n % 32 ≠ 0) = false := by simp [hx0, hn0]
    have h2 : decide (n > 2 ^ 32) = false := by simpa using hle
    have hr' : (Work.mk s []).cur.roomFor k 0 = true := hr
    refine perform_of_no_stores ?_ rfl
    simp only [rangeOp, run_bind, run_myGroup (w := ⟨s, []⟩) hu, run_groupSreg (w := ⟨s, []⟩) hu hg, hx, hn, check_cons h1,
      check_cons h2, check_nil, run_pure, run_discard, run_issueEntry hr' hg]
    simp [hu, State.entryIssued, State.wordDone]
  · refine perform_groupRaise hi hw ?_
    have h1 : decide (x % 32 ≠ 0 ∨ n % 32 ≠ 0) = true := by simpa using hbad
    simp only [rangeOp, run_bind, run_myGroup (w := ⟨s, []⟩) hu, run_groupSreg (w := ⟨s, []⟩) hu hg, hx, hn, h1]
    by_cases hle : n ≤ 2 ^ 32
    · have h2 : decide (n > 2 ^ 32) = false := by simpa using hle
      simp only [check, List.filter, List.map, leastOf, h2, if_pos hle, hraise]
    · have h2 : decide (n > 2 ^ 32) = true := by simpa using hle
      simp only [check, List.filter, List.map, leastOf, h2, if_neg hle, hraise]
      rfl
  · refine perform_groupRaise hi hw ?_
    have h1 : decide (x % 32 ≠ 0 ∨ n % 32 ≠ 0) = false := by simp [hx0, hn0]
    have h2 : decide (n > 2 ^ 32) = true := by simpa using hgt
    simp only [rangeOp, run_bind, run_myGroup (w := ⟨s, []⟩) hu, run_groupSreg (w := ⟨s, []⟩) hu hg, hx, hn, check_cons h1, h2]
    simp [check, leastOf, hraise]

theorem rangeMaintenanceIssues : RangeMaintenanceIssues := by
  intro s k g a b hi x n
  refine ⟨fun hx hn hle hr => ⟨?_, ?_, ?_, ?_⟩, fun hw hbad => ⟨?_, ?_, ?_, ?_⟩, fun hw hx hn hgt => ⟨?_, ?_, ?_, ?_⟩⟩
  iterate 4 exact (rangeOp_cases hi rfl rfl).1 hx hn hle hr
  iterate 4 exact (rangeOp_cases hi rfl rfl).2.1 hw hbad
  iterate 4 exact (rangeOp_cases hi rfl rfl).2.2 hw hx hn hgt

/-- Settles O19: each fence goes by what is outstanding, and each range word by its operands. -/
theorem fencesAndRangeMaintenanceComplete : Obligations.FencesAndRangeMaintenanceComplete :=
  ⟨fencesComplete, rangeMaintenanceIssues⟩

end

end Sys2Proof.Machine
end

section
/-! SUPPORT. Bank and way modes and the steps of the memory system (R207, R213 to R221, R231, R233, R247). -/

namespace Sys2Proof.Machine

open Sys2Proof

section

variable {s : State} {u : Who} {st : Stream} {k : Nat} {g : Group}

/-! ## Walks, expiry and write-backs -/

theorem walked_mem (s : State) (p : Port) (va : Nat) : (s.walked p va).mem = s.mem := by
  unfold State.walked
  split
  · rfl
  · refine foldl_mem (fun s ea => ?_) _ _
    repeat' split
    all_goals simp

theorem sum_filter_le (l : List Nat) (f : Nat → Nat) (p : Nat → Bool) : ((l.filter p).map f).sum ≤ (l.map f).sum := by
  induction l with
  | nil => exact Nat.le_refl _
  | cons a l ih =>
    rw [List.filter_cons, List.map_cons, List.sum_cons]
    split
    · rw [List.map_cons, List.sum_cons]
      exact Nat.add_le_add_left ih _
    · exact Nat.le_add_left_of_le ih

/-- The sum over the members of a list that a test leaves out is missing from the sum over the others. -/
theorem sum_filter_lt {l : List Nat} {f : Nat → Nat} {p : Nat → Bool} (hf : ∀ x, 0 < f x) (h : ∃ x ∈ l, p x = false) :
    ((l.filter p).map f).sum < (l.map f).sum := by
  induction l with
  | nil => simp at h
  | cons a l ih =>
    have hle := sum_filter_le l f p
    cases ha : p a with
    | false =>
      have := hf a
      simp [ha]
      omega
    | true =>
      obtain ⟨x, hx, hpx⟩ := h
      have hx' : x ∈ l := by
        rcases List.mem_cons.mp hx with rfl | hx
        · simp [ha] at hpx
        · exact hx
      simpa [ha] using ih ⟨x, hx', hpx⟩

theorem foldl_add_eq_sum (f : Nat → Nat) (l : List Nat) (b : Nat) : l.foldl (fun b x => b + f x) b = b + (l.map f).sum := by
  induction l generalizing b with
  | nil => simp
  | cons a l ih => simp [ih, Nat.add_assoc]

/-- The bytes of a block that a sector is, one bit each. -/
def sectorBytes (x : Nat) : Nat := (2 ^ 32 - 1) * 2 ^ (32 * (x % 8))

theorem sum_sectorBytes (block : Nat) : ((upFrom (8 * block) 8).map sectorBytes).sum = 2 ^ 256 - 1 := by
  simp only [upFrom, List.map_cons, List.map_nil, sectorBytes, Nat.add_assoc, Nat.mul_add_mod, Nat.mul_mod_right]
  decide

/-- Some sectors of a block make the whole block exactly where they are all eight. -/
theorem sectors_whole (block : Nat) (p : Nat → Bool) :
    ((upFrom (8 * block) 8).filter p).foldl (fun b x => b + (2 ^ 32 - 1) * 2 ^ (32 * (x % 8))) 0 = 2 ^ 256 - 1 ↔
      ((upFrom (8 * block) 8).filter p).length = 8 := by
  have hsum := foldl_add_eq_sum sectorBytes ((upFrom (8 * block) 8).filter p) 0
  simp only [sectorBytes, Nat.zero_add] at hsum
  rw [hsum]
  by_cases hall : ∀ x ∈ upFrom (8 * block) 8, p x = true
  · rw [List.filter_eq_self.mpr hall]
    exact ⟨fun _ => rfl, fun _ => sum_sectorBytes block⟩
  · have hex : ∃ x ∈ upFrom (8 * block) 8, p x = false := by simpa [and_assoc] using hall
    have hlt := sum_filter_lt (f := sectorBytes) (fun x => Nat.mul_pos (by decide) (Nat.two_pow_pos _)) hex
    rw [sum_sectorBytes] at hlt
    have hlen : ((upFrom (8 * block) 8).filter p).length ≠ (upFrom (8 * block) 8).length := fun h =>
      hall (List.filter_eq_self.mp (List.filter_sublist.eq_of_length h))
    exact ⟨fun h => absurd h (Nat.ne_of_lt hlt), fun h => absurd h hlen⟩

/-- A die after one of its clusters has kept a leaf that a walk found (R207). -/
def Die.keepLeaf (d : Die) (cl root va pte lg victim : Nat) : Die :=
  let c := Tab.getD d.clusters cl .off
  let kept := if c.tlb.length ≥ 2048 then dropNth c.tlb victim else c.tlb
  let kept := kept.filter (fun t => !(t.root == root && t.lg == lg && t.va == va / 2 ^ lg))
  { d with clusters := Tab.set d.clusters cl { c with tlb := (⟨root, va / 2 ^ lg, lg, pte, d.host.hmlim⟩ :: kept).take 2048 } }

theorem translationWalk_caches {die cl root va alt victim pte lg pa : Nat} {d : Die}
    (hd : Tab.find (s.walked ⟨die, 16, none, root, [], true⟩ va).dies die = some d) (hva : va < 2 ^ 48)
    (hw : s.walkFrom die va (some alt) 3 root = .leaf pte lg pa) :
    execTranslationWalk die cl root va alt victim s =
      .next ((s.walked ⟨die, 16, none, root, [], true⟩ va).setDie die (d.keepLeaf cl root va pte lg victim)) := by
  have hva' : va < 281474976710656 := hva
  refine perform_of_no_stores ?_ (by simp [walked_mem])
  simp [hva', hw, setMem_of_mem_eq, walked_mem, hd, Die.keepLeaf]

theorem cacheLineExpire_drops {die cl core block : Nat} :
    execCacheLineExpire die cl core block s = .next (s.dropLine ⟨die, cl, some core, 0, [], true⟩ block) := by
  have hmem : (s.dropLine ⟨die, cl, some core, 0, [], true⟩ block).mem = s.mem := by
    unfold State.dropLine
    split <;> rfl
  refine perform_of_no_stores ?_ hmem
  rw [run_upd, setMem_of_mem_eq hmem]

/-- A write of some bytes of a block that waits nowhere: a whole block is coded, a part begins to wait (R220). -/
theorem combine_of_no_comb {d : Die} {block bytes data : Nat} (hn : ∀ c ∈ d.combs, c.block ≠ block) :
    d.combine block bytes data =
      if bytes = 2 ^ 256 - 1 then d.code data else { d with combs := d.combs ++ [⟨block, bytes, 1, d.clk⟩] } := by
  have hover : d.combs.find? (fun c => c.block == block && d.combOver c) = none :=
    List.find?_eq_none.mpr fun c hc => by simp [hn c hc]
  have hnone : d.combs.find? (fun c => c.block == block) = none :=
    List.find?_eq_none.mpr fun c hc => by simp [hn c hc]
  simp only [Die.combine, hover, hnone]

/-- Settles O18: each step of the memory system acts on its die. -/
theorem memorySystemSteps : Obligations.MemorySystemSteps := by
  refine ⟨?_, fun s die cl core block => cacheLineExpire_drops, ?_, ?_, fun data => ?_⟩
  · intro s die cl root va alt victim d pte lg pa s1 hd hva hw
    exact ⟨_, translationWalk_caches hd hva hw, by simp [Die.keepLeaf], by simp [Die.keepLeaf, Nat.min_le_left]⟩
  · intro s die block secs d c hd hc data
    have hb : c.block = block := by
      have := List.find?_some hc
      simp only [Bool.and_eq_true, beq_iff_eq] at this
      exact this.1
    refine ⟨d.mergeStored c data, perform_of_no_stores ?_ rfl, fun x hx => ?_, rfl, rfl⟩
    · simp [hd, hc, data]
    · rw [← hb]
      simpa [Die.mergeStored] using (List.mem_filter.mp hx).2
  · intro s die block secs d hd hn held data hne
    have hover : d.combs.find? (fun c => c.block == block && d.combOver c) = none :=
      List.find?_eq_none.mpr fun c hc => by simp [hn c hc]
    refine ⟨{ (d.combine block (held.foldl (fun b x => b + (2 ^ 32 - 1) * 2 ^ (32 * (x % 8))) 0) data) with
        dirty := d.dirty.filter (fun x => !held.contains x.1) }, perform_of_no_stores ?_ rfl, fun x hx y hy hyx => ?_,
      fun h8 => ?_, fun h8 => ?_⟩
    · have hnot : (!held.isEmpty) = true := by simpa using hne
      simp only [held] at hnot
      simp only [run_bind, run_getDie (w := ⟨s, []⟩) hd, run_now, hover, run_guardA, hnot, if_true, run_putDie]
      rfl
    · subst hyx
      simpa [hx] using (List.mem_filter.mp hy).2
    · rw [combine_of_no_comb hn, (sectors_whole block _).mpr h8, if_pos rfl]
      exact ⟨rfl, rfl⟩
    · rw [combine_of_no_comb hn, if_neg (fun h => h8 ((sectors_whole block _).mp h))]
      exact ⟨rfl, _, rfl⟩
  · rw [codedSectors]
    omega

/-! ## Bank modes (R213 to R215, R231) -/

section

variable (s : State) (die cl core : Nat)

@[simp] theorem loseBank_mem : (s.loseBank die cl core).mem = s.mem := by
  unfold State.loseBank
  split <;> rfl

@[simp] theorem loseBank_groups : (s.loseBank die cl core).groups = s.groups := by
  unfold State.loseBank
  split <;> rfl

@[simp] theorem loseBank_actor : (s.loseBank die cl core).actor = s.actor := by
  unfold State.loseBank
  split <;> rfl

@[simp] theorem loseBank_issuer : (s.loseBank die cl core).issuer = s.issuer := by
  simp [State.issuer]

end

/-- The lines that a core keeps as a bank leaves cache-way mode. -/
theorem loseBank_caches {die cl core : Nat} {d : Die} (hd : Tab.find s.dies die = some d) :
    Tab.getD ((s.loseBank die cl core).die die).caches (8 * cl + core) [] =
      if 48 ≤ s.banksOut die cl core then []
      else (Tab.getD d.caches (8 * cl + core) []).filter (fun l => !Config.lineInBank s.tick l.block) := by
  simp [State.loseBank, hd, State.die]

/-- The machine after a holding of a gang has changed its mode: its contents read zero and its FIFO is empty. -/
def State.rebanked (s : State) (gang pos h mode : Nat) (ga : Gang) : State :=
  (s.store (spadKey gang pos + 8192 * h) 8192 0).setGang gang { ga with
    hold := Tab.set ga.hold pos (setNth (Tab.getD ga.hold pos []) h mode)
    fifos := Tab.set ga.fifos (512 * pos + h) [] }

theorem rebanked_mem (s : State) (gang pos h mode : Nat) (ga : Gang) :
    (s.rebanked gang pos h mode ga).mem = Mem.put s.mem (spadKey gang pos + 8192 * h) 8192 0 := by
  rw [State.rebanked, setGang_mem, store_mem]

theorem wordDone_mem (s : State) (k : Nat) (g : Group) (pc : Nat) (st : Stream) : (s.wordDone k g pc st).mem = s.mem := rfl

theorem storeAll_one (m : List Host.Cell) (k n v : Nat) : storeAll m [(k, n, v)] = Mem.put m k n v := by
  simp only [storeAll, List.foldr]

section

variable {ga : Gang} {d a b : BitVec 5} {x mode : Nat} (hi : GangIssues s k g ga) (ht : g.st.tmode = false) (hr : g.noRun)
  (hs : g.settled = true) (hx : (g.st.get a.toNat).toNat = x) (hm : (g.st.get b.toNat).toNat = mode) (hlt : x < 2 ^ 9)
  (hok : ¬ (x ≥ 2 ^ 9 ∨ x % 8 ≥ ga.cores ∨ x / 8 ≥ (Tab.getD ga.hold (x % 8) []).length ∨ mode > 2 ∨
    (x % 8 = 0 ∧ 8192 * (x / 8) < 16 * ga.nbar)))
include hi ht hr hs hx hm hlt hok

/-- BANKCFG to the mode that the holding has changes nothing. -/
theorem bankcfg_same (hsame : mode = nth (Tab.getD ga.hold (x % 8) []) (x / 8) 0) :
    execBankcfg d a b s = .next (s.wordDone k g g.st.pc (g.st.put d.toNat (BitVec.ofNat 64 mode))) := by
  obtain ⟨⟨hu, hg⟩, hga⟩ := hi
  have hf0 : fld x 0 3 = x % 8 := by simp [fld]
  have hf3 : fld x 3 6 = x / 8 := by
    simp only [fld]
    omega
  refine perform_of_no_stores ?_ rfl
  simp only [run_bind, run_myGroup (w := ⟨s, []⟩) hu, run_groupNoTrapMode (w := ⟨s, []⟩) hu hg ht,
    run_waitRun (w := ⟨s, []⟩) hg hr, run_waitSettled (w := ⟨s, []⟩) hu hg hs, run_myGangGroup (w := ⟨s, []⟩) hu hga,
    run_groupSreg (w := ⟨s, []⟩) hu hg, hx, hm, hf0, hf3, if_neg hok, ← hsame, ne_eq, not_true_eq_false, if_false, run_pure,
    run_groupFinishWith (w := ⟨s, []⟩) hu hg]
  rfl

/-- BANKCFG to another mode loses the holding's contents, and the lines of a bank that leaves cache-way mode. -/
theorem bankcfg_changes (hne : mode ≠ nth (Tab.getD ga.hold (x % 8) []) (x / 8) 0)
    (hp : s.pinned (k / 65536) (x % 8) (x / 8) = false) :
    execBankcfg d a b s = .next ((if nth (Tab.getD ga.hold (x % 8) []) (x / 8) 0 = 0
        then (s.rebanked (k / 65536) (x % 8) (x / 8) mode ga).loseBank ga.die ga.cluster (ga.core0 + x % 8)
        else s.rebanked (k / 65536) (x % 8) (x / 8) mode ga).wordDone k g g.st.pc
      (g.st.put d.toNat (BitVec.ofNat 64 (nth (Tab.getD ga.hold (x % 8) []) (x / 8) 0)))) := by
  obtain ⟨⟨hu, hg⟩, hga⟩ := hi
  have hf0 : fld x 0 3 = x % 8 := by simp [fld]
  have hf3 : fld x 3 6 = x / 8 := by
    simp only [fld]
    omega
  refine perform_of_stores (l := [(spadKey (k / 65536) (x % 8) + 8192 * (x / 8), 8192, 0)]) ?_ ?_
  · simp only [run_bind, run_myGroup (w := ⟨s, []⟩) hu, run_groupNoTrapMode (w := ⟨s, []⟩) hu hg ht,
      run_waitRun (w := ⟨s, []⟩) hg hr, run_waitSettled (w := ⟨s, []⟩) hu hg hs, run_myGangGroup (w := ⟨s, []⟩) hu hga,
      run_groupSreg (w := ⟨s, []⟩) hu hg, hx, hm, hf0, hf3, if_neg hok, if_pos hne, run_pure, run_now, hp, Bool.false_eq_true, if_false,
      run_poke, run_putGang]
    by_cases h0 : nth (Tab.getD ga.hold (x % 8) []) (x / 8) 0 = 0
    · simp [h0, State.rebanked, State.wordDone, hu, hg, setMem_of_mem_eq]
    · simp [h0, State.rebanked, State.wordDone, hu, hg]
  · rw [wordDone_mem]
    split
    · rw [loseBank_mem, rebanked_mem, storeAll_one]
    · rw [rebanked_mem, storeAll_one]

end

/-! ## The L2 way mask (R216, R217, R233) -/

/-- A die whose memory controller alone has worked: its L2 and its debug registers are as before. -/
def Die.SameL2 (x y : Die) : Prop := y.copies = x.copies ∧ y.dirty = x.dirty ∧ y.wmask = x.wmask ∧ y.debug = x.debug

theorem Die.SameL2.trans {x y z : Die} (h : x.SameL2 y) (h' : y.SameL2 z) : x.SameL2 z := by
  obtain ⟨hc, hd, hw, hb⟩ := h
  obtain ⟨hc', hd', hw', hb'⟩ := h'
  exact ⟨hc'.trans hc, hd'.trans hd, hw'.trans hw, hb'.trans hb⟩

theorem combine_sameL2 (d : Die) (block bytes data : Nat) : d.SameL2 (d.combine block bytes data) := by
  unfold Die.combine
  cases d.combs.find? (fun c => c.block == block && d.combOver c) <;> dsimp only <;> split <;> split <;>
    exact ⟨rfl, rfl, rfl, rfl⟩

/-- A machine in which only the memory controller of one die has worked. -/
def OnlyController (die : Nat) (s t : State) : Prop :=
  t.mem = s.mem ∧ t.groups = s.groups ∧ t.gangs = s.gangs ∧ t.actor = s.actor ∧
    ∀ x, Tab.find s.dies die = some x → ∃ y, Tab.find t.dies die = some y ∧ x.SameL2 y

theorem OnlyController.trans {die : Nat} {s t r : State} (h : OnlyController die s t) (h' : OnlyController die t r) :
    OnlyController die s r := by
  obtain ⟨hm, hg, hga, ha, hd⟩ := h
  obtain ⟨hm', hg', hga', ha', hd'⟩ := h'
  refine ⟨hm'.trans hm, hg'.trans hg, hga'.trans hga, ha'.trans ha, fun x hx => ?_⟩
  obtain ⟨y, hy, hxy⟩ := hd x hx
  obtain ⟨z, hz, hyz⟩ := hd' y hy
  exact ⟨z, hz, hxy.trans hyz⟩

theorem run_toControllers (die : Nat) (l : List Nat) (w : Work) :
    ∃ v, (l.forM (fun sec => toController die (32 * sec) 32) : Act Unit) w = .ok ((), v) ∧ v.stores = w.stores ∧
      OnlyController die w.cur v.cur := by
  induction l generalizing w with
  | nil => exact ⟨w, rfl, rfl, rfl, rfl, rfl, rfl, fun x hx => ⟨x, hx, rfl, rfl, rfl, rfl⟩⟩
  | cons a l ih =>
    have hstep : ∃ v, toController die (32 * a) 32 w = .ok ((), v) ∧ v.stores = w.stores ∧ OnlyController die w.cur v.cur := by
      cases hd : Tab.find w.cur.dies die with
      | none => exact ⟨w, by simp [toController, modDie, hd], rfl, rfl, rfl, rfl, rfl, fun x hx => by simp [hd] at hx⟩
      | some d =>
        refine ⟨⟨w.cur.setDie die (d.combine (32 * a / 256) (bytesOfBlock (32 * a) 32)
          (Mem.read w.cur.mem (32 * a / 256 * 256) 256)), w.stores⟩, by simp [toController, hd], rfl, rfl, rfl, rfl, rfl,
          fun x hx => ?_⟩
        obtain rfl : d = x := by simpa [hd] using hx
        exact ⟨_, by rw [setDie_dies, Tab.find_set_same], combine_sameL2 _ _ _ _⟩
    obtain ⟨v, hv, hvs, hvc⟩ := hstep
    obtain ⟨v', hv', hvs', hvc'⟩ := ih v
    have hrun : ((a :: l).forM (fun sec => toController die (32 * sec) 32) : Act Unit) w =
        (do toController die (32 * a) 32; l.forM (fun sec => toController die (32 * sec) 32) : Act Unit) w := rfl
    exact ⟨v', by rw [hrun, run_bind, hv]; exact hv', hvs'.trans hvs, hvc.trans hvc'⟩

/-- The dirty sectors of a die in the ways drawn with a number. -/
def Die.dirtyIn (x : Die) (t : Nat) : List Nat := (x.dirty.map (fun d => d.1)).filter (fun sec => Config.blockInWay t (sec / 8))

/-- A die without these dirty sectors and without the copies in the ways drawn with a number. -/
def Die.withoutWays (x : Die) (gone : List Nat) (t : Nat) : Die :=
  { x with
    dirty := x.dirty.filter (fun d => !gone.contains d.1)
    copies := x.copies.filter (fun l => !Config.blockInWay t l.block) }

/-- The lines of the ways that leave the L2 are gone, and nothing but the die changes. -/
theorem run_dropWays {w : Work} {die : Nat} {x : Die} (hd : Tab.find w.cur.dies die = some x) :
    ∃ v y, dropWays die w = .ok ((), v) ∧ v.stores = w.stores ∧ v.cur.mem = w.cur.mem ∧ v.cur.groups = w.cur.groups ∧
      v.cur.gangs = w.cur.gangs ∧ v.cur.actor = w.cur.actor ∧ Tab.find v.cur.dies die = some y ∧ y.debug = x.debug ∧
      (∀ l ∈ y.copies, l ∈ x.copies ∧ Config.blockInWay w.cur.tick l.block = false) ∧
      (∀ z ∈ y.dirty, z ∈ x.dirty ∧ Config.blockInWay w.cur.tick (z.1 / 8) = false) := by
  have hx : w.cur.die die = x := by simp [State.die, Tab.getD, hd]
  obtain ⟨v, hv, hvs, hm, hg, hga, ha, hdies⟩ :=
    run_toControllers die ((x.dirty.map (fun d => d.1)).filter (fun sec => Config.blockInWay w.cur.tick (sec / 8))) w
  obtain ⟨y, hy, hcop, hdir, -, hdbg⟩ := hdies x hd
  refine ⟨⟨(v.cur.setDie die (y.withoutWays (x.dirtyIn w.cur.tick) w.cur.tick)).tickOn, v.stores⟩,
    y.withoutWays (x.dirtyIn w.cur.tick) w.cur.tick, ?_, hvs, hm, hg, hga, ha,
    by simp, hdbg, fun l hl => ?_, fun z hz => ?_⟩
  · have hv' : ((x.dirtyIn w.cur.tick).forM (fun sec => toController die (32 * sec) 32) : Act Unit) w = .ok ((), v) := hv
    simp only [dropWays, run_bind, run_now, hx]
    rw [show (x.dirty.map (fun d => d.1)).filter (fun sec => Config.blockInWay w.cur.tick (sec / 8)) = x.dirtyIn w.cur.tick from rfl]
    simp [hv', hy, Die.withoutWays]
  · obtain ⟨hl, hway⟩ := List.mem_filter.mp hl
    exact ⟨hcop ▸ hl, by simpa using hway⟩
  · obtain ⟨hz, hgone⟩ := List.mem_filter.mp hz
    have hz' : z ∈ x.dirty := hdir ▸ hz
    refine ⟨hz', ?_⟩
    cases hb : Config.blockInWay w.cur.tick (z.1 / 8) with
    | false => rfl
    | true =>
      have : z.1 ∈ x.dirtyIn w.cur.tick := List.mem_filter.mpr ⟨List.mem_map_of_mem hz', hb⟩
      simp [this] at hgone

/-- Stores of one value at many keys leave the rest of the machine alone. -/
theorem foldl_store_rest (f : Nat → Nat) (n v : Nat) (l : List Nat) (s : State) :
    let t := l.foldl (fun s y => s.store (f y) n v) s
    t.dies = s.dies ∧ t.groups = s.groups ∧ t.gangs = s.gangs ∧ t.actor = s.actor := by
  induction l generalizing s with
  | nil => exact ⟨rfl, rfl, rfl, rfl⟩
  | cons a l ih => exact ih (s.store (f a) n v)

theorem run_forM_poke (f : Nat → Nat) (n v : Nat) (l : List Nat) (w : Work) :
    (l.forM (fun y => poke (f y) n v) : Act Unit) w =
      .ok ((), ⟨l.foldl (fun s y => s.store (f y) n v) w.cur, (l.map (fun y => (f y, n, v))).reverse ++ w.stores⟩) := by
  induction l generalizing w with
  | nil => rfl
  | cons a l ih =>
    have hrun : ((a :: l).forM (fun y => poke (f y) n v) : Act Unit) w =
        (do poke (f a) n v; l.forM (fun y => poke (f y) n v) : Act Unit) w := rfl
    rw [hrun, run_bind, run_poke]
    dsimp only
    rw [ih]
    simp

/-- Clearing many ranges makes every byte of them 0 and leaves the others. -/
theorem get_storeAll_zero (f : Nat → Nat) (n : Nat) (l : List Nat) (m : List Host.Cell) (c : Nat) :
    Mem.get (storeAll m (l.map (fun y => (f y, n, 0))).reverse) c =
      if ∃ y ∈ l, f y ≤ c ∧ c < f y + n then 0 else Mem.get m c := by
  rw [storeAll, List.foldr_reverse]
  induction l generalizing m with
  | nil => simp
  | cons a l ih =>
    rw [List.map_cons, List.foldl_cons, ih]
    simp only [Mem.put, if_true, get_clear, List.mem_cons, exists_eq_or_imp]
    by_cases h1 : ∃ y ∈ l, f y ≤ c ∧ c < f y + n
    · rw [if_pos h1, if_pos (.inr h1)]
    · by_cases h2 : f a ≤ c ∧ c < f a + n
      · rw [if_neg h1, if_pos h2, if_pos (.inl h2)]
      · rw [if_neg h1, if_neg h2, if_neg (not_or.mpr ⟨h2, h1⟩)]

/-- Stepping reads only the debug registers of the unit's die. -/
theorem stepped_of_same_debug {s t : State} {ga : Gang} {x y : Die} (hga : Tab.find s.gangs (k / 65536) = some ga)
    (hg : t.gangs = s.gangs) (hx : Tab.find s.dies ga.die = some x) (hy : Tab.find t.dies ga.die = some y)
    (hd : y.debug = x.debug) (pc : Nat) (st : Stream) : t.stepped (.group k) pc st = s.stepped (.group k) pc st := by
  simp [State.stepped, State.debugOf, State.gangOf, Who.gang, State.die, Tab.getD, hg, hga, hx, hy, hd]

/-- The key of the lowest byte of a scratch way of a die (R216). -/
def wayKey (die y : Nat) : Nat := 2 ^ 48 + die * 2 ^ 40 + y * 2 ^ 22

/-- What L2CFG does once the lines of leaving ways are gone. -/
def setWays (die old m d : Nat) : Act Unit := do
  (bitsOf 16 (old ^^^ m)).forM (fun y => poke (wayKey die y) (2 ^ 22) 0)
  modDie die (fun x => { x with wmask := m })
  finishWith d old

theorem run_setWays {w : Work} {die old m d : Nat} {y : Die} (hu : w.cur.issuer = some (.group k))
    (hg : Tab.find w.cur.groups k = some g) (hy : Tab.find w.cur.dies die = some y) :
    ∃ v, setWays die old m d w = .ok ((), v) ∧
      v.stores = ((bitsOf 16 (old ^^^ m)).map (fun y => (wayKey die y, 2 ^ 22, 0))).reverse ++ w.stores ∧
      Tab.find v.cur.dies die = some { y with wmask := m } ∧
      ∃ t : State, t.gangs = w.cur.gangs ∧ Tab.find t.dies die = some { y with wmask := m } ∧
        Tab.find v.cur.groups k = some { g with st := t.stepped (.group k) g.st.pc (g.st.put d (BitVec.ofNat 64 old)).complete } := by
  have hrest := foldl_store_rest (wayKey die) (2 ^ 22) 0 (bitsOf 16 (old ^^^ m)) w.cur
  generalize hr : (bitsOf 16 (old ^^^ m)).foldl (fun s y => s.store (wayKey die y) (2 ^ 22) 0) w.cur = r at hrest
  obtain ⟨hdies, hgroups, hgangs, hact⟩ := hrest
  have hdie : Tab.find r.dies die = some y := hdies ▸ hy
  have hu' : (r.setDie die { y with wmask := m }).issuer = some (.group k) := by
    simpa [State.issuer, hact] using hu
  have hg' : Tab.find (r.setDie die { y with wmask := m }).groups k = some g := by simpa [hgroups] using hg
  have hrun : setWays die old m d w = .ok ((), ⟨(r.setDie die { y with wmask := m }).setGroup k { g with
      st := (r.setDie die { y with wmask := m }).stepped (.group k) g.st.pc (g.st.put d (BitVec.ofNat 64 old)).complete },
      ((bitsOf 16 (old ^^^ m)).map (fun y => (wayKey die y, 2 ^ 22, 0))).reverse ++ w.stores⟩) := by
    simp only [setWays, run_bind, run_forM_poke, hr]
    rw [run_modDie _ hdie]
    exact run_groupFinishWith hu' hg' d old
  exact ⟨_, hrun, rfl, by simp, r.setDie die { y with wmask := m }, hgangs, by simp, by simp⟩

/-- L2CFG in a privileged launch: the lines of leaving ways go, then the mask and the ways that change. -/
theorem execL2cfg_eq {ga : Gang} {x : Die} {d a : BitVec 5} {m : Nat} (hi : GangIssues s k g ga)
    (hp : s.privileged (.group k) = true) (hs : g.settled = true) (hx : Tab.find s.dies ga.die = some x)
    (hm : (g.st.get a.toNat).toNat = m) (hlt : m < 2 ^ 16) (hc : popcount 16 m ≤ 12) :
    execL2cfg d a s = perform (do
      if m &&& x.wmask ≠ m then dropWays ga.die
      setWays ga.die x.wmask m d.toNat) s := by
  obtain ⟨⟨hu, hg⟩, hga⟩ := hi
  have h1 : (!s.privileged (.group k)) = false := by simp [hp]
  have h2 : (decide (m ≥ 2 ^ 16) || decide (popcount 16 m > 12)) = false := by
    simp only [Bool.or_eq_false_iff, decide_eq_false_iff_not]
    omega
  have hdie : (s.die ga.die).wmask = x.wmask := by simp [State.die, Tab.getD, hx]
  unfold execL2cfg perform
  simp only [run_bind, run_me (w := ⟨s, []⟩) hu, run_discard, run_myGroup (w := ⟨s, []⟩) hu, run_groupSreg (w := ⟨s, []⟩) hu hg, hm,
    run_now, check_cons h1, check_cons h2, check_nil, run_pure, run_waitSettled (w := ⟨s, []⟩) hu hg hs,
    run_myGangGroup (w := ⟨s, []⟩) hu hga, hdie]
  rfl

/-- What L2CFG has dropped before the mask changes: nothing while no way leaves the cache. -/
theorem run_leaveWays {die m : Nat} {x : Die} (hd : Tab.find s.dies die = some x) :
    ∃ v y, (if m &&& x.wmask ≠ m then dropWays die else pure () : Act Unit) ⟨s, []⟩ = .ok ((), v) ∧ v.stores = [] ∧
      v.cur.groups = s.groups ∧ v.cur.gangs = s.gangs ∧ v.cur.actor = s.actor ∧ Tab.find v.cur.dies die = some y ∧
      y.debug = x.debug ∧ (m &&& x.wmask = m → y = x) ∧
      (m &&& x.wmask ≠ m → (∀ l ∈ y.copies, l ∈ x.copies ∧ Config.blockInWay s.tick l.block = false) ∧
        (∀ z ∈ y.dirty, z ∈ x.dirty ∧ Config.blockInWay s.tick (z.1 / 8) = false)) := by
  by_cases h : m &&& x.wmask = m
  · exact ⟨⟨s, []⟩, x, by simp [h], rfl, rfl, rfl, rfl, hd, rfl, fun _ => rfl, fun hn => absurd h hn⟩
  · obtain ⟨v, y, hv, hvs, -, hg, hga, ha, hy, hdbg, hcop, hdir⟩ := run_dropWays (w := ⟨s, []⟩) hd
    exact ⟨v, y, by rw [if_pos h]; exact hv, hvs, hg, hga, ha, hy, hdbg, fun hn => absurd hn h, fun _ => ⟨hcop, hdir⟩⟩

theorem l2cfg_changes {ga : Gang} {x : Die} {d a : BitVec 5} {m : Nat} (hi : GangIssues s k g ga)
    (hp : s.privileged (.group k) = true) (hs : g.settled = true) (hx : Tab.find s.dies ga.die = some x)
    (hm : (g.st.get a.toNat).toNat = m) (hlt : m < 2 ^ 16) (hc : popcount 16 m ≤ 12) :
    let inWay := fun (c : Nat) => ∃ y ∈ bitsOf 16 (x.wmask ^^^ m), 2 ^ 48 + ga.die * 2 ^ 40 + y * 2 ^ 22 ≤ c ∧
      c < 2 ^ 48 + ga.die * 2 ^ 40 + (y + 1) * 2 ^ 22
    ∃ t y, execL2cfg d a s = .next t ∧ Tab.find t.dies ga.die = some y ∧ y.wmask = m ∧
      (m &&& x.wmask = m → y = { x with wmask := m }) ∧
      (m &&& x.wmask ≠ m → (∀ l ∈ y.copies, l ∈ x.copies ∧ Config.blockInWay s.tick l.block = false) ∧
        (∀ z ∈ y.dirty, z ∈ x.dirty ∧ Config.blockInWay s.tick (z.1 / 8) = false)) ∧
      Tab.find t.groups k = some { g with st := s.stepped (.group k) g.st.pc (g.st.put d.toNat (BitVec.ofNat 64 x.wmask)).complete } ∧
      (∀ c, inWay c → Mem.get t.mem c = 0) ∧ (∀ c, ¬inWay c → Mem.get t.mem c = Mem.get s.mem c) := by
  intro inWay
  obtain ⟨v, y, hv, hvs, hvg, hvga, hva, hy, hdbg, hsame, hgone⟩ := run_leaveWays (m := m) hx
  have ⟨⟨hu, hg⟩, hga⟩ := hi
  obtain ⟨v', hv', hvs', hy', t, htg, hty, hgrp⟩ := run_setWays (w := v) (d := d.toNat) (old := x.wmask) (m := m)
    (by simpa [State.issuer, hva] using hu) (hvg ▸ hg) hy
  have hrun : (do
      if m &&& x.wmask ≠ m then dropWays ga.die
      setWays ga.die x.wmask m d.toNat : Act Unit) ⟨s, []⟩ = .ok ((), v') := by
    rw [← hv']
    by_cases h : m &&& x.wmask ≠ m
    · simp only [if_pos h] at hv ⊢
      rw [run_bind, hv]
    · have hvs : (⟨s, []⟩ : Work) = v := by simpa [if_neg h] using hv
      rw [if_neg h, hvs]
  have hget : ∀ c, Mem.get (storeAll s.mem v'.stores) c = if inWay c then 0 else Mem.get s.mem c := by
    intro c
    rw [hvs', hvs, List.append_nil, get_storeAll_zero (wayKey ga.die)]
    simp only [inWay, wayKey, Nat.add_mul, Nat.one_mul, Nat.add_assoc]
  refine ⟨s.after v', { y with wmask := m }, ?_, hy', rfl, fun h => by rw [hsame h], fun h => hgone h, ?_, fun c hin => ?_, fun c hin => ?_⟩
  · rw [execL2cfg_eq hi hp hs hx hm hlt hc]
    exact perform_after hrun
  · rw [← stepped_of_same_debug hga (htg.trans hvga) hx hty hdbg]
    exact hgrp
  · exact (hget c).trans (if_pos hin)
  · exact (hget c).trans (if_neg hin)

/-- Settles O17: BANKCFG and L2CFG by whether the mode changes, and the lines lost by the banks left. -/
theorem bankAndWayModesChange : Obligations.BankAndWayModesChange := by
  refine ⟨?_, fun s die cl core d hd => ⟨fun l hl => ?_, fun hbanks => ?_⟩, ?_, fun s k g d a hi hp hw => ?_⟩
  · intro s k g ga d a b hi ht hr hs x mode holds old changed hx hpos hlen hmode hbar
    have hok : ¬ (x ≥ 2 ^ 9 ∨ x % 8 ≥ ga.cores ∨ x / 8 ≥ holds.length ∨ mode > 2 ∨
        (x % 8 = 0 ∧ 8192 * (x / 8) < 16 * ga.nbar)) := by omega
    exact ⟨fun hsame => bankcfg_same hi ht hr hs rfl rfl hx hok hsame, fun hne hp => bankcfg_changes hi ht hr hs rfl rfl hx hok hne hp⟩
  · rw [loseBank_caches hd] at hl
    split at hl
    · simp at hl
    · exact (List.mem_filter.mp hl).1
  · rw [loseBank_caches hd, if_pos hbanks]
  · intro s k g ga x d a hi hp hs hx m inWay hlt hc
    exact l2cfg_changes hi hp hs hx rfl hlt hc
  · have ⟨hu, hg⟩ := hi
    have hleast : ∀ b : Bool, leastOf 3 (3 :: ([(b, 4)].filter (fun x => x.1)).map (fun x => x.2)) = 3 := by decide
    refine perform_groupRaise hi hw ?_
    simp [hu, hg, hp, check, hleast]

end

end Sys2Proof.Machine
end

section
/-! SUPPORT. Barrier objects and the barrier words (R24 to R27, R222, R235 to R237, R305). -/

namespace Sys2Proof.Machine

open Sys2Proof

/-! ## Fields of a number with a field set (R5) -/

theorem testBit_fld (x lo n i : Nat) : (fld x lo n).testBit i = (decide (i < n) && x.testBit (lo + i)) := by
  rw [fld, Nat.testBit_mod_two_pow, Nat.testBit_div_two_pow, Nat.add_comm]

@[simp] theorem fld_setFld_same (x lo n v : Nat) : fld (setFld x lo n v) lo n = v % 2 ^ n := by
  refine Nat.eq_of_testBit_eq fun i => ?_
  rw [testBit_fld, testBit_setFld, Nat.testBit_mod_two_pow]
  by_cases h : i < n <;> simp [h]

theorem fld_setFld_of_disjoint {x lo n v lo' n' : Nat} (h : lo' + n' ≤ lo ∨ lo + n ≤ lo') :
    fld (setFld x lo n v) lo' n' = fld x lo' n' := by
  refine Nat.eq_of_testBit_eq fun i => ?_
  rw [testBit_fld, testBit_setFld, testBit_fld]
  by_cases hi : i < n'
  · rw [if_neg (by omega)]
  · simp [hi]

/-- A field that is set to what it holds changes nothing. -/
theorem setFld_fld_self (x lo n : Nat) : setFld x lo n (fld x lo n) = x := by
  refine Nat.eq_of_testBit_eq fun i => ?_
  rw [testBit_setFld]
  split
  · rw [testBit_fld, decide_eq_true (by omega), Bool.true_and]
    congr 1
    omega
  · rfl

/-- What the barrier unit writes: the reserved fields are zero, and every other field stays (R26). -/
theorem barClean_reserved (v : Nat) : fld (barClean v) 16 15 = 0 ∧ fld (barClean v) 48 16 = 0 := by
  constructor
  · rw [barClean, fld_setFld_of_disjoint (by omega), fld_setFld_same, Nat.zero_mod]
  · rw [barClean, fld_setFld_same, Nat.zero_mod]

theorem fld_barClean {lo n : Nat} (h1 : lo + n ≤ 16 ∨ 31 ≤ lo) (h2 : lo + n ≤ 48 ∨ 64 ≤ lo) (v : Nat) :
    fld (barClean v) lo n = fld v lo n := by
  rw [barClean, fld_setFld_of_disjoint (by omega), fld_setFld_of_disjoint (by omega)]

theorem barClean_of_reserved_zero {v : Nat} (h1 : fld v 16 15 = 0) (h2 : fld v 48 16 = 0) : barClean v = v := by
  have h : setFld v 16 15 0 = v := by
    rw [← h1, setFld_fld_self]
  rw [barClean, h, ← h2, setFld_fld_self]

/-! ## Arrivals (R24 to R26, R305) -/

theorem wakeBar_mem (s : State) (gang addr status : Nat) : (s.wakeBar gang addr status).mem = s.mem := rfl

theorem setGang_store (s : State) (j k n v : Nat) (g : Gang) : (s.setGang j g).store k n v = (s.store k n v).setGang j g := rfl

/-- What the arrival that reaches EXPECTED writes. -/
def barFlip (v best : Nat) : Nat :=
  barClean (setFld (setFld (setFld (setFld (setFld v 64 32 best) 32 16 0) 31 1 (1 - fld v 31 1)) 112 16 0) 96 16 0xFFFF)

theorem barFlip_fields (v best : Nat) :
    fld (barFlip v best) 0 16 = fld v 0 16 ∧ fld (barFlip v best) 31 1 = 1 - fld v 31 1 ∧ fld (barFlip v best) 32 16 = 0 ∧
      fld (barFlip v best) 64 32 = best % 2 ^ 32 ∧ fld (barFlip v best) 96 16 = 0xFFFF ∧ fld (barFlip v best) 112 16 = 0 ∧
      fld (barFlip v best) 16 15 = 0 ∧ fld (barFlip v best) 48 16 = 0 := by
  obtain ⟨hr1, hr2⟩ := barClean_reserved (setFld (setFld (setFld (setFld (setFld v 64 32 best) 32 16 0) 31 1 (1 - fld v 31 1)) 112 16 0) 96 16 0xFFFF)
  have hphase : (1 - fld v 31 1) % 2 ^ 1 = 1 - fld v 31 1 := Nat.mod_eq_of_lt (by omega)
  refine ⟨?_, ?_, ?_, ?_, ?_, ?_, hr1, hr2⟩
  · rw [barFlip, fld_barClean (by omega) (by omega)]
    simp only [fld_setFld_of_disjoint, Nat.reduceAdd, Nat.reduceLeDiff, true_or]
  · rw [barFlip, fld_barClean (by omega) (by omega)]
    simp only [fld_setFld_of_disjoint, fld_setFld_same, hphase, Nat.reduceAdd, Nat.reduceLeDiff, true_or]
  · rw [barFlip, fld_barClean (by omega) (by omega)]
    simp only [fld_setFld_of_disjoint, fld_setFld_same, Nat.reduceAdd, Nat.reduceLeDiff, true_or, or_true, Nat.zero_mod]
  · rw [barFlip, fld_barClean (by omega) (by omega)]
    simp only [fld_setFld_of_disjoint, fld_setFld_same, Nat.reduceAdd, Nat.reduceLeDiff, true_or, or_true]
  · rw [barFlip, fld_barClean (by omega) (by omega)]
    exact (fld_setFld_same ..).trans rfl
  · rw [barFlip, fld_barClean (by omega) (by omega)]
    simp only [fld_setFld_of_disjoint, fld_setFld_same, Nat.reduceAdd, Nat.reduceLeDiff, true_or, or_true, Nat.zero_mod]

/-- The status word that stays pending at a barrier object after an arrival with a status (R25). -/
def Gang.bestAt (g : Gang) (addr status : Nat) : Nat :=
  if statusRank (status / 2 ^ 24) > statusRank ((Tab.getD g.barPend addr 0).toNat / 2 ^ 24) then status
  else (Tab.getD g.barPend addr 0).toNat

section

variable {w : Work} {gang addr n status : Nat} {g : Gang} {v : Nat} (hg : Tab.find w.cur.gangs gang = some g)
  (hv : Mem.read w.cur.mem (barKey gang addr) 16 = v)
include hg hv

/-- A phase that is complete takes no arrival. -/
theorem run_arrive_late (h : fld v 0 16 ≤ fld v 32 16) : arrive gang addr n status w = .ok ((), w) := by
  simp [arrive, hg, readBar, hv, h]

theorem run_arrive_counts (h : fld v 32 16 < fld v 0 16) (hn : fld v 32 16 + n < fld v 0 16) :
    arrive gang addr n status w = .ok ((), ⟨(w.cur.store (barKey gang addr) 16 (barClean (setFld v 32 16 (fld v 32 16 + n)))).setGang gang
      { g with barPend := Tab.set g.barPend addr (BitVec.ofNat 32 (g.bestAt addr status)) },
      (barKey gang addr, 16, barClean (setFld v 32 16 (fld v 32 16 + n))) :: w.stores⟩) := by
  simp [arrive, hg, readBar, hv, Nat.not_le.mpr h, Nat.not_le.mpr hn, writeBar, Gang.bestAt]

theorem run_arrive_flips (h : fld v 32 16 < fld v 0 16) (hn : fld v 0 16 ≤ fld v 32 16 + n) (hc : fld v 96 16 = 0xFFFF) :
    arrive gang addr n status w = .ok ((), ⟨((w.cur.store (barKey gang addr) 16 (barFlip v (g.bestAt addr status))).setGang gang
      { g with barPend := Tab.set g.barPend addr 0 }).wakeBar gang addr (g.bestAt addr status),
      (barKey gang addr, 16, barFlip v (g.bestAt addr status)) :: w.stores⟩) := by
  simp [arrive, hg, readBar, hv, Nat.not_le.mpr h, hn, writeBar, Gang.bestAt, hc, barFlip]
  exact setMem_of_mem_eq rfl

theorem run_arrive_handsOff (h : fld v 32 16 < fld v 0 16) (hn : fld v 0 16 ≤ fld v 32 16 + n) (hc : fld v 96 16 ≠ 0xFFFF) :
    let x := barFlip v (g.bestAt addr status)
    let rec_ := spadKey gang 0 + 128 * fld v 96 16
    let s1 := w.cur.store (barKey gang addr) 16 x
    arrive gang addr n status w = .ok ((), ⟨((s1.store (rec_ + 8) 8 0).setGang gang
      { g with
        barPend := Tab.set g.barPend addr 0
        handoffs := g.handoffs ++ [Mem.read s1.mem rec_ 128] }).wakeBar gang addr (g.bestAt addr status),
      (rec_ + 8, 8, 0) :: (barKey gang addr, 16, x) :: w.stores⟩) := by
  intro x rec_ s1
  simp [arrive, hg, readBar, hv, Nat.not_le.mpr h, hn, writeBar, Gang.bestAt, hc, barFlip, handOff, x, rec_, s1, setGang_store]
  exact setMem_of_mem_eq rfl

end

theorem barriersCountArrivals : BarriersCountArrivals := by
  intro w gang addr n status g hg key v cont rec_ best
  refine ⟨fun hle => run_arrive_late hg rfl hle, fun hlt hsum => ⟨_, run_arrive_counts hg rfl hlt hsum, ?_⟩,
    fun hlt hsum => ⟨barFlip v best, ?_⟩⟩
  · obtain ⟨hr1, hr2⟩ := barClean_reserved (setFld v 32 16 (fld v 32 16 + n))
    have hexp : fld v 0 16 < 2 ^ 16 := Nat.mod_lt _ (by decide)
    refine ⟨?_, ?_, ?_, ?_, hr1, hr2⟩
    · rw [fld_barClean (by omega) (by omega), fld_setFld_of_disjoint (by omega)]
    · rw [fld_barClean (by omega) (by omega), fld_setFld_of_disjoint (by omega)]
    · rw [fld_barClean (by omega) (by omega), fld_setFld_same, Nat.mod_eq_of_lt (show fld v 32 16 + n < 2 ^ 16 by omega)]
    · rw [fld_barClean (by omega) (by omega), fld_setFld_of_disjoint (by omega)]
  · obtain ⟨h1, h2, h3, h4, h5, h6, h7, h8⟩ := barFlip_fields v best
    exact ⟨h1, h2, h3, h4, h5, h6, h7, h8, fun hc => run_arrive_flips hg rfl hlt hsum hc,
      fun hc => run_arrive_handsOff hg rfl hlt hsum hc⟩

/-! ## Reading a barrier object (R222) -/

section

variable (s : State) (d k n : Nat)

@[simp] theorem countCorr_groups : (s.countCorr d).groups = s.groups := by
  unfold State.countCorr
  split <;> rfl

@[simp] theorem countCorr_ctxs : (s.countCorr d).ctxs = s.ctxs := by
  unfold State.countCorr
  split <;> rfl

@[simp] theorem countCorr_gangs : (s.countCorr d).gangs = s.gangs := by
  unfold State.countCorr
  split <;> rfl

@[simp] theorem countCorr_launches : (s.countCorr d).launches = s.launches := by
  unfold State.countCorr
  split <;> rfl

@[simp] theorem countCorr_actor : (s.countCorr d).actor = s.actor := by
  unfold State.countCorr
  split <;> rfl

@[simp] theorem readOnce_mem : (s.readOnce d k n).mem = s.mem := by
  unfold State.readOnce
  split <;> simp

@[simp] theorem readOnce_groups : (s.readOnce d k n).groups = s.groups := by
  unfold State.readOnce
  split <;> simp

@[simp] theorem readOnce_ctxs : (s.readOnce d k n).ctxs = s.ctxs := by
  unfold State.readOnce
  split <;> simp

@[simp] theorem readOnce_gangs : (s.readOnce d k n).gangs = s.gangs := by
  unfold State.readOnce
  split <;> simp

@[simp] theorem readOnce_launches : (s.readOnce d k n).launches = s.launches := by
  unfold State.readOnce
  split <;> simp

@[simp] theorem readOnce_actor : (s.readOnce d k n).actor = s.actor := by
  unfold State.readOnce
  split <;> simp

@[simp] theorem readOnce_issuer : (s.readOnce d k n).issuer = s.issuer := by
  simp [State.issuer]

@[simp] theorem readOnce_stream (u : Who) : (s.readOnce d k n).stream u = s.stream u := by
  cases u <;> simp [State.stream]

@[simp] theorem readOnce_portOf (u : Who) : (s.readOnce d k n).portOf u = s.portOf u := by
  simp only [State.portOf, State.gangOf, State.launchRec, readOnce_gangs, readOnce_launches, readOnce_groups]

end

theorem run_readKey {w : Work} {die k n : Nat} (hb : w.cur.badAt k n = false) :
    readKey die k n w = .ok (.ok (Mem.read w.cur.mem k n), ⟨w.cur.readOnce die k n, w.stores⟩) := by
  by_cases hc : w.cur.corrAt k n = true
  · simp [readKey, hb, hc, countCorr, State.readOnce, setMem_of_mem_eq]
  · simp [readKey, hb, hc, State.readOnce]

theorem run_barWord {w : Work} {gang addr : Nat} {ga : Gang} (hg : Tab.find w.cur.gangs gang = some ga)
    (hb : w.cur.badAt (barKey gang addr) 16 = false) :
    barWord gang addr w = .ok (Mem.read w.cur.mem (barKey gang addr) 16, ⟨w.cur.readOnce ga.die (barKey gang addr) 16, w.stores⟩) := by
  simp [barWord, hg, run_readKey hb]

/-- A machine in which the units stand as before has the same unit issue. -/
theorem Issues.congr {s t : State} {u : Who} {st : Stream} (hi : Issues s u st) (ha : t.actor = s.actor) (hg : t.groups = s.groups)
    (hc : t.ctxs = s.ctxs) : Issues t u st := by
  obtain ⟨hu, hs⟩ := hi
  exact ⟨by simpa [State.issuer, ha] using hu, by cases u <;> simpa [State.stream, hg, hc] using hs⟩

theorem unitDone_mem (s : State) (u : Who) (pc : Nat) (st : Stream) : (s.unitDone u pc st).mem = s.mem := by
  rw [State.unitDone, setStream_mem]

/-- A good barrier address is that of an object of the unit's gang. -/
theorem run_barAddr {s : State} {u : Who} {st : Stream} {ga : Gang} {a : BitVec 5} {x : Nat} {bad : Bool} (hi : UnitIssues s u st ga)
    (hx : (st.get a.toNat).toNat = x) (h16 : x % 16 = 0) (hlt : x < 16 * ga.nbar) (hb : bad = false) :
    barAddr a bad ⟨s, []⟩ = .ok ((u.gang, x), ⟨s, []⟩) := by
  obtain ⟨⟨hu, hs⟩, hga⟩ := hi
  have h1 : decide (x % 16 ≠ 0) = false := by simp [h16]
  have h2 : (decide (x ≥ 16 * ga.nbar) || bad) = false := by simp [hb, hlt]
  simp only [barAddr, run_bind, run_unitSreg (w := ⟨s, []⟩) hu hs, hx, run_myGang (w := ⟨s, []⟩) hu hga, check_cons h1, check_cons h2,
    check_nil, run_pure]

/-! ## The barrier words (R235 to R237) -/

section

variable {s : State} {u : Who} {st : Stream} {ga : Gang} {a b d : BitVec 5} {x : Nat} (hi : UnitIssues s u st ga)
  (hx : (st.get a.toNat).toNat = x) (h16 : x % 16 = 0) (hlt : x < 16 * ga.nbar) (hbad : s.badAt (barKey u.gang x) 16 = false)
include hi hx h16 hlt hbad

theorem barInit_writes {e y : Nat} (hset : s.unitSettled u) (he : (st.get b.toNat).toNat = e) (hpos : 0 < e) (hle : e ≤ 65535)
    (hw : fld (Mem.read s.mem (barKey u.gang x) 16) 112 16 = 0) (hy : e + 0xFFFF * 2 ^ 96 = y) (hclean : barClean y = y) :
    execBarInit a b s = .next ((((s.readOnce ga.die (barKey u.gang x) 16).store (barKey u.gang x) 16 y).setGang
      u.gang { ga with barPend := Tab.set ga.barPend x 0 }).unitDone u st.pc st) := by
  have hga : Tab.find s.gangs u.gang = some ga := hi.2
  have haddr := run_barAddr (bad := decide (e = 0 ∨ e > 65535)) hi hx h16 hlt (by simp; omega)
  have hi' : Issues (((s.readOnce ga.die (barKey u.gang x) 16).store (barKey u.gang x) 16 y).setGang
      u.gang { ga with barPend := Tab.set ga.barPend x 0 }) u st := hi.1.congr (by simp) (by simp) (by simp)
  refine perform_of_stores (l := [(barKey u.gang x, 16, y)]) ?_ ?_
  · simp only [run_bind, run_unitSreg (w := ⟨s, []⟩) hi.1.1 hi.1.2, he, haddr, run_unitSettled (w := ⟨s, []⟩) hi.1.1 hset,
      run_barWord (w := ⟨s, []⟩) hga hbad, hw, ne_eq, not_true_eq_false, if_false, run_pure, writeBar, hy, run_poke, hclean]
    rw [run_modGang _ (by simpa using hga)]
    exact run_unitFinish hi'.1 hi'.2
  · rw [storeAll_one, unitDone_mem, setGang_mem, store_mem, readOnce_mem]

theorem barInit_completes {e : Nat} (hset : s.unitSettled u) (he : (st.get b.toNat).toNat = e) (hpos : 0 < e) (hle : e ≤ 65535)
    (hw : fld (Mem.read s.mem (barKey u.gang x) 16) 112 16 = 0) :
    execBarInit a b s = .next ((((s.readOnce ga.die (barKey u.gang x) 16).store (barKey u.gang x) 16 (e + 0xFFFF * 2 ^ 96)).setGang
      u.gang { ga with barPend := Tab.set ga.barPend x 0 }).unitDone u st.pc st) :=
  barInit_writes hi hx h16 hlt hbad hset he hpos hle hw rfl
    (barClean_of_reserved_zero (by simp only [fld]; omega) (by simp only [fld]; omega))

theorem barArrive_completes {v : Nat} {w : Work} {st1 : Stream} (hset : s.unitSettled u) (hv : (st.get b.toNat).toNat = v)
    (hn : fld v 0 16 ≠ 0) (hc : fld v 16 8 ≤ 0x0A) (h28 : fld v 28 4 = 0) (h48 : fld v 48 16 = 0)
    (hr : arrive u.gang x (fld v 0 16) (fld v 16 8 * 2 ^ 24 + 0xF * 2 ^ 20 + fld v 24 4 * 2 ^ 16 + fld v 32 16 % 65536)
      ⟨s.readOnce ga.die (barKey u.gang x) 16, []⟩ = .ok ((), w)) (hi1 : Issues w.cur u st1) :
    execBarArrive d a b s = .next (s.after ⟨w.cur.unitDone u st1.pc (st1.put d.toNat
      (BitVec.ofNat 64 (fld (Mem.read s.mem (barKey u.gang x) 16) 31 1))), w.stores⟩) := by
  have hga : Tab.find s.gangs u.gang = some ga := hi.2
  have haddr := run_barAddr (bad := decide (fld v 0 16 = 0 ∨ fld v 16 8 > 0x0A ∨ fld v 28 4 ≠ 0 ∨ fld v 48 16 ≠ 0)) hi hx h16 hlt
    (by simp; omega)
  refine perform_after ?_
  simp only [run_bind, run_unitSreg (w := ⟨s, []⟩) hi.1.1 hi.1.2, hv, haddr, run_unitSettled (w := ⟨s, []⟩) hi.1.1 hset,
    run_barWord (w := ⟨s, []⟩) hga hbad, statusWord, hr]
  exact run_unitFinishWith hi1.1 hi1.2 d.toNat _

section

variable {e : Nat} (he : (st.get b.toNat).toNat = e) (hle : e ≤ 1)
include he hle

omit he hle h16 hlt hbad hx in
/-- An acquire, and the word's completion with a value. -/
theorem run_wake {y : Nat} :
    (do acquireHere; finishWith d.toNat y : Act Unit) ⟨s.readOnce ga.die (barKey u.gang x) 16, []⟩ =
      .ok ((), ⟨((s.readOnce ga.die (barKey u.gang x) 16).dropCore (s.portOf u)).unitDone u st.pc
        (st.put d.toNat (BitVec.ofNat 64 y)), []⟩) := by
  have hi1 : Issues (s.readOnce ga.die (barKey u.gang x) 16) u st := hi.1.congr (by simp) (by simp) (by simp)
  have hi2 : Issues ((s.readOnce ga.die (barKey u.gang x) 16).dropCore (s.portOf u)) u st :=
    hi1.congr (by simp) (by simp) (by simp)
  rw [run_bind, run_acquireHere hi1.1, readOnce_portOf]
  exact run_unitFinishWith hi2.1 hi2.2 d.toNat y

/-- The operands and the object of BAR.TEST and BAR.WAIT. -/
theorem run_barPhase : barAddr a (decide (e > 1)) ⟨s, []⟩ = .ok ((u.gang, x), ⟨s, []⟩) ∧
    barWord u.gang x ⟨s, []⟩ = .ok (Mem.read s.mem (barKey u.gang x) 16, ⟨s.readOnce ga.die (barKey u.gang x) 16, []⟩) :=
  ⟨run_barAddr hi hx h16 hlt (by simpa using hle), run_barWord (w := ⟨s, []⟩) hi.2 hbad⟩

theorem barTest_completed (hph : fld (Mem.read s.mem (barKey u.gang x) 16) 31 1 ≠ e) :
    execBarTest d a b s = .next (((s.readOnce ga.die (barKey u.gang x) 16).dropCore (s.portOf u)).unitDone u st.pc
      (st.put d.toNat (BitVec.ofNat 64 (2 ^ 63 + fld (Mem.read s.mem (barKey u.gang x) 16) 64 32)))) := by
  obtain ⟨haddr, hword⟩ := run_barPhase hi hx h16 hlt hbad he hle
  refine perform_of_no_stores ?_ (by simp [unitDone_mem])
  rw [run_bind, run_unitSreg (w := ⟨s, []⟩) hi.1.1 hi.1.2, he]
  simp only [run_bind (α := Nat × Nat), haddr]
  simp only [run_bind (α := Nat), hword, if_pos hph]
  exact run_wake hi

theorem barTest_pending (hph : fld (Mem.read s.mem (barKey u.gang x) 16) 31 1 = e) :
    execBarTest d a b s = .next ((s.readOnce ga.die (barKey u.gang x) 16).unitDone u st.pc (st.put d.toNat 0)) := by
  obtain ⟨haddr, hword⟩ := run_barPhase hi hx h16 hlt hbad he hle
  have hi1 : Issues (s.readOnce ga.die (barKey u.gang x) 16) u st := hi.1.congr (by simp) (by simp) (by simp)
  refine perform_of_no_stores ?_ (by simp [unitDone_mem])
  simp only [run_bind, run_unitSreg (w := ⟨s, []⟩) hi.1.1 hi.1.2, he, haddr, hword, hph, ne_eq, not_true_eq_false, if_false]
  exact run_unitFinishWith hi1.1 hi1.2 d.toNat 0

/-- BAR.WAIT on a phase that is over, or woken, is an acquire and gives the status word. -/
theorem barWait_completed (hn : ∀ y z, st.wait ≠ .barWait y z) (hph : fld (Mem.read s.mem (barKey u.gang x) 16) 31 1 ≠ e) :
    execBarWait d a b s = .next (((s.readOnce ga.die (barKey u.gang x) 16).dropCore (s.portOf u)).unitDone u st.pc
      (st.put d.toNat (BitVec.ofNat 64 (fld (Mem.read s.mem (barKey u.gang x) 16) 64 32)))) := by
  obtain ⟨haddr, hword⟩ := run_barPhase hi hx h16 hlt hbad he hle
  have hwake := run_wake (d := d) (x := x) (y := fld (Mem.read s.mem (barKey u.gang x) 16) 64 32) hi
  rw [run_bind] at hwake
  refine perform_of_no_stores ?_ (by simp [unitDone_mem])
  simp [run_myStream ⟨s, []⟩ hi.1.1 hi.1.2, run_unitSreg (w := ⟨s, []⟩) hi.1.1 hi.1.2, he, haddr, hword, hn, hph, hwake]

theorem barWait_woken {z : Nat} {y : W32} (hw : st.wait = .barWait z (some y)) :
    execBarWait d a b s = .next (((s.readOnce ga.die (barKey u.gang x) 16).dropCore (s.portOf u)).unitDone u st.pc
      (st.put d.toNat (BitVec.ofNat 64 y.toNat))) := by
  obtain ⟨haddr, hword⟩ := run_barPhase hi hx h16 hlt hbad he hle
  have hwake := run_wake (d := d) (x := x) (y := y.toNat) hi
  rw [run_bind] at hwake
  refine perform_of_no_stores ?_ (by simp [unitDone_mem])
  simp [run_myStream ⟨s, []⟩ hi.1.1 hi.1.2, run_unitSreg (w := ⟨s, []⟩) hi.1.1 hi.1.2, he, haddr, hword, hw, hwake]

/-- BAR.WAIT on the present phase counts in WAITERS and sleeps. -/
theorem barWait_sleeps {v y : Nat} (hn : ∀ y z, st.wait ≠ .barWait y z) (hv : Mem.read s.mem (barKey u.gang x) 16 = v)
    (hph : fld v 31 1 = e) (hy : barClean (setFld v 112 16 (fld v 112 16 + 1)) = y) :
    execBarWait d a b s = .next (((s.readOnce ga.die (barKey u.gang x) 16).store (barKey u.gang x) 16 y).setStream u
      { st with wait := .barWait x none }) := by
  obtain ⟨haddr, hword⟩ := run_barPhase hi hx h16 hlt hbad he hle
  rw [hv] at hword
  have hi1 : Issues ((s.readOnce ga.die (barKey u.gang x) 16).store (barKey u.gang x) 16 y) u st :=
    hi.1.congr (by simp) (by simp) (by simp)
  refine perform_of_stores (l := [(barKey u.gang x, 16, y)]) ?_ (by rw [setStream_mem, store_mem, readOnce_mem, storeAll_one])
  have hput := run_unitPutStream (w := ⟨(s.readOnce ga.die (barKey u.gang x) 16).store (barKey u.gang x) 16 y,
    [(barKey u.gang x, 16, y)]⟩) hi1.1 { st with wait := .barWait x none }
  simp [run_myStream ⟨s, []⟩ hi.1.1 hi.1.2, run_unitSreg (w := ⟨s, []⟩) hi.1.1 hi.1.2, he, haddr, hword, hn, hph, writeBar, hy, hput]

end

end

/-! ## An object with an uncorrectable error (R222) -/

section

variable {s : State} {u : Who} {st : Stream}

theorem countBad_issuer (s : State) (d : Nat) : (s.countBad d).issuer = s.issuer := by
  unfold State.countBad
  split <;> rfl

/-- A cause of the issuing word for an error that a die counts. -/
theorem perform_raiseBad {m : Act Unit} {c : Cause} {die : Nat} (hi : Issues s u st) (hw : st.wait = .none)
    (hm : m ⟨s, []⟩ = .error (.raiseBad c die)) : perform m s = .next ((s.countBad die).raise u c) := by
  have hs : (s.countBad die).stream u = some st := by simpa using hi.2
  refine perform_stop s hm ?_
  show some ((s.countBad die).raiseIssuer c) = _
  rw [State.raiseIssuer, countBad_issuer, hi.1]
  exact congrArg (fun t => some (State.raise t u c)) (leaveWait_eq hs (by simp [hw]))

theorem run_barWord_bad {addr : Nat} {ga : Gang} (hi : UnitIssues s u st ga) (hb : s.badAt (barKey u.gang addr) 16 = true) :
    barWord u.gang addr ⟨s, []⟩ = .error (.raiseBad (Cause.atWord 0x13 st.pc addr) ga.die) := by
  have hga : Tab.find s.gangs u.gang = some ga := hi.2
  have hst := run_myStream (u := u) (st := st) ⟨s.countBad ga.die, []⟩ ((countBad_issuer s ga.die).trans hi.1.1)
    (by simpa using hi.1.2)
  simp [barWord, hga, readKey, hb, countBad, setMem_of_mem_eq, hst]

theorem barrierWordsComplete : BarrierWordsComplete := by
  refine ⟨?_, ?_, ?_, ?_, ?_⟩
  · intro s u st ga a b hi hset x e key h16 hlt hpos hle hbad hw
    exact barInit_completes hi rfl h16 hlt hbad hset rfl hpos hle hw
  · intro s u st ga a b d w st1 hi hset x v key h16 hlt hn hc h28 h48 hbad hr hi1
    exact barArrive_completes hi rfl h16 hlt hbad hset rfl hn hc h28 h48 hr hi1
  · intro s u st ga d a b hi hn x e key v s1 h16 hlt hle hbad
    refine ⟨fun hph => ⟨barWait_completed hi rfl h16 hlt hbad rfl hle hn hph, barTest_completed hi rfl h16 hlt hbad rfl hle hph⟩,
      fun hph => ⟨barTest_pending hi rfl h16 hlt hbad rfl hle hph, _, barWait_sleeps hi rfl h16 hlt hbad rfl hle hn rfl hph rfl, ?_, ?_⟩⟩
    · rw [fld_barClean (by omega) (by omega)]
      exact (fld_setFld_same ..).trans rfl
    · rw [fld_barClean (by omega) (by omega), fld_setFld_of_disjoint (by omega)]
  · intro s u st ga d a b z y hi hw x key h16 hlt hle hbad
    exact barWait_woken hi rfl h16 hlt hbad rfl hle hw
  · intro s u st ga d a b hi hw x h16 hlt hle hbad raised
    have haddr := run_barAddr (bad := decide ((st.get b.toNat).toNat > 1)) hi rfl h16 hlt (by simpa using hle)
    have hword := run_barWord_bad hi hbad
    refine ⟨perform_raiseBad hi.1 hw ?_, perform_raiseBad hi.1 hw ?_⟩
    · simp only [run_bind, run_myStream ⟨s, []⟩ hi.1.1 hi.1.2, run_unitSreg (w := ⟨s, []⟩) hi.1.1 hi.1.2, haddr, x, hword]
    · simp only [run_bind, run_unitSreg (w := ⟨s, []⟩) hi.1.1 hi.1.2, haddr, x, hword]

/-- Settles O20: an arrival counts, or flips the phase, and each barrier word goes by the object it reads. -/
theorem barriersComplete : Obligations.BarriersComplete := ⟨barriersCountArrivals, barrierWordsComplete⟩

end

end Sys2Proof.Machine
end

section
/-! SUPPORT. The words of the copy engine (R296 to R302). -/

namespace Sys2Proof.Machine

open Sys2Proof

/-- Checks of which none holds raise nothing. -/
theorem run_check_none {w : Work} {cs : List (Bool × Nat)} (h : ∀ c ∈ cs, c.1 = false) : check cs w = .ok ((), w) := by
  induction cs with
  | nil => rfl
  | cons c cs ih =>
    obtain ⟨b, n⟩ := c
    rw [check_cons (h (b, n) (by simp))]
    exact ih fun c hc => h c (by simp [hc])

/-- A computation whose first part answers goes on with its answer. -/
theorem run_bind_ok {α β : Type} {m : Act α} {f : α → Act β} {w v : Work} {a : α} (h : m w = .ok (a, v)) :
    (m >>= f) w = f a v := by
  rw [run_bind, h]

/-- A word of queue C: its checks, where it makes any, and then its entry. -/
def issueChecked (k : Nat) (d : BitVec 5) (op : EOp) (skip : Bool) (cs : List (Bool × Nat)) : Act Unit := do
  if !skip then check cs
  let seq ← issueEntry k 1 op
  finishWith d.toNat seq

/-- What a copy word does once it has read its shape record. -/
def copyChecked (kind : CopyKind) (k : Nat) (ga : Gang) (d : BitVec 5) (r : Nat) (ok : Bool) : Act Unit := do
  if !ok then raise 0x20
  let src := rangeCause ga (bit r 136) (fld r 0 64) (shapeElem r)
    ((topCounters (match kind with | .gather => true | _ => false) r).zip (shapeSrc r)) [fld r 20 3]
  let dst := rangeCause ga (bit r 138) (fld r 64 64) (shapeElem r) ((topCounters false r).zip (shapeDst kind r))
    (match kind with | .multi m => bitsOf 8 m | _ => [fld r 84 3])
  issueChecked k d (.copy kind r (shapeNdim r)) ((shapeExts r).contains 0) [(!(src == 0), src), (!(dst == 0), dst)]

theorem run_issueChecked {w : Work} {k : Nat} {g : Group} {d : BitVec 5} {op : EOp} {skip : Bool} {cs : List (Bool × Nat)}
    (hi : GroupIssues w.cur k g) (hr : w.cur.roomFor k 1 = true) (hc : skip = true ∨ ∀ c ∈ cs, c.1 = false) :
    issueChecked k d op skip cs w = .ok ((), ⟨w.cur.entryIssued k g 1 op
      (g.st.put d.toNat (BitVec.ofNat 64 (g.queue 1).next.toNat)), w.stores⟩) := by
  obtain ⟨hu, hg⟩ := hi
  have hend : (do let seq ← issueEntry k 1 op; finishWith d.toNat seq : Act Unit) w = .ok ((),
      ⟨w.cur.entryIssued k g 1 op (g.st.put d.toNat (BitVec.ofNat 64 (g.queue 1).next.toNat)), w.stores⟩) := by
    simp [run_issueEntry hr hg, hu, State.entryIssued, State.wordDone]
  cases skip with
  | true => exact hend
  | false =>
    have hc' := run_check_none (w := w) (hc.resolve_left Bool.false_ne_true)
    simp only [issueChecked, Bool.not_false, if_true]
    rw [run_bind, hc']
    exact hend

section

variable {s : State} {k : Nat} {g g2 : Group} {ga : Gang} {kind : CopyKind} {a : BitVec 5} {va h r : Nat} {w1 w2 : Work}

/-- The ranges of a shape lie inside, or it moves nothing. -/
def rangesInside (ga : Gang) (kind : CopyKind) (r : Nat) : Prop :=
  (shapeExts r).contains 0 = true ∨
    (rangeCause ga (bit r 136) (fld r 0 64) (shapeElem r)
      ((topCounters (match kind with | .gather => true | _ => false) r).zip (shapeSrc r)) [fld r 20 3] = 0 ∧
     rangeCause ga (bit r 138) (fld r 64 64) (shapeElem r) ((topCounters false r).zip (shapeDst kind r))
      (match kind with | .multi m => bitsOf 8 m | _ => [fld r 84 3]) = 0)

/-- The two records that a copy word reads, and its checks on their addresses. -/
theorem run_copyOp_reads {d : BitVec 5} (hi : GangIssues s k g ga) (hx : (g.st.get a.toNat).toNat = va) (hp : Placed48 va 8)
    (hh : readRec va 40 ⟨s, []⟩ = .ok (h, w1)) (h1 : 1 ≤ fld h 128 4) (h14 : fld h 128 4 ≤ 14)
    (hr : readRec va (40 + 20 * fld h 128 4) w1 = .ok (r, w2)) :
    copyOp kind d a ⟨s, []⟩ = copyChecked kind k ga d r (shapeOk kind (w2.cur.nodeRec ga) ga r) w2 := by
  obtain ⟨⟨hu, hg⟩, hga⟩ := hi
  have h5 := run_groupSreg (w := ⟨s, []⟩) hu hg a.toNat
  unfold copyOp
  rw [run_bind_ok (run_myGroup (w := ⟨s, []⟩) hu), run_bind_ok (run_myGangGroup (w := ⟨s, []⟩) hu hga)]
  dsimp only
  rw [run_bind_ok h5, hx, run_bind_ok (run_checkAddr hp), run_bind_ok hh, if_pos ⟨h1, h14⟩, run_bind_ok hr, run_bind_ok (run_now w2)]
  rfl

/-- A valid shape whose ranges lie inside issues its entry and gives the sequence number. -/
theorem run_copyChecked {d : BitVec 5} (hi2 : GroupIssues w2.cur k g2) (hroom : w2.cur.roomFor k 1 = true)
    (hin : rangesInside ga kind r) :
    copyChecked kind k ga d r true w2 = .ok ((), ⟨w2.cur.entryIssued k g2 1 (.copy kind r (shapeNdim r))
      (g2.st.put d.toNat (BitVec.ofNat 64 (g2.queue 1).next.toNat)), w2.stores⟩) := by
  refine run_issueChecked hi2 hroom (hin.imp_right fun ⟨hs, hd⟩ => ?_)
  simp only [hs, hd, List.mem_cons, List.not_mem_nil, or_false, beq_self_eq_true, Bool.not_true, forall_eq_or_imp, forall_eq, and_self]

/-- A shape that is not valid raises its cause. -/
theorem run_copyChecked_raises {d : BitVec 5} (hi2 : GroupIssues w2.cur k g2) :
    copyChecked kind k ga d r false w2 = .error (.raise (Cause.atWord 0x20 g2.st.pc 0)) := by
  have hr := run_groupRaise (α := Unit) hi2.1 hi2.2 0x20
  unfold copyChecked
  simp only [Bool.not_false, if_true]
  rw [run_bind, hr]

/-- MCOPY of a mask of its gang's positions is the copy with that mask. -/
theorem execMcopy_eq {d b : BitVec 5} {m : Nat} (hi : GangIssues s k g ga) (hm : m = (g.st.get b.toNat).toNat) (h0 : m ≠ 0)
    (hc : m / 2 ^ ga.cores = 0) (hp : Placed48 (g.st.get a.toNat).toNat 8) :
    execMcopy d a b s = perform (copyOp (.multi m) d a) s := by
  obtain ⟨⟨hu, hg⟩, hga⟩ := hi
  obtain ⟨hlt, hmod⟩ := hp
  replace hlt : (g.st.get a.toNat).toNat < 281474976710656 := hlt
  subst hm
  unfold execMcopy perform
  simp only [run_bind, run_myGangGroup (w := ⟨s, []⟩) hu hga, run_groupSreg (w := ⟨s, []⟩) hu hg, run_discard,
    run_myGroup (w := ⟨s, []⟩) hu]
  rw [run_check_none]
  simp [hc, h0, hmod, hlt]

theorem copyWordsIssueAnEntry : CopyWordsIssueAnEntry := by
  intro s k g ga kind d a b h w1 r w2 g2 hi va hp hh h1 h14 hr hi2 hm mk gather pos
  have hmk : exec mk s = perform (copyOp kind d a) s := by
    cases kind with
    | plain => rfl
    | gather => rfl
    | multi m =>
      obtain ⟨hb, h0, hc⟩ := hm m rfl
      exact execMcopy_eq hi hb h0 hc hp
  have hrun := run_copyOp_reads (kind := kind) (d := d) hi rfl hp hh h1 h14 hr
  rw [hmk]
  refine ⟨fun hok hroom hin => perform_after ?_, fun hok hw => perform_groupRaise hi.1 hw ?_⟩
  · rw [hrun, hok, run_copyChecked hi2 hroom hin]
  · rw [hrun, hok, run_copyChecked_raises hi2]

/-! ## Batches (R300 to R302) -/

theorem run_cwaitEnd {w : Work} (hu : w.cur.issuer = some (.group k)) (hg : Tab.find w.cur.groups k = some g) :
    cwaitEnd k true w =
      .ok ((), ⟨(w.cur.dropCore (w.cur.portOf (.group k))).wordDone k g g.st.pc g.st, w.stores⟩) := by
  simp [cwaitEnd, hu, hg, State.wordDone]

theorem copyBatchWordsComplete : CopyBatchWordsComplete := by
  refine ⟨fun s k g d ⟨hu, hg⟩ hs hl => ?_, ?_, ?_⟩
  · refine ⟨(g.batches.sealed ++ [g.batches.opened]).filter (fun b => (g.queue 1).ents.any (fun e => e.batch == b)), ?_, ?_⟩
    · refine perform_of_no_stores ?_ rfl
      have hl' : ¬ 64 ≤ g.sealedLeft.length := Nat.not_le.mpr hl
      simp only [run_bind, run_myGroup (w := ⟨s, []⟩) hu, run_waitSettled (w := ⟨s, []⟩) hu hg hs, run_getGroup (⟨s, []⟩ : Work) hg,
        ge_iff_le, hl', if_false, run_putGroup]
      simp [hu, hg, run_waitSettled (w := ⟨s, []⟩) hu hg hs, hl', State.wordDone, Group.sealedLeft, Group.queue]
    · intro b
      simp only [List.mem_filter, List.mem_append, List.mem_singleton, List.any_eq_true, beq_iff_eq]
  · intro s k g a hi b back
    have ⟨hu, hg⟩ := hi
    refine ⟨fun hb h0 hle hall => ?_, fun hb hle => ?_, fun hw hbad => ?_⟩
    · refine perform_of_no_stores ?_ (by simp [State.wordDone])
      have hall' : (g.sealedLeft.all fun x => decide ((g.batches.opened + 65536 - x) % 65536 < back)) = true := by
        simpa using hall
      have hno : ¬ (65536 ≤ b ∨ back = 0 ∨ 32768 < back) := by omega
      simp only [run_bind, run_myGroup (w := ⟨s, []⟩) hu, run_groupSreg (w := ⟨s, []⟩) hu hg, run_getGroup (⟨s, []⟩ : Work) hg]
      simp only [ge_iff_le, gt_iff_lt, b, back] at *
      simp only [hno, if_false, hall', run_pure, run_cwaitEnd (w := ⟨s, []⟩) hu hg]
    · refine perform_of_no_stores ?_ (by simp [State.wordDone])
      have hb' : b < 4294967296 := hb
      simp [hu, hg, b, hb', hle, run_cwaitEnd (w := ⟨s, []⟩) hu hg, State.wordDone]
    · refine perform_groupRaise hi hw ?_
      simp only [run_bind, run_myGroup (w := ⟨s, []⟩) hu, run_groupSreg (w := ⟨s, []⟩) hu hg, run_getGroup (⟨s, []⟩ : Work) hg]
      simp only [ge_iff_le, gt_iff_lt, b, back] at *
      simp only [hbad, if_true, run_bind, run_groupRaise (w := ⟨s, []⟩) hu hg]
  · intro s k g d a hi gives
    have ⟨hu, hg⟩ := hi
    refine ⟨fun h => ?_, fun h => ?_, fun h => ?_, fun h => ?_, fun h hw => ?_⟩
    iterate 4
      refine perform_of_no_stores ?_ rfl
      simp [hu, hg, h, State.wordDone]
    refine perform_groupRaise hi hw ?_
    obtain ⟨n, hn⟩ : ∃ n, (g.st.get a.toNat).toNat = n + 4 := ⟨_, (Nat.sub_add_cancel h).symm⟩
    simp [hu, hg, hn]

/-- Settles O22: the copy words by the records they read, the batch words by the batches of the group. -/
theorem copyWordsComplete : Obligations.CopyWordsComplete := ⟨copyWordsIssueAnEntry, copyBatchWordsComplete⟩

end

end Sys2Proof.Machine
end

section
/-! SUPPORT. The end of a group and the start of a continuation (R149, R304, R305, R498). -/

namespace Sys2Proof.Machine

open Sys2Proof

/-! ## What the end of a group sets, and what keeps it -/

/-- What the end of a group sets: its flags, its weight and its operand queues. -/
def Group.ends (g : Group) : Bool × Bool × W64 × W64 × Tab OpQ := (g.exited, g.st.ended, g.wgt, g.attach, g.opq)

/-- That of a group by number. -/
def State.endsOf (s : State) (k : Nat) : Option (Bool × Bool × W64 × W64 × Tab OpQ) := (Tab.find s.groups k).map Group.ends

section

variable {s : State}

theorem endsOf_congr {t : State} (h : t.groups = s.groups) (k : Nat) : t.endsOf k = s.endsOf k := by
  rw [State.endsOf, State.endsOf, h]

theorem endsOf_setGroup {j : Nat} {g h : Group} (hj : Tab.find s.groups j = some g) (he : h.ends = g.ends) (k : Nat) :
    (s.setGroup j h).endsOf k = s.endsOf k := by
  rw [State.endsOf, State.endsOf, setGroup_groups, Tab.find_set]
  split
  next hk => rw [hk, hj, Option.map_some, Option.map_some, he]
  · rfl

/-- Tables whose values change by their key, one by one, are searched alike. -/
theorem find_map_val {α : Type} (t : Tab α) (f : Nat × α → Nat × α) (hf : ∀ p, (f p).1 = p.1) (k : Nat) :
    Tab.find (t.map f) k = (Tab.find t k).map (fun a => (f (k, a)).2) := by
  induction t with
  | nil => rfl
  | cons p t ih =>
    obtain ⟨i, a⟩ := p
    have hi := hf (i, a)
    generalize hq : f (i, a) = q at hi
    obtain ⟨j, b⟩ := q
    obtain rfl : j = i := hi
    simp only [List.map_cons, hq, Tab.find]
    split
    next h =>
      subst h
      simp [hq]
    · exact ih

theorem endsOf_mapGroups {t : State} (f : Nat × Group → Nat × Group) (h : t.groups = s.groups.map f)
    (hk : ∀ p, (f p).1 = p.1) (he : ∀ p, (f p).2.ends = p.2.ends) (k : Nat) : t.endsOf k = s.endsOf k := by
  rw [State.endsOf, State.endsOf, h, find_map_val _ _ hk, Option.map_map]
  exact congrArg (Option.map · _) (funext fun g => he (k, g))

theorem endsOf_setStream {u : Who} {st st' : Stream} (hs : s.stream u = some st) (he : st'.ended = st.ended) (k : Nat) :
    (s.setStream u st').endsOf k = s.endsOf k := by
  cases u with
  | ctx c =>
    refine endsOf_congr ?_ k
    unfold State.setStream
    dsimp only
    split <;> rfl
  | group j =>
    obtain ⟨g, hg, rfl⟩ := Option.map_eq_some_iff.mp hs
    rw [setStream_group hg]
    exact endsOf_setGroup hg (by simp [Group.ends, he]) k

theorem endsOf_clearWait (u : Who) (k : Nat) : (s.clearWait u).endsOf k = s.endsOf k := by
  unfold State.clearWait
  split
  · rfl
  next st hs => exact endsOf_setStream hs (by rfl) k

theorem endsOf_park (i n : Nat) (c : Cause) (who : Nat) (f : FaultRec) (k : Nat) : (s.park i n c who f).endsOf k = s.endsOf k := by
  unfold State.park
  split
  · rfl
  · split
    · rfl
    · refine endsOf_mapGroups _ rfl (fun p => ?_) (fun p => ?_) k
      · dsimp only
        split <;> rfl
      · dsimp only
        split <;> rfl

theorem result_ended (st : Stream) (p : SPend) : (st.result p).ended = st.ended := by
  unfold Stream.result
  repeat' split
  all_goals rfl

theorem flush_ended (st : Stream) : st.flush.ended = st.ended := by
  show (st.pend.foldl Stream.result st).ended = st.ended
  generalize st.pend = l
  induction l generalizing st with
  | nil => rfl
  | cons p l ih => rw [List.foldl_cons, ih, result_ended]

theorem endsOf_take (u : Who) (k : Nat) : (s.take u).endsOf k = s.endsOf k := by
  unfold State.take
  split
  · rfl
  next st hs =>
    split
    · rfl
    · dsimp only
      split
      · rfl
      · split
        · rw [endsOf_park]
          exact endsOf_setStream hs (by exact flush_ended st) k
        · exact endsOf_setStream hs (by exact flush_ended st) k

theorem endsOf_settleLanes (u : Who) (k : Nat) : (s.settleLanes u).endsOf k = s.endsOf k := by
  unfold State.settleLanes
  split
  · rfl
  · split
    · rfl
    next g hg => exact endsOf_setGroup hg (by rfl) k

theorem endsOf_takeIf (u : Who) (b : Bool) (k : Nat) : (if b then (s.settleLanes u).take u else s).endsOf k = s.endsOf k := by
  split
  · rw [endsOf_take, endsOf_settleLanes]
  · rfl

theorem endsOf_raise (u : Who) (c : Cause) (k : Nat) : (s.raise u c).endsOf k = s.endsOf k := by
  unfold State.raise
  split
  · rfl
  next st hs =>
    split
    · rfl
    · exact (endsOf_takeIf u _ k).trans (endsOf_setStream hs (by rfl) k)

theorem endsOf_wakeRoot (die root gen issued k : Nat) : (s.wakeRoot die root gen issued).endsOf k = s.endsOf k := by
  refine endsOf_mapGroups _ rfl (fun p => ?_) (fun p => ?_) k
  · dsimp only
    split <;> rfl
  · dsimp only
    split <;> rfl

end

/-- A computation that leaves alone what the ends of groups have set. -/
def Act.KeepsEnds {α : Type} (m : Act α) : Prop := ∀ w a v, m w = .ok (a, v) → ∀ k, v.cur.endsOf k = w.cur.endsOf k

namespace Act.KeepsEnds

variable {α β : Type}

theorem pure (a : α) : KeepsEnds (Pure.pure a : Act α) := by
  rintro w _ _ ⟨⟩ k
  rfl

theorem bind {m : Act α} {f : α → Act β} (hm : KeepsEnds m) (hf : ∀ a, KeepsEnds (f a)) : KeepsEnds (m >>= f) := by
  intro w b v h k
  rw [run_bind] at h
  split at h
  next a u hu => exact (hf a u b v h k).trans (hm w a u hu k)
  · cases h

theorem now : KeepsEnds Machine.now := by
  rintro w _ _ ⟨⟩ k
  rfl

theorem need (o : Option α) : KeepsEnds (Machine.need o) := by
  cases o with
  | none => exact fun w a v h => by cases h
  | some a => exact pure a

theorem upd {f : State → State} (hf : ∀ s k, (f s).endsOf k = s.endsOf k) : KeepsEnds (Machine.upd f) := by
  rintro w _ _ ⟨⟩ k
  exact hf w.cur k

theorem updSame {f : State → State} (hf : ∀ s, (f s).groups = s.groups) : KeepsEnds (Machine.upd f) :=
  upd fun s k => endsOf_congr (hf s) k

theorem modDie (k : Nat) (f : Die → Die) : KeepsEnds (Machine.modDie k f) := by
  refine updSame fun s => ?_
  split <;> rfl

theorem modGroup (j : Nat) {f : Group → Group} (hf : ∀ g, (f g).ends = g.ends) : KeepsEnds (Machine.modGroup j f) := by
  refine upd fun s k => ?_
  split
  · rfl
  next g hg => exact endsOf_setGroup hg (hf g) k

theorem modRoot (root : Nat) (f : Root → Root) : KeepsEnds (Machine.modRoot root f) := modDie _ _

theorem forM {f : α → Act Unit} (hf : ∀ a, KeepsEnds (f a)) (l : List α) : KeepsEnds (l.forM f) := by
  induction l with
  | nil => exact pure ()
  | cons a l ih => exact bind (hf a) fun _ => ih

theorem raiseUnit (u : Who) (c : Cause) : KeepsEnds (Machine.raiseUnit u c) := by
  refine bind ?_ fun _ => upd fun s k => endsOf_raise u c k
  refine bind (bind (fun w a v h => by cases h; exact fun _ => rfl) fun _ => pure _) fun s => ?_
  split
  · exact pure ()
  · refine bind (fun w a v h => by cases h; exact fun _ => rfl) fun _ => upd fun s k => endsOf_clearWait u k

theorem settleRoot (root : Nat) : KeepsEnds (Machine.settleRoot root) := by
  refine bind now fun s => ?_
  split
  · exact pure ()
  · split
    · exact bind (upd fun s k => endsOf_wakeRoot ..) fun _ => bind (updSame fun _ => rfl) fun _ => modRoot _ _
    · exact pure ()

theorem returnWeight (die w : Nat) : KeepsEnds (Machine.returnWeight die w) := by
  unfold Machine.returnWeight
  dsimp only
  split
  · exact pure ()
  · split
    · refine bind now fun s => ?_
      split
      · exact pure ()
      · split
        · exact bind (modRoot _ _) fun _ => settleRoot _
        · exact pure ()
    · refine bind (bind now fun _ => need _) fun d => ?_
      split
      · exact updSame fun _ => rfl
      · split
        · split
          · exact modDie _ _
          · exact bind (bind (modDie _ _) fun _ => bind now fun _ => updSame fun _ => rfl) fun _ => modDie _ _
        · exact modDie _ _

theorem partnerGone (j : Nat) : KeepsEnds (Machine.partnerGone j) := by
  refine bind now fun s => forM (fun x => ?_) _
  split
  · exact pure ()
  · exact bind (modGroup _ fun _ => rfl) fun _ => raiseUnit _ _

theorem exitedHalt (j : Nat) (c : Cause) : KeepsEnds (Machine.exitedHalt j c) := by
  intro w a v h k
  unfold Machine.exitedHalt at h
  cases hg : Tab.find w.cur.groups j with
  | none => simp [getGroup, hg] at h
  | some g =>
    simp [hg] at h
    subst h
    rw [endsOf_congr (setMem_groups ..), endsOf_park]
    exact endsOf_setGroup hg (by rfl) k

end Act.KeepsEnds

section

variable {s : State} {k : Nat} {g : Group}

/-- A group that has ended holds nothing and runs no more. -/
theorem endGroup_ends {w : Work} {g' : Group} (hg : Tab.find s.groups k = some g) (ha : g.adopted = none) {awaits : Bool}
    (he : endGroup k awaits ⟨s, []⟩ = .ok ((), w)) (hg' : Tab.find w.cur.groups k = some g') : g'.ends = (true, true, 0, 0, []) := by
  have hret : retireAdopted k ⟨s, []⟩ = .ok ((), ⟨s, []⟩) := by simp [retireAdopted, hg, ha]
  unfold endGroup at he
  rw [run_bind_ok hret, run_bind_ok (run_getGroup (⟨s, []⟩ : Work) hg), run_bind_ok (run_now _),
    run_bind_ok (run_modGroup (⟨s, []⟩ : Work) hg _)] at he
  have hkeep := (Act.KeepsEnds.returnWeight _ _).bind (fun _ => (Act.KeepsEnds.returnWeight _ _).bind (fun _ =>
    (Act.KeepsEnds.partnerGone k).bind (fun _ => ?_))) _ _ _ he k
  · rw [State.endsOf, hg', State.endsOf, setGroup_groups, Tab.find_set_same] at hkeep
    exact Option.some.inj hkeep
  · split
    · exact Act.KeepsEnds.exitedHalt _ _
    · exact Act.KeepsEnds.pure ()

/-! ## EXIT and CCONT (R149, R304) -/

theorem run_waitExit (w : Work) (hi : GroupIssues w.cur k g) (hr : g.noRun) (ha : g.aldPending = false)
    (hb : (g.queue 9).ents = []) : waitExit k w = .ok ((), w) := by
  simp [waitExit, hi.1, hi.2, hr, ha, hb]

section

variable {ga : Gang} {d a b : BitVec 5} {x r pc rec_ v : Nat} {w : Work}

/-- What CCONT checks of its operands. -/
def contChecks (ga : Gang) (x r pc : Nat) : List (Bool × Nat) :=
  [(decide (x / 2 ^ 33 ≠ 0 ∨ r / 2 ^ 32 ≠ 0), 0x04), (decide (fld x 0 32 ≥ 16 * ga.nbar), 0x04),
    (decide (fld r 0 32 / 128 ≥ 0xFFFF), 0x04), (decide (pc ≥ 2 ^ 48), 0x10),
    (decide (fld x 0 32 % 16 ≠ 0 ∨ r % 128 ≠ 0 ∨ pc % 4 ≠ 0), 0x12),
    (decide (fld r 20 12 ≠ 0) || (spadAt ga (fld r 0 32) 128).isNone, 0x14)]

theorem fld_low_of_lt {x n : Nat} (h : x < 2 ^ n) : fld x 0 n = x := by
  simp [fld, Nat.mod_eq_of_lt h]

theorem contChecks_pass (hx : x < 2 ^ 33) (hr : r % 128 = 0) (hr20 : r < 2 ^ 20) (hrf : r / 128 < 0xFFFF) (hpc : pc < 2 ^ 48)
    (hpc4 : pc % 4 = 0) (hb16 : x % 2 ^ 32 % 16 = 0) (hbar : x % 2 ^ 32 < 16 * ga.nbar) (hs : spadAt ga r 128 = some (0, r)) :
    ∀ c ∈ contChecks ga x r pc, c.1 = false := by
  have hlow : fld r 0 32 = r := fld_low_of_lt (by omega)
  have hhigh : fld r 20 12 = 0 := by rw [fld, Nat.div_eq_of_lt hr20, Nat.zero_mod]
  have hxb : fld x 0 32 = x % 2 ^ 32 := by simp [fld]
  have h1 : x / 2 ^ 33 = 0 := Nat.div_eq_of_lt hx
  have h2 : r / 2 ^ 32 = 0 := Nat.div_eq_of_lt (by omega)
  simp only [contChecks, hlow, hhigh, hxb, h1, h2, hs, List.mem_cons, List.not_mem_nil, or_false, forall_eq_or_imp, forall_eq,
    decide_eq_false_iff_not, ne_eq, not_true_eq_false, Nat.not_le, ge_iff_le, Option.isNone_some, Bool.or_false]
  exact ⟨id, hbar, hrf, hpc, by omega, id⟩

/-- CCONT up to the barrier object: it writes its record, and its weight goes with it. -/
theorem execCcont_eq (hi : GangIssues s k g ga) (hrun : g.noRun) (hald : g.aldPending = false) (hb : (g.queue 9).ents = [])
    (hset : g.settled = true) (hx : (g.st.get a.toNat).toNat = x) (hr : (g.st.get d.toNat).toNat = r)
    (hpc : (g.st.get b.toNat).toNat = pc) (hc : ∀ c ∈ contChecks ga x r pc, c.1 = false)
    (hs : spadAt ga r 128 = some (0, r)) (hm : spadMode ga 0 r 128 = true)
    (hrec : contRecord pc g.attach.toNat g.st g.id.gidx = rec_) {s1 : State}
    (hs1 : (s.store (spadKey (k / 65536) 0 + r) 128 rec_).setGroup k { g with attach := 0 } = s1)
    (hv : Mem.read s1.mem (barKey (k / 65536) (fld x 0 32)) 16 = v) (hfree : fld v 96 16 = 0xFFFF)
    (hend : (do
      if fld v 31 1 ≠ fld x 32 1 then handOff (k / 65536) (r / 128)
      else writeBar (k / 65536) (fld x 0 32) (setFld v 96 16 (r / 128))
      endGroup k true : Act Unit) ⟨s1, [(spadKey (k / 65536) 0 + r, 128, rec_)]⟩ = .ok ((), w)) :
    execCcont d a b s = .next (s.after w) := by
  have ⟨⟨hu, hg⟩, hga⟩ := hi
  refine perform_after ?_
  have hsreg (j : Nat) := run_groupSreg (w := ⟨s, []⟩) hu hg j
  have hspad : writeSpad (k / 65536) r 128 rec_ ⟨s, []⟩ = .ok (.ok (), ⟨s.store (spadKey (k / 65536) 0 + r) 128 rec_,
      [(spadKey (k / 65536) 0 + r, 128, rec_)]⟩) := by
    simp [writeSpad, hga, hs, hm]
  have hbar : readBar (k / 65536) (fld x 0 32) ⟨s1, [(spadKey (k / 65536) 0 + r, 128, rec_)]⟩ =
      .ok (v, ⟨s1, [(spadKey (k / 65536) 0 + r, 128, rec_)]⟩) := by
    simp [readBar, hv]
  have hmod : modGroup k (fun g => { g with attach := 0 }) ⟨s.store (spadKey (k / 65536) 0 + r) 128 rec_,
      [(spadKey (k / 65536) 0 + r, 128, rec_)]⟩ = .ok ((), ⟨s1, [(spadKey (k / 65536) 0 + r, 128, rec_)]⟩) := by
    rw [← hs1]
    exact run_modGroup ⟨s.store (spadKey (k / 65536) 0 + r) 128 rec_, [(spadKey (k / 65536) 0 + r, 128, rec_)]⟩ hg _
  rw [run_bind_ok (run_myGroup (w := ⟨s, []⟩) hu), run_bind_ok (run_myGangGroup (w := ⟨s, []⟩) hu hga)]
  dsimp only
  rw [run_bind_ok (hsreg _), hx, run_bind_ok (hsreg _), hr, run_bind_ok (hsreg _), hpc]
  refine (run_bind_ok (run_check_none hc)).trans ?_
  rw [run_bind_ok (run_waitExit _ hi.1 hrun hald hb), run_bind_ok (run_waitSettled (w := ⟨s, []⟩) hu hg hset),
    run_bind_ok (run_getGroup (⟨s, []⟩ : Work) hg), hrec, run_bind_ok hspad]
  dsimp only
  rw [run_bind_ok hmod, run_bind_ok hbar, if_neg (not_not_intro hfree)]
  exact hend

end

/-- A record is handed over as it stands, and its weight with it. -/
theorem run_handOff {j r c : Nat} {l : List (Nat × Nat × Nat)} {ga : Gang} (hg : Tab.find s.gangs j = some ga) (hr : 128 * c = r) :
    handOff j c ⟨s, l⟩ = .ok ((), ⟨(s.store (spadKey j 0 + r + 8) 8 0).setGang j
      { ga with handoffs := ga.handoffs ++ [Mem.read s.mem (spadKey j 0 + r) 128] }, (spadKey j 0 + r + 8, 8, 0) :: l⟩) := by
  simp [handOff, hr, hg]

theorem find_gangs_of_stored {s1 : State} {h : Group} {i n v j : Nat} {ga : Gang} (hs : (s.store i n v).setGroup k h = s1)
    (hg : Tab.find s.gangs j = some ga) : Tab.find s1.gangs j = some ga := by
  subst hs
  exact hg

theorem groupsEnd : GroupsEnd := by
  refine ⟨?_, ?_, ?_, ?_⟩
  · intro s c x ga ⟨hu, hx, hga⟩
    refine perform_of_no_stores ?_ rfl
    simp [hu, hx, modCtx]
  · intro s k g w hi hr ha hb he
    refine perform_after ?_
    rw [run_bind_ok (run_me _ hi.1)]
    dsimp only
    rw [run_bind_ok (run_waitExit _ hi hr ha hb)]
    exact he
  · intro s k g w g' hg ha he hg'
    simpa only [Group.ends, Prod.mk.injEq] using endGroup_ends hg ha he hg'
  · intro s k g ga d a b w hi hr ha hb hset x r pc bar rec_ s1 v hx hr128 hr20 hrf hpc hpc4 hb16 hbar hs hm hfree
    have hbx : fld x 0 32 = bar := by simp [fld, bar]
    have hc := contChecks_pass (ga := ga) hx hr128 hr20 hrf hpc hpc4 hb16 hbar hs
    have hrec : contRecord pc g.attach.toNat g.st g.id.gidx = rec_ := rfl
    have hs1 : (s.store (spadKey (k / 65536) 0 + r) 128 rec_).setGroup k { g with attach := 0 } = s1 := rfl
    have hv : Mem.read s1.mem (barKey (k / 65536) bar) 16 = v := rfl
    clear_value v s1 rec_
    rw [← hbx] at hv
    have hgo := fun w => execCcont_eq (w := w) hi hr ha hb hset rfl rfl rfl hc hs hm hrec hs1 hv hfree
    refine ⟨fun hph he => hgo w ?_, fun hph y hy he => hgo w ?_⟩
    · have hoff : handOff (k / 65536) (r / 128) ⟨s1, [(spadKey (k / 65536) 0 + r, 128, rec_)]⟩ =
          .ok ((), ⟨(s1.store (spadKey (k / 65536) 0 + r + 8) 8 0).setGang (k / 65536)
            { ga with handoffs := ga.handoffs ++ [Mem.read s1.mem (spadKey (k / 65536) 0 + r) 128] },
            [(spadKey (k / 65536) 0 + r + 8, 8, 0), (spadKey (k / 65536) 0 + r, 128, rec_)]⟩) :=
        run_handOff (s := s1) (find_gangs_of_stored hs1 hi.2) (Nat.mul_div_cancel' (Nat.dvd_of_mod_eq_zero hr128))
      rw [if_pos hph]
      exact (run_bind_ok hoff).trans he
    · rw [if_neg (not_not_intro hph)]
      rw [hbx]
      exact (run_bind_ok hy).trans he

/-! ## The start of a continuation (R305) -/

theorem continuationsStart : ContinuationsStart := by
  intro s gang k ga v old hga hgo hpl hk gk hold hex haw hq fresh s1
  have hold' : Tab.find s.groups (groupKey gang (fld v 640 16)) = some old := hold
  have hq' : (old.queues.all fun q => q.2.ents.isEmpty) = true := by
    simpa using hq
  refine ⟨fun h0 => perform_of_no_stores ?_ rfl, fun h0 => perform_of_no_stores ?_ (by simp [s1, raise_mem])⟩
  · simp [hga, hgo, hpl, hk, gk, hold', hex, haw, hq', h0, s1, fresh]
  · simp [hga, hgo, hpl, hk, gk, hold', hex, haw, hq', h0, s1, fresh]
    exact setMem_of_mem_eq (by simp [raise_mem])

/-- Settles O21: a group ends by EXIT or CCONT, and a record that was handed off starts the next. -/
theorem groupsEndAndContinue : Obligations.GroupsEndAndContinue := ⟨groupsEnd, continuationsStart⟩

end

end Sys2Proof.Machine
end

section
/-! SUPPORT. Weight words (R495, R503 to R508). -/

namespace Sys2Proof.Machine

open Sys2Proof

/-! ## QRET.W under a list of groups that is not ascending

`State.groups` is a list with keys, and `Tab.set` keeps an ascending one ascending. No statement asks that of a state, and in a
list that is not ascending `Tab.set` may list a group a second time, so that the group's own entries fill their pool. -/

/-- A group with n committed entries in queue B, and weight. -/
def crowdedGroup (n : Nat) : Group :=
  { Group.start ⟨0, 0, 0, 0, 0, 0⟩ 0 0 0 1 [] with
    queues := [(9, { Queue.empty with ents := List.replicate n ⟨0, 0, .qretm 0, false, 0, 0, 0, true, 0, none, [], [], [], [], [], [], [], []⟩ })]
    st := { (Group.start ⟨0, 0, 0, 0, 0, 0⟩ 0 0 0 1 []).st with wait := .engine } }

/-- Group 0, listed after group 1, has half of its pool's entries and issues. -/
def crowdedState : State := { State.reset with actor := .scalar 0, groups := [(1, crowdedGroup 0), (0, crowdedGroup 514)] }

theorem crowded_room : crowdedState.roomFor 0 9 = true := by decide +kernel

theorem crowded_full : (crowdedState.setGroup 0 { crowdedGroup 514 with wgt := 0 }).roomFor 0 9 = false := by decide +kernel

/-- QRET.W of all of the weight, in a pool that is full once the weight is given up, is tried again. -/
theorem qretW_waits {s : State} {k : Nat} {g : Group} {d a : BitVec 5} {v : W64} (hi : GroupIssues s k g) (ha : s.actor = .scalar k)
    (hwait : g.st.wait = .engine) (hset : g.settled = true) (hw : g.wgt.toNat ≠ 0) (h0 : (g.st.get a.toNat).toNat = 0)
    (hv : BitVec.ofNat 64 (lessWeight g.wgt.toNat (amtOf g.wgt.toNat)) = v)
    (hfull : (s.setGroup k { g with wgt := v }).roomFor k 9 = false) : execQretW d a s = .next s := by
  have ⟨hu, hg⟩ := hi
  refine perform_stop s (e := .stall) ?_ ?_
  · simp only [run_bind, run_myGroup (w := ⟨s, []⟩) hu, run_groupSreg (w := ⟨s, []⟩) hu hg, h0, run_getGroup (⟨s, []⟩ : Work) hg, hw,
      Nat.not_lt_zero, gt_iff_lt, or_self, if_false, if_true, run_waitSettled (w := ⟨s, []⟩) hu hg hset, hv, run_putGroup, run_discard,
      issueEntry, run_now, hfull, run_guardA, Bool.false_eq_true]
  · simp [State.halted, State.tryAgain, ha, hu, stream_group hg, hwait]

theorem crowded_qretW : exec (.qretW 0 0) crowdedState = .next crowdedState :=
  (exec_qretW ..).trans (qretW_waits (g := crowdedGroup 514) ⟨rfl, rfl⟩ rfl rfl (by decide +kernel) (by decide) (by decide +kernel) (by decide)
    crowded_full)

theorem entryIssued_tick (s : State) (k : Nat) (g : Group) (q : Nat) (op : EOp) (st : Stream) :
    (s.entryIssued k g q op st).tick = s.tick + 1 := rfl

/-- Refutes O24: its clause of QRET.W takes every list of groups. In one that is not ascending, the group that has given up its
weight is listed twice, the pool of queue B is then full, and the word waits though the pool had room. -/
theorem not_weightMovesAndReturns : ¬ Obligations.WeightMovesAndReturns := by
  rintro ⟨-, -, -, hret, -⟩
  have h := hret crowdedState 0 (crowdedGroup 514) 0 0 ⟨rfl, rfl⟩ (by decide +kernel) (by decide) crowded_room (Nat.zero_le _)
  rw [crowded_qretW] at h
  have ht := congrArg State.tick (Host.Outcome.next.inj h)
  rw [entryIssued_tick] at ht
  exact absurd ht (Nat.ne_of_lt (Nat.lt_succ_self _))

end Sys2Proof.Machine
end

section
/-! SUPPORT. The words of instances, priorities, energy, die sets and deques (R483, R485 to R490). -/

namespace Sys2Proof.Machine

open Sys2Proof

section

variable {w : Work} {k : Nat} {g : Group} {ga : Gang} {l : Launch}

/-- A group's register is set. -/
@[simp] theorem run_groupSetSreg (h : w.cur.issuer = some (.group k)) (hg : Tab.find w.cur.groups k = some g) (n v : Nat) :
    setSreg n v w = .ok ((), ⟨w.cur.setGroup k { g with st := g.st.put n (BitVec.ofNat 64 v) }, w.stores⟩) := by
  simp [setSreg, h, hg]

/-- An acquire and a change of a group come in either order. -/
theorem setGroup_dropCore (s : State) (k : Nat) (g : Group) (p : Port) : (s.setGroup k g).dropCore p = (s.dropCore p).setGroup k g := by
  unfold State.dropCore
  rw [setGroup_dies]
  split <;> rfl

/-- The port of a unit goes by its gang, its group's position and its launch's record. -/
theorem portOf_setGroup {s : State} {k : Nat} {g h : Group} (hg : Tab.find s.groups k = some g) (hid : h.id = g.id) (u : Who) :
    (s.setGroup k h).portOf u = s.portOf u := by
  cases u with
  | ctx c => rfl
  | group j =>
    simp only [State.portOf, setGroup_gangOf, setGroup_launchRec, setGroup_groups, Tab.find_set]
    by_cases hj : j = k
    · subst hj
      simp [hg, hid]
    · simp [hj]

theorem portOf_setLaunch {s : State} {j : Nat} {l m : Launch} (hl : Tab.find s.launches j = some l) (hr : m.record = l.record) (u : Who) :
    (s.setLaunch j m).portOf u = s.portOf u := by
  have hrec (i : Nat) : (s.setLaunch j m).launchRec i = s.launchRec i := by
    simp only [State.launchRec, setLaunch_launches, Tab.find_set]
    by_cases hi : i = j
    · subst hi
      simp [hl, hr]
    · simp [hi]
  simp only [State.portOf, setLaunch_gangOf, hrec, setLaunch_groups]

theorem portOf_setInst (s : State) (j : Nat) (i : Inst) (u : Who) : (s.setInst j i).portOf u = s.portOf u := rfl

theorem dieOf_group {s : State} (h : Tab.find s.gangs (k / 65536) = some ga) : s.dieOf k = ga.die := by
  simp [State.dieOf, State.gangOf, Who.gang, h]

theorem instOf_group {s : State} (h : Tab.find s.gangs (k / 65536) = some ga) : s.instOf (.group k) = ga.inst := by
  simp [State.instOf, State.gangOf, Who.gang, h]

theorem run_myLaunch (hi : GangIssues w.cur k g ga) (hl : Tab.find w.cur.launches ga.launch = some l) :
    myLaunch w = .ok ((ga.launch, l), w) := by
  simp [myLaunch, run_myGangGroup (w := w) hi.1.1 hi.2, hl]

theorem isBorrow_eq_false {x : Wait} (h : ∀ y z, x ≠ .borrow y z) : x.isBorrow = false := by
  cases x with
  | borrow y z => exact absurd rfl (h y z)
  | _ => rfl

/-- A word that has waited for no borrow waits until nothing of its group can still raise a cause. -/
theorem run_waitSettledOnce (hi : GroupIssues w.cur k g) (hb : ∀ y z, g.st.wait ≠ .borrow y z) (hs : g.settled = true) :
    waitSettledOnce w = .ok ((), w) := by
  simp [waitSettledOnce, hi.1, hi.2, isBorrow_eq_false hb, run_waitSettled hi.1 hi.2 hs]

theorem run_nodeChecks {v : Nat} (h16 : fld v 16 16 = 0) (hn : fld v 0 16 < l.nodes.length) :
    check (nodeChecks l v) w = .ok ((), w) :=
  run_check_none (by simpa [nodeChecks, h16] using hn)

/-! ## SPAWN, NDONE and STEPB (R483, R485, R486) -/

section

variable {s : State} {a b d : BitVec 5}

theorem spawn_creates {v n y x : Nat} {w1 w2 : Work} {g2 : Group} (hi : GangIssues s k g ga) (hl : Tab.find s.launches ga.launch = some l)
    (hb : ∀ y z, g.st.wait ≠ .borrow y z) (hs : g.settled = true) (hv : (g.st.get a.toNat).toNat = v)
    (hy : (g.st.get b.toNat).toNat = y) (h16 : fld v 16 16 = 0) (hn : fld v 0 16 < l.nodes.length)
    (hp : s.poolOf ga.launch ga.die < 65536) (ht : takeScalar k y ⟨s, []⟩ = .ok (some x, w1))
    (hc : createInst ga.launch (fld v 0 16) (fld v 32 32) ga.die ga.die (BitVec.ofNat 64 x) false w1 = .ok (n, w2))
    (hi2 : GroupIssues w2.cur k g2) :
    execSpawn d a b s = .next (s.after ⟨w2.cur.wordDone k g2 g2.st.pc (g2.st.put d.toNat (BitVec.ofNat 64 n)), w2.stores⟩) := by
  have ⟨⟨hu, hg⟩, hga⟩ := hi
  refine perform_after ?_
  rw [run_bind_ok (run_myGroup (w := ⟨s, []⟩) hu), run_bind_ok (run_myLaunch (w := ⟨s, []⟩) hi hl)]
  dsimp only
  rw [run_bind_ok (run_groupSreg (w := ⟨s, []⟩) hu hg _), hv, run_bind_ok (run_nodeChecks h16 hn),
    run_bind_ok (run_waitSettledOnce (w := ⟨s, []⟩) ⟨hu, hg⟩ hb hs), run_bind_ok (run_now _), dieOf_group hga]
  simp [hu, hg, hp, hy, ht, hc, hi2.1, hi2.2, State.wordDone]

theorem ndone_publishes {x key : Nat} {i : Inst} {g1 : Group} (hi : GangIssues s k g ga) (hl : Tab.find s.launches ga.launch = some l)
    (hr : g.noRun) (hs : g.settled = true) (hx : (g.st.get a.toNat).toNat = x)
    (hkey : (g.st.get b.toNat = 0 ∧ key = ga.inst) ∨ (g.st.get b.toNat = 1 ∧ g.adopted = some key)) (h0 : fld x 2 30 = 0)
    (hins : Tab.find s.insts key = some i) (hm : (8 + fld x 0 2, fld x 32 32) ∈ l.outputs i.node i.index)
    (hp : publish { s.portOf (.group k) with core := none } key (8 + fld x 0 2) (fld x 32 32) ⟨s, []⟩ = .ok (none, w))
    (hi1 : GroupIssues w.cur k g1) :
    execNdone a b s = .next (s.after ⟨w.cur.wordDone k g1 g1.st.pc g1.st, w.stores⟩) := by
  have ⟨⟨hu, hg⟩, hga⟩ := hi
  refine perform_after ?_
  rw [run_bind_ok (run_myGroup (w := ⟨s, []⟩) hu), run_bind_ok (run_groupSreg (w := ⟨s, []⟩) hu hg _), hx,
    run_bind_ok (run_groupSreg (w := ⟨s, []⟩) hu hg _), run_bind_ok (run_getGroup (⟨s, []⟩ : Work) hg),
    run_bind_ok (run_myLaunch (w := ⟨s, []⟩) hi hl)]
  rcases hkey with ⟨hb, rfl⟩ | ⟨hb, hk⟩
  · simp [hb, h0, instOf_group hga, hins, hm, hg, hr, run_waitSettled (w := ⟨s, []⟩) hu hg hs, enginePort, hp, hi1.1, hi1.2, State.wordDone]
  · simp [hb, h0, hk, hins, hm, hg, hr, run_waitSettled (w := ⟨s, []⟩) hu hg hs, enginePort, hp, hi1.1, hi1.2, State.wordDone]

theorem stepb_waits (hi : GroupIssues s k g) (hw : g.st.wait = .none) (ht : g.st.tmode = false) (hr : g.noRun) (hs : g.settled = true) :
    execStepb d s = .next (s.setGroup k { g with st := { g.st.flush with wait := .stepb none } }) := by
  obtain ⟨hu, hg⟩ := hi
  have hset := run_waitSettled (w := ⟨s.setGroup k { g with st := g.st.flush }, []⟩) hu (Tab.find_set_same ..) hs
  have hrun := run_waitRun (w := ⟨s.setGroup k { g with st := g.st.flush }, []⟩) (Tab.find_set_same ..) hr false
  refine perform_of_no_stores ?_ rfl
  simp [hu, hg, hw, ht, hset, hrun]

theorem stepb_released {v : W64} (hi : GroupIssues s k g) (hw : g.st.wait = .stepb (some v)) :
    execStepb d s = .next (s.wordDone k g g.st.pc (g.st.put d.toNat v)) := by
  obtain ⟨hu, hg⟩ := hi
  refine perform_of_no_stores ?_ rfl
  simp [hu, hg, hw, State.wordDone]

/-! ## PRIO, ERD and DIEQ (R487, R488) -/

theorem prio_exchanges {p : Nat} (hi : GangIssues s k g ga) (hp : (g.st.get a.toNat).toNat = p) (hle : p ≤ 63)
    (hpriv : s.privileged (.group k) = true ∨ p ≤ fld (s.nodeRec ga) 248 6) :
    execPrio d a s = .next (s.wordDone k { g with prio := p } g.st.pc (g.st.put d.toNat (BitVec.ofNat 64 g.prio))) := by
  obtain ⟨⟨hu, hg⟩, hga⟩ := hi
  have hok : ¬ (63 < p ∨ s.privileged (.group k) = false ∧ fld (s.nodeRec ga) 248 6 < p) := by
    rintro (h | ⟨h, h'⟩)
    · omega
    · rcases hpriv with h1 | h1
      · simp [h1] at h
      · omega
  refine perform_of_no_stores ?_ rfl
  simp [hu, hg, hga, hp, hok, State.wordDone]

/-- An integer wrapped to 64 bits is the register's value of that integer. -/
theorem ofNat_wrap (v : Int) : BitVec.ofNat 64 (wrap 64 v) = BitVec.ofInt 64 v := by
  refine BitVec.eq_of_toInt_eq ?_
  rw [BitVec.toInt_ofNat', BitVec.toInt_ofInt, wrap, Int.toNat_of_nonneg (Int.emod_nonneg _ (by decide))]
  exact Int.emod_bmod ..

theorem erd_reads {n : Nat} (hi : GangIssues s k g ga) (hn : (g.st.get a.toNat).toNat = n) :
    let e := (s.die ga.die).energy
    let gives := fun (v : Nat) => Host.Outcome.next (s.wordDone k g g.st.pc (g.st.put d.toNat (BitVec.ofNat 64 v)))
    (n = 0 → execErd d a s = gives (wrap 64 e.bal)) ∧
    (n = 1 → execErd d a s = gives (wrap 64 ((e.began : Int) + e.length - (s.die ga.die).clk))) ∧
    (n = 2 → execErd d a s = gives e.budget) ∧
    (n = 4 → execErd d a s = gives (((Tab.find s.insts ga.inst).map (fun i => i.debit)).getD 0)) := by
  obtain ⟨⟨hu, hg⟩, hga⟩ := hi
  intro e gives
  refine ⟨?_, ?_, ?_, ?_⟩
  all_goals
    rintro rfl
    refine perform_of_no_stores ?_ rfl
    simp [hu, hg, hga, hn, e, State.wordDone]

theorem erd_raises (hi : GangIssues s k g ga) (hn : 4 < (g.st.get a.toNat).toNat) (hw : g.st.wait = .none) :
    execErd d a s = .next (s.raise (.group k) (Cause.atWord 0x04 g.st.pc 0)) := by
  have ⟨⟨hu, hg⟩, hga⟩ := hi
  obtain ⟨n, hn⟩ : ∃ n, (g.st.get a.toNat).toNat = n + 5 := ⟨_, (Nat.sub_add_cancel hn).symm⟩
  refine perform_groupRaise ⟨hu, hg⟩ hw ?_
  simp [hu, hg, hga, hn]

theorem dieq_reads {n : Nat} (hi : GangIssues s k g ga) (hl : Tab.find s.launches ga.launch = some l)
    (hn : (g.st.get a.toNat).toNat = n) :
    let gives := fun (v : Nat) => Host.Outcome.next (s.wordDone k g g.st.pc (g.st.put d.toNat (BitVec.ofNat 64 v)))
    (n = 0 → execDieq d a s =
      gives (maskOf l.dieSet + l.dieSet.length * 2 ^ 8 + fld l.record 736 3 * 2 ^ 16 + fld l.record 739 3 * 2 ^ 24)) ∧
    (n = 1 → execDieq d a s = gives (l.tether ga.die).deque.length) ∧
    (∀ j, j < 4 → n = 2 + j → execDieq d a s = gives (if j = ga.die then (l.tether ga.die).deque.length
      else if j ∈ l.dieSet then (Tab.getD (l.tether ga.die).heard j (0, 0, 0)).1 else 0)) := by
  have ⟨⟨hu, hg⟩, hga⟩ := hi
  intro gives
  have hml := run_myLaunch (w := ⟨s, []⟩) hi hl
  refine ⟨?_, ?_, fun j hj => ?_⟩
  · rintro rfl
    refine perform_of_no_stores ?_ rfl
    simp [hu, hg, hn, hml, State.wordDone]
  · rintro rfl
    refine perform_of_no_stores ?_ rfl
    simp [hu, hg, hn, hml, dieOf_group hga, State.wordDone]
  · rintro rfl
    refine perform_of_no_stores ?_ rfl
    have h1 : ¬ 2 + j = 1 := by omega
    have h5 : 2 + j ≤ 5 := by omega
    simp [hu, hg, hn, hml, dieOf_group hga, h1, h5, State.wordDone]

/-! ## BQPUSH and BQPOP (R489, R490) -/

theorem bqpush_appends {va v y xy x n : Nat} {w1 w2 w3 : Work} {g1 g3 : Group} {l3 : Launch} (hi : GangIssues s k g ga)
    (hl : Tab.find s.launches ga.launch = some l) (hb : ∀ y z, g.st.wait ≠ .borrow y z) (hva : (g.st.get a.toNat).toNat = va)
    (hv : (g.st.get b.toNat).toNat = v) (hy : (g.st.get d.toNat).toNat = y) (hp : Placed48 va 64)
    (hlen : (l.tether ga.die).deque.length < 4096) (h16 : fld v 16 16 = 0) (hn : fld v 0 16 < l.nodes.length)
    (hr : readRec va 4 ⟨s, []⟩ = .ok (xy, w1)) (hi1 : GroupIssues w1.cur k g1) (hs : g1.settled = true) (hst : g1.st = g.st)
    (ht : takeScalar k y w1 = .ok (some x, w2))
    (hc : createInst ga.launch (fld v 0 16) (fld v 32 32) ga.die ga.die 0 true w2 = .ok (n, w3)) (hi3 : GroupIssues w3.cur k g3)
    (hl3 : Tab.find w3.cur.launches ga.launch = some l3) :
    execBqpush d a b s = .next (s.after ⟨(w3.cur.setLaunch ga.launch (l3.setTether ga.die (fun t => { t with
      deque := t.deque ++ [⟨fld v 0 16, fld v 32 32, n, fld xy 0 16, fld xy 16 16, va, BitVec.ofNat 64 x⟩] }))).wordDone k g3
        g3.st.pc g3.st, w3.stores⟩) := by
  have ⟨⟨hu, hg⟩, hga⟩ := hi
  obtain ⟨hlt, hmod⟩ := hp
  have hcheck : check ([(decide (va ≥ 2 ^ 48), 0x10), (decide (va % 64 ≠ 0), 0x12),
      (decide ((l.tether ga.die).deque.length ≥ 4096), 0x04)] ++ nodeChecks l v) ⟨s, []⟩ = .ok ((), ⟨s, []⟩) := by
    refine run_check_none fun c hc => ?_
    simp only [nodeChecks, List.cons_append, List.nil_append, List.mem_cons, List.not_mem_nil, or_false] at hc
    rcases hc with rfl | rfl | rfl | rfl | rfl
    all_goals simp only [decide_eq_false_iff_not]; omega
  refine perform_after ?_
  rw [run_bind_ok (run_myGroup (w := ⟨s, []⟩) hu), run_bind_ok (run_myLaunch (w := ⟨s, []⟩) hi hl)]
  dsimp only
  rw [run_bind_ok (run_groupSreg (w := ⟨s, []⟩) hu hg _), hva, run_bind_ok (run_groupSreg (w := ⟨s, []⟩) hu hg _), hv,
    run_bind_ok (run_now _), dieOf_group hga, run_bind_ok hcheck, run_bind_ok hr,
    run_bind_ok (run_waitSettledOnce hi1 (hst ▸ hb) hs), run_bind_ok (run_groupSreg hi1.1 hi1.2 _), hst, hy, run_bind_ok ht]
  have hc' : createInst ga.launch (fld v 0 16) (fld v 32 32) ga.die ga.die (0#64) true w2 = .ok (n, w3) := hc
  simp [hc', hl3, hi3.1, hi3.2, State.wordDone]

theorem taskWords : TaskWords := by
  refine ⟨?_, ?_, ?_, ?_, ?_, ?_, ?_⟩
  · intro s k g ga l d a b x w1 n w2 g2 hi hl hb hs v h16 hn hp ht hc hi2
    exact spawn_creates hi hl hb hs rfl rfl h16 hn hp ht hc hi2
  · intro s k g ga l a b key i w g1 hi hl hr hs x hkey h0 hins hm hp hi1
    exact ndone_publishes hi hl hr hs rfl hkey h0 hins hm hp hi1
  · intro s k g d v hi
    exact ⟨stepb_waits hi, stepb_released hi⟩
  · intro s k g ga d a hi hle hpriv
    exact prio_exchanges hi rfl hle hpriv
  · intro s k g ga d a hi e gives
    obtain ⟨h0, h1, h2, h4⟩ := erd_reads (d := d) hi rfl
    have hput {x y : W64} (h : x = y) : (Host.Outcome.next (s.wordDone k g g.st.pc (g.st.put d.toNat x)) :
        Host.Outcome State Fault Refusal) = .next (s.wordDone k g g.st.pc (g.st.put d.toNat y)) := by rw [h]
    refine ⟨fun h => (h0 (by rw [h]; rfl)).trans (hput (ofNat_wrap _)), fun h => (h1 (by rw [h]; rfl)).trans (hput (ofNat_wrap _)),
      fun h => (h2 (by rw [h]; rfl)).trans (hput (BitVec.ofInt_natCast ..).symm), fun h => (h4 (by rw [h]; rfl)).trans (hput ?_),
      fun h hw => erd_raises hi h hw⟩
    cases Tab.find s.insts ga.inst <;> exact (BitVec.ofInt_natCast ..).symm
  · intro s k g ga l d a hi hl gives
    obtain ⟨h0, h1, h2⟩ := dieq_reads (d := d) hi hl rfl
    exact ⟨fun h => h0 (by rw [h]; rfl), fun h => h1 (by rw [h]; rfl), fun n hn h => h2 n hn h⟩
  · intro s k g ga l d a b xy w1 g1 x w2 n w3 g3 l3 hi hl hb va v hp hlen h16 hn hr hi1 hs hst ht hc hi3 hl3
    exact bqpush_appends hi hl hb rfl rfl rfl hp hlen h16 hn hr hi1 hs hst (hst ▸ ht) hc hi3 hl3

/-- A BQPOP that may pop takes the newest entry, with its weight, and adopts the owner of that entry. -/
theorem bqpop_takes {e : DqEnt} {i : Inst} {v x : Nat} (hi : GangIssues s k g ga) (hl : Tab.find s.launches ga.launch = some l)
    (hw : g.st.wait = .none) (hs : g.settled = true) (had : g.adopted = none) (hx : (g.st.get a.toNat).toNat = x) (hle : x ≤ 1)
    (hd0 : d.toNat ≠ 0) (hd31 : d.toNat ≠ 31) (he : (l.tether ga.die).deque.getLast? = some e)
    (hj : joinWeight g.wgt.toNat e.wgt.toNat = some v) (hins : Tab.find s.insts (instKey ga.launch e.inst) = some i) :
    execBqpop d a s = .next
      ((((s.setLaunch ga.launch (l.setTether ga.die (fun t => { t with
          deque := t.deque.dropLast, lastBx := e.bx, lastBy := e.bk }))).setInst (instKey ga.launch e.inst)
          { i with phase := .running, die := ga.die }).dropCore (s.portOf (.group k))).wordDone k
        { g with wgt := BitVec.ofNat 64 v, adopted := some (instKey ga.launch e.inst) } g.st.pc
        ((g.st.put (d.toNat + 1) (BitVec.ofNat 64 (e.index * 2 ^ 32 + e.node))).put d.toNat (BitVec.ofNat 64 e.brec))) := by
  have ⟨⟨hu, hg⟩, hga⟩ := hi
  have hok : ¬ (1 < x ∨ d.toNat = 0 ∨ d.toNat = 31) := by omega
  refine perform_of_no_stores ?_ (by simp [State.wordDone])
  rw [run_bind_ok (run_myGroup (w := ⟨s, []⟩) hu), run_bind_ok (run_groupSreg (w := ⟨s, []⟩) hu hg _), hx]
  have hport (l1 : Launch) (i1 : Inst) (g1 : Group) (hr : l1.record = l.record) (hid : g1.id = g.id) :
      (((s.setLaunch ga.launch l1).setInst (instKey ga.launch e.inst) i1).setGroup k g1).portOf (.group k) = s.portOf (.group k) := by
    rw [portOf_setGroup (s := (s.setLaunch ga.launch l1).setInst (instKey ga.launch e.inst) i1) hg hid, portOf_setInst, portOf_setLaunch hl hr]
  simp [hok, run_myLaunch (w := ⟨s, []⟩) hi hl, hu, hg, hw, dieOf_group hga, run_waitSettled (w := ⟨s, []⟩) hu hg hs,
    retireAdopted, had, he, hj, hl, hins, hport, Launch.setTether, setGroup_dropCore, put_pc, State.wordDone]

theorem bqpop_empty (hi : GangIssues s k g ga) (hl : Tab.find s.launches ga.launch = some l)
    (hw : g.st.wait = .none) (hs : g.settled = true) (had : g.adopted = none) (hx : (g.st.get a.toNat).toNat = 1)
    (hd0 : d.toNat ≠ 0) (hd31 : d.toNat ≠ 31) (he : (l.tether ga.die).deque = []) :
    execBqpop d a s = .next (s.wordDone k g g.st.pc ((g.st.put (d.toNat + 1) 0).put d.toNat 0)) := by
  have ⟨⟨hu, hg⟩, hga⟩ := hi
  refine perform_of_no_stores ?_ rfl
  simp [hu, hg, hx, hd0, hd31, run_myLaunch (w := ⟨s, []⟩) hi hl, hw, dieOf_group hga, run_waitSettled (w := ⟨s, []⟩) hu hg hs,
    retireAdopted, had, he, popEmpty, put_pc, State.wordDone]

theorem bqpopTakesTheNewestEntry : BqpopTakesTheNewestEntry := by
  refine ⟨?_, ?_⟩
  · intro s k g ga l i d a e v hi hl hw hs had hle hd0 hd31 he hj hins
    exact bqpop_takes hi hl hw hs had rfl hle hd0 hd31 he hj hins
  · intro s k g ga l d a hi hl hw hs had hx hd0 hd31 he
    exact bqpop_empty hi hl hw hs had (by rw [hx]; rfl) hd0 hd31 he

/-- Settles O23: each word by what it reads of its owner, its launch and its die. -/
theorem taskWordsComplete : Obligations.TaskWordsComplete := ⟨taskWords, bqpopTakesTheNewestEntry⟩

end

end

end Sys2Proof.Machine
end

section
/-! SUPPORT. The scalar words of bindings and surfaces (R401, R402, R405, R439 to R442). -/

namespace Sys2Proof.Machine

open Sys2Proof

section

variable {w : Work} {s : State} {k q : Nat} {g : Group} {ga : Gang} {op : EOp} {d a b : BitVec 5}

/-- A word's entry, and its completion. -/
theorem run_issueFinish (hi : GroupIssues w.cur k g) (hr : w.cur.roomFor k q = true) :
    (do discard (issueEntry k q op); finish : Act Unit) w = .ok ((), ⟨w.cur.entryIssued k g q op g.st, w.stores⟩) := by
  simp [run_issueEntry hr hi.2, hi.1, State.entryIssued, State.wordDone]

/-- A word's entry, and its completion with the entry's sequence number. -/
theorem run_issueSeq (hi : GroupIssues w.cur k g) (hr : w.cur.roomFor k q = true) :
    (do finishWith d.toNat (← issueEntry k q op) : Act Unit) w =
      .ok ((), ⟨w.cur.entryIssued k g q op (g.st.put d.toNat (BitVec.ofNat 64 (g.queue q).next.toNat)), w.stores⟩) := by
  simp [run_issueEntry hr hi.2, hi.1, State.entryIssued, State.wordDone]

/-- Checks of an address and of other operands, when all are good. -/
theorem run_checkPlaced {va n : Nat} {cs : List (Bool × Nat)} (hp : Placed48 va n) (hc : ∀ c ∈ cs, c.1 = false) :
    check (cs ++ [(decide (va ≥ 2 ^ 48), 0x10), (decide (va % n ≠ 0), 0x12)]) w = .ok ((), w) := by
  obtain ⟨hlt, hmod⟩ := hp
  refine run_check_none fun c hm => ?_
  rcases List.mem_append.mp hm with hm | hm
  · exact hc c hm
  · simp only [List.mem_cons, List.not_mem_nil, or_false] at hm
    rcases hm with rfl | rfl
    · exact decide_eq_false (Nat.not_le.mpr hlt)
    · exact decide_eq_false (not_not_intro hmod)

/-! ## Bindings (R401, R405) -/

theorem bind_completes {va i r n : Nat} {g1 : Group} {ga1 : Gang} {ok : Bool} {code : Nat} (hi : GangIssues s k g ga)
    (hva : (g.st.get a.toNat).toNat = va) (hx : (g.st.get b.toNat).toNat = i) (hp : Placed48 va 64) (hle : i ≤ 3)
    (hr : readRec va 64 ⟨s, []⟩ = .ok (r, w)) (hi1 : GroupIssues w.cur k g1) (hok : ok = true) {f : Nat → Nat → Gang → Bool × Gang × Nat}
    (hf : f i r ga = (ok, ga1, n)) :
    perform (do
      discard myGroup
      let (n, ga) ← myGang
      let va ← sreg a.toNat
      let i ← sreg b.toNat
      check [(decide (i > 3), 0x04), (decide (va ≥ 2 ^ 48), 0x10), (decide (va % 64 ≠ 0), 0x12)]
      let r ← readRec va 64
      if !(f i r ga).1 then raise code
      putGang n (f i r ga).2.1
      finishWith d.toNat (f i r ga).2.2) s =
    .next (s.after ⟨(w.cur.setGang (k / 65536) ga1).wordDone k g1 g1.st.pc (g1.st.put d.toNat (BitVec.ofNat 64 n)), w.stores⟩) := by
  have ⟨⟨hu, hg⟩, hga⟩ := hi
  have hchk : check [(decide (i > 3), 0x04), (decide (va ≥ 2 ^ 48), 0x10), (decide (va % 64 ≠ 0), 0x12)] ⟨s, []⟩ = .ok ((), ⟨s, []⟩) :=
    run_checkPlaced (cs := [(decide (i > 3), 0x04)]) hp (by simpa using hle)
  refine perform_after ?_
  subst hok
  simp only [run_bind, run_discard, run_myGroup (w := ⟨s, []⟩) hu, run_myGangGroup (w := ⟨s, []⟩) hu hga,
    run_groupSreg (w := ⟨s, []⟩) hu hg, hva, hx, hchk, hr, hf, Bool.not_true, Bool.false_eq_true, if_false]
  simp [hi1.1, hi1.2, State.wordDone]

/-! ## RCFADE (R402) -/

theorem rcfade_issues {i v bvh : Nat} (hi : GangIssues s k g ga) (hs : g.settled = true) (hr : s.roomFor k 5 = true)
    (hx : (g.st.get a.toNat).toNat = i) (hv : (g.st.get b.toNat).toNat = v) (hlt : i < 4) (hb : Tab.find ga.bvh i = some bvh)
    (hlog : bvhRclog bvh ≠ 0) (hfade : fld v 0 9 ≤ 256) (hres : fld v 10 22 = 0) (hno : bit v 9 = false → v < 2 ^ 32)
    (hbar : bit v 9 = true → v / 2 ^ 32 % 16 = 0 ∧ v / 2 ^ 32 < 16 * ga.nbar) :
    execRcfade d a b s = .next (s.entryIssued k g 5 (.rcfade bvh (fld v 0 9) (if bit v 9 then some (v / 2 ^ 32) else none))
      (g.st.put d.toNat (BitVec.ofNat 64 (g.queue 5).next.toNat))) := by
  have ⟨⟨hu, hg⟩, hga⟩ := hi
  refine perform_of_no_stores ?_ rfl
  rw [run_bind_ok (run_myGroup (w := ⟨s, []⟩) hu), run_bind_ok (run_myGangGroup (w := ⟨s, []⟩) hu hga)]
  dsimp only
  rw [run_bind_ok (run_groupSreg (w := ⟨s, []⟩) hu hg _), hx, run_bind_ok (run_groupSreg (w := ⟨s, []⟩) hu hg _), hv, if_pos hlt, hb,
    run_bind_ok (run_check_none ?_), run_bind_ok (run_waitSettled (w := ⟨s, []⟩) hu hg hs), run_bind_ok (run_need_some _ _)]
  · exact run_issueSeq (w := ⟨s, []⟩) ⟨hu, hg⟩ hr
  · cases hbit : bit v 9 with
    | false => simpa [hlog, hfade, hres] using hno hbit
    | true => simpa [hlog, hfade, hres] using hbar hbit

/-! ## Surfaces (R439 to R442) -/

theorem run_surfaceRec {va r : Nat} {known : List (Bool × Nat)} {ofRec : Nat → List (Bool × Nat)} (hi : GroupIssues s k g)
    (hva : (g.st.get a.toNat).toNat = va) (hp : Placed48 va 64) (hr : tryRec (s.portOf (.group k)) va 64 ⟨s, []⟩ = .ok (.ok r, w))
    (hok : sfOk r = true) (hc : ∀ c ∈ known ++ ofRec r, c.1 = false) : surfaceRec a known ofRec ⟨s, []⟩ = .ok (r, w) := by
  have ⟨hu, hg⟩ := hi
  unfold surfaceRec
  rw [run_bind_ok (run_groupSreg (w := ⟨s, []⟩) hu hg _), hva, if_pos ⟨hp.1, hp.2⟩, run_bind_ok (run_check_none (by simp)),
    run_bind_ok (run_myPort (w := ⟨s, []⟩) hu), run_bind_ok hr]
  dsimp only
  rw [if_pos hok, run_bind_ok (run_check_none hc)]
  rfl

section

variable {va v r : Nat} {g1 : Group} (hi : GangIssues s k g ga) (hva : (g.st.get a.toNat).toNat = va)
  (hv : (g.st.get b.toNat).toNat = v) (hp : Placed48 va 64) (hr : tryRec (s.portOf (.group k)) va 64 ⟨s, []⟩ = .ok (.ok r, w))
  (hok : sfOk r = true) (hi1 : GroupIssues w.cur k g1) (hroom : w.cur.roomFor k 7 = true)
include hi hva hv hp hr hok hi1 hroom

theorem xfclr_issues (h : fld v 0 32 + fld v 32 32 ≤ sfTiles r) :
    execXfclr a b s = .next (s.after ⟨w.cur.entryIssued k g1 7 (.xfclr r (fld v 0 32) (fld v 32 32)) g1.st, w.stores⟩) := by
  have ⟨⟨hu, hg⟩, hga⟩ := hi
  refine perform_after ?_
  rw [run_bind_ok (run_myGroup (w := ⟨s, []⟩) hu), run_bind_ok (run_groupSreg (w := ⟨s, []⟩) hu hg _), hv,
    run_bind_ok (run_surfaceRec hi.1 hva hp hr hok (by simpa using h))]
  exact run_issueFinish hi1 hroom

theorem xdcmp_issues (h : v < sfTiles r) :
    execXdcmp a b s = .next (s.after ⟨w.cur.entryIssued k g1 7 (.xdcmp r v) g1.st, w.stores⟩) := by
  have ⟨⟨hu, hg⟩, hga⟩ := hi
  have hlt : v < 2 ^ 24 := Nat.lt_trans h (Nat.mod_lt _ (by decide))
  have hlow : fld v 0 32 = v := fld_low_of_lt (by omega)
  have hhigh : fld v 32 32 = 0 := by rw [fld, Nat.div_eq_of_lt (by omega), Nat.zero_mod]
  refine perform_after ?_
  rw [run_bind_ok (run_myGroup (w := ⟨s, []⟩) hu), run_bind_ok (run_groupSreg (w := ⟨s, []⟩) hu hg _), hv,
    run_bind_ok (run_surfaceRec hi.1 hva hp hr hok (by simpa [hlow, hhigh] using h)), hlow]
  exact run_issueFinish hi1 hroom

theorem xdelta_issues {x : Nat × Nat} (h : fld v 0 32 < sfTiles r) (h4 : fld v 32 32 % 4 = 0)
    (hs : spadAt ga (fld v 32 32) 256 = some x) :
    execXdelta d a b s = .next (s.after ⟨w.cur.entryIssued k g1 7 (.xdelta r (fld v 0 32) (fld v 32 32) (g.st.get d.toNat)) g1.st,
      w.stores⟩) := by
  have ⟨⟨hu, hg⟩, hga⟩ := hi
  refine perform_after ?_
  rw [run_bind_ok (run_myGroup (w := ⟨s, []⟩) hu), run_bind_ok (run_myGangGroup (w := ⟨s, []⟩) hu hga)]
  dsimp only
  rw [run_bind_ok (run_groupSreg (w := ⟨s, []⟩) hu hg _), hv, run_bind_ok (run_groupSreg (w := ⟨s, []⟩) hu hg _),
    run_bind_ok (run_surfaceRec hi.1 hva hp hr hok (by simpa [hs, h4] using h)), BitVec.ofNat_toNat, BitVec.setWidth_eq]
  exact run_issueFinish hi1 hroom

end

/-- Settles O25: each word by the record it reads and the operands it checks. -/
theorem bindingsAndSurfaceWordsComplete : Obligations.BindingsAndSurfaceWordsComplete := by
  refine ⟨?_, ?_, ?_⟩
  · intro s k g ga d a b r w g1 hi va i gives hp hle hr hi1
    exact ⟨fun hok => bind_completes hi rfl rfl hp hle hr hi1 hok
        (f := fun i r ga => (bvhOk r, { ga with bvh := Tab.set ga.bvh i r }, bvhNtri r)) rfl,
      fun hok => bind_completes hi rfl rfl hp hle hr hi1 hok
        (f := fun i r ga => (texOk r, { ga with tex := Tab.set ga.tex i r }, texLvm1 r + 1)) rfl⟩
  · intro s k g ga d a b bvh hi hs hr i v hlt hb hlog hfade hres hno hbar
    exact rcfade_issues hi hs hr rfl rfl hlt hb hlog hfade hres hno hbar
  · intro s k g ga d a b r w g1 hi va v hp hr hok hi1 hroom gives
    exact ⟨fun h => xfclr_issues hi rfl rfl hp hr hok hi1 hroom h, fun h => xdcmp_issues hi rfl rfl hp hr hok hi1 hroom h,
      fun h h4 ⟨_, hs⟩ => xdelta_issues hi rfl rfl hp hr hok hi1 hroom h h4 hs⟩

end

end Sys2Proof.Machine
end

section
/-! SUPPORT. The scalar words of Carillon and of the control core (R317 to R323, R456 to R460). -/

namespace Sys2Proof.Machine

open Sys2Proof

/-! ## Carillon (R456 to R460) -/

section

variable {s : State} {w : Work} {k : Nat} {g g1 : Group} {ga : Gang} {d a b : BitVec 5}

theorem ktwin_issues {v : Nat} (hi : GroupIssues s k g) (hr : s.roomFor k 8 = true) (hv : (g.st.get a.toNat).toNat = v)
    (h16 : 16 ≤ v) (hle : v ≤ 1024) :
    execKtwin d a s = .next (s.entryIssued k g 8 (.ktwin v) (g.st.put d.toNat (BitVec.ofNat 64 (g.queue 8).next.toNat))) := by
  have ⟨hu, hg⟩ := hi
  refine perform_of_no_stores ?_ rfl
  rw [run_bind_ok (run_myGroup (w := ⟨s, []⟩) hu), run_bind_ok (run_groupSreg (w := ⟨s, []⟩) hu hg _), hv,
    run_bind_ok (run_check_none (by simp; omega))]
  exact run_issueSeq (w := ⟨s, []⟩) hi hr

theorem krst_issues {v : Nat} (hi : GroupIssues s k g) (hr : s.roomFor k 8 = true) (hv : (g.st.get a.toNat).toNat = v)
    (hpos : 0 < v) (hlt : v < 4) : execKrst a s = .next (s.entryIssued k g 8 (.krst (bit v 0) (bit v 1)) g.st) := by
  have ⟨hu, hg⟩ := hi
  refine perform_of_no_stores ?_ rfl
  rw [run_bind_ok (run_myGroup (w := ⟨s, []⟩) hu), run_bind_ok (run_groupSreg (w := ⟨s, []⟩) hu hg _), hv,
    run_bind_ok (run_check_none (by simp; omega))]
  exact run_issueFinish (w := ⟨s, []⟩) hi hr

theorem ktwin_raises (hi : GroupIssues s k g) (hw : g.st.wait = .none)
    (hv : (g.st.get a.toNat).toNat < 16 ∨ 1024 < (g.st.get a.toNat).toNat) :
    execKtwin d a s = .next (s.raise (.group k) (Cause.atWord 0x91 g.st.pc 0)) := by
  have ⟨hu, hg⟩ := hi
  refine perform_groupRaise hi hw ?_
  simp [hu, hg, hv, check, leastOf]

theorem kpeal_issues {src v st : Nat} {x : Nat × Nat} {cells : List Nat} (hi : GangIssues s k g ga)
    (hsrc : (g.st.get a.toNat).toNat = src) (hv : (g.st.get b.toNat).toNat = v) (hlt : src < 2 ^ 32) (h64 : src % 64 = 0)
    (h4 : fld v 4 4 = 0) (h9 : fld v 9 23 = 0) (hno : bit v 8 = false → v < 2 ^ 32)
    (hbar : bit v 8 = true → v / 2 ^ 32 % 16 = 0 ∧ v / 2 ^ 32 < 16 * ga.nbar) (hx : spadAt ga src 4096 = some x)
    (hm : spadMode ga x.1 x.2 4096 = true) (hp : pealSectors (k / 65536) 128 src ⟨s, []⟩ = .ok (.ok (cells, st), w))
    (hst : st / 16 ≠ 3) (hcells : cells.all cellOk = true) (hi1 : GroupIssues w.cur k g1) (hr : w.cur.roomFor k 8 = true) :
    execKpeal d a b s = .next (s.after ⟨w.cur.entryIssued k g1 8
      (.kpeal src (fld v 0 4) (if bit v 8 then some (v / 2 ^ 32) else none))
      (g1.st.put d.toNat (BitVec.ofNat 64 (g1.queue 8).next.toNat)), w.stores⟩) := by
  have ⟨⟨hu, hg⟩, hga⟩ := hi
  have hlt' : src < 4294967296 := hlt
  have hgood : ∀ c ∈ [(decide (src ≥ 2 ^ 32), 0x04), (decide (fld v 4 4 ≠ 0 ∨ fld v 9 23 ≠ 0), 0x04),
      (!bit v 8 && decide (v / 2 ^ 32 ≠ 0), 0x04), (decide (src % 64 ≠ 0), 0x12), (bit v 8 && decide (v / 2 ^ 32 % 16 ≠ 0), 0x12),
      (bit v 8 && decide (v / 2 ^ 32 ≥ 16 * ga.nbar), 0x04), ((some x).isNone, 0x14),
      (!((some x).map (fun x => spadMode ga x.1 x.2 4096)).getD true, 0x15)], c.1 = false := by
    cases hbit : bit v 8 with
    | false => simpa [hlt', h64, h4, h9, hm] using hno hbit
    | true => simpa [hlt', h64, h4, h9, hm] using hbar hbit
  refine perform_after ?_
  rw [run_bind_ok (run_myGroup (w := ⟨s, []⟩) hu), run_bind_ok (run_myGangGroup (w := ⟨s, []⟩) hu hga)]
  dsimp only
  rw [run_bind_ok (run_groupSreg (w := ⟨s, []⟩) hu hg _), hsrc, run_bind_ok (run_groupSreg (w := ⟨s, []⟩) hu hg _), hv, hx,
    run_bind_ok (run_check_none fun c hc => hgood c (List.mem_filter.mp hc).1), if_neg (by simp), run_bind_ok hp]
  dsimp only
  rw [if_neg hst, run_bind_ok (run_check_none fun c hc => (List.mem_append.mp hc).elim (hgood c) fun h => by simp_all)]
  exact run_issueSeq hi1 hr

theorem kwait_completes {n back : Nat} (hi : GroupIssues s k g) (hn : (g.st.get a.toNat).toNat = n)
    (hback : ((g.queue 8).next.toNat + 65536 - n) % 65536 = back) (hlt : n < 65536) (hpos : 0 < back) (hhalf : back < 32768)
    (hall : ∀ e ∈ (g.queue 8).ents, e.seq.toNat ≠ n) :
    execKwait d a s = .next (s.wordDone k g g.st.pc (g.st.put d.toNat (BitVec.ofNat 64 g.kvec.sts.last.toNat))) := by
  have ⟨hu, hg⟩ := hi
  have hany : ((g.queue 8).ents.any fun e => e.seq.toNat == n) = false := by
    simpa using hall
  refine perform_of_no_stores ?_ rfl
  rw [run_bind_ok (run_myGroup (w := ⟨s, []⟩) hu), run_bind_ok (run_groupSreg (w := ⟨s, []⟩) hu hg _), hn,
    run_bind_ok (run_getGroup (⟨s, []⟩ : Work) hg), Nat.mod_eq_of_lt hlt, hback, run_bind_ok (run_check_none (by simp; omega)), hany]
  simp [hu, hg, State.wordDone]

theorem kstat_reads {n : Nat} (hi : GangIssues s k g ga) (hn : (g.st.get a.toNat).toNat = n) :
    let gives := fun (g1 : Group) (v : Nat) => Host.Outcome.next (s.wordDone k g1 g.st.pc (g.st.put d.toNat (BitVec.ofNat 64 v)))
    (n = 0 → execKstat d a s = gives g ((g.queue 8).mark.toNat + (g.queue 8).next.toNat * 2 ^ 16)) ∧
    (n = 1 → execKstat d a s = gives g (fld g.kvec.sts.sticky 1 10 * 2)) ∧
    (n = 2 → execKstat d a s = gives g g.kvec.sts.last.toNat) ∧
    (n = 3 → execKstat d a s = gives { g with kvec := { g.kvec with sts := ⟨0, 0⟩ } } (fld g.kvec.sts.sticky 1 10 * 2)) ∧
    (n = 4 → execKstat d a s = gives g ((s.carillon ga).twin + (s.carillon ga).loaded * 2 ^ 16)) := by
  have ⟨⟨hu, hg⟩, hga⟩ := hi
  intro gives
  refine ⟨?_, ?_, ?_, ?_, ?_⟩
  all_goals
    rintro rfl
    refine perform_of_no_stores ?_ rfl
    simp [hu, hg, hga, hn, modVectors, State.wordDone]

theorem kstat_raises (hi : GangIssues s k g ga) (hw : g.st.wait = .none) (hn : 4 < (g.st.get a.toNat).toNat) :
    execKstat d a s = .next (s.raise (.group k) (Cause.atWord 0x04 g.st.pc 0)) := by
  have ⟨⟨hu, hg⟩, hga⟩ := hi
  obtain ⟨n, hn⟩ : ∃ n, (g.st.get a.toNat).toNat = n + 5 := ⟨_, (Nat.sub_add_cancel hn).symm⟩
  refine perform_groupRaise hi.1 hw ?_
  simp [hu, hg, hga, hn]

end

theorem carillonWordsComplete : CarillonWordsComplete := by
  refine ⟨?_, ?_, ?_, ?_, ?_⟩
  · intro s k g d a hi hr v
    exact ⟨ktwin_issues hi hr rfl, krst_issues hi hr rfl⟩
  · intro s k g d a hi hw hv
    exact ktwin_raises hi hw hv
  · intro s k g ga d a b x cells st w g1 hi src v hlt h64 h4 h9 hno hbar hx hm hp hst hcells hi1 hr
    exact kpeal_issues hi rfl rfl hlt h64 h4 h9 hno hbar hx hm hp hst hcells hi1 hr
  · intro s k g d a hi b back hlt hpos hhalf hall
    exact kwait_completes hi rfl rfl hlt hpos hhalf hall
  · intro s k g ga d a hi q c gives
    obtain ⟨h0, h1, h2, h3, h4⟩ := kstat_reads (d := d) hi rfl
    exact ⟨fun h => h0 (by rw [h]; rfl), fun h => h1 (by rw [h]; rfl), fun h => h2 (by rw [h]; rfl),
      fun h => h3 (by rw [h]; rfl), fun h => h4 (by rw [h]; rfl), fun h hw => kstat_raises hi hw h⟩

/-! ## The control core (R317 to R323) -/

/-- A computation over a list answers where each of its steps answers and keeps what the next one needs. -/
theorem forM_answers {α : Type} {P : Work → Prop} {f : α → Act Unit} (hf : ∀ a w, P w → ∃ v, f a w = .ok ((), v) ∧ P v) (l : List α)
    {w : Work} (h : P w) : ∃ v, l.forM f w = .ok ((), v) ∧ P v := by
  induction l generalizing w with
  | nil => exact ⟨w, rfl, h⟩
  | cons a l ih =>
    obtain ⟨u, hu, hp⟩ := hf a w h
    obtain ⟨v, hv, hq⟩ := ih hp
    exact ⟨v, (run_bind_ok hu).trans hv, hq⟩

/-- A context that issues stands with its gang, whatever its engines have done. -/
def CtxStands (c : Nat) (st : Stream) (w : Work) : Prop :=
  w.cur.issuer = some (.ctx c) ∧ (∃ y, Tab.find w.cur.ctxs c = some y ∧ y.st = st) ∧ ∃ ga, Tab.find w.cur.gangs c = some ga

section

variable {c : Nat} {st : Stream} {w : Work}

theorem CtxStands.modMatrix (h : CtxStands c st w) (f : Nat) (m : Matrix → Matrix) :
    ∃ v, modMatrix c f m w = .ok ((), v) ∧ CtxStands c st v := by
  obtain ⟨hu, hc, ga, hga⟩ := h
  refine ⟨_, run_modGang w hga _, ?_⟩
  exact ⟨hu, hc, _, Tab.find_set_same ..⟩

/-- The engine takes a bank, whose words it may have held before. -/
theorem takeBank_answers (h : CtxStands c st w) (f : Nat) : ∃ v, (do
    let m := (← getGang c).matrixOf f
    if !m.kept then upd (fun s => s.rewrite (Sram.ofBank c f (1 - m.filling)))
    modMatrix c f Matrix.take : Act Unit) w = .ok ((), v) ∧ CtxStands c st v := by
  obtain ⟨hu, hc, ga, hga⟩ := h
  rw [run_bind_ok (run_getGang w hga)]
  cases (ga.matrixOf f).kept with
  | true => exact CtxStands.modMatrix ⟨hu, hc, ga, hga⟩ f _
  | false => exact CtxStands.modMatrix (w := ⟨(w.cur.rewrite _).setMem w.cur.mem, w.stores⟩) ⟨hu, hc, ga, hga⟩ f _

theorem CtxStands.modQueue (h : CtxStands c st w) (f : Ctx → Queue) :
    ∃ v, modCtx c (fun x => { x with queue := f x }) w = .ok ((), v) ∧ CtxStands c st v := by
  obtain ⟨hu, ⟨y, hy, hst⟩, hga⟩ := h
  refine ⟨_, run_modCtx w hy _, hu, ⟨_, Tab.find_set_same .., hst⟩, hga⟩

/-- The engine takes the banks that are ready, and the context stands as before. -/
theorem takeBanks_answers (h : CtxStands c st w) : ∃ v, takeBanks c w = .ok ((), v) ∧ CtxStands c st v := by
  obtain ⟨hu, ⟨y, hy, hst⟩, ga, hga⟩ := h
  have h : CtxStands c st w := ⟨hu, ⟨y, hy, hst⟩, ga, hga⟩
  unfold takeBanks
  simp only [run_bind, run_now, hy]
  cases hq : y.queue.ents with
  | nil => exact ⟨w, rfl, h⟩
  | cons e rest =>
    dsimp only
    cases hop : e.op
    case mma bcast k r tile keep =>
      dsimp only
      rw [run_bind_ok (run_getGang w hga)]
      obtain ⟨v, hv, hs⟩ := forM_answers (fun f w hw => takeBank_answers hw f)
        ((feedersOf bcast r).filter fun f => !(Tab.find e.reads f).isSome && (ga.matrixOf f).canFeed (shM r)) h
      rw [run_bind_ok hv]
      exact hs.modQueue _
    all_goals exact ⟨w, rfl, h⟩

theorem CtxStands.stream (h : CtxStands c st w) : w.cur.stream (.ctx c) = some st := by
  obtain ⟨-, ⟨y, hy, rfl⟩, -⟩ := h
  exact stream_ctx hy

end

@[simp] theorem setViews_st (x : Ctx) (r : Nat) (f : Nat → View → View) : (x.setViews r f).st = x.st := rfl

section

variable {s : State} {w : Work} {c : Nat} {x : Ctx} {ga : Gang} {d a b k sl : BitVec 5}

theorem run_myCtx (hi : CtxIssues w.cur c x ga) : myCtx w = .ok ((c, x, ga), w) := by
  obtain ⟨hu, hx, hga⟩ := hi
  simp [myCtx, hu, hx, hga]

theorem run_ctxSreg (hi : CtxIssues w.cur c x ga) (n : Nat) : sreg n w = .ok ((x.st.get n).toNat, w) :=
  run_unitSreg hi.1 (stream_ctx hi.2.1) n

theorem run_loadedSlot {i r : Nat} (hle : i ≤ 3) (hr : x.slot i = some r) : loadedSlot x i w = .ok (r, w) := by
  simp [loadedSlot, Nat.not_lt.mpr hle, hr]

/-- A word of the control core that issues an entry: the entry stands in the queue, the head takes its banks, and the word
completes. -/
theorem issueCtx_answers {op : EOp} {f : Ctx → Ctx} (hi : CtxIssues s c x ga) (hr : s.ctxRoom c x ga = true) (hf : (f x).st = x.st) :
    ∃ v, takeBanks c ⟨s.setCtx c ((f x).issued op), []⟩ = .ok ((), v) ∧
      issueCtx op f ⟨s, []⟩ = .ok ((), ⟨v.cur.unitDone (.ctx c) x.st.pc x.st, v.stores⟩) := by
  obtain ⟨v, hv, hs⟩ := takeBanks_answers (c := c) (st := x.st) (w := ⟨s.setCtx c ((f x).issued op), []⟩)
    ⟨hi.1, ⟨_, Tab.find_set_same .., hf⟩, ga, hi.2.2⟩
  refine ⟨v, hv, ?_⟩
  unfold issueCtx
  rw [run_bind_ok (run_myCtx (w := ⟨s, []⟩) hi)]
  simp only [run_bind, run_now, hr, run_guardA, if_true, run_putCtx, hv]
  exact run_unitFinish hs.1 hs.stream

/-- A word whose run ends with the issue of an entry. -/
theorem perform_issueCtx {m : Act Unit} {op : EOp} {f : Ctx → Ctx} (hi : CtxIssues s c x ga) (hr : s.ctxRoom c x ga = true)
    (hf : (f x).st = x.st) (hm : m ⟨s, []⟩ = issueCtx op f ⟨s, []⟩) :
    ∃ v, Answers (takeBanks c) ⟨s.setCtx c ((f x).issued op), []⟩ () v ∧
      perform m s = .next (s.after ⟨v.cur.unitDone (.ctx c) x.st.pc x.st, v.stores⟩) := by
  obtain ⟨v, hv, hrun⟩ := issueCtx_answers (op := op) hi hr hf
  exact ⟨v, hv, perform_after (hm.trans hrun)⟩

theorem mshape_loads {va base r r1 : Nat} (hi : CtxIssues s c x ga) (hva : (x.st.get a.toNat).toNat = va)
    (hb : (x.st.get b.toNat).toNat = base) (hsl : sl.toNat ≤ 3) (hp : Placed48 va 8) (hr : readRec va 64 ⟨s, []⟩ = .ok (r, w))
    (hadd : addBase r base = some r1) (hok : matOk r1 = true) (hm : shCmask r / 2 ^ ga.cores = 0) (hu : w.cur.issuer = some (.ctx c)) :
    execMshape sl a b s = .next (s.after ⟨(w.cur.setCtx c { x with slots := Tab.set x.slots sl.toNat r1 }).unitDone (.ctx c)
      x.st.pc x.st, w.stores⟩) := by
  refine perform_after ?_
  rw [run_bind_ok (run_myCtx (w := ⟨s, []⟩) hi)]
  dsimp only
  rw [run_bind_ok (run_ctxSreg (w := ⟨s, []⟩) hi _), hva, run_bind_ok (run_ctxSreg (w := ⟨s, []⟩) hi _), hb]
  refine (run_bind_ok (run_checkPlaced (cs := [(decide (sl.toNat > 3), 0x04)]) hp (by simpa using hsl))).trans ?_
  rw [run_bind_ok hr, hadd]
  dsimp only
  rw [run_bind_ok (run_check_none (by simp [hok, hm])), run_bind_ok (run_putCtx ..)]
  exact run_unitFinish (w := ⟨w.cur.setCtx c { x with slots := Tab.set x.slots sl.toNat r1 }, w.stores⟩) hu
    (setCtx_stream ..)

theorem mloadb_run {r v : Nat} (hi : CtxIssues s c x ga) (hsl : sl.toNat ≤ 3) (hr : x.slot sl.toNat = some r)
    (hv : (x.st.get b.toNat).toNat = v) (hk : k.toNat ≤ 3) (ha : (shBbase r + v) % 2 ^ 64 % matSize (shBfmt r) = 0) :
    (do
      let (_, c, _) ← myCtx
      let off ← sreg b.toNat
      if k.toNat > 3 then raise 0x04
      let r ← loadedSlot c sl.toNat
      let base := (shBbase r + off) % 2 ^ 64
      if base % matSize (shBfmt r) ≠ 0 then raise 0x12
      issueCtx (.mloadb k.toNat r off) (fun c =>
        c.setViews r (fun _ v => { v with tiles := Tab.set v.tiles k.toNat (shK r, shN r, shBfmt r) })) : Act Unit) ⟨s, []⟩ =
    issueCtx (.mloadb k.toNat r v) (fun c =>
      c.setViews r (fun _ u => { u with tiles := Tab.set u.tiles k.toNat (shK r, shN r, shBfmt r) })) ⟨s, []⟩ := by
  rw [run_bind_ok (run_myCtx (w := ⟨s, []⟩) hi)]
  dsimp only
  rw [run_bind_ok (run_ctxSreg (w := ⟨s, []⟩) hi _), hv, if_neg (Nat.not_lt.mpr hk), run_bind_ok (run_loadedSlot hsl hr),
    if_neg (not_not_intro ha)]

theorem multiply_run {bcast : Bool} {r v : Nat} (hi : CtxIssues s c x ga) (hsl : sl.toNat ≤ 3) (hr : x.slot sl.toNat = some r)
    (hv : (x.st.get b.toNat).toNat = v) (hk : k.toNat ≤ 7) (h8 : v < 8)
    (hc : ∀ y ∈ namedCores r, Tab.find (x.viewOf y.2).tiles (v % 4) = some (shK r, shN r, shBfmt r) ∧
      ∀ z ∈ if shAccdis r then spanChecks (x.viewOf y.2) k.toNat r else chainChecks (x.viewOf y.2) k.toNat r, z.1 = false) :
    multiply bcast k sl b ⟨s, []⟩ = issueCtx (.mma bcast k.toNat r (v % 4) (bit v 2)) (fun c =>
      if shAccdis r then c.setViews r (fun j v => { v with accs := Tab.set v.accs k.toNat (accOf r j) }) else c) ⟨s, []⟩ := by
  have hops : ¬ (k.toNat > 7 ∨ v / 8 ≠ 0) := by omega
  unfold multiply
  rw [run_bind_ok (run_myCtx (w := ⟨s, []⟩) hi)]
  dsimp only
  rw [run_bind_ok (run_ctxSreg (w := ⟨s, []⟩) hi _), hv, run_bind_ok (run_check_none (by simpa using hops)),
    run_bind_ok (run_loadedSlot hsl hr), run_bind_ok (run_check_none fun z hz => ?_)]
  obtain ⟨y, hy, hz⟩ := List.mem_flatMap.mp hz
  obtain ⟨htile, hrest⟩ := hc y hy
  rcases List.mem_cons.mp hz with rfl | hz
  · simp [htile]
  · exact hrest z hz

theorem mzero_run {r v : Nat} (hi : CtxIssues s c x ga) (hsl : sl.toNat ≤ 3) (hr : x.slot sl.toNat = some r)
    (hv : (x.st.get b.toNat).toNat = v) (hk : k.toNat ≤ 7) (h2 : v < 2)
    (hc : bit v 0 = false → ∀ y ∈ namedCores r, ∀ z ∈ spanChecks (x.viewOf y.2) k.toNat r, z.1 = false) :
    (do
      let (_, c, _) ← myCtx
      let x ← sreg b.toNat
      check [(decide (k.toNat > 7 ∨ x / 2 ≠ 0), 0x04)]
      let r ← loadedSlot c sl.toNat
      let free := bit x 0
      if !free then check ((namedCores r).flatMap (fun y => spanChecks (c.viewOf y.2) k.toNat r))
      issueCtx (.mzero k.toNat r free) (fun c => c.setViews r (fun j v =>
        { v with accs := if free then Tab.del v.accs k.toNat else Tab.set v.accs k.toNat (accOf r j) })) : Act Unit) ⟨s, []⟩ =
    issueCtx (.mzero k.toNat r (bit v 0)) (fun c => c.setViews r (fun j u =>
      { u with accs := if bit v 0 then Tab.del u.accs k.toNat else Tab.set u.accs k.toNat (accOf r j) })) ⟨s, []⟩ := by
  have hops : ¬ (k.toNat > 7 ∨ v / 2 ≠ 0) := by omega
  rw [run_bind_ok (run_myCtx (w := ⟨s, []⟩) hi)]
  dsimp only
  rw [run_bind_ok (run_ctxSreg (w := ⟨s, []⟩) hi _), hv, run_bind_ok (run_check_none (by simpa using hops)),
    run_bind_ok (run_loadedSlot hsl hr)]
  cases hb : bit v 0 with
  | true => rfl
  | false =>
    refine run_bind_ok (run_check_none fun z hz => ?_)
    obtain ⟨y, hy, hz⟩ := List.mem_flatMap.mp hz
    exact hc hb y hy z hz

/-- A context that is put back as it stands changes nothing that its completion does not change. -/
theorem unitDone_setCtx (hx : Tab.find s.ctxs c = some x) (pc : Nat) (st : Stream) :
    (s.setCtx c x).unitDone (.ctx c) pc st = s.unitDone (.ctx c) pc st := by
  simp [State.unitDone, setStream_ctx hx, setStream_ctx (s := s.setCtx c x) (Tab.find_set_same ..)]

theorem mstat_reads {sel v : Nat} (hi : CtxIssues s c x ga) (hsel : (x.st.get b.toNat).toNat = sel) (hv : (x.st.get a.toNat).toNat = v) :
    let gives := fun (y : Ctx) (n : Nat) => Host.Outcome.next
      ((s.setCtx c y).unitDone (.ctx c) x.st.pc (x.st.put d.toNat (BitVec.ofNat 64 n)))
    let sticky := fld x.sts.sticky 1 10 * 2
    (sel = 0 → execMstat d a b s = gives x (x.queue.mark.toNat + x.queue.next.toNat * 2 ^ 16)) ∧
    (sel = 1 → execMstat d a b s = gives x sticky) ∧
    (sel = 2 → execMstat d a b s = gives x x.sts.last.toNat) ∧
    (sel = 3 → execMstat d a b s = gives { x with sts := ⟨0, 0⟩ } sticky) ∧
    (sel = 4 → (v = 0xFFFFFFFF ∨ (v % 16 = 0 ∧ v < 16 * ga.nbar ∧ v < 2 ^ 32)) →
      execMstat d a b s = gives { x with mrb := BitVec.ofNat 32 v } x.mrb.toNat) := by
  intro gives sticky
  have hset (y : Ctx) (hy : y.st = x.st) (n : Nat) : (do putCtx c y; finishWith d.toNat n : Act Unit) ⟨s, []⟩ =
      .ok ((), ⟨(s.setCtx c y).unitDone (.ctx c) x.st.pc (x.st.put d.toNat (BitVec.ofNat 64 n)), []⟩) := by
    rw [run_bind_ok (run_putCtx ..), ← hy]
    exact run_unitFinishWith (w := ⟨s.setCtx c y, []⟩) hi.1 (setCtx_stream ..) d.toNat n
  have hkeep (n : Nat) : (finishWith d.toNat n : Act Unit) ⟨s, []⟩ =
      .ok ((), ⟨(s.setCtx c x).unitDone (.ctx c) x.st.pc (x.st.put d.toNat (BitVec.ofNat 64 n)), []⟩) := by
    have h := run_unitFinishWith (w := ⟨s, []⟩) hi.1 (stream_ctx hi.2.1) d.toNat n
    rw [h, unitDone_setCtx hi.2.1]
    rfl
  refine ⟨fun h => ?_, fun h => ?_, fun h => ?_, fun h => ?_, fun h hgood => ?_⟩
  all_goals
    subst h
    refine perform_of_no_stores ?_ (by rw [unitDone_mem, setCtx_mem])
    rw [run_bind_ok (run_myCtx (w := ⟨s, []⟩) hi)]
    dsimp only
    rw [run_bind_ok (run_ctxSreg (w := ⟨s, []⟩) hi _), hsel, run_bind_ok (run_ctxSreg (w := ⟨s, []⟩) hi _), hv]
  · exact hkeep _
  · exact hkeep _
  · exact hkeep _
  · exact hset { x with sts := ⟨0, 0⟩ } rfl _
  · refine (run_bind_ok (run_check_none ?_)).trans (hset { x with mrb := BitVec.ofNat 32 v } rfl _)
    rcases hgood with rfl | ⟨h16, hbar, hlt⟩
    · simp
    · have hlt' : v < 4294967296 := hlt
      simp [h16, hlt', hbar]

theorem mloadb_unloaded (hi : CtxIssues s c x ga) (hw : x.st.wait = .none) (hsl : sl.toNat ≤ 3) (hr : x.slot sl.toNat = none)
    (hk : k.toNat ≤ 3) : execMloadb k sl b s = .next (s.raise (.ctx c) (Cause.atWord 0x30 x.st.pc 0)) := by
  refine perform_unitRaise ⟨hi.1, stream_ctx hi.2.1⟩ hw ?_
  rw [run_bind_ok (run_myCtx (w := ⟨s, []⟩) hi)]
  dsimp only
  rw [run_bind_ok (run_ctxSreg (w := ⟨s, []⟩) hi _), if_neg (Nat.not_lt.mpr hk)]
  simp [loadedSlot, Nat.not_lt.mpr hsl, hr, run_raise (w := ⟨s, []⟩) hi.1 (stream_ctx hi.2.1)]

end

theorem matrixWordsComplete : MatrixWordsComplete := by
  refine ⟨?_, ?_, ?_, ?_⟩
  · intro s c x ga sl a b r r1 w hi va hsl hp hr hadd hok hm hu
    exact mshape_loads hi rfl rfl hsl hp hr hadd hok hm hu
  · intro s c x ga k sl b r hi hroom hsl hr v gives want live
    refine ⟨fun hk ha => ?_, fun hk h8 htiles => ⟨fun hacc hspan => ?_, fun hacc hchain => ?_⟩, fun hk hv hspan => ?_,
      fun hk hv => ?_⟩
    · exact perform_issueCtx hi hroom (by rfl) (mloadb_run hi hsl hr rfl hk ha)
    · have hm (bcast : Bool) := multiply_run (bcast := bcast) hi hsl hr rfl hk h8 fun y hy => ⟨htiles y hy, by
        rw [if_pos hacc]
        exact hspan y hy⟩
      simp only [hacc, if_true] at hm
      exact ⟨perform_issueCtx hi hroom (by rfl) (hm false), perform_issueCtx hi hroom (by rfl) (hm true)⟩
    · have hm (bcast : Bool) := multiply_run (bcast := bcast) hi hsl hr rfl hk h8 fun y hy => ⟨htiles y hy, by
        rw [if_neg (Bool.not_eq_true _ ▸ hacc)]
        exact hchain y hy⟩
      simp only [hacc, if_false, Bool.false_eq_true] at hm
      exact ⟨perform_issueCtx hi hroom (by rfl) (hm false), perform_issueCtx hi hroom (by rfl) (hm true)⟩
    · have hm := mzero_run (v := 0) hi hsl hr hv hk (by decide) fun _ => hspan
      exact perform_issueCtx hi hroom (by rfl) hm
    · have hm := mzero_run (v := 1) hi hsl hr hv hk (by decide) fun h => absurd h (by decide)
      exact perform_issueCtx hi hroom (by rfl) hm
  · intro s c x ga d a b hi sel v gives sticky
    obtain ⟨h0, h1, h2, h3, h4⟩ := mstat_reads (d := d) hi rfl rfl
    exact ⟨fun h => h0 (congrArg BitVec.toNat h), fun h => h1 (congrArg BitVec.toNat h), fun h => h2 (congrArg BitVec.toNat h),
      fun h => h3 (congrArg BitVec.toNat h), fun h hv => h4 (congrArg BitVec.toNat h) hv⟩
  · intro s c x ga k sl b hi hw hsl hr hk
    exact mloadb_unloaded hi hw hsl hr hk

/-- Settles O27: the words of Carillon by their operands, those of the control core by their slots and views. -/
theorem carillonAndMatrixWordsComplete : Obligations.CarillonAndMatrixWordsComplete := ⟨carillonWordsComplete, matrixWordsComplete⟩

end Sys2Proof.Machine
end

section
/-! SUPPORT. The scalar words of the geometry engine (R349 to R359). -/

namespace Sys2Proof.Machine

open Sys2Proof

section

variable {s : State} {w : Work} {k : Nat} {g g1 : Group} {ga : Gang} {d a b : BitVec 5} {va fl r brec h : Nat}

/-! ## PATCH (R354) -/

theorem patch_binds {n owned : Nat} (hi : GangIssues s k g ga) (hva : (g.st.get a.toNat).toNat = va)
    (hn : (g.st.get b.toNat).toNat = n) (ho : (s.ownedBy (k / 65536)).length = owned) (h64 : va % 64 = 0) (hpos : 0 < n) (hle : n ≤ 128)
    (hb : owned = 0 ∨ ga.bucket = none ∨ ga.bucket = some va) :
    execPatch d a b s = .next ((s.setGang (k / 65536) { ga with bucket := some va, budget := n }).wordDone k g g.st.pc
      (g.st.put d.toNat (BitVec.ofNat 64 owned))) := by
  have ⟨⟨hu, hg⟩, hga⟩ := hi
  have hbud : ¬ (n = 0 ∨ n > 128) := by omega
  have hbind : (decide (owned ≠ 0) && !(ga.bucket == some va) && ga.bucket.isSome) = false := by
    rcases hb with hb | hb | hb <;> simp [hb]
  refine perform_of_no_stores ?_ rfl
  rw [run_bind_ok (a := ()) (v := ⟨s, []⟩) (by simp [hu]), run_bind_ok (run_myGangGroup (w := ⟨s, []⟩) hu hga)]
  dsimp only
  rw [run_bind_ok (run_groupSreg (w := ⟨s, []⟩) hu hg _), hva, run_bind_ok (run_groupSreg (w := ⟨s, []⟩) hu hg _), hn,
    run_bind_ok (run_now _), ho, hbind, run_bind_ok (run_check_none (by simp [h64]; omega))]
  simp [hu, hg, State.wordDone]

/-! ## Reading a patch (R353) -/

theorem flagCauses_pass (hf : FlagsOk ga fl) : ∀ c ∈ flagCauses ga fl, c.1 = false := by
  obtain ⟨h30, hno, hbar⟩ := hf
  cases hbit : bit fl 1 with
  | false => simpa [flagCauses, h30, hbit] using hno hbit
  | true => simpa [flagCauses, h30, hbit] using hbar hbit

theorem patchCauses_pass (hp : Placed48 va 64) : ∀ c ∈ patchCauses va, c.1 = false := by
  obtain ⟨hlt, hmod⟩ := hp
  have hlt' : va < 281474976710656 := hlt
  simp [patchCauses, hlt', hmod]

/-! ## DICE and BFILL (R349 to R353, R359) -/

/-- What DICE and BFILL do once they have read their patch, bucket and HANDLE (R349). -/
def diceDecide (fill : Bool) (k d : Nat) (ga : Gang) (p : Port) (va fl r brec h : Nat) : Act Unit :=
  if fill ∧ (fld h 62 2 = 0 ∨ fld h 62 2 = 3) then finishWith d (resultWord h 7 false)
  else if fld h 62 2 = 0 then
    if (patchRect r (fld brec 32 16) (fld brec 48 16)).isNone then finishWith d (resultWord h 6 false)
    else if splitNeeded r (fld brec 32 16) (fld brec 48 16) then splitPatch k d p (ga.bucket.getD 0) brec va r (splitAlongV r)
    else claimSlot k d p va (patchNu r) (patchNv r) 0 (bit fl 0) false h fun key v => .dice va r key v (fld brec 0 64) (flagBar fl)
  else if fld h 62 2 = 1 then residentGrid d p va h
  else if fld h 62 2 = 2 then
    if fld h 0 48 = 0 then finishWith d (resultWord h 6 false)
    else do
      let hd ← (do
        match ← readVA { p with core := none } fresh (fld h 0 48) 32 with
        | .error _ => return 0
        | .ok hd => return hd : Act Nat)
      claimSlot k d p va (hdNu hd) (hdNv hd) 2 (bit fl 0) (hdSampled hd) h fun key v =>
        .fill (fld h 0 48) key v (fld brec 0 64) (flagBar fl)
  else do
    if bkLeft brec < 2 then raise 0x04
    appendHalves k d p (ga.bucket.getD 0) (resultWord h 3 false) (fld h 0 48) none [0, 1]

theorem run_diceOp (fill : Bool) (hr : DiceReads s k g ga a b r brec h w g1) (hva : (g.st.get a.toNat).toNat = va)
    (hfl : (g.st.get b.toNat).toNat = fl) :
    diceOp fill d a b ⟨s, []⟩ = diceDecide fill k d.toNat ga (s.portOf (.group k)) va fl r brec h w := by
  obtain ⟨⟨⟨hu, hg⟩, hga⟩, hb, hp, hflags, ⟨bva, w1, w2, g2, hbva, hrec, hbrec, hi2, hset, hh⟩, hok, -, -⟩ := hr
  rw [hva] at hp hrec hh
  rw [hfl] at hflags
  have hcheck : check (flagCauses ga fl ++ [(ga.bucket.isNone, 0x04)] ++ patchCauses va) ⟨s, []⟩ = .ok ((), ⟨s, []⟩) := by
    refine run_check_none fun c hc => ?_
    rcases List.mem_append.mp hc with hc | hc
    · rcases List.mem_append.mp hc with hc | hc
      · exact flagCauses_pass hflags c hc
      · simp [hbva] at hc
        simp [hc]
    · exact patchCauses_pass hp c hc
  unfold diceOp
  rw [run_bind_ok (run_myGroup (w := ⟨s, []⟩) hu), run_bind_ok (run_myGangGroup (w := ⟨s, []⟩) hu hga)]
  dsimp only
  rw [run_bind_ok (run_groupSreg (w := ⟨s, []⟩) hu hg _), hva, run_bind_ok (run_groupSreg (w := ⟨s, []⟩) hu hg _), hfl,
    run_bind_ok (run_myPort (w := ⟨s, []⟩) hu), run_bind_ok (run_groupStream (w := ⟨s, []⟩) hu hg)]
  generalize g.st.wait = wait at hb
  cases wait with
  | borrow y z => exact absurd rfl (hb y z)
  | _ =>
    dsimp only
    rw [run_bind_ok hcheck, run_bind_ok hrec, hbva, Option.getD_some, run_bind_ok hbrec, hok, if_neg (by simp),
      run_bind_ok (run_waitSettled hi2.1 hi2.2 hset), run_bind_ok hh]
    rw [diceDecide, hbva, Option.getD_some] <;> rfl

theorem run_discard_ok {α : Type} {m : Act α} {v : Work} {x : α} (h : m w = .ok (x, v)) : discard m w = .ok ((), v) := by
  simp [h]

/-- A word of a group that only writes its result. -/
theorem run_groupGives (hi : GroupIssues w.cur k g) (d v : Nat) :
    finishWith d v w = .ok ((), ⟨w.cur.wordDone k g g.st.pc (g.st.put d (BitVec.ofNat 64 v)), w.stores⟩) := by
  simp [hi.1, hi.2, State.wordDone]

/-- A word's entry, and its completion with a result. -/
theorem run_issueFinishWith {q : Nat} {op : EOp} (hi : GroupIssues w.cur k g) (hr : w.cur.roomFor k q = true) (d v : Nat) :
    (do discard (issueEntry k q op); finishWith d v : Act Unit) w =
      .ok ((), ⟨w.cur.entryIssued k g q op (g.st.put d (BitVec.ofNat 64 v)), w.stores⟩) := by
  simp [run_issueEntry hr hi.2, hi.1, State.entryIssued, State.wordDone]

theorem diceOp_completes {fill : Bool} {v : Work} (hr : DiceReads s k g ga a b r brec h w g1)
    (hd : diceDecide fill k d.toNat ga (s.portOf (.group k)) (g.st.get a.toNat).toNat (g.st.get b.toNat).toNat r brec h w =
      .ok ((), v)) : perform (diceOp fill d a b) s = .next (s.after v) :=
  perform_after ((run_diceOp fill hr rfl rfl).trans hd)

section Decision

variable {fill : Bool} {p : Port} {x n : Nat} {v : Work}

theorem diceDecide_bfill (hk : fld h 62 2 = 0 ∨ fld h 62 2 = 3) :
    diceDecide true k n ga p va fl r brec h = finishWith n (resultWord h 7 false) := by
  simp [diceDecide, hk]

theorem diceDecide_grid (hk : fld h 62 2 = 1) : diceDecide fill k n ga p va fl r brec h = residentGrid n p va h := by
  simp [diceDecide, hk]

theorem diceDecide_noImage (hk : fld h 62 2 = 2) (h0 : fld h 0 48 = 0) :
    diceDecide fill k n ga p va fl r brec h = finishWith n (resultWord h 6 false) := by
  simp [diceDecide, hk, h0]

theorem diceDecide_noRect (hk : fld h 62 2 = 0) (hrect : patchRect r (fld brec 32 16) (fld brec 48 16) = none) :
    diceDecide false k n ga p va fl r brec h = finishWith n (resultWord h 6 false) := by
  simp [diceDecide, hk, hrect]

theorem diceDecide_split (hk : fld h 62 2 = 0) (hrect : patchRect r (fld brec 32 16) (fld brec 48 16) ≠ none)
    (hsplit : splitNeeded r (fld brec 32 16) (fld brec 48 16) = true) :
    diceDecide false k n ga p va fl r brec h = splitPatch k n p (ga.bucket.getD 0) brec va r (splitAlongV r) := by
  simp [diceDecide, hk, hrect, hsplit]

theorem diceDecide_claim (hk : fld h 62 2 = 0) (hrect : patchRect r (fld brec 32 16) (fld brec 48 16) ≠ none)
    (hsplit : splitNeeded r (fld brec 32 16) (fld brec 48 16) = false) :
    diceDecide false k n ga p va fl r brec h = claimSlot k n p va (patchNu r) (patchNv r) 0 (bit fl 0) false h
      fun key v => .dice va r key v (fld brec 0 64) (flagBar fl) := by
  simp [diceDecide, hk, hrect, hsplit]

theorem diceDecide_halves (hk : fld h 62 2 = 3) (hleft : 2 ≤ bkLeft brec) :
    diceDecide false k n ga p va fl r brec h =
      appendHalves k n p (ga.bucket.getD 0) (resultWord h 3 false) (fld h 0 48) none [0, 1] := by
  have hn : ¬ bkLeft brec < 2 := by omega
  simp [diceDecide, hk, hn]

theorem diceDecide_fill {y : Except Nat Nat} {w2 : Work} (hk : fld h 62 2 = 2) (h0 : fld h 0 48 ≠ 0)
    (hy : readVA { p with core := none } fresh (fld h 0 48) 32 w = .ok (y, w2)) {hd : Nat} (hhd : y.toOption.getD 0 = hd) :
    diceDecide fill k n ga p va fl r brec h w = claimSlot k n p va (hdNu hd) (hdNv hd) 2 (bit fl 0) (hdSampled hd) h
      (fun key v => .fill (fld h 0 48) key v (fld brec 0 64) (flagBar fl)) w2 := by
  subst hhd
  cases y <;> simp [diceDecide, hk, h0, hy, Except.toOption]

/-! ## A slot for a patch (R349) -/

theorem claimSlot_none {nu nv out : Nat} {sampled : Bool} {op : Nat → Bool → EOp} (hi : GangIssues w.cur k g ga)
    (ht : w.cur.takeSlot (k / 65536) ga = none) :
    claimSlot k n p va nu nv out true sampled h op w =
      .ok ((), ⟨w.cur.wordDone k g g.st.pc (g.st.put n (BitVec.ofNat 64 (resultWord h 5 false))), w.stores⟩) := by
  rw [claimSlot, run_bind_ok (run_myGangGroup hi.1.1 hi.2)]
  dsimp only
  rw [run_bind_ok (run_now _), ht]
  exact run_groupGives hi.1 _ _

theorem claimSlot_some {nu nv out key gen : Nat} {nowait sampled victim : Bool} {op : Nat → Bool → EOp} {w3 w4 : Work} {g4 : Group}
    (hi : GangIssues w.cur k g ga) (ht : w.cur.takeSlot (k / 65536) ga = some (key, victim))
    (hs : allocSlot (k / 65536) key victim nu nv w = .ok (gen, w3))
    (hx : atomicWord p va 8 (fun _ => handleOf key gen) w3 = .ok (x, w4)) (hi4 : GroupIssues w4.cur k g4)
    (hroom : w4.cur.roomFor k 3 = true) :
    claimSlot k n p va nu nv out nowait sampled h op w = .ok ((), ⟨w4.cur.entryIssued k g4 3 (op key victim)
      (g4.st.put n (BitVec.ofNat 64 (resultWord (handleOf key gen) out sampled))), w4.stores⟩) := by
  rw [claimSlot, run_bind_ok (run_myGangGroup hi.1.1 hi.2)]
  dsimp only
  rw [run_bind_ok (run_now _), ht]
  dsimp only
  rw [run_bind_ok hs, run_bind_ok (run_discard_ok hx)]
  exact run_issueFinishWith hi4 hroom _ _

/-! ## A grid that is resident (R349) -/

theorem residentGrid_away {x : Nat} {key : Option Nat} (hi : GangIssues w.cur k g ga) (hs : w.cur.handleSlot ga h = none)
    (hn : w.cur.namedSlot ga.launch h = key) (hx : atomicWord p va 8 (fun x => x ||| 2 ^ 13) w = .ok (x, v))
    {u : Work} (hu : (match key with
      | none => v
      | some key => ⟨v.cur.setSlot key { v.cur.slotAt key with spillReq := true }, v.stores⟩) = u)
    (hi1 : GroupIssues u.cur k g1) :
    residentGrid n p va h w = .ok ((), ⟨u.cur.wordDone k g1 g1.st.pc
      (g1.st.put n (BitVec.ofNat 64 (resultWord h 4 ((key.map w.cur.shaded).getD false)))), u.stores⟩) := by
  rw [residentGrid, run_bind_ok (run_myGangGroup hi.1.1 hi.2)]
  dsimp only
  rw [run_bind_ok (run_now _), hs]
  dsimp only
  rw [run_bind_ok (run_discard_ok hx), hn, State.handleS, hn]
  subst hu
  cases key with
  | none => exact run_groupGives hi1 _ _
  | some key => exact run_groupGives hi1 _ _

section Resident

variable {key : Nat}

/-- The four answers of a slot that holds the grid of the handle. -/
theorem run_residentGrid (hi : GangIssues w.cur k g ga) (hs : w.cur.handleSlot ga h = some key)
    (hold : (w.cur.slotAt key).oldGen = none) (hfree : (w.cur.slotAt key).state ≠ .free)
    (hgen : (w.cur.slotAt key).gen = fld h 16 32) :
    residentGrid n p va h w = (if (w.cur.slotAt key).owner = k / 65536 then finishWith n (resultWord h 0 (w.cur.shaded key))
      else if !((w.cur.slotAt key).state == .sampled) then finishWith n (resultWord h 4 (w.cur.shaded key))
      else do
        modSlot key (fun sl => { sl with
          holders := if sl.holders.contains (k / 65536) then sl.holders else sl.holders ++ [k / 65536] })
        finishWith n (resultWord h 1 true)) w := by
  rw [residentGrid, run_bind_ok (run_myGangGroup hi.1.1 hi.2)]
  dsimp only
  rw [run_bind_ok (run_now _), hs]
  have hno : ¬ ((w.cur.slotAt key).oldGen = some (fld h 16 32)) := by simp [hold]
  have hok : ¬ (((w.cur.slotAt key).state == .free || !((w.cur.slotAt key).gen == fld h 16 32)) = true) := by
    simp [hfree, hgen]
  dsimp only
  rw [if_neg hno, if_neg hok]

theorem residentGrid_owned (hi : GangIssues w.cur k g ga) (hs : w.cur.handleSlot ga h = some key)
    (hold : (w.cur.slotAt key).oldGen = none) (hfree : (w.cur.slotAt key).state ≠ .free)
    (hgen : (w.cur.slotAt key).gen = fld h 16 32) (ho : (w.cur.slotAt key).owner = k / 65536) :
    residentGrid n p va h w = .ok ((), ⟨w.cur.wordDone k g g.st.pc
      (g.st.put n (BitVec.ofNat 64 (resultWord h 0 (w.cur.shaded key)))), w.stores⟩) := by
  rw [run_residentGrid hi hs hold hfree hgen, if_pos ho]
  exact run_groupGives hi.1 _ _

theorem residentGrid_unsampled (hi : GangIssues w.cur k g ga) (hs : w.cur.handleSlot ga h = some key)
    (hold : (w.cur.slotAt key).oldGen = none) (hfree : (w.cur.slotAt key).state ≠ .free)
    (hgen : (w.cur.slotAt key).gen = fld h 16 32) (ho : (w.cur.slotAt key).owner ≠ k / 65536)
    (hst : (w.cur.slotAt key).state ≠ .sampled) :
    residentGrid n p va h w = .ok ((), ⟨w.cur.wordDone k g g.st.pc
      (g.st.put n (BitVec.ofNat 64 (resultWord h 4 (w.cur.shaded key)))), w.stores⟩) := by
  rw [run_residentGrid hi hs hold hfree hgen, if_neg ho, if_pos (by simp [hst])]
  exact run_groupGives hi.1 _ _

theorem residentGrid_sampled (hi : GangIssues w.cur k g ga) (hs : w.cur.handleSlot ga h = some key)
    (hold : (w.cur.slotAt key).oldGen = none) (hfree : (w.cur.slotAt key).state ≠ .free)
    (hgen : (w.cur.slotAt key).gen = fld h 16 32) (ho : (w.cur.slotAt key).owner ≠ k / 65536)
    (hst : (w.cur.slotAt key).state = .sampled) (hnot : k / 65536 ∉ (w.cur.slotAt key).holders) :
    residentGrid n p va h w = .ok ((), ⟨(w.cur.setSlot key { w.cur.slotAt key with
        holders := (w.cur.slotAt key).holders ++ [k / 65536] }).wordDone k g g.st.pc
      (g.st.put n (BitVec.ofNat 64 (resultWord h 1 true))), w.stores⟩) := by
  rw [run_residentGrid hi hs hold hfree hgen, if_neg ho, if_neg (by simp [hst])]
  have hmod : modSlot key (fun sl => { sl with
      holders := if sl.holders.contains (k / 65536) then sl.holders else sl.holders ++ [k / 65536] }) w =
      .ok ((), ⟨w.cur.setSlot key { w.cur.slotAt key with holders := (w.cur.slotAt key).holders ++ [k / 65536] }, w.stores⟩) := by
    simp [modSlot, hnot]
  rw [run_bind_ok hmod]
  exact run_groupGives (w := ⟨w.cur.setSlot key { w.cur.slotAt key with
    holders := (w.cur.slotAt key).holders ++ [k / 65536] }, w.stores⟩) hi.1 _ _

end Resident

end Decision

theorem diceAndBfillDecide : DiceAndBfillDecide := by
  intro s k g ga d a b r brec h w g1 hr
  have hi : GangIssues w.cur k g1 ga := hr.2.2.2.2.2.2
  refine ⟨fun hk => ?_, fun hk hrect => ?_, fun hk h0 => ⟨?_, ?_⟩, fun key hk hs hold hfree hgen => ⟨fun ho => ⟨?_, ?_⟩,
      fun ho hst => ⟨?_, ?_⟩, fun ho hst hnot => ⟨?_, ?_⟩⟩, fun x v hk hs hn hx hi1 => ⟨?_, ?_⟩,
    fun key x v hk hs hn hx hi1 => ⟨?_, ?_⟩, fun v hk hrect hsplit hv => ?_, fun v hk hleft hv => ?_,
    fun hk hrect hsplit ht hnow => ?_, fun key victim gen w3 x w4 g4 hk hrect hsplit ht hs hx hi4 hroom => ?_,
    fun y w2 key victim gen w3 x w4 g2 g4 hk h0 hy hi2 hga2 ht hs hx hi4 hroom => ?_⟩
  · exact diceOp_completes hr (by rw [diceDecide_bfill hk]; exact run_groupGives hi.1 _ _)
  · exact diceOp_completes hr (by rw [diceDecide_noRect hk hrect]; exact run_groupGives hi.1 _ _)
  · exact diceOp_completes hr (by rw [diceDecide_noImage hk h0]; exact run_groupGives hi.1 _ _)
  · exact diceOp_completes hr (by rw [diceDecide_noImage hk h0]; exact run_groupGives hi.1 _ _)
  · exact diceOp_completes hr (by rw [diceDecide_grid hk]; exact residentGrid_owned hi hs hold hfree hgen ho)
  · exact diceOp_completes hr (by rw [diceDecide_grid hk]; exact residentGrid_owned hi hs hold hfree hgen ho)
  · exact diceOp_completes hr (by rw [diceDecide_grid hk]; exact residentGrid_unsampled hi hs hold hfree hgen ho hst)
  · exact diceOp_completes hr (by rw [diceDecide_grid hk]; exact residentGrid_unsampled hi hs hold hfree hgen ho hst)
  · exact diceOp_completes hr (by rw [diceDecide_grid hk]; exact residentGrid_sampled hi hs hold hfree hgen ho hst hnot)
  · exact diceOp_completes hr (by rw [diceDecide_grid hk]; exact residentGrid_sampled hi hs hold hfree hgen ho hst hnot)
  · exact diceOp_completes hr (by rw [diceDecide_grid hk]; exact residentGrid_away hi hs hn hx rfl hi1)
  · exact diceOp_completes hr (by rw [diceDecide_grid hk]; exact residentGrid_away hi hs hn hx rfl hi1)
  · exact diceOp_completes hr (by rw [diceDecide_grid hk]; exact residentGrid_away hi hs hn hx rfl hi1)
  · exact diceOp_completes hr (by rw [diceDecide_grid hk]; exact residentGrid_away hi hs hn hx rfl hi1)
  · exact diceOp_completes hr (by rw [diceDecide_split hk hrect hsplit]; exact hv)
  · exact diceOp_completes hr (by rw [diceDecide_halves hk hleft]; exact hv)
  · exact diceOp_completes hr (by rw [diceDecide_claim hk hrect hsplit, hnow]; exact claimSlot_none hi ht)
  · exact diceOp_completes hr (by rw [diceDecide_claim hk hrect hsplit]; exact claimSlot_some hi ht hs hx hi4 hroom)
  · have hfill : ∀ (fill : Bool) (hd : Nat), y.toOption.getD 0 = hd →
        allocSlot (k / 65536) key victim (hdNu hd) (hdNv hd) w2 = .ok (gen, w3) →
        perform (diceOp fill d a b) s = .next (s.after ⟨w4.cur.entryIssued k g4 3
          (.fill (fld h 0 48) key victim (fld brec 0 64) (flagBar (g.st.get b.toNat).toNat))
          (g4.st.put d.toNat (BitVec.ofNat 64 (resultWord (handleOf key gen) 2 (hdSampled hd)))), w4.stores⟩) :=
      fun fill hd hhd hs => diceOp_completes hr
        ((diceDecide_fill hk h0 hy hhd).trans (claimSlot_some ⟨hi2, hga2⟩ ht hs hx hi4 hroom))
    cases y with
    | ok hd => exact ⟨hfill false hd rfl hs, (hfill true hd rfl hs).trans (hfill false hd rfl hs).symm⟩
    | error e => exact ⟨hfill false 0 rfl hs, (hfill true 0 rfl hs).trans (hfill false 0 rfl hs).symm⟩

/-! ## SPLIT, GBOUND and BSPILL (R356 to R358) -/

/-- What SPLIT does once it has read its patch, bucket and HANDLE. -/
def splitDecide (k d : Nat) (ga : Gang) (p : Port) (bva brec va r dir h : Nat) : Act Unit := do
  if h ≠ 0 then finishWith d (resultWord h 7 ((← now).handleS ga.launch h))
  else splitPatch k d p bva brec va r (if dir = 2 then splitAlongV r else dir == 1)

theorem split_completes {bva dir : Nat} {w1 w2 v : Work} {g2 : Group} (hi : GangIssues s k g ga) (hb : ∀ x y, g.st.wait ≠ .borrow x y)
    (hva : (g.st.get a.toNat).toNat = va) (hdir : (g.st.get b.toNat).toNat = dir) (hp : Placed48 va 64) (hle : dir ≤ 2)
    (hbva : ga.bucket = some bva) (hrec : patchRecord (s.portOf (.group k)) va ⟨s, []⟩ = .ok (r, w1))
    (hbrec : bucketRec (s.portOf (.group k)) bva w1 = .ok (brec, w2)) (hok : patchOk r true = true) (hi2 : GroupIssues w2.cur k g2)
    (hset : g2.settled = true) (hh : readHandle (s.portOf (.group k)) va w2 = .ok (h, w))
    (hd : splitDecide k d.toNat ga (s.portOf (.group k)) bva brec va r dir h w = .ok ((), v)) :
    execSplit d a b s = .next (s.after v) := by
  obtain ⟨⟨hu, hg⟩, hga⟩ := hi
  have hcheck : check ([(decide (dir > 2), 0x04), (ga.bucket.isNone, 0x04)] ++ patchCauses va) ⟨s, []⟩ = .ok ((), ⟨s, []⟩) := by
    refine run_check_none fun c hc => ?_
    rcases List.mem_append.mp hc with hc | hc
    · have hn : ¬ dir > 2 := by omega
      simp [hbva, hn] at hc
      rcases hc with rfl | rfl
      all_goals rfl
    · exact patchCauses_pass hp c hc
  refine perform_after ?_
  rw [run_bind_ok (run_myGroup (w := ⟨s, []⟩) hu), run_bind_ok (run_myGangGroup (w := ⟨s, []⟩) hu hga)]
  dsimp only
  rw [run_bind_ok (run_groupSreg (w := ⟨s, []⟩) hu hg _), hva, run_bind_ok (run_groupSreg (w := ⟨s, []⟩) hu hg _), hdir,
    run_bind_ok (run_myPort (w := ⟨s, []⟩) hu), run_bind_ok (run_groupStream (w := ⟨s, []⟩) hu hg)]
  generalize g.st.wait = wait at hb
  cases wait with
  | borrow y z => exact absurd rfl (hb y z)
  | _ =>
    dsimp only
    rw [run_bind_ok hcheck, run_bind_ok hrec, hbva, Option.getD_some, run_bind_ok hbrec, hok, if_neg (by simp),
      run_bind_ok (run_waitSettled hi2.1 hi2.2 hset), run_bind_ok hh]
    exact hd

theorem splitHalvesAPatch : SplitHalvesAPatch := by
  intro s k g ga d a b bva r w1 brec w2 g2 h w g1 hi hb va dir p hp hle hbva hrec hbrec hok hi2 hset hh hi1
  refine ⟨fun h0 => split_completes hi hb rfl rfl hp hle hbva hrec hbrec hok hi2 hset hh ?_, fun v h0 hv =>
    split_completes hi hb rfl rfl hp hle hbva hrec hbrec hok hi2 hset hh ?_⟩
  · rw [splitDecide, if_pos h0, run_bind_ok (run_now _)]
    exact run_groupGives hi1 _ _
  · rw [splitDecide, if_neg (by simpa using h0)]
    exact hv

theorem gbound_gives {sz : Nat} (hi : GroupIssues s k g)
    (hva : (g.st.get a.toNat).toNat = va) (hsz : (g.st.get b.toNat).toNat = sz) (hp : Placed48 va 64) (hx : fld sz 0 16 ≠ 0)
    (hy : fld sz 16 16 ≠ 0) (hlt : sz < 2 ^ 32) (hrec : patchRecord (s.portOf (.group k)) va ⟨s, []⟩ = .ok (r, w))
    (hok : patchOk r (splitNeeded r (fld sz 0 16) (fld sz 16 16)) = true) (hi1 : GroupIssues w.cur k g1) {v : Nat}
    (hv : (match patchRect r (fld sz 0 16) (fld sz 16 16) with
      | none => 2 ^ 64 - 1
      | some (x0, y0, x1, y1) => x0 + y0 * 2 ^ 16 + x1 * 2 ^ 32 + y1 * 2 ^ 48) = v) :
    execGbound d a b s = .next (s.after ⟨w.cur.wordDone k g1 g1.st.pc (g1.st.put d.toNat (BitVec.ofNat 64 v)), w.stores⟩) := by
  obtain ⟨hu, hg⟩ := hi
  have hcheck : check ([(decide (fld sz 0 16 = 0 ∨ fld sz 16 16 = 0 ∨ sz / 2 ^ 32 ≠ 0), 0x04)] ++ patchCauses va) ⟨s, []⟩ =
      .ok ((), ⟨s, []⟩) := by
    refine run_check_none fun c hc => ?_
    rcases List.mem_append.mp hc with hc | hc
    · have hz : sz / 4294967296 = 0 := by omega
      simp [hx, hy, hz] at hc
      simp [hc]
    · exact patchCauses_pass hp c hc
  refine perform_after ?_
  rw [run_bind_ok (run_discard_ok (run_myGroup (w := ⟨s, []⟩) hu)), run_bind_ok (run_groupSreg (w := ⟨s, []⟩) hu hg _), hva,
    run_bind_ok (run_groupSreg (w := ⟨s, []⟩) hu hg _), hsz, run_bind_ok hcheck, run_bind_ok (run_myPort (w := ⟨s, []⟩) hu),
    run_bind_ok hrec, hok, if_neg (by simp)]
  subst hv
  cases patchRect r (fld sz 0 16) (fld sz 16 16) with
  | none => exact run_groupGives hi1 _ _
  | some rect => exact run_groupGives hi1 _ _

theorem bspill_issues {key image : Nat} (hi : GangIssues s k g ga) (hset : g.settled = true) (hroom : s.roomFor k 3 = true)
    (hh : (g.st.get a.toNat).toNat = h) (hfl : (g.st.get b.toNat).toNat = fl) (hf : FlagsOk ga fl) (hs : s.usableSlot ga h = some key)
    (ho : (s.slotAt key).owner = k / 65536) (hst : (s.slotAt key).state ≠ .spilling) (hno : (s.slotAt key).holders = [])
    (himg : nextImage (s.portOf (.group k)) (k / 65536) ⟨s, []⟩ = .ok (.ok (some image), w)) (hi1 : GroupIssues w.cur k g1)
    (hroom1 : w.cur.roomFor k 3 = true) :
    execBspill d a b s = .next (s.after ⟨(w.cur.setSlot key { w.cur.slotAt key with state := .spilling }).entryIssued k g1 3
      (.spill key image (flagBar fl)) (g1.st.put d.toNat (BitVec.ofNat 64 image)), w.stores⟩) := by
  obtain ⟨⟨hu, hg⟩, hga⟩ := hi
  have hown : (s.usableSlot ga h).filter (fun key => (s.slotAt key).owner == k / 65536) = some key := by
    simp [hs, ho, Option.filter]
  have hcheck : check (flagCauses ga fl ++ [(((some key).map (fun key =>
      (s.slotAt key).state == .spilling || !(s.slotAt key).holders.isEmpty)).getD false, 0x04), ((some key).isNone, 0x41)])
      ⟨s, []⟩ = .ok ((), ⟨s, []⟩) := by
    refine run_check_none fun c hc => ?_
    rcases List.mem_append.mp hc with hc | hc
    · exact flagCauses_pass hf c hc
    · simp [hno] at hc
      rcases hc with hc | hc <;> simp [hc, hst]
  refine perform_after ?_
  rw [run_bind_ok (run_myGroup (w := ⟨s, []⟩) hu), run_bind_ok (run_myGangGroup (w := ⟨s, []⟩) hu hga)]
  dsimp only
  rw [run_bind_ok (run_groupSreg (w := ⟨s, []⟩) hu hg _), hh, run_bind_ok (run_groupSreg (w := ⟨s, []⟩) hu hg _), hfl,
    run_bind_ok (run_now _)]
  dsimp only
  rw [hown, run_bind_ok hcheck, run_bind_ok (run_waitSettled (w := ⟨s, []⟩) hu hg hset), run_bind_ok (run_need_some _ _),
    run_bind_ok (run_myPort (w := ⟨s, []⟩) hu), run_bind_ok (run_now _), hroom, run_bind_ok (run_guardA _ _), run_bind_ok himg]
  exact (run_bind_ok (run_upd _ _)).trans
    (run_issueFinishWith (w := ⟨w.cur.setSlot key { w.cur.slotAt key with state := .spilling }, w.stores⟩) hi1 hroom1 _ _)

theorem geometryWordsComplete : GeometryWordsComplete :=
  ⟨fun _ _ _ _ _ _ _ hi h64 hpos hle hb => patch_binds hi rfl rfl rfl h64 hpos hle hb, diceAndBfillDecide, splitHalvesAPatch,
    fun _ _ _ _ _ _ _ _ _ hi hp hx hy hlt hrec hok hi1 => gbound_gives hi rfl rfl hp hx hy hlt hrec hok hi1 rfl,
    fun _ _ _ _ _ _ _ _ _ _ _ hi hset hroom hf hs ho hst hno himg hi1 hroom1 =>
      bspill_issues hi hset hroom rfl rfl hf hs ho hst hno himg hi1 hroom1⟩

/-! ## The words of the raster engine (R373 to R376) -/

theorem run_spatRead {n x : Nat} {v : Work} {skew : Bool} (hs : skew = false) (h : spatRead va n false w = .ok (x, v)) :
    spatRead va n skew w = .ok (x, v) := by
  rw [hs, h]

theorem spat_binds {sb : Nat} {w1 w2 : Work} {g2 : Group} {es : List Nat} (hi : GroupIssues s k g)
    (hva : (g.st.get a.toNat).toNat = va) (hsb : (g.st.get b.toNat).toNat = sb) (hp : Placed48 va 8) (hp2 : Placed48 sb 256)
    (hh : spatRead va 64 false ⟨s, []⟩ = .ok (h, w1)) (hok : patHeadOk h = true)
    (hr : spatRead (va + 64) (8 * patEntries h) false w1 = .ok (r, w2))
    (hes : (upFrom 0 (patEntries h)).map (fun i => fld r (64 * i) 64) = es) (hall : es.all patEntOk = true)
    (hi2 : GroupIssues w2.cur k g2) :
    execSpat d a b s = .next (s.after ⟨w2.cur.wordDone k { g2 with raster := some ⟨h, es, sb⟩ } g2.st.pc
      (g2.st.put d.toNat (BitVec.ofNat 64 (patSamples h))), w2.stores⟩) := by
  obtain ⟨hu, hg⟩ := hi
  obtain ⟨hlt, hmod⟩ := hp
  obtain ⟨hlt2, hmod2⟩ := hp2
  have hskew : decide (sb % 256 ≠ 0) = false := by simp [hmod2]
  have hlt' : ¬ va ≥ 2 ^ 48 := by omega
  have hlt2' : ¬ sb ≥ 2 ^ 48 := by omega
  refine perform_after ?_
  rw [run_bind_ok (run_myGroup (w := ⟨s, []⟩) hu), run_bind_ok (run_groupSreg (w := ⟨s, []⟩) hu hg _), hva,
    run_bind_ok (run_groupSreg (w := ⟨s, []⟩) hu hg _), hsb]
  dsimp only
  rw [hskew, run_bind_ok (run_check_none (by simp [hmod]; omega)), run_bind_ok hh, hok, if_neg (by simp), run_bind_ok hr,
    hes, hall, run_bind_ok (run_check_none (by simp))]
  simp [hi2.1, hi2.2, State.wordDone]

theorem run_bindingOf {bind : Raster} (hb : g.raster = some bind) : bindingOf g w = .ok (bind, w) := by
  rw [bindingOf, hb]
  rfl

theorem zFlagCauses_pass (hf : FlagsOk ga fl) (h0 : bit fl 0 = false) : ∀ c ∈ zFlagCauses ga fl, c.1 = false := by
  intro c hc
  rcases List.mem_cons.mp hc with rfl | hc
  · exact h0
  · exact flagCauses_pass hf c hc

theorem run_waitSettledIf (hi : GroupIssues w.cur k g) {x : Bool} (hs : x = true → g.settled = true) {α : Type} (m : Act α) :
    (if x = true then (do waitSettled; m) else m) w = m w := by
  cases x with
  | false => rfl
  | true => exact run_bind_ok (run_waitSettled hi.1 hi.2 (hs rfl))

theorem sflush_issues {bind : Raster} {v : Nat} (hi : GangIssues s k g ga) (hb : g.raster = some bind) (hroom : s.roomFor k 4 = true)
    (hv : (g.st.get a.toNat).toNat = v) (hfl : (g.st.get b.toNat).toNat = fl) (hf : FlagsOk ga fl) (h0 : bit fl 0 = false)
    (hset : bit fl 1 = true → g.settled = true) (hlt : v < 2 ^ 32) :
    execSflush d a b s = .next (s.entryIssued k g 4 (.sflush bind 0 0 (BitVec.ofNat 32 v) (flagBar fl))
      (g.st.put d.toNat (BitVec.ofNat 64 (g.queue 4).next.toNat))) := by
  have ⟨⟨hu, hg⟩, hga⟩ := hi
  have hcheck : check ((decide (v ≥ 2 ^ 32), 0x04) :: (g.raster.isNone, 0x04) :: zFlagCauses ga fl) ⟨s, []⟩ = .ok ((), ⟨s, []⟩) := by
    refine run_check_none fun c hc => ?_
    rcases List.mem_cons.mp hc with rfl | hc
    · exact decide_eq_false (by omega)
    · rcases List.mem_cons.mp hc with rfl | hc
      · simp [hb]
      · exact zFlagCauses_pass hf h0 c hc
  refine perform_of_no_stores ?_ rfl
  rw [run_bind_ok (run_myGroup (w := ⟨s, []⟩) hu), run_bind_ok (run_myGangGroup (w := ⟨s, []⟩) hu hga)]
  dsimp only
  rw [run_bind_ok (run_getGroup (w := ⟨s, []⟩) hg), run_bind_ok (run_groupSreg (w := ⟨s, []⟩) hu hg _), hv,
    run_bind_ok (run_groupSreg (w := ⟨s, []⟩) hu hg _), hfl, run_bind_ok hcheck]
  refine (run_waitSettledIf (w := ⟨s, []⟩) hi.1 hset _).trans ?_
  rw [run_bind_ok (run_bindingOf hb)]
  exact run_issueSeq (w := ⟨s, []⟩) hi.1 hroom

theorem sresolve_issues {bind : Raster} {v : Nat} (hi : GangIssues s k g ga) (hb : g.raster = some bind)
    (hroom : s.roomFor k 4 = true) (hv : (g.st.get a.toNat).toNat = v) (hfl : (g.st.get b.toNat).toNat = fl) (hf : FlagsOk ga fl)
    (h0 : bit fl 0 = false) (hset : bit fl 1 = true → g.settled = true) (hp : Placed48 v 8) :
    execSresolve d a b s = .next (s.entryIssued k g 4 (.sresolve bind 0 0 v (flagBar fl))
      (g.st.put d.toNat (BitVec.ofNat 64 (g.queue 4).next.toNat))) := by
  have ⟨⟨hu, hg⟩, hga⟩ := hi
  obtain ⟨hlt, hmod⟩ := hp
  have hcheck : check ((g.raster.isNone, 0x04) :: (decide (v ≥ 2 ^ 48), 0x10) :: (decide (v % 8 ≠ 0), 0x12) :: zFlagCauses ga fl)
      ⟨s, []⟩ = .ok ((), ⟨s, []⟩) := by
    refine run_check_none fun c hc => ?_
    rcases List.mem_cons.mp hc with rfl | hc
    · simp [hb]
    · rcases List.mem_cons.mp hc with rfl | hc
      · exact decide_eq_false (by omega)
      · rcases List.mem_cons.mp hc with rfl | hc
        · exact decide_eq_false (by omega)
        · exact zFlagCauses_pass hf h0 c hc
  refine perform_of_no_stores ?_ rfl
  rw [run_bind_ok (run_myGroup (w := ⟨s, []⟩) hu), run_bind_ok (run_myGangGroup (w := ⟨s, []⟩) hu hga)]
  dsimp only
  rw [run_bind_ok (run_getGroup (w := ⟨s, []⟩) hg), run_bind_ok (run_groupSreg (w := ⟨s, []⟩) hu hg _), hv,
    run_bind_ok (run_groupSreg (w := ⟨s, []⟩) hu hg _), hfl, run_bind_ok hcheck]
  refine (run_waitSettledIf (w := ⟨s, []⟩) hi.1 hset _).trans ?_
  rw [run_bind_ok (run_bindingOf hb)]
  exact run_issueSeq (w := ⟨s, []⟩) hi.1 hroom

theorem sgrid_issues {bind : Raster} {bva xy key : Nat} (hi : GangIssues s k g ga) (hb : g.raster = some bind)
    (hbva : ga.bucket = some bva) (hh : (g.st.get a.toNat).toNat = h) (hfl : (g.st.get b.toNat).toNat = fl) (hf : FlagsOk ga fl)
    (h0 : bit fl 0 = false) (hxy : readRec bva 4 ⟨s, []⟩ = .ok (xy, w)) (hs : w.cur.usableSlot ga h = some key)
    (ho : (w.cur.slotAt key).owner = k / 65536 ∨ k / 65536 ∈ (w.cur.slotAt key).holders)
    (hin : inRect (w.cur.rectHead key) (fld xy 0 16) (fld xy 16 16) = true) (hi1 : GroupIssues w.cur k g1) (hset : g1.settled = true)
    (hroom : w.cur.roomFor k 4 = true) :
    execSgrid d a b s = .next (s.after ⟨w.cur.entryIssued k g1 4
      (.sgrid bind (fld xy 0 16) (fld xy 16 16) key (k / 65536) (flagBar fl))
      (g1.st.put d.toNat (BitVec.ofNat 64 (g1.queue 4).next.toNat)), w.stores⟩) := by
  have ⟨⟨hu, hg⟩, hga⟩ := hi
  have hcheck : check ((g.raster.isNone, 0x04) :: (ga.bucket.isNone, 0x04) :: zFlagCauses ga fl) ⟨s, []⟩ = .ok ((), ⟨s, []⟩) := by
    refine run_check_none fun c hc => ?_
    rcases List.mem_cons.mp hc with rfl | hc
    · simp [hb]
    · rcases List.mem_cons.mp hc with rfl | hc
      · simp [hbva]
      · exact zFlagCauses_pass hf h0 c hc
  have hslot : (w.cur.usableSlot ga h).filter (fun key =>
      (w.cur.slotAt key).owner == k / 65536 || (w.cur.slotAt key).holders.contains (k / 65536)) = some key := by
    rcases ho with ho | ho <;> simp [hs, ho, Option.filter]
  refine perform_after ?_
  rw [run_bind_ok (run_myGroup (w := ⟨s, []⟩) hu), run_bind_ok (run_myGangGroup (w := ⟨s, []⟩) hu hga)]
  dsimp only
  rw [run_bind_ok (run_getGroup (w := ⟨s, []⟩) hg), run_bind_ok (run_groupSreg (w := ⟨s, []⟩) hu hg _), hh,
    run_bind_ok (run_groupSreg (w := ⟨s, []⟩) hu hg _), hfl, run_bind_ok hcheck, hbva, Option.getD_some, run_bind_ok hxy,
    run_bind_ok (run_now _), hslot, run_bind_ok (run_check_none (by simp [hin])), run_bind_ok (run_waitSettled hi1.1 hi1.2 hset),
    run_bind_ok (run_need_some _ _), run_bind_ok (run_bindingOf hb)]
  exact run_issueSeq hi1 hroom

theorem run_bind_error {α β : Type} {m : Act α} {f : α → Act β} {e : Stop} (h : m w = .error e) : (m >>= f) w = .error e := by
  simp [h]

theorem sflush_unbound (hi : GangIssues s k g ga) (hw : g.st.wait = .none) (hb : g.raster = none)
    (hlt : (g.st.get a.toNat).toNat < 2 ^ 32) (hf : FlagsOk ga (g.st.get b.toNat).toNat) :
    execSflush d a b s = .next (s.raise (.group k) (Cause.atWord 0x04 g.st.pc 0)) := by
  have ⟨⟨hu, hg⟩, hga⟩ := hi
  have hnone : (flagCauses ga (g.st.get b.toNat).toNat).filter (fun x => x.1) = [] :=
    List.filter_eq_nil_iff.mpr fun c hc => by simp [flagCauses_pass hf c hc]
  have hlt' : decide ((g.st.get a.toNat).toNat ≥ 2 ^ 32) = false := decide_eq_false (by omega)
  have hcheck : check ((decide ((g.st.get a.toNat).toNat ≥ 2 ^ 32), 0x04) :: (g.raster.isNone, 0x04) ::
      zFlagCauses ga (g.st.get b.toNat).toNat) = raise 0x04 := by
    rw [check, hlt', hb, zFlagCauses]
    cases bit (g.st.get b.toNat).toNat 0 <;> simp [hnone, leastOf]
  refine perform_groupRaise hi.1 hw ?_
  rw [run_bind_ok (run_myGroup (w := ⟨s, []⟩) hu), run_bind_ok (run_myGangGroup (w := ⟨s, []⟩) hu hga)]
  dsimp only
  rw [run_bind_ok (run_getGroup (w := ⟨s, []⟩) hg), run_bind_ok (run_groupSreg (w := ⟨s, []⟩) hu hg _),
    run_bind_ok (run_groupSreg (w := ⟨s, []⟩) hu hg _), hcheck]
  exact run_bind_error (by simp [hu, hg])

theorem rasterWordsComplete : RasterWordsComplete :=
  ⟨fun _ _ _ _ _ _ _ _ _ _ _ hi hp hp2 hh hok hr hall hi2 => spat_binds hi rfl rfl hp hp2 hh hok hr rfl hall hi2,
    fun _ _ _ _ _ _ _ _ hi hb hroom hf h0 hset =>
      ⟨sflush_issues hi hb hroom rfl rfl hf h0 hset, sresolve_issues hi hb hroom rfl rfl hf h0 hset⟩,
    fun _ _ _ _ _ _ _ _ _ _ _ _ _ hi hb hbva hf h0 hxy hs ho hin hi1 hset hroom =>
      sgrid_issues hi hb hbva rfl rfl hf h0 hxy hs ho hin hi1 hset hroom,
    fun _ _ _ _ _ _ _ hi hw hb hlt hf => sflush_unbound hi hw hb hlt hf⟩

/-- Settles O26: each word reads its operands and passes its checks, and then decides as its own table says. -/
theorem geometryAndRasterWordsComplete : Obligations.GeometryAndRasterWordsComplete :=
  ⟨geometryWordsComplete, rasterWordsComplete⟩

end

end Sys2Proof.Machine
end

section
/-! SUPPORT. Lane words that give each thread a result: the integer, move and predicate words (R166 to R175), FP32, pairs and
conversion (R176 to R180). -/

namespace Sys2Proof.Machine

open Sys2Proof

section

variable {s : State} {l : Lane} {w : LaneW} {ts : List Nat} {rs : List SlotReq} {xs : List (Nat × List Nat)} {g1 : Group} {wide : Bool}

/-! ## A lane word's turn -/

/-- Reading the slots changes the operand queues alone: the lane of the group that is left. -/
theorem run_readOps_of_reads (hi : LaneIssues s l) (hr : l.Reads s w ts rs xs g1) :
    readOps w ts rs ⟨s, []⟩ = .ok (xs, ⟨s.setGroup l.k g1, []⟩) ∧ LaneIssues (s.setGroup l.k g1) { l with g := g1 } := by
  obtain ⟨ha, hg, hf⟩ := hi
  obtain ⟨hn, cols, qs, hq, rfl, rfl⟩ := hr
  have hany : rs.any (fun r => l.g.noReg r.code r.wide) = false := by simpa using hn
  exact ⟨run_readOps (w := ⟨s, []⟩) ha hg hf hany hq, ha, by simp, hf⟩

theorem run_myLane_of_issues (hi : LaneIssues s l) : myLane ⟨s, []⟩ = .ok (l, ⟨s, []⟩) :=
  run_myLane (w := ⟨s, []⟩) hi.1 hi.2.1 hi.2.2

theorem run_checkD_of_issues (hi : LaneIssues s l) (hd : l.g.noReg w.d.toNat wide = false) :
    checkD w wide ⟨s, []⟩ = .ok ((), ⟨s, []⟩) :=
  run_checkD (w := ⟨s, []⟩) hi.1 hi.2.1 hi.2.2 hd

theorem run_laneResult_of_issues (hi : LaneIssues s l) (wide : Bool) (rs : List (Nat × Nat)) :
    laneResult w wide rs ⟨s, []⟩ = .ok ((), ⟨s.setGroup l.k ((l.g.writeD w.d.toNat wide rs).laneNext l.fi), []⟩) :=
  run_laneResult (w := ⟨s, []⟩) hi.1 hi.2.1 hi.2.2 w wide rs

/-- A word whose threads each get a result from their slots. -/
theorem lanes_gives {f : List Nat → Nat} (hi : LaneIssues s l) (hd : l.g.noReg w.d.toNat wide = false)
    (hr : l.Reads s w (l.part w) rs xs g1) :
    perform (lanes w wide rs f) s =
      .next (s.setGroup l.k ((g1.writeD w.d.toNat wide (xs.map (fun x => (x.1, f x.2)))).laneNext l.fi)) := by
  obtain ⟨hread, hi1⟩ := run_readOps_of_reads hi hr
  refine perform_of_no_stores ?_ rfl
  rw [lanes, run_bind_ok (run_myLane_of_issues hi), run_bind_ok (run_checkD_of_issues hi hd), run_bind_ok hread,
    run_laneResult_of_issues hi1]
  simp

/-- The word is `lanes` of a function of its slots' values. -/
theorem laneGives_of_lanes {mk : LaneW → Instr} {wide : LaneW → Bool} {rs : LaneW → List SlotReq} {f : LaneW → List Nat → Nat}
    (h : ∀ s w, exec (mk w) s = perform (lanes w (wide w) (rs w) (f w)) s) : LaneGives mk wide rs (each f) :=
  fun s _ w _ _ hi hd hr => (h s w).trans (lanes_gives hi hd hr)

/-! ## Long latency (R89, R168) -/

theorem openWindow_tags (g : Group) (fi la : Nat) (p : LPend) : (g.openWindow fi la p).tags = g.tags := by
  unfold Group.openWindow
  split <;> rfl

theorem run_laneLong (hi : LaneIssues s l) (rs : List (Nat × Nat)) :
    laneLong w rs ⟨s, []⟩ = .ok ((), ⟨s.setGroup l.k (l.g.longDone l.fi w rs), []⟩) := by
  rw [laneLong, run_bind_ok (run_myLane_of_issues hi), Group.longDone]
  by_cases hla : w.la = 0
  · rw [if_pos hla, if_pos hla, run_laneResult_of_issues hi]
  · rw [if_neg hla, if_neg hla]
    simp [openWindow_tags]

theorem lanesLong_gives {f : List Nat → Nat} (hi : LaneIssues s l) (hd : l.g.noReg w.d.toNat false = false)
    (hr : l.Reads s w (l.part w) rs xs g1) :
    perform (lanesLong w rs f) s =
      .next (s.setGroup l.k (g1.longDone l.fi w (xs.map (fun x => (x.1, f x.2))))) := by
  obtain ⟨hread, hi1⟩ := run_readOps_of_reads hi hr
  refine perform_of_no_stores ?_ rfl
  rw [lanesLong, run_bind_ok (run_myLane_of_issues hi), run_bind_ok (run_checkD_of_issues hi hd), run_bind_ok hread, run_laneLong hi1]
  simp

theorem longGives_of_lanesLong {mk : LaneW → Instr} {rs : LaneW → List SlotReq} {f : LaneW → List Nat → Nat}
    (h : ∀ s w, exec (mk w) s = perform (lanesLong w (rs w) (f w)) s) : LongGives mk rs f :=
  fun s _ w _ _ hi hd hr => (h s w).trans (lanesLong_gives hi hd hr)

/-! ## The words whose rule the statements write out (R170, R171, R174, R175, R180) -/

theorem outTy_eq (w : LaneW) : outTy w = if w.mod.getLsbD 0 then (if 1 ≤ w.pty ∧ w.pty ≤ 4 then 4 else 8) else w.pty := by
  simp [outTy, tyWide, tySigned]

theorem bfeBits_eq (t a n : Nat) : bfeBits (tySigned t) a n =
    (if min (n / 256 % 256) (32 - n % 256) = 0 then 0
      else if 1 ≤ t ∧ t ≤ 4 then wrap 32 (sext (min (n / 256 % 256) (32 - n % 256)) (fld a (n % 256) (min (n / 256 % 256) (32 - n % 256))))
      else fld a (n % 256) (min (n / 256 % 256) (32 - n % 256))) := by
  simp [bfeBits, tySigned]

theorem laneSel_gives (hi : LaneIssues s l) (hd : l.g.noReg w.d.toNat (wide64 w.pty) = false)
    (hr : l.Reads s w l.active (typed2 w) xs g1) :
    exec (.laneSel w) s = .next (s.setGroup l.k ((g1.writeD w.d.toNat (wide64 w.pty)
      (xs.map (fun x => (x.1, if l.guard w x.1 then arg x.2 0 else arg x.2 1)))).laneNext l.fi)) := by
  obtain ⟨hread, hi1⟩ := run_readOps_of_reads hi hr
  refine perform_of_no_stores ?_ rfl
  rw [run_bind_ok (run_myLane_of_issues hi), run_bind_ok (run_checkD_of_issues hi hd)]
  refine (run_bind_ok hread).trans ?_
  rw [run_laneResult_of_issues hi1]
  simp

theorem plop_gives (hi : LaneIssues s l) :
    exec (.plop w) s = .next (s.setGroup l.k ((l.g.writeD w.d.toNat false ((l.part w).map (fun t =>
      (t, b2n (bit (fld w.imm.toNat 16 8) (4 * b2n ((l.g.thread t).pred (fld w.imm.toNat 0 3)) +
        2 * b2n ((l.g.thread t).pred (fld w.imm.toNat 4 3)) + b2n ((l.g.thread t).pred (fld w.imm.toNat 8 3)))))))).laneNext l.fi)) := by
  refine perform_of_no_stores ?_ rfl
  rw [run_bind_ok (run_myLane_of_issues hi)]
  exact run_laneResult_of_issues hi _ _

theorem cvt_gives : LaneGives .cvt (fun w => wide64 w.pty) (fun w => if w.pty = 14 ∨ w.pty = 15 then plain2 w else [slotT w.sty w.a])
    (each (fun w xs => if w.pty = 14 ∨ w.pty = 15 then convert w.pty 9 (rmOf w) (satOf w) (arg xs 0) +
      convert w.pty 9 (rmOf w) (satOf w) (arg xs 1) * 2 ^ 16 else convert w.pty w.sty (rmOf w) (satOf w) (arg xs 0))) := by
  refine laneGives_of_lanes fun s w => ?_
  rw [exec_cvt, execCvt]
  by_cases h : w.pty = 14 ∨ w.pty = 15
  · have hwide : wide64 w.pty = false := by rcases h with h | h <;> rw [h] <;> rfl
    simp [h, hwide, plain2]
  · simp [h]

end

/-- Settles O28: each word is `lanes` of its rule, but for SEL, whose reading is the active threads', and PLOP, which reads no slot. -/
theorem laneIntegerWordsWriteTheirResult : Obligations.LaneIntegerWordsWriteTheirResult := by
  refine ⟨laneGives_of_lanes fun _ _ => rfl, laneGives_of_lanes fun _ _ => rfl, laneGives_of_lanes fun _ _ => rfl,
    laneGives_of_lanes fun _ _ => rfl, laneGives_of_lanes fun _ _ => rfl, laneGives_of_lanes fun _ _ => rfl,
    laneGives_of_lanes fun _ _ => rfl, laneGives_of_lanes fun _ _ => rfl, laneGives_of_lanes fun s w => ?_,
    laneGives_of_lanes fun s w => ?_, laneGives_of_lanes fun _ _ => rfl, laneGives_of_lanes fun _ _ => rfl,
    laneGives_of_lanes fun _ _ => rfl, laneGives_of_lanes fun _ _ => rfl, laneGives_of_lanes fun _ _ => rfl,
    laneGives_of_lanes fun s w => ?_, laneGives_of_lanes fun _ _ => rfl, laneGives_of_lanes fun _ _ => rfl,
    laneGives_of_lanes fun _ _ => rfl, laneGives_of_lanes fun _ _ => rfl, laneGives_of_lanes fun _ _ => rfl,
    fun _ _ _ _ _ hi hd hr => laneSel_gives hi hd hr, fun _ _ _ hi => plop_gives hi⟩
  · rw [exec_imul, execImul, int2, outTy_eq]
    rfl
  · rw [exec_imad, execImad, outTy_eq]
  · simp only [exec_bfe, execBfe, bfeBits_eq]
    rfl

/-- Settles O29: each word is `lanes` or, for a long-latency word, `lanesLong` of its rule; CVT goes by its destination type. -/
theorem laneFloatingWordsWriteTheirResult : Obligations.LaneFloatingWordsWriteTheirResult :=
  ⟨laneGives_of_lanes fun _ _ => rfl, laneGives_of_lanes fun _ _ => rfl, laneGives_of_lanes fun _ _ => rfl,
    laneGives_of_lanes fun _ _ => rfl, laneGives_of_lanes fun _ _ => rfl, laneGives_of_lanes fun _ _ => rfl,
    laneGives_of_lanes fun _ _ => rfl, laneGives_of_lanes fun _ _ => rfl,
    longGives_of_lanesLong fun _ _ => rfl, longGives_of_lanesLong fun _ _ => rfl, longGives_of_lanesLong fun _ _ => rfl,
    longGives_of_lanesLong fun _ _ => rfl, longGives_of_lanesLong fun _ _ => rfl, longGives_of_lanesLong fun _ _ => rfl,
    longGives_of_lanesLong fun _ _ => rfl, laneGives_of_lanes fun _ _ => rfl, laneGives_of_lanes fun _ _ => rfl,
    laneGives_of_lanes fun _ _ => rfl, cvt_gives⟩

end Sys2Proof.Machine
end

section
/-! SUPPORT. What an operand slot reads (R80, R82) and what an integer type keeps (R108, R109). -/

namespace Sys2Proof.Machine

open Sys2Proof

/-! ## Integer types (R108, R109) -/

section

variable {t : Nat} {x y : Int}

theorem tyBits_cases (t : Nat) : tyBits t = 8 ∨ tyBits t = 16 ∨ tyBits t = 32 ∨ tyBits t = 64 := by
  unfold tyBits
  split
  · simp
  · split
    · simp
    · split <;> simp

/-- A type reads a value of its own range. -/
theorem tyRead_range (t n : Nat) : tyMin t ≤ tyRead t n ∧ tyRead t n ≤ tyMax t := by
  unfold tyMin tyMax tyRead
  cases tySigned t with
  | false => rcases tyBits_cases t with hb | hb | hb | hb <;> simp only [Bool.false_eq_true, if_false, hb] <;> omega
  | true =>
    rcases tyBits_cases t with hb | hb | hb | hb <;> simp only [if_true, hb, sext] <;> split <;> omega

/-- What a type reads is congruent to the bits it reads. -/
theorem tyRead_emod (t n : Nat) : tyRead t n % 2 ^ tyBits t = (n : Int) % 2 ^ tyBits t := by
  unfold tyRead
  cases tySigned t with
  | false => rcases tyBits_cases t with hb | hb | hb | hb <;> simp only [Bool.false_eq_true, if_false, hb] <;> omega
  | true => rcases tyBits_cases t with hb | hb | hb | hb <;> simp only [if_true, hb, sext] <;> split <;> omega

theorem tyMax_sub_tyMin (t : Nat) : tyMax t - tyMin t = 2 ^ tyBits t - 1 := by
  unfold tyMax tyMin
  cases tySigned t with
  | false => simp
  | true => rcases tyBits_cases t with hb | hb | hb | hb <;> simp [hb]

theorem two_pow_pos_int (n : Nat) : (0 : Int) < 2 ^ n := Int.pow_pos (by decide)

theorem wrap_emod {m n : Nat} (h : n ≤ m) (x : Int) : (wrap m x : Int) % 2 ^ n = x % 2 ^ n := by
  have hdvd : (2 ^ n : Int) ∣ 2 ^ m := ⟨2 ^ (m - n), by rw [← Int.pow_add, Nat.add_sub_cancel' h]⟩
  rw [wrap, Int.toNat_of_nonneg (Int.emod_nonneg _ (Int.ne_of_gt (two_pow_pos_int m))), Int.emod_emod_of_dvd _ hdvd]

/-- Two values of a type's range that are congruent are equal. -/
theorem eq_of_emod_of_range (hx : tyMin t ≤ x ∧ x ≤ tyMax t) (hy : tyMin t ≤ y ∧ y ≤ tyMax t)
    (h : x % 2 ^ tyBits t = y % 2 ^ tyBits t) : x = y := by
  have hspan := tyMax_sub_tyMin t
  rcases tyBits_cases t with hb | hb | hb | hb <;> rw [hb] at hspan h <;> omega

/-- Reading back what is put unsaturated keeps the residue. -/
theorem tyRead_tyPut_wraps (t : Nat) (x : Int) : tyRead t (tyPut t false x) % 2 ^ tyBits t = x % 2 ^ tyBits t := by
  rw [tyPut, if_neg (by simp), tyRead_emod, wrap_emod (Nat.le_max_right _ _), tyRead_emod, wrap_emod (Nat.le_refl _)]

/-- Reading back what is put saturated gives the nearest value of the type. -/
theorem tyRead_tyPut_saturates (t : Nat) (x : Int) : tyRead t (tyPut t true x) = max (tyMin t) (min (tyMax t) x) := by
  have hspan := tyMax_sub_tyMin t
  have hpos := two_pow_pos_int (tyBits t)
  refine eq_of_emod_of_range (tyRead_range _ _) ⟨by omega, by omega⟩ ?_
  rw [tyPut, if_pos rfl, tyRead_emod, wrap_emod (Nat.le_max_right _ _)]

end

theorem integerTypesWrapOrSaturate : IntegerTypesWrapOrSaturate := by
  intro t x h1 h8
  have hspan := tyMax_sub_tyMin t
  have hpos := two_pow_pos_int (tyBits t)
  refine ⟨fun n => ⟨(tyRead_range t n).1, (tyRead_range t n).2, Int.emod_eq_emod_iff_emod_sub_eq_zero.mp (tyRead_emod t n)⟩, hspan, ?_, ?_,
    fun hmin hmax => ?_, fun hlt => ?_, fun hgt => ?_⟩
  · simp [tyMin, tySigned, h1]
  · exact Int.emod_eq_emod_iff_emod_sub_eq_zero.mp (tyRead_tyPut_wraps t x)
  · rw [tyRead_tyPut_saturates]
    omega
  · rw [tyRead_tyPut_saturates]
    omega
  · rw [tyRead_tyPut_saturates]
    omega

/-! ## Operand slots (R80, R82, Table 3-5) -/

section

variable {s : State} {l : Lane} {imm t : Nat} {r : SlotReq}

theorem plain_register (h : r.code < 64) : l.plain s imm r t = (Tab.getD (l.g.thread t).v r.code 0).toNat +
    (if r.wide then (Tab.getD (l.g.thread t).v (r.code + 1) 0).toNat * 2 ^ 32 else 0) := by
  rw [Lane.plain, if_pos h]
  split <;> simp

theorem plain_broadcast (h : 0x80 ≤ r.code) (hle : r.code ≤ 0x9F) :
    l.plain s imm r t = (if r.code = 0x80 then 0 else (Tab.getD l.g.run.bcast (r.code - 0x80) 0).toNat) %
      (if r.wide then 2 ^ 64 else 2 ^ 32) := by
  rw [Lane.plain, if_neg (by omega), if_neg (by omega), if_pos ⟨h, hle⟩]
  cases r.wide with
  | false => rfl
  | true =>
    refine (Nat.mod_eq_of_lt ?_).symm
    split
    · decide
    · exact BitVec.isLt _

theorem plain_imm (h : r.code = 0xFE) (hw : r.wide = false) : l.plain s imm r t = imm := by
  simp [Lane.plain, h, hw]

theorem plain_zero (h : r.code = 0xFF) : l.plain s imm r t = 0 := by
  simp [Lane.plain, h]

theorem readSlot_plain (h : r.code < 0x40 ∨ 0x48 ≤ r.code) (ts : List Nat) (qs : Tab OpQ) :
    l.readSlot s imm r ts qs = .ok (ts.map (l.plain s imm r), qs) := by
  induction ts with
  | nil => rfl
  | cons t ts ih =>
    rw [Lane.readSlot, if_neg (by omega), ih]
    rfl

theorem readSlot_queue {ts ys : List Nat} {qs qs1 : Tab OpQ} {x : W32} (h40 : 0x40 ≤ r.code) (h48 : r.code < 0x48)
    (hx : (Tab.getD qs (r.code % 4) OpQ.empty).look t = some (some x))
    (hrest : l.readSlot s imm r ts (if r.code < 0x44 then Tab.set qs (r.code % 4)
      { Tab.getD qs (r.code % 4) OpQ.empty with
        heads := Tab.set (Tab.getD qs (r.code % 4) OpQ.empty).heads t ((Tab.getD qs (r.code % 4) OpQ.empty).head t + 1) }
      else qs) = .ok (ys, qs1)) :
    l.readSlot s imm r (t :: ts) qs = .ok (x.toNat :: ys, qs1) := by
  rw [Lane.readSlot, if_pos ⟨h40, h48⟩]
  simp only [hx, hrest]

end

theorem slotsReadTheirOperand : SlotsReadTheirOperand :=
  ⟨fun _ _ _ _ _ => ⟨plain_register,
    fun h hle => by rw [plain_broadcast (by omega) hle, if_neg (by omega)],
    fun h => by rw [plain_broadcast (by omega) (by omega), if_pos h, Nat.zero_mod], plain_imm, plain_zero⟩,
    fun _ _ _ _ ts qs h => readSlot_plain h ts qs, fun _ _ _ _ _ _ _ _ _ _ h40 h48 hx hrest => readSlot_queue h40 h48 hx hrest⟩

/-- Settles O30: a type reads the value of its range congruent to its bits, and slots are read by their code. -/
theorem laneOperandsAndTypesRead : Obligations.LaneOperandsAndTypesRead := ⟨integerTypesWrapOrSaturate, slotsReadTheirOperand⟩

end Sys2Proof.Machine
end

section
/-! SUPPORT. Lane control: the words that move a fragment, split it or end it (R188 to R197). -/

namespace Sys2Proof.Machine

open Sys2Proof

section

variable {s : State} {l l1 l2 : Lane} {v : Work} {w : LaneW}

/-! ## The issuing fragment -/

theorem run_laneOf (hi : LaneIssues v.cur l) : myLane v = .ok (l, v) := run_myLane hi.1 hi.2.1 hi.2.2

theorem filter_single {b : Bool} {c : Nat} (h : b = false) : [(b, c)].filter (fun x => x.1) = [] := by
  simp [h]

/-- A transfer to a lane PC (R194). -/
theorem run_laneJump (hi : LaneIssues v.cur l) (pc : Int) :
    laneJump l pc v = .ok ((), ⟨v.cur.setGroup l.k (l.goes pc), v.stores⟩) := by
  rw [laneJump, run_modGroup v hi.2.1]
  rfl

/-- Closing the windows of the fragment leaves its group with their results written (R90). -/
theorem run_closeLane_of_closed (hc : Closed s l l1) :
    closeLane ⟨s, []⟩ = .ok ((), ⟨s.setGroup l.k l1.g, []⟩) ∧ LaneIssues (s.setGroup l.k l1.g) l1 := by
  obtain ⟨⟨ha, hg, hf⟩, hnone, hk, hfi, hg1, hf1⟩ := hc
  have hany : (l.fr.wins.map (fun x => x.1)).any l.g.coming = false := by simpa using hnone
  refine ⟨?_, ?_, ?_, ?_⟩
  · rw [run_closeLane (w := ⟨s, []⟩) ha hg hf hany, hg1]
  · rw [hk, hfi]
    exact ha
  · rw [hk]
    simp
  · rw [hfi]
    exact hf1

/-- A word that closes its windows first and then leaves the group `g2`. -/
theorem closed_completes {m : Lane → Act Unit} {g2 : Group} (hc : Closed s l l1)
    (hm : LaneIssues (s.setGroup l.k l1.g) l1 → m l1 ⟨s.setGroup l.k l1.g, []⟩ = .ok ((), ⟨(s.setGroup l.k l1.g).setGroup l1.k g2, []⟩)) :
    perform (do closeLane
                m (← myLane)) s = .next (s.setGroup l.k g2) := by
  obtain ⟨hclose, hi1⟩ := run_closeLane_of_closed hc
  refine perform_of_no_stores ?_ rfl
  rw [run_bind_ok hclose, run_bind_ok (run_laneOf (v := ⟨s.setGroup l.k l1.g, []⟩) hi1), hm hi1, hc.2.2.1]
  simp

/-! ## BRL (R190, R197) -/

/-- What BRL does once its windows are closed. -/
def branchLane (w : LaneW) (l : Lane) : Act Unit := do
  let yes := l.part w
  let no := l.active.filter (fun t => !l.guard w t)
  let goal := l.fr.pc + w.imm.toInt
  checkLane l [(w.u == 1 && !yes.isEmpty && !no.isEmpty, 0x07)]
  if no.isEmpty then laneJump l goal
  else if yes.isEmpty then laneDone
  else splitLane l [(maskW yes, goal), (maskW no, l.fr.pc + 1)]

theorem brl_agrees (hc : Closed s l l1) (hno : l1.active.filter (fun t => !l1.guard w t) = []) :
    exec (.brl w) s = .next (s.setGroup l.k (l1.goes (l1.fr.pc + w.imm.toInt))) := by
  refine closed_completes (m := branchLane w) hc fun hi1 => ?_
  rw [branchLane, hno, run_bind_ok (run_checkLane (by simp)), if_pos (by rfl)]
  exact run_laneJump (v := ⟨s.setGroup l.k l1.g, []⟩) hi1 _

theorem brl_falls (hc : Closed s l l1) (hno : l1.active.filter (fun t => !l1.guard w t) ≠ []) (hyes : l1.part w = []) :
    exec (.brl w) s = .next (s.setGroup l.k (l1.g.laneNext l.fi)) := by
  refine closed_completes (m := branchLane w) hc fun hi1 => ?_
  rw [branchLane, hyes, run_bind_ok (run_checkLane (by simp)), if_neg (by simpa using hno), if_pos (by rfl), ← hc.2.2.2.1]
  exact run_laneDone (w := ⟨s.setGroup l.k l1.g, []⟩) hi1.1 hi1.2.1 hi1.2.2

theorem branchLane_splits (hno : l.active.filter (fun t => !l.guard w t) ≠ []) (hyes : l.part w ≠ []) (hu : w.u = 0) :
    branchLane w l v = splitLane l [(maskW (l.part w), l.fr.pc + w.imm.toInt),
      (maskW (l.active.filter (fun t => !l.guard w t)), l.fr.pc + 1)] v := by
  rw [branchLane, run_bind_ok (run_checkLane (by simp [hu])), if_neg (by simpa using hno), if_neg (by simpa using hyes)]

theorem splitLane_topmost {a b : W32 × Int} (hi : LaneIssues v.cur l) (ht : topmost l = true) :
    splitLane l [a, b] v = .ok ((), ⟨v.cur.setGroup l.k { l.g with run := { l.g.run with
      root := some ⟨0, none, []⟩
      frags := [a, b].map (fun a => { l.fr with
        mask := a.1
        pc := a.2
        stack := []
        wait := .none }) } }, v.stores⟩) := by
  rw [splitLane, if_pos ht, run_modGroup v hi.2.1]
  rfl

theorem splitLane_inner {a b : W32 × Int} (hi : LaneIssues v.cur l) (ht : topmost l = false) (hd : l.g.run.depth + 2 ≤ 16) :
    splitLane l [a, b] v = .ok ((), ⟨v.cur.setGroup l.k { l.g with run := { l.g.run with
      frags := setNth l.g.run.frags l.fi { l.fr with
        mask := a.1
        pc := a.2
        wait := .none
        stack := SEnt.pend b.1 b.2 :: SEnt.join l.fr.mask none :: l.fr.stack } } }, v.stores⟩) := by
  have hdepth : ¬ l.g.run.depth + 1 + 1 > 16 := by omega
  rw [splitLane, if_neg (by simp [ht]), run_bind_ok (run_checkLane (by simp [hdepth])), run_modGroup v hi.2.1]
  rfl

theorem brl_splits_topmost (hc : Closed s l l1) (hno : l1.active.filter (fun t => !l1.guard w t) ≠ []) (hyes : l1.part w ≠ [])
    (hu : w.u = 0) (ht : topmost l1 = true) :
    exec (.brl w) s = .next (s.setGroup l.k { l1.g with run := { l1.g.run with
      root := some ⟨0, none, []⟩
      frags := [(maskW (l1.part w), l1.fr.pc + w.imm.toInt),
          (maskW (l1.active.filter (fun t => !l1.guard w t)), l1.fr.pc + 1)].map (fun a => { l1.fr with
        mask := a.1
        pc := a.2
        stack := []
        wait := .none }) } }) := by
  refine closed_completes (m := branchLane w) hc fun hi1 => ?_
  rw [branchLane_splits hno hyes hu]
  exact splitLane_topmost (v := ⟨s.setGroup l.k l1.g, []⟩) hi1 ht

theorem brl_splits_inner (hc : Closed s l l1) (hno : l1.active.filter (fun t => !l1.guard w t) ≠ []) (hyes : l1.part w ≠ [])
    (hu : w.u = 0) (ht : topmost l1 = false) (hd : l1.g.run.depth + 2 ≤ 16) :
    exec (.brl w) s = .next (s.setGroup l.k { l1.g with run := { l1.g.run with frags := setNth l1.g.run.frags l.fi { l1.fr with
      mask := maskW (l1.part w)
      pc := l1.fr.pc + w.imm.toInt
      wait := .none
      stack := SEnt.pend (maskW (l1.active.filter (fun t => !l1.guard w t))) (l1.fr.pc + 1) :: SEnt.join l1.fr.mask none ::
        l1.fr.stack } } }) := by
  refine closed_completes (m := branchLane w) hc fun hi1 => ?_
  rw [branchLane_splits hno hyes hu, ← hc.2.2.2.1]
  exact splitLane_inner (v := ⟨s.setGroup l.k l1.g, []⟩) hi1 ht hd

/-! ## RECONV and LSTOP (R192, R196) -/

/-- What RECONV does once its windows are closed. -/
def reconvLane (l : Lane) : Act Unit := do
  let x := l.fr.pc
  match l.fr.stack with
  | .loop _ _ _ _ _ _ :: _ => laneJump l (x + 1)
  | [] =>
    match l.g.run.root with
    | none => laneJump l (x + 1)
    | some r =>
      let r1 := { r with rc := some (match r.rc with | none => x | some y => min y x) }
      putGroup l.k ({ l.g with run := { l.g.run with root := some r1 } }.resume l.fi l.fr.mask)
  | _ :: _ =>
    let fr1 := { l.fr with stack := joinAt x l.fr.stack }
    putGroup l.k ({ l.g with run := { l.g.run with frags := setNth l.g.run.frags l.fi fr1 } }.resume l.fi 0)

theorem reconv_completes {g2 : Group} (hc : Closed s l l1)
    (hm : LaneIssues (s.setGroup l.k l1.g) l1 → reconvLane l1 ⟨s.setGroup l.k l1.g, []⟩ =
      .ok ((), ⟨(s.setGroup l.k l1.g).setGroup l1.k g2, []⟩)) : exec (.reconv w) s = .next (s.setGroup l.k g2) := by
  refine (?_ : exec (.reconv w) s = perform (do closeLane
                                                reconvLane (← myLane)) s).trans (closed_completes hc hm)
  rfl

theorem reconv_goes (hc : Closed s l l1) (hst : (∃ st f d m c i t, l1.fr.stack = .loop st f d m c i :: t) ∨
    (l1.fr.stack = [] ∧ l1.g.run.root = none)) : exec (.reconv w) s = .next (s.setGroup l.k (l1.goes (l1.fr.pc + 1))) := by
  refine reconv_completes hc fun hi1 => ?_
  rcases hst with ⟨st, f, d, m, c, i, t, hst⟩ | ⟨hst, hroot⟩
  · simp only [reconvLane, hst]
    exact run_laneJump (v := ⟨s.setGroup l.k l1.g, []⟩) hi1 _
  · simp only [reconvLane, hst, hroot]
    exact run_laneJump (v := ⟨s.setGroup l.k l1.g, []⟩) hi1 _

theorem reconv_parks {r : RootJoin} (hc : Closed s l l1) (hst : l1.fr.stack = []) (hroot : l1.g.run.root = some r) :
    exec (.reconv w) s = .next (s.setGroup l.k ({ l1.g with run := { l1.g.run with root := some { r with
      rc := some (match r.rc with | none => l1.fr.pc | some y => min y l1.fr.pc) } } }.resume l.fi l1.fr.mask)) := by
  refine reconv_completes hc fun hi1 => ?_
  rw [← hc.2.2.2.1]
  simp only [reconvLane, hst, hroot]
  exact run_putGroup _ _ _

theorem reconv_resumes (hc : Closed s l l1)
    (hst : ∃ m x t, l1.fr.stack = .pend m x :: t ∨ ∃ y, l1.fr.stack = .join m y :: t) :
    exec (.reconv w) s = .next (s.setGroup l.k ({ l1.g with run := { l1.g.run with
      frags := setNth l1.g.run.frags l.fi { l1.fr with stack := joinAt l1.fr.pc l1.fr.stack } } }.resume l.fi 0)) := by
  refine reconv_completes hc fun hi1 => ?_
  rw [← hc.2.2.2.1]
  obtain ⟨m, x, t, hst | ⟨y, hst⟩⟩ := hst
  · simp only [reconvLane, hst]
    exact run_putGroup _ _ _
  · simp only [reconvLane, hst]
    exact run_putGroup _ _ _

/-- What LSTOP does once its windows are closed. -/
def stopLane (l : Lane) : Act Unit :=
  putGroup l.k ({ l.g with
    threads := l.g.threads.map (fun (t : Nat × Thread) => if l.active.contains t.1 then (t.1, { t.2 with fin := true }) else t)
    run := l.g.run.without l.fr.mask }.resume l.fi 0)

theorem lstop_ends (hc : Closed s l l1) :
    exec (.lstop w) s = .next (s.setGroup l.k ({ l1.g with
      threads := l1.g.threads.map (fun (t : Nat × Thread) => if l1.active.contains t.1 then (t.1, { t.2 with fin := true }) else t)
      run := l1.g.run.without l1.fr.mask }.resume l.fi 0)) := by
  refine closed_completes (m := stopLane) hc fun _ => ?_
  rw [stopLane, hc.2.2.2.1]
  exact run_putGroup _ _ _

/-! ## LLOOP and LLEXIT (R193, R195) -/

section

variable {xs : List (Nat × List Nat)} {g1 : Group} {cnt : Tab Nat} {go : List Nat}

/-- What LLOOP does with its counts. -/
def loopLane (w : LaneW) (l : Lane) (cnt : Tab Nat) (go : List Nat) : Act Unit :=
  if go.isEmpty then laneJump l (l.fr.pc + w.imm.toInt + 1)
  else putGroup l.k { l.g.writeD w.d.toNat false (go.map (fun t => (t, 0))) with
    run := { l.g.run with frags := setNth l.g.run.frags l.fi { l.fr with
      mask := maskW go, pc := l.fr.pc + 1, wait := .none
      stack := SEnt.loop (l.fr.pc + 1) (l.fr.pc + w.imm.toInt) w.d.toNat (l.fr.mask &&& ~~~maskW go) cnt
        (l.active.map (fun t => (t, 0))) :: l.fr.stack } } }

theorem run_lloop (hi : LaneIssues s l) (hd : l.g.noReg w.d.toNat false = false) (hr : l.Reads s w (l.part w) (plain1 w) xs g1)
    (hcnt : l.active.map (fun t => (t, (valueAt xs t).getD 0)) = cnt)
    (hgo : (cnt.filter (fun c => !(c.2 == 0))).map (fun c => c.1) = go)
    (hu : w.u = 0 ∨ ∀ x ∈ cnt, ∀ y ∈ cnt, x.2 = y.2)
    (hroom : go = [] ∨ l.g.run.depth < 16 ∧ loopCount l.fr.stack < 4) {g2 : Group}
    (hm : LaneIssues (s.setGroup l.k g1) { l with g := g1 } → loopLane w { l with g := g1 } cnt go ⟨s.setGroup l.k g1, []⟩ =
      .ok ((), ⟨(s.setGroup l.k g1).setGroup l.k g2, []⟩)) :
    exec (.lloop w) s = .next (s.setGroup l.k g2) := by
  obtain ⟨hread, hi1⟩ := run_readOps_of_reads hi hr
  have hrun : g1.run = l.g.run := by
    obtain ⟨_, _, _, _, _, rfl⟩ := hr
    rfl
  have hdiffer : (w.u == 1 && cnt.any (fun c => cnt.any (fun e => !(c.2 == e.2)))) = false := by
    rcases hu with hu | hu
    · simp [hu]
    · have hsame : cnt.any (fun c => cnt.any (fun e => !(c.2 == e.2))) = false := by
        simp only [List.any_eq_false, List.any_eq_true, not_exists, not_and]
        exact fun c hc e he => by simp [hu c hc e he]
      simp [hsame]
  have hdeep : (!go.isEmpty && (decide (g1.run.depth + 1 > 16) || decide (loopCount l.fr.stack ≥ 4))) = false := by
    rcases hroom with hgo | ⟨hdepth, hloops⟩
    · simp [hgo]
    · rw [hrun, decide_eq_false (by omega), decide_eq_false (by omega), Bool.or_false, Bool.and_false]
  refine perform_of_no_stores ?_ rfl
  rw [run_bind_ok (run_checkD_of_issues hi hd), run_bind_ok (run_myLane_of_issues hi)]
  refine (run_bind_ok hread).trans ?_
  rw [run_bind_ok (run_laneOf (v := ⟨s.setGroup l.k g1, []⟩) hi1)]
  have hcnt1 : ({ l with g := g1 } : Lane).active.map
      (fun t => (t, ((xs.find? (fun v => v.1 == t)).map (fun v => arg v.2 0)).getD 0)) = cnt := hcnt
  simp only [hcnt1, hgo]
  rw [run_bind_ok (run_checkLane (filter_single hdiffer)), run_bind_ok (run_checkLane (filter_single hdeep))]
  refine (hm hi1).trans ?_
  simp

end

theorem llexit_leaves (hi : LaneIssues s l) (hloops : loopCount l.fr.stack ≠ 0)
    (hu : w.u = 0 ∨ l.part w = [] ∨ (l.part w).length = l.active.length) {x left : W32} (hx : maskW (l.part w) = x)
    (hleft : l.fr.mask &&& ~~~x = left) {g1 : Group}
    (hg1 : { l.g with run := { l.g.run with frags := setNth l.g.run.frags l.fi { l.fr with
      mask := left
      pc := l.fr.pc + 1
      wait := .none
      stack := leaveLoop x l.fr.stack } } } = g1) :
    exec (.llexit w) s = .next (s.setGroup l.k (if left = 0 then g1.resume l.fi 0 else g1)) := by
  have hagree : (w.u == 1 && !(l.part w).isEmpty && !((l.part w).length == l.active.length)) = false := by
    rcases hu with hu | hu | hu <;> simp [hu]
  subst hx hleft hg1
  refine perform_of_no_stores ?_ rfl
  rw [run_bind_ok (run_myLane_of_issues hi), run_bind_ok (run_checkLane (by rw [hagree]; simp [hloops]))]
  exact run_putGroup _ _ _

/-! ## SWITCH (R191) -/

section

variable {recs : List (Nat × Int)} {w2 w3 : Work} {vals : List (Nat × List Nat)}

/-- What SWITCH does with its records and values; x is the lane PC of the word. -/
def switchLane (w : LaneW) (x : Int) (recs : List (Nat × Int)) (vals : List (Nat × List Nat)) (l : Lane) : Act Unit := do
  let arm := fun (t : Nat) =>
    match vals.find? (fun v => v.1 == t) with
    | none => 8
    | some v => switchArm (arg v.2 0) recs 0
  let arms := ((upFrom 0 9).filterMap (fun i =>
    let ts := l.active.filter (fun t => arm t == i)
    if ts.isEmpty then none else some (i, maskW ts, if i < 8 then x + (nth recs i (0, 0)).2 else x + 1)))
  checkLane l [(w.u == 1 && decide (arms.length > 1), 0x07)]
  match arms with
  | [a] => if a.1 = 8 then laneDone else laneJump l a.2.2
  | _ => splitLane l (arms.map (fun a => (a.2.1, a.2.2)))

theorem run_switchL {u : Work} (hc : Closed s l l1) (ha : l1.g.noReg w.a.toNat false = false)
    (hrec : readTable l1 ((s.setGroup l.k l1.g).portOf (.group l.k)) (l1.fr.pc + w.imm.toInt) (upFrom 0 w.c.toNat)
      ⟨s.setGroup l.k l1.g, []⟩ = .ok (recs, w2))
    (hvals : readOps w (l1.part w) [slot32 w.a] w2 = .ok (vals, w3)) (hi2 : LaneIssues w3.cur l2)
    (hm : switchLane w l1.fr.pc recs vals l2 w3 = .ok ((), u)) : exec (.switchL w) s = .next (s.after u) := by
  obtain ⟨hclose, hi1⟩ := run_closeLane_of_closed hc
  have hsrc : checkSrc [slot32 w.a] ⟨s.setGroup l.k l1.g, []⟩ = .ok ((), ⟨s.setGroup l.k l1.g, []⟩) := by
    rw [checkSrc, run_bind_ok (run_laneOf (v := ⟨s.setGroup l.k l1.g, []⟩) hi1)]
    simp [slot32, ha]
  refine perform_after ?_
  rw [run_bind_ok hclose, run_bind_ok (run_laneOf (v := ⟨s.setGroup l.k l1.g, []⟩) hi1), run_bind_ok hsrc,
    run_bind_ok (run_now _)]
  have hk : l1.k = l.k := hc.2.2.1
  rw [hk]
  refine (run_bind_ok hrec).trans ?_
  rw [run_bind_ok hvals, run_bind_ok (run_laneOf hi2)]
  exact hm

/-- Threads that all fall into one arm leave one arm of the split. -/
theorem arms_of_one {ts : List Nat} {arm : Nat → Nat} {i : Nat} {f : Nat → List Nat → W32 × Int} (hts : ts ≠ []) (hi : i < 9)
    (hall : ∀ t ∈ ts, arm t = i) :
    (upFrom 0 9).filterMap (fun j =>
      if (ts.filter (fun t => arm t == j)).isEmpty then none else some (j, f j (ts.filter (fun t => arm t == j)))) = [(i, f i ts)] := by
  have hself : ts.filter (fun t => arm t == i) = ts := List.filter_eq_self.mpr fun t ht => by simp [hall t ht]
  have hother : ∀ j, j ≠ i → ts.filter (fun t => arm t == j) = [] := fun j hj =>
    List.filter_eq_nil_iff.mpr fun t ht => by simp [hall t ht, Ne.symm hj]
  have hfun : (fun j => if (ts.filter (fun t => arm t == j)).isEmpty then none
      else some (j, f j (ts.filter (fun t => arm t == j)))) = fun j => if j = i then some (i, f i ts) else none := by
    funext j
    by_cases hj : j = i
    · subst hj
      simp [hself, hts]
    · simp [hother j hj, hj]
  rw [hfun]
  have hlist : ∀ i < 9, ∀ x : Nat × W32 × Int, (upFrom 0 9).filterMap (fun j => if j = i then some x else none) = [x] := by
    intro i hi x
    match i, hi with
    | 0, _ | 1, _ | 2, _ | 3, _ | 4, _ | 5, _ | 6, _ | 7, _ | 8, _ => rfl
    | n + 9, hi => exact absurd hi (Nat.not_lt.mpr (Nat.le_add_left 9 n))
  exact hlist i hi _

theorem switchLane_one {x : Int} {i : Nat} (hts : l2.active ≠ []) (hi : i < 9)
    (hall : ∀ t ∈ l2.active, ((valueAt vals t).map (fun v => switchArm v recs 0)).getD 8 = i) :
    switchLane w x recs vals l2 w3 =
      (if i = 8 then laneDone else laneJump l2 (if i < 8 then x + (nth recs i (0, 0)).2 else x + 1)) w3 := by
  have harm : ∀ t ∈ l2.active, (match vals.find? (fun v => v.1 == t) with
      | none => 8
      | some v => switchArm (arg v.2 0) recs 0) = i := by
    intro t ht
    rw [← hall t ht, valueAt]
    cases vals.find? (fun v => v.1 == t) <;> rfl
  have harms := arms_of_one (f := fun i ts => (maskW ts, if i < 8 then x + (nth recs i (0, 0)).2 else x + 1)) hts hi harm
  simp only [switchLane]
  rw [harms, run_bind_ok (run_checkLane (by simp))]

end

end

/-- Settles O31: the windows close, and the branches of each word are told apart by what the threads agree on. -/
theorem laneControlWordsComplete : Obligations.LaneControlWordsComplete := by
  refine ⟨fun s l l1 w hc => ⟨brl_agrees hc, brl_falls hc, brl_splits_topmost hc, brl_splits_inner hc⟩,
    fun s l l1 l2 w recs w2 vals w3 hc ha hrec hvals hi2 hk hfi hts => ⟨fun i hi hall => ?_, fun hall => ?_⟩,
    fun s l l1 w hc => ⟨fun st f d m c i t hst => reconv_goes hc (.inl ⟨st, f, d, m, c, i, t, hst⟩),
      fun hst hroot => reconv_goes hc (.inr ⟨hst, hroot⟩), fun r hst hroot => reconv_parks hc hst hroot,
      fun m x t hst => reconv_resumes hc ⟨m, x, t, hst⟩⟩,
    fun s l w xs g1 hi hd hr hu => ⟨fun hgo => ?_, fun hgo hdepth hloops => ?_⟩,
    fun s l w hi hloops hu => llexit_leaves hi hloops hu rfl rfl rfl, fun s l l1 w hc => lstop_ends hc⟩
  · refine run_switchL hc ha hrec hvals hi2 ?_
    rw [switchLane_one hts (by omega) hall, if_neg (by omega), if_pos hi, run_laneJump hi2, hk]
  · refine run_switchL hc ha hrec hvals hi2 ?_
    rw [switchLane_one hts (by omega) hall, if_pos rfl, run_laneDone hi2.1 hi2.2.1 hi2.2.2, hk, hfi]
  · refine run_lloop hi hd hr rfl rfl hu (.inl hgo) fun hi1 => ?_
    rw [loopLane, if_pos (by simpa using hgo)]
    exact run_laneJump (v := ⟨s.setGroup l.k g1, []⟩) hi1 _
  · refine run_lloop hi hd hr rfl rfl hu (.inr ⟨hdepth, hloops⟩) fun hi1 => ?_
    rw [loopLane, if_neg (by simpa using hgo)]
    exact run_putGroup _ _ _

end Sys2Proof.Machine
end

section
/-! SUPPORT. Lane words that combine and exchange the values of threads (R64, R182 to R187). -/

namespace Sys2Proof.Machine

open Sys2Proof

section

variable {s : State} {l : Lane} {w : LaneW} {xs : List (Nat × List Nat)} {g1 : Group}

/-- A word whose results are a function of the values of all the threads. -/
theorem combined_gives {rs : List SlotReq} {wide : Bool} {f : Lane → List (Nat × List Nat) → List (Nat × Nat)} (hi : LaneIssues s l)
    (hd : l.g.noReg w.d.toNat wide = false) (hr : l.Reads s w (l.part w) rs xs g1) :
    perform (do
      let l ← myLane
      checkD w wide
      let xs ← readOps w (l.part w) rs
      laneResult w wide (f l xs)) s = .next (s.setGroup l.k ((g1.writeD w.d.toNat wide (f l xs)).laneNext l.fi)) := by
  obtain ⟨hread, hi1⟩ := run_readOps_of_reads hi hr
  refine perform_of_no_stores ?_ rfl
  rw [run_bind_ok (run_myLane_of_issues hi), run_bind_ok (run_checkD_of_issues hi hd), run_bind_ok hread, run_laneResult_of_issues hi1]
  simp

theorem vote_gives (hi : LaneIssues s l) (hd : l.g.noReg w.d.toNat false = false) {ts yes : List Nat} {r : Nat} (hts : l.part w = ts)
    (hyes : ts.filter (fun t => xor ((l.g.thread t).pred (w.imm.toNat % 8)) (bit w.imm.toNat 3)) = yes)
    (hr : (if w.c = 0 then b2n (yes.length == ts.length) else if w.c = 1 then b2n (!yes.isEmpty) else maskOf yes) = r) :
    exec (.vote w) s = .next (s.setGroup l.k ((l.g.writeD w.d.toNat false (ts.map (fun t => (t, r)))).laneNext l.fi)) := by
  subst hts hyes hr
  refine perform_of_no_stores ?_ rfl
  rw [run_bind_ok (run_myLane_of_issues hi), run_bind_ok (run_checkD_of_issues hi hd)]
  exact run_laneResult_of_issues hi _ _

theorem gnorm_gives (hi : LaneIssues s l) (ha : l.g.lacks (w.a.toNat + 2) = false) (hd : l.g.noReg w.d.toNat false = false)
    {rs : List (Nat × Nat)} (hrs : (l.part w).map (fun t =>
      let value := fun (c t : Nat) =>
        if (l.part w).contains t then some (Tab.getD (l.g.thread t).v (w.a.toNat + c) 0).toNat else none
      let diff := fun (y : Bool) (t c : Nat) =>
        ((diffPair l.g.linkWidth y (value c) t ((value c t).getD 0)).map (fun p => fsub32 p.1 p.2)).getD 0
      (t, octNormal (diff false t) (diff true t))) = rs) :
    exec (.gnorm w) s = .next (s.setGroup l.k (l.g.longDone l.fi w rs)) := by
  subst hrs
  refine perform_of_no_stores ?_ rfl
  rw [run_bind_ok (run_myLane_of_issues hi), run_bind_ok (run_checkLane (filter_single ha)), run_bind_ok (run_checkD_of_issues hi hd)]
  exact run_laneLong hi _

theorem groupWordsCombineThreads : GroupWordsCombineThreads := by
  refine ⟨fun s l w xs g1 hi hd hr => combined_gives (f := fun l xs => _) hi hd hr, fun s l w hi hd => vote_gives hi hd rfl rfl rfl,
    fun s l w xs g1 hi hd hr => combined_gives (f := fun l xs => _) hi hd hr,
    fun s l w xs g1 hi hd hr => combined_gives (f := fun l xs => _) hi hd hr, fun y s l w xs g1 hi hd hr => ?_,
    fun s l w hi ha hd => gnorm_gives hi ha hd rfl⟩
  cases y with
  | false => exact combined_gives (f := fun l xs => _) hi hd hr
  | true => exact combined_gives (f := fun l xs => _) hi hd hr

/-! ## XCHG (R186, R187) -/

theorem run_settledLane {v : Work} (hs : l.g.settled = true) : settledLane l v = .ok (l, v) := by
  simp only [Group.settled, Bool.and_eq_true] at hs
  simp [settledLane, hs]

theorem issuer_of_lane (hi : LaneIssues s l) : s.issuer = some (.group l.k) := by
  rw [State.issuer, hi.1]

theorem xchg_waits {ga : Gang} {word key n : Nat} (hi : LaneIssues s l) (hd : l.g.noReg w.d.toNat false = false)
    (hga : Tab.find s.gangs (l.k / 65536) = some ga) (hword : l.plain s 0 (slot64 w.b) 0 = word)
    (hkey : word * 65536 + w.imm.toNat % 65536 = key) (hn : Tab.getD l.g.xchgs key 0 = n)
    (hok : partnerOk (s.nodeRec ga) ga.gpc word = true) (hself : word ≠ s.whoWord (.group l.k)) (hset : l.g.settled = true)
    (hthere : ∀ k g, s.partner ga.inst word = some k → Tab.find s.groups k = some g → g.exited = false)
    (hr : l.Reads s w (l.part w) (plain1 w) xs g1) :
    exec (.xchg w) s = .next (s.setGroup l.k { g1 with
      xchgs := Tab.set g1.xchgs key (n + 1)
      run := { g1.run with frags := setNth g1.run.frags l.fi { l.fr with
        wait := .xchg word (w.imm.toNat % 65536) n w.d.toNat (xs.map (fun x => (x.1, BitVec.ofNat 32 (arg x.2 0)))) } } }) := by
  obtain ⟨hread, hi1⟩ := run_readOps_of_reads hi hr
  have hcheck : ¬ ((!partnerOk (s.nodeRec ga) ga.gpc word || word == s.whoWord (.group l.k)) = true) := by
    simp [hok, hself]
  have hgone : ¬ ((((s.partner ga.inst word).bind (fun k => Tab.find s.groups k)).map (fun g => g.exited) == some true) = true) := by
    cases hp : s.partner ga.inst word with
    | none => simp
    | some k =>
      cases hg : Tab.find s.groups k with
      | none => simp [hg]
      | some g => simp [hg, hthere k g hp hg]
  have hgang : myGang ⟨s, []⟩ = .ok ((l.k / 65536, ga), ⟨s, []⟩) := run_myGangGroup (w := ⟨s, []⟩) (issuer_of_lane hi) hga
  subst hkey hn
  refine perform_of_no_stores ?_ rfl
  rw [run_bind_ok (run_myLane_of_issues hi)]
  dsimp only
  rw [run_bind_ok (run_checkD_of_issues hi hd), run_bind_ok (run_now _), run_bind_ok hgang]
  dsimp only
  rw [show l.plain s 0 ⟨w.b.toNat, true, false⟩ 0 = word from hword, if_neg hcheck, run_bind_ok (run_settledLane hset)]
  refine (run_bind_ok hread).trans ?_
  rw [if_neg hgone, run_modGroup _ hi1.2.1]
  simp

theorem xchgMatch_gives {gk hk tag n gi gd hi hd : Nat} {g h : Group} {t : List (Nat × Nat)} {gv hv : Tab W32}
    (hg : Tab.find s.groups gk = some g) (hh : Tab.find s.groups hk = some h) (hne : gk ≠ hk)
    (hinst : s.instOf (.group gk) = s.instOf (.group hk)) (hg1 : g.st.stopped = false) (hg2 : g.st.held = none)
    (hg3 : g.st.tmode = false) (hh1 : h.st.stopped = false) (hh2 : h.st.held = none) (hh3 : h.st.tmode = false)
    (hex : (g.exchanges (s.whoWord (.group hk))).filter (fun x => (h.exchanges (s.whoWord (.group gk))).contains x) = (tag, n) :: t)
    (hgw : g.waiting (s.whoWord (.group hk)) tag n = some (gi, gd, gv))
    (hhw : h.waiting (s.whoWord (.group gk)) tag n = some (hi, hd, hv)) :
    exec (.xchgMatch gk hk) s = .next ((s.setGroup gk
      ((g.writeD gd false (gv.map (fun x => (x.1, ((Tab.find hv x.1).getD x.2).toNat)))).laneNext gi)).setGroup hk
      ((h.writeD hd false (hv.map (fun x => (x.1, ((Tab.find gv x.1).getD x.2).toNat)))).laneNext hi)) := by
  refine perform_of_no_stores ?_ rfl
  rw [run_bind_ok (run_now _), run_bind_ok (run_getGroup (w := ⟨s, []⟩) hg), run_bind_ok (run_getGroup (w := ⟨s, []⟩) hh)]
  dsimp only
  rw [hex, List.head?_cons, run_bind_ok (v := ⟨s, []⟩) (a := ()) (by simp [hne, hinst, hg1, hg2, hg3, hh1, hh2, hh3])]
  simp [hgw, hhw, Group.swapIn]

theorem exchangesPairUp : ExchangesPairUp :=
  ⟨fun _ _ _ _ _ _ hi hd hga hok hself hset hthere hr => xchg_waits hi hd hga rfl rfl rfl hok hself hset hthere hr,
    fun _ _ _ _ _ _ _ _ _ _ _ _ _ _ hg hh hne hinst hg1 hg2 hg3 hh1 hh2 hh3 hex hgw hhw =>
      xchgMatch_gives hg hh hne hinst hg1 hg2 hg3 hh1 hh2 hh3 hex hgw hhw⟩

/-- Settles O33: the values of all the threads that take part give each its result; a match gives both sides theirs. -/
theorem threadsExchangeValues : Obligations.ThreadsExchangeValues := ⟨groupWordsCombineThreads, exchangesPairUp⟩

end

end Sys2Proof.Machine
end

section
/-! SUPPORT. The lane words of the matrix engine (R325 to R328), and how a lane word's entry enters its queue. -/

namespace Sys2Proof.Machine

open Sys2Proof

section

variable {s : State} {l : Lane} {v : Work} {w : LaneW} {ga : Gang} {xs : List (Nat × List Nat)} {g g1 g2 gx : Group} {q : Nat} {op : EOp}

/-! ## What completing a lane word leaves of its group -/

theorem laneNext_keeps (g : Group) (fi : Nat) : (g.laneNext fi).queues = g.queues ∧ (g.laneNext fi).st = g.st ∧
    (g.laneNext fi).id = g.id ∧ (g.laneNext fi).fmts = g.fmts ∧ (g.laneNext fi).lpend = g.lpend ∧ (g.laneNext fi).tags = g.tags ∧
    (g.laneNext fi).sorts = g.sorts := by
  unfold Group.laneNext
  split <;> simp

theorem openWindow_keeps (g : Group) (fi la : Nat) (p : LPend) : (g.openWindow fi la p).queues = g.queues ∧
    (g.openWindow fi la p).st = g.st ∧ (g.openWindow fi la p).id = g.id ∧ (g.openWindow fi la p).fmts = g.fmts ∧
    (g.openWindow fi la p).sorts = g.sorts := by
  unfold Group.openWindow
  split <;> simp

@[simp] theorem laneNext_queues (g : Group) (fi : Nat) : (g.laneNext fi).queues = g.queues := (laneNext_keeps g fi).1
@[simp] theorem laneNext_st (g : Group) (fi : Nat) : (g.laneNext fi).st = g.st := (laneNext_keeps g fi).2.1
@[simp] theorem laneNext_id (g : Group) (fi : Nat) : (g.laneNext fi).id = g.id := (laneNext_keeps g fi).2.2.1
@[simp] theorem laneNext_fmts (g : Group) (fi : Nat) : (g.laneNext fi).fmts = g.fmts := (laneNext_keeps g fi).2.2.2.1
@[simp] theorem laneNext_lpend (g : Group) (fi : Nat) : (g.laneNext fi).lpend = g.lpend := (laneNext_keeps g fi).2.2.2.2.1
@[simp] theorem laneNext_tags (g : Group) (fi : Nat) : (g.laneNext fi).tags = g.tags := (laneNext_keeps g fi).2.2.2.2.2.1
@[simp] theorem laneNext_sorts (g : Group) (fi : Nat) : (g.laneNext fi).sorts = g.sorts := (laneNext_keeps g fi).2.2.2.2.2.2

/-! ## An entry of a lane word -/

/-- A word that leaves its group with one more entry, over a group with the queues and the stream of the one it issued in. -/
theorem entersQueue_of_next {o : Host.Outcome State Fault Refusal} {b : Nat} (ho : o = .next (s.tickOn.setGroup l.k g2))
    (hq : g2.queues = (gx.issued q op b).queues) (hx : gx.queues = l.g.queues) (hst : g2.st = l.g.st) : EntersQueue s l q o op := by
  have hgx : gx.queue = l.g.queue := by
    funext j
    rw [Group.queue, Group.queue, hx]
  have hself : g2.queue q = (gx.issued q op b).queue q := by rw [Group.queue, hq, Group.queue]
  rw [issued_queue, hgx] at hself
  refine ⟨g2, gx.entry q op b, ho, by rw [hself], rfl, by rw [Group.entry, hgx], by rw [hself], hst, fun j hj => ?_⟩
  have hkeep : g2.queue j = gx.queue j := by
    rw [Group.queue, hq, Group.issued, Group.queue]
    exact Tab.getD_set_ne _ _ _ hj
  rw [hkeep, hgx]

theorem run_issueDone (hi : LaneIssues v.cur l) (hr : v.cur.roomFor l.k q = true) :
    (do discard (issueEntry l.k q op); laneDone : Act Unit) v =
      .ok ((), ⟨v.cur.tickOn.setGroup l.k ((l.g.issued q op v.cur.tick).laneNext l.fi), v.stores⟩) := by
  have hi1 : LaneIssues (v.cur.tickOn.setGroup l.k (l.g.issued q op v.cur.tick)) { l with g := l.g.issued q op v.cur.tick } :=
    ⟨hi.1, by simp, hi.2.2⟩
  rw [run_bind_ok (run_discard_ok (run_issueEntry hr hi.2.1))]
  refine (run_laneDone (w := ⟨v.cur.tickOn.setGroup l.k (l.g.issued q op v.cur.tick), v.stores⟩)
    (l := { l with g := l.g.issued q op v.cur.tick }) hi1.1 hi1.2.1 hi1.2.2).trans ?_
  simp

/-- A lane word that issues its entry and completes. -/
theorem entersQueue_of_issueDone {m : Act Unit} (hi : LaneIssues v.cur { l with g := gx }) (hv : ∀ g2, v.cur.tickOn.setGroup l.k g2 = s.tickOn.setGroup l.k g2)
    (hmem : v.stores = []) (hx : gx.queues = l.g.queues) (hst : gx.st = l.g.st) (hr : v.cur.roomFor l.k q = true)
    (hm : m ⟨s, []⟩ = (do discard (issueEntry l.k q op); laneDone : Act Unit) v) : EntersQueue s l q (perform m s) op := by
  refine entersQueue_of_next (gx := gx) (b := v.cur.tick) (g2 := (gx.issued q op v.cur.tick).laneNext l.fi)
    (perform_of_no_stores ?_ rfl) (by simp) hx (by simp [hst])
  rw [hm]
  refine (run_issueDone hi hr).trans ?_
  rw [hmem]
  simp [hv]

/-! ## MFEED, MSCALE and MDRAIN (R325 to R327) -/

theorem run_matrixGang (hi : LaneIssues s l) (hga : Tab.find s.gangs (l.k / 65536) = some ga) (hbit : bit (s.nodeRec ga) 247 = true) :
    matrixGang l [] ⟨s, []⟩ = .ok (ga, ⟨s, []⟩) := by
  rw [matrixGang, run_bind_ok (run_myGangGroup (w := ⟨s, []⟩) (issuer_of_lane hi) hga)]
  dsimp only
  rw [run_bind_ok (run_now _), run_bind_ok (run_checkLane (by simp [hbit]))]
  rfl

theorem reads_keeps {ts : List Nat} {rs : List SlotReq} (hr : l.Reads s w ts rs xs g1) : g1.queues = l.g.queues ∧ g1.st = l.g.st ∧
    g1.id = l.g.id ∧ g1.run = l.g.run ∧ g1.threads = l.g.threads ∧ g1.tags = l.g.tags ∧ g1.lpend = l.g.lpend := by
  obtain ⟨_, _, _, _, _, rfl⟩ := hr
  exact ⟨rfl, rfl, rfl, rfl, rfl, rfl, rfl⟩

/-- A lane word that reads its slots, issues its entry and completes. -/
theorem entersQueue_of_reads {ts : List Nat} {rs : List SlotReq} {m : Act Unit} (hi : LaneIssues s l)
    (hr : l.Reads s w ts rs xs g1) (hroom : s.roomy l q)
    (hm : m ⟨s, []⟩ = (do discard (issueEntry l.k q op); laneDone : Act Unit) ⟨s.setGroup l.k g1, []⟩) :
    EntersQueue s l q (perform m s) op := by
  obtain ⟨hq, hst, hid, -⟩ := reads_keeps hr
  exact entersQueue_of_issueDone (v := ⟨s.setGroup l.k g1, []⟩) (run_readOps_of_reads hi hr).2
    (fun g2 => by simp [← setGroup_tickOn]) rfl hq hst (hroom.2 g1 hq hid) hm

theorem mfeed_enters (hi : LaneEnters s l ga 2) (hbit : bit (s.nodeRec ga) 247 = true) (hr : l.Reads s w (l.part w) (plain2 w) xs g1)
    (hv : ∀ x ∈ xs, ∀ y ∈ xs, arg x.2 1 = arg y.2 1) :
    EntersQueue s l 2 (exec (.mfeed w) s) (.mfeed (w.imm.toNat % 128)
      ((upFrom 0 32).map (fun t => if (l.g.thread t).cls == .helper then 0 else BitVec.ofNat 32 ((valueAt xs t).getD 0)))
      (xs.head?.map (fun x => BitVec.ofNat 32 (arg x.2 1)))) := by
  obtain ⟨hl, hga, hroom⟩ := hi
  have hagree : ¬ ((xs.map (fun x => arg x.2 1)).any (fun v => !(v == nth (xs.map (fun x => arg x.2 1)) 0 0)) = true) := by
    cases xs with
    | nil => simp
    | cons x xs =>
      simp only [List.any_map, List.any_eq_true, not_exists, not_and]
      intro y hy
      simpa [nth] using hv y hy x (by simp)
  refine entersQueue_of_reads hl hr hroom ?_
  rw [run_bind_ok (run_myLane_of_issues hl), run_bind_ok (run_discard_ok (run_matrixGang hl hga hbit))]
  refine (run_bind_ok (run_readOps_of_reads hl hr).1).trans ?_
  rw [if_neg hagree]
  simp only [List.head?_map, Option.map_map, Function.comp_def]
  refine congrArg (fun ws => (do discard (issueEntry l.k 2 (.mfeed _ ws _)); laneDone : Act Unit) _) (List.map_congr_left fun t _ => ?_)
  rw [valueAt]
  cases xs.find? (fun x => x.1 == t) <;> simp

theorem mscale_enters (hi : LaneEnters s l ga 2) (hbit : bit (s.nodeRec ga) 247 = true) (hr : l.Reads s w (l.part w) (plain1 w) xs g1) :
    EntersQueue s l 2 (exec (.mscale w) s) (.mscale
      ((xs.filter (fun x => !((l.g.thread x.1).cls == .helper) && decide (w.imm.toNat % 128 + x.1 ≤ 127))).map (fun x =>
        (w.imm.toNat % 128 + x.1, BitVec.ofNat 8 (arg x.2 0))))) := by
  obtain ⟨hl, hga, hroom⟩ := hi
  refine entersQueue_of_reads hl hr hroom ?_
  rw [run_bind_ok (run_myLane_of_issues hl), run_bind_ok (run_discard_ok (run_matrixGang hl hga hbit))]
  exact run_bind_ok (run_readOps_of_reads hl hr).1

/-- The two ways of a word whose entry needs no operand from a queue. -/
theorem entersIf_of_runs {m : Act Unit} {some_ : Bool} (hi : LaneEnters s l ga q)
    (hm : m ⟨s, []⟩ = (if some_ then (do discard (issueEntry l.k q op); laneDone) else laneDone : Act Unit) ⟨s, []⟩) :
    EntersIf some_ s l l.g q (perform m s) op := by
  obtain ⟨hl, -, hroom⟩ := hi
  cases some_ with
  | true => exact entersQueue_of_issueDone (v := ⟨s, []⟩) hl (fun _ => rfl) rfl rfl rfl hroom.1 hm
  | false => exact perform_of_no_stores (hm.trans (run_laneDone (w := ⟨s, []⟩) hl.1 hl.2.1 hl.2.2)) rfl

theorem barIndex_ok (hb : BarIndexOk w ga) : decide (fld w.imm.toNat 8 8 ≠ 0xFF ∧ fld w.imm.toNat 8 8 ≥ ga.nbar) = false := by
  have h : ¬ (fld w.imm.toNat 8 8 ≠ 0xFF ∧ fld w.imm.toNat 8 8 ≥ ga.nbar) := by
    rcases hb with hb | hb <;> omega
  exact decide_eq_false h

theorem mdrain_enters (hi : LaneEnters s l ga 2) (hbit : bit (s.nodeRec ga) 247 = true) (hb : BarIndexOk w ga) :
    EntersIf ((l.part w).any (fun t => !((l.g.thread t).cls == .helper))) s l l.g 2 (exec (.mdrain w) s)
      (.mdrain (fld w.imm.toNat 0 3) (bit w.imm.toNat 3) (bit w.imm.toNat 4) (satOf w) (rmOf w)
        (l.plain s w.imm.toNat (slot64 w.a) 0) (texBar w.imm.toNat)) := by
  refine entersIf_of_runs hi ?_
  rw [run_bind_ok (run_myLane_of_issues hi.1)]
  dsimp only
  rw [run_bind_ok (run_matrixGang hi.1 hi.2.1 hbit), run_bind_ok (run_checkLane (filter_single (barIndex_ok hb))), run_bind_ok (run_now _)]
  cases (l.part w).any (fun t => !((l.g.thread t).cls == .helper)) <;> rfl

/-! ## MFMT (R328) -/

/-- The group that a long-latency word leaves while its results are still to come (R89). -/
def Group.later (g : Group) (fi : Nat) (w : LaneW) : Group :=
  { g.openWindow fi w.la.toNat ⟨g.tags, false, []⟩ with tags := g.tags + 1 }.laneNext fi

theorem run_later (hi : LaneIssues v.cur l) :
    laneLater w v = .ok (l.g.tags, ⟨v.cur.setGroup l.k (l.g.later l.fi w), v.stores⟩) :=
  run_laneLater hi.1 hi.2.1 hi.2.2 w

theorem later_keeps (g : Group) (fi : Nat) (w : LaneW) : (g.later fi w).queues = g.queues ∧ (g.later fi w).st = g.st ∧
    (g.later fi w).id = g.id ∧ (g.later fi w).fmts = g.fmts ∧ (g.later fi w).sorts = g.sorts := by
  obtain ⟨hq, hst, hid, hf, hs⟩ := openWindow_keeps g fi w.la.toNat ⟨g.tags, false, []⟩
  exact ⟨by simp [Group.later, hq], by simp [Group.later, hst], by simp [Group.later, hid], by simp [Group.later, hf],
    by simp [Group.later, hs]⟩

theorem mfmt_asks (hi : LaneIssues s l) (hga : Tab.find s.gangs (l.k / 65536) = some ga) (hbit : bit (s.nodeRec ga) 247 = true)
    (hd : l.g.noReg w.d.toNat false = false) : ∃ g2, exec (.mfmt w) s = .next (s.setGroup l.k g2) ∧
      g2.fmts = l.g.fmts ++ [(l.g.tags, w.c.toNat, w.imm.toNat % 4, w.d.toNat, l.part w)] ∧ g2.queues = l.g.queues := by
  obtain ⟨hq, -, -, hf, -⟩ := later_keeps l.g l.fi w
  refine ⟨{ l.g.later l.fi w with
    fmts := l.g.fmts ++ [(l.g.tags, w.c.toNat, w.imm.toNat % 4, w.d.toNat, l.part w)] }, perform_of_no_stores ?_ rfl, rfl, hq⟩
  rw [run_bind_ok (run_checkD_of_issues hi hd), run_bind_ok (run_myLane_of_issues hi),
    run_bind_ok (run_discard_ok (run_matrixGang hi hga hbit)), run_bind_ok (run_later (v := ⟨s, []⟩) hi), run_modGroup _ (Tab.find_set_same _ _ _)]
  simp [hf]

theorem mfmtRequest_answers {gk tag t f sl d : Nat} {c : Ctx} {ts : List Nat} (hg : Tab.find s.groups gk = some g)
    (hc : Tab.find s.ctxs (gk / 65536) = some c) (hreq : g.fmts.find? (fun x => x.1 == tag) = some (t, f, sl, d, ts)) {n : Nat}
    (hn : ((c.slot sl).map (fun r => nth [shAfmt r, shBfmt r, shCfmt r, shM r, shN r, shK r, shCmask r] f 0)).getD 0 = n) :
    exec (.mfmtRequest gk tag) s = .next (s.setGroup gk { g with
      fmts := g.fmts.filter (fun x => !(x.1 == tag))
      lpend := g.lpend.map (fun p => if p.tag = tag then { p with
        ready := true
        writes := p.writes ++ resultWrites d false (ts.map (fun t => (t, n))) } else p) }) := by
  subst hn
  refine perform_of_no_stores ?_ rfl
  rw [run_bind_ok (run_getGroup (w := ⟨s, []⟩) hg), hreq]
  simp [hc, resultReady, fmtField]

end

/-- Settles O34: what a word takes of its threads goes into its entry, and a format request is answered with its field. -/
theorem laneMatrixWordsComplete : Obligations.LaneMatrixWordsComplete :=
  ⟨fun _ _ _ _ _ _ hi hbit => ⟨mfeed_enters hi hbit, mscale_enters hi hbit, mdrain_enters hi hbit⟩,
    fun _ _ _ _ hi hga hbit hd => mfmt_asks hi hga hbit hd,
    fun _ _ _ _ _ _ _ _ _ _ hg hc hreq => mfmtRequest_answers hg hc hreq rfl⟩

end Sys2Proof.Machine
end

section
/-! SUPPORT. The lane words of the grids, the rasteriser, the Lantern, the sampler, the transform pipe and Carillon: their entries
(R360, R361, R377 to R379, R391 to R400, R414, R415, R427 to R431, R461, R462). -/

namespace Sys2Proof.Machine

open Sys2Proof

section

variable {s : State} {l : Lane} {v : Work} {w : LaneW} {ga : Gang} {xs : List (Nat × List Nat)} {g g1 g2 gx : Group} {q : Nat}

/-! ## Entries whose results come later -/

/-- Issues an entry that carries the tag of the word's pending result. -/
def laterEntry (w : LaneW) (k q : Nat) (op : Nat → EOp) : Act Unit := do
  guardA ((← now).roomFor k q)
  let tag ← laneLater w
  discard (issueEntry k q (op tag))

theorem run_laterEntry {op : Nat → EOp} (hi : LaneIssues v.cur l) (hr : v.cur.roomy l q) :
    laterEntry w l.k q op v =
      .ok ((), ⟨v.cur.tickOn.setGroup l.k ((l.g.later l.fi w).issued q (op l.g.tags) v.cur.tick), v.stores⟩) := by
  obtain ⟨hq, -, hid, -⟩ := later_keeps l.g l.fi w
  rw [laterEntry, run_bind_ok (run_now _), hr.1, run_bind_ok (run_guardA _ _), run_bind_ok (run_later hi)]
  refine (run_discard_ok (run_issueEntry (w := ⟨v.cur.setGroup l.k (l.g.later l.fi w), v.stores⟩) (hr.2 _ hq hid)
    (Tab.find_set_same _ _ _))).trans ?_
  simp [setGroup_tickOn]

theorem roomy_of_reads {ts : List Nat} {rs : List SlotReq} (hr : l.Reads s w ts rs xs g1) (hroom : s.roomy l q) :
    (s.setGroup l.k g1).roomy { l with g := g1 } q := by
  obtain ⟨hq, -, hid, -⟩ := reads_keeps hr
  exact ⟨hroom.2 g1 hq hid, fun g2 hq2 hid2 => by
    rw [setGroup_setGroup]
    exact hroom.2 g2 (hq2.trans hq) (hid2.trans hid)⟩

theorem entersQueue_of_later {op : Nat → EOp} {m : Act Unit} (hi : LaneIssues v.cur { l with g := gx })
    (hr : v.cur.roomy { l with g := gx } q) (hv : ∀ g2, v.cur.tickOn.setGroup l.k g2 = s.tickOn.setGroup l.k g2) (hmem : v.stores = [])
    (hq : gx.queues = l.g.queues) (hst : gx.st = l.g.st) (ht : gx.tags = l.g.tags)
    (hm : m ⟨s, []⟩ = laterEntry w l.k q op v) : EntersQueue s l q (perform m s) (op l.g.tags) := by
  obtain ⟨hlq, hlst, -⟩ := later_keeps gx l.fi w
  refine entersQueue_of_next (gx := gx.later l.fi w) (b := v.cur.tick)
    (g2 := (gx.later l.fi w).issued q (op l.g.tags) v.cur.tick) (perform_of_no_stores ?_ rfl) rfl (hlq.trans hq)
    (by simp [hlst, hst])
  rw [hm]
  refine (run_laterEntry (l := { l with g := gx }) hi hr).trans ?_
  rw [hmem, ← ht]
  simp [hv]

/-- A word that issues when a thread takes part, over the group it issued in. -/
theorem entersIf_of_later {b : Bool} {op : Nat → EOp} {m : Act Unit} (hi : LaneEnters s l ga q)
    (hm : m ⟨s, []⟩ = (if b then laneDone else laterEntry w l.k q op) ⟨s, []⟩) :
    EntersIf (!b) s l l.g q (perform m s) (op l.g.tags) := by
  obtain ⟨hl, -, hroom⟩ := hi
  cases b with
  | false => exact entersQueue_of_later (v := ⟨s, []⟩) (gx := l.g) hl hroom (fun _ => rfl) rfl rfl rfl rfl hm
  | true => exact perform_of_no_stores (hm.trans (run_laneDone (w := ⟨s, []⟩) hl.1 hl.2.1 hl.2.2)) rfl

/-- The same for a word that reads slots first. -/
theorem entersIf_of_readsLater {b : Bool} {op : Nat → EOp} {m : Act Unit} {ts : List Nat} {rs : List SlotReq} (hi : LaneEnters s l ga q)
    (hr : l.Reads s w ts rs xs g1)
    (hm : m ⟨s, []⟩ = (if b then laneDone else laterEntry w l.k q op) ⟨s.setGroup l.k g1, []⟩) :
    EntersIf (!b) s l g1 q (perform m s) (op l.g.tags) := by
  obtain ⟨hl, -, hroom⟩ := hi
  obtain ⟨hq, hst, -, -, -, ht, -⟩ := reads_keeps hr
  have hi1 := (run_readOps_of_reads hl hr).2
  cases b with
  | false =>
    exact entersQueue_of_later (v := ⟨s.setGroup l.k g1, []⟩) (gx := g1) hi1 (roomy_of_reads hr hroom)
      (fun _ => by simp [← setGroup_tickOn]) rfl hq hst ht hm
  | true =>
    refine perform_of_no_stores (hm.trans ((run_laneDone (w := ⟨s.setGroup l.k g1, []⟩) (l := { l with g := g1 })
      hi1.1 hi1.2.1 hi1.2.2).trans ?_)) rfl
    simp

/-! ## SREAD (R379) -/

theorem any_not_eq_false {α : Type} {p : α → Bool} {ys : List α} (h : ∀ x ∈ ys, p x = true) : ys.any (fun x => !p x) = false := by
  simpa using h

theorem sread_enters {b : Raster} (hi : LaneEnters s l ga 4) (hb : l.g.raster = some b) (hr : l.Reads s w (l.part w) (plain1 w) xs g1)
    (hd : l.g.lacks (w.d.toNat + 3) = false) (hsel : ∀ x ∈ xs, selectorOk (patSamples b.header) none (arg x.2 0) = true) :
    EntersIf (!xs.isEmpty) s l g1 4 (exec (.sread w) s) (.sread b w.d.toNat (l.readArgs xs) l.g.tags) := by
  refine entersIf_of_readsLater (w := w) (op := fun tag => .sread b w.d.toNat (l.readArgs xs) tag) hi hr ?_
  rw [run_bind_ok (run_myLane_of_issues hi.1)]
  refine (run_bind_ok (run_readOps_of_reads hi.1 hr).1).trans ?_
  simp only [hb, hd, Option.map_some, Option.getD_some, any_not_eq_false hsel]
  rw [run_bind_ok (run_checkLane (by simp)), run_bind_ok (run_need_some _ _)]
  rfl

/-! ## Entries that have a tag of their own -/

/-- The group with its next result tag taken. -/
def Group.tagged (g : Group) : Group := { g with tags := g.tags + 1 }

theorem run_freshTag (hg : Tab.find v.cur.groups l.k = some g) :
    freshTag l.k v = .ok (g.tags, ⟨v.cur.setGroup l.k g.tagged, v.stores⟩) := by
  rw [freshTag, run_bind_ok (run_getGroup (w := v) hg), run_bind_ok (run_putGroup _ _ _)]
  rfl

theorem tagged_issues (hi : LaneIssues v.cur l) :
    LaneIssues (v.cur.setGroup l.k l.g.tagged) { l with g := l.g.tagged } :=
  ⟨hi.1, by simp, hi.2.2⟩

/-- A word that takes a tag, issues when a thread takes part, and completes. -/
theorem entersIf_of_tagged {b : Bool} {op : EOp} {m : Act Unit} (hi : LaneEnters s l ga q)
    (hm : m ⟨s, []⟩ = if b then (do discard (issueEntry l.k q op); laneDone : Act Unit) ⟨s.setGroup l.k l.g.tagged, []⟩
      else laneDone ⟨s, []⟩) : EntersIf b s l l.g q (perform m s) op := by
  obtain ⟨hl, -, hroom⟩ := hi
  cases b with
  | true =>
    exact entersQueue_of_issueDone (v := ⟨s.setGroup l.k l.g.tagged, []⟩) (gx := l.g.tagged) (tagged_issues (v := ⟨s, []⟩) hl)
      (fun _ => by simp [← setGroup_tickOn]) rfl rfl rfl (hroom.2 _ rfl rfl) hm
  | false => exact perform_of_no_stores (hm.trans (run_laneDone (w := ⟨s, []⟩) hl.1 hl.2.1 hl.2.2)) rfl

/-- The same for a word that reads slots first. -/
theorem entersIf_of_readsTagged {b : Bool} {op : EOp} {m : Act Unit} {ts : List Nat} {rs : List SlotReq} (hi : LaneEnters s l ga q)
    (hr : l.Reads s w ts rs xs g1)
    (hm : m ⟨s, []⟩ = if b then (do discard (issueEntry l.k q op); laneDone : Act Unit)
        ⟨(s.setGroup l.k g1).setGroup l.k g1.tagged, []⟩
      else laneDone ⟨s.setGroup l.k g1, []⟩) : EntersIf b s l g1 q (perform m s) op := by
  obtain ⟨hl, -, hroom⟩ := hi
  obtain ⟨hq, hst, hid, -⟩ := reads_keeps hr
  have hi1 := (run_readOps_of_reads hl hr).2
  cases b with
  | true =>
    exact entersQueue_of_issueDone (v := ⟨(s.setGroup l.k g1).setGroup l.k g1.tagged, []⟩) (gx := g1.tagged)
      (tagged_issues (v := ⟨s.setGroup l.k g1, []⟩) (l := { l with g := g1 }) hi1)
      (fun _ => by simp [← setGroup_tickOn]) rfl hq hst ((roomy_of_reads hr hroom).2 _ rfl rfl) hm
  | false =>
    refine perform_of_no_stores (hm.trans ((run_laneDone (w := ⟨s.setGroup l.k g1, []⟩) (l := { l with g := g1 })
      hi1.1 hi1.2.1 hi1.2.2).trans ?_)) rfl
    simp

/-! ## SWRITE (R379) -/

theorem swriteOp_enters {b : Raster} (z : Bool) (hi : LaneEnters s l ga 4) (hb : l.g.raster = some b)
    (hr : l.Reads s w (l.part w) [slot32 w.b] xs g1) (ha : l.g.lacks (w.a.toNat + 3) = false)
    (hsel : ∀ x ∈ xs, selectorOk (patSamples b.header) none (arg x.2 0) = true) :
    EntersIf (!xs.isEmpty) s l g1 4 (perform (swriteOp z w) s)
      (.swrite b z (xs.map (fun x => l.targ x.1 (arg x.2 0 :: l.regWords x.1 w.a.toNat 4))) l.g.tags) := by
  have hi1 := (run_readOps_of_reads hi.1 hr).2
  obtain ⟨-, -, -, -, -, ht, -⟩ := reads_keeps hr
  have hbad : xs.any (fun x => !((l.g.thread x.1).cls == .helper) && !selectorOk (patSamples b.header) none (arg x.2 0)) = false := by
    simp only [List.any_eq_false]
    exact fun x hx => by simp [hsel x hx]
  refine entersIf_of_readsTagged hi hr ?_
  rw [← ht, swriteOp, run_bind_ok (run_myLane_of_issues hi.1)]
  refine (run_bind_ok (run_readOps_of_reads hi.1 hr).1).trans ?_
  simp only [hb, ha, Option.map_some, Option.getD_some, hbad]
  rw [run_bind_ok (run_checkLane (by simp)), run_bind_ok (run_need_some _ _)]
  cases xs.isEmpty with
  | true => rfl
  | false =>
    rw [if_pos (by rfl), if_pos (by rfl), run_bind_ok (run_now _), (roomy_of_reads hr hi.2.2).1, run_bind_ok (run_guardA _ _),
      run_bind_ok (run_getGroup (w := ⟨s.setGroup l.k g1, []⟩) hi1.2.1), run_bind_ok (run_modGroup _ hi1.2.1 _)]
    rfl

/-! ## SCOVER (R378) -/

theorem scover_enters {b : Raster} {key bva xy : Nat} {w1 : Work} {l1 : Lane} (hi : LaneEnters s l ga 4)
    (hr : l.Reads s w (l.part w) (plain1 w) xs g1) (hne : xs ≠ []) (hd : l.g.lacks (w.d.toNat + 3) = false)
    (hb : l.g.raster = some b) (hbva : ga.bucket = some bva) (hslot : s.usableSlot ga (l.plain s 0 (slot64 w.b) 0) = some key)
    (hsel : ∀ x ∈ xs, selectorOk (patSamples b.header) (some ((s.slotAt key).nu, (s.slotAt key).nv)) (arg x.2 0) = true)
    (hxy : readVA { (s.setGroup l.k g1).portOf (.group l.k) with core := none } fresh bva 4 ⟨s.setGroup l.k g1, []⟩ = .ok (.ok xy, w1))
    (hl1 : LaneIssues w1.cur l1) (hk : l1.k = l.k) (hg1 : l1.g = g1) (hroom : w1.cur.roomy l1 4) :
    ∃ g2 e, exec (.scover w) s = .next (s.after ⟨w1.cur.tickOn.setGroup l.k g2, w1.stores⟩) ∧
      (g2.queue 4).ents = (l.g.queue 4).ents ++ [e] ∧
      e.op = .scover b (fld xy 0 16) (fld xy 16 16) key w.d.toNat (l.readArgs xs) l.g.tags := by
  have hi1 := (run_readOps_of_reads hi.1 hr).2
  obtain ⟨hq, -, -, -, -, ht, -⟩ := reads_keeps hr
  obtain ⟨hlq, -⟩ := later_keeps l1.g l1.fi w
  have hqueue : (l1.g.later l1.fi w).queue 4 = l.g.queue 4 := by rw [Group.queue, hlq, hg1, hq, Group.queue]
  refine ⟨(l1.g.later l1.fi w).issued 4 (.scover b (fld xy 0 16) (fld xy 16 16) key w.d.toNat (l.readArgs xs) l.g.tags) w1.cur.tick,
    _, perform_after ?_, by rw [issued_queue, hqueue], rfl⟩
  rw [run_bind_ok (run_myLane_of_issues hi.1), run_bind_ok (run_getGang (w := ⟨s, []⟩) hi.2.1), run_bind_ok (run_now _)]
  refine (run_bind_ok (run_readOps_of_reads hi.1 hr).1).trans ?_
  simp only [hslot, hb, hbva, hd, Option.map_some, Option.getD_some, any_not_eq_false hsel]
  rw [run_bind_ok (run_checkLane (by simp)), run_bind_ok (run_need_some _ _), run_bind_ok (run_need_some _ _),
    run_bind_ok (run_myPort (w := ⟨s.setGroup l.k g1, []⟩) (issuer_of_lane hi1))]
  refine (run_bind_ok hxy).trans ?_
  dsimp only
  rw [if_neg (by simpa using hne), ← hk, ← ht, ← hg1]
  exact run_laterEntry (op := fun tag => .scover b (fld xy 0 16) (fld xy 16 16) key w.d.toNat (l.readArgs xs) tag) hl1 hroom

/-! ## GWRITE and GREAD (R360, R361) -/

theorem gwrite_enters {key : Nat} {m : GMap} {h : Nat} {words : List Nat} (hi : LaneEnters s l ga 3)
    (hwords : bitsOf 12 w.imm.toNat = words) (hh : l.plain s 0 (slot64 w.b) 0 = h)
    (ha : l.g.lacks (w.a.toNat + words.foldl (fun a b => max a b) 0) = false) (hm : l.g.run.gmap = some m)
    (h32 : fld h 16 32 = fld m.handle 16 32) (h13 : fld h 0 13 = fld m.handle 0 13) (hslot : s.usableSlot ga m.handle = some key)
    (ho : (s.slotAt key).owner = l.k / 65536) :
    EntersQueue s l 3 (exec (.gwrite w) s) (.gwrite key w.imm.toNat (s.slotAt key).nu
      (((l.part w).filter (fun t => (l.g.thread t).cls == .normal)).map (fun t =>
        (t, words.map (fun i => Tab.getD (l.g.thread t).v (w.a.toNat + i) 0)))) m) := by
  subst hwords hh
  refine entersQueue_of_issueDone (v := ⟨s, []⟩) (gx := l.g) hi.1 (fun _ => rfl) rfl rfl rfl hi.2.2.1 ?_
  have hown : (some key).filter (fun key => (s.slotAt key).owner == l.k / 65536) = some key := by simp [Option.filter, ho]
  rw [run_bind_ok (run_myLane_of_issues hi.1), run_bind_ok (a := (l.k / 65536, ga)) (v := ⟨s, []⟩) (by simp [hi.2.1])]
  dsimp only
  rw [run_bind_ok (run_now _)]
  simp only [hm, Option.bind_some, hslot, hown]
  rw [run_bind_ok (run_checkLane (by simp [ha, h32, h13])), run_bind_ok (run_need_some _ _), run_bind_ok (run_need_some _ _),
    hi.2.2.1, run_bind_ok (run_guardA _ _)]

theorem rootDone_keeps (g : Group) : g.rootDone.queues = g.queues ∧ g.rootDone.st = g.st := by
  unfold Group.rootDone
  split
  · split <;> exact ⟨rfl, rfl⟩
  · split
    · split <;> exact ⟨rfl, rfl⟩
    · exact ⟨rfl, rfl⟩

theorem resume_keeps (g : Group) (fi : Nat) (park : W32) : (g.resume fi park).queues = g.queues ∧ (g.resume fi park).st = g.st := by
  unfold Group.resume
  split
  · exact ⟨rfl, rfl⟩
  · split
    · exact ⟨rfl, rfl⟩
    · split
      · exact rootDone_keeps _
      · dsimp only
        split
        · exact ⟨rfl, rfl⟩
        · exact rootDone_keeps _

theorem resumeEmpty_keeps (g : Group) (n : Nat) : (g.resumeEmpty n).queues = g.queues ∧ (g.resumeEmpty n).st = g.st := by
  induction n generalizing g with
  | zero => exact ⟨rfl, rfl⟩
  | succ n ih =>
    rw [Group.resumeEmpty]
    refine ⟨(ih _).1.trans ?_, (ih _).2.trans ?_⟩
    · split
      · rfl
      · split
        · exact (resume_keeps _ _ _).1
        · rfl
    · split
      · rfl
      · split
        · exact (resume_keeps _ _ _).2
        · rfl

/-- The group whose run is mapped to a grid: its threads take the classes of the mapping, and the void ones leave the run. -/
def Group.mapped (g : Group) (m : GMap) (cls : Nat → Cls) : Group :=
  { g with
    threads := g.threads.map (fun x => (x.1, { x.2 with cls := cls x.1 }))
    run := { g.run.without (BitVec.ofNat 32 (maskOf ((upFrom 0 32).filter (fun t => cls t == .void)))) with
      gmap := some m
      linkWd := m.wd } }

theorem mapped_issues {m : GMap} {cls : Nat → Cls} (hi : LaneIssues v.cur l) :
    ∃ fr, LaneIssues (v.cur.setGroup l.k (l.g.mapped m cls)) { l with g := l.g.mapped m cls, fr := fr } := by
  obtain ⟨ha, hg, hf⟩ := hi
  obtain ⟨fr, hfr⟩ : ∃ fr, (l.g.mapped m cls).run.frags[l.fi]? = some fr := by
    simp [Group.mapped, Run.without, hf]
  exact ⟨fr, ha, by simp, hfr⟩

theorem gread_enters {key h : Nat} {m : GMap} {sl : Slot} (apron : Bool) (hi : LaneEnters s l ga 3)
    (hh : l.plain s 0 (slot64 w.a) 0 = h)
    (hm : (⟨h, sext 6 w.imm.toNat, sext 6 (w.imm.toNat / 256), fld w.imm.toNat 16 5 + 1⟩ : GMap) = m)
    (hsl : s.slotAt key = sl) (hd : l.g.lacks (w.d.toNat + 11) = false) (hps : w.psel = 7) (hpn : w.pneg = 0)
    (hmask : l.fr.mask.toNat = maskOf l.g.present) (hc0 : -1 ≤ m.col0) (hc1 : m.col0 ≤ 17) (hr0 : -1 ≤ m.row0) (hr1 : m.row0 ≤ 17)
    (hno : l.g.run.gmap = none) (hslot : s.usableSlot ga h = some key) :
    EntersQueue s l 3 (perform (greadOp apron w) s) (.gread key m w.d.toNat
      (((upFrom 0 32).filter (fun t => !(m.cls sl.nu sl.nv apron t == .void))).map (fun t => (t, m.cls sl.nu sl.nv apron t == .helper)))
      l.g.tags) := by
  obtain ⟨hl, hga, hroom⟩ := hi
  subst hh hsl
  obtain ⟨fr, hl1⟩ := mapped_issues (v := ⟨s, []⟩) (m := m) (cls := m.cls (s.slotAt key).nu (s.slotAt key).nv apron) hl
  generalize hgm : l.g.mapped m (m.cls (s.slotAt key).nu (s.slotAt key).nv apron) = gm at hl1
  have hgmk : gm.queues = l.g.queues ∧ gm.st = l.g.st ∧ gm.id = l.g.id ∧ gm.tags = l.g.tags := by
    subst hgm
    exact ⟨rfl, rfl, rfl, rfl⟩
  obtain ⟨hgq, hgst, hgid, hgt⟩ := hgmk
  obtain ⟨hlq, hlst, hlid, -⟩ := later_keeps gm l.fi w
  have hout : ∀ x : Int, -1 ≤ x → x ≤ 17 → (decide (x < -1) || decide (x > 17)) = false := fun x h0 h1 => by
    simp [h0, h1]
  have hcheck : ([(l.g.lacks (w.d.toNat + 11), 0x04), (!(w.psel == 7) || w.pneg == 1, 0x04),
      (!(l.fr.mask.toNat == maskOf l.g.present), 0x04),
      ((decide (m.col0 < -1) || decide (m.col0 > 17)) || (decide (m.row0 < -1) || decide (m.row0 > 17)), 0x04),
      (l.g.run.gmap.isSome, 0x04), ((some key).isNone, 0x41)] : List (Bool × Nat)).filter (fun x => x.1) = [] := by
    simp [hd, hps, hpn, hmask, hout _ hc0 hc1, hout _ hr0 hr1, hno]
  have hroom1 : (s.setGroup l.k gm).roomy { l with g := gm, fr := fr } 3 :=
    ⟨hroom.2 gm hgq hgid, fun g2 hq2 hid2 => by
      rw [setGroup_setGroup]
      exact hroom.2 g2 (hq2.trans hgq) (hid2.trans hgid)⟩
  refine entersQueue_of_next (gx := gm.later l.fi w) (b := s.tick)
    (g2 := (((gm.later l.fi w).issued 3 (.gread key m w.d.toNat
      (((upFrom 0 32).filter (fun t => !(m.cls (s.slotAt key).nu (s.slotAt key).nv apron t == .void))).map
        (fun t => (t, m.cls (s.slotAt key).nu (s.slotAt key).nv apron t == .helper))) l.g.tags) s.tick)).resumeEmpty
      (gm.later l.fi w).run.frags.length) (perform_of_no_stores ?_ rfl)
    (resumeEmpty_keeps _ _).1 (hlq.trans hgq) ((resumeEmpty_keeps _ _).2.trans (hlst.trans hgst))
  rw [greadOp, run_bind_ok (run_myLane_of_issues hl), run_bind_ok (run_getGang (w := ⟨s, []⟩) hga)]
  rw [run_bind_ok (run_now _), hm]
  dsimp only
  rw [hslot, run_bind_ok (run_checkLane hcheck), run_bind_ok (run_need_some _ _), hroom.1, run_bind_ok (run_guardA _ _)]
  have hput : putGroup l.k (l.g.mapped m (m.cls (s.slotAt key).nu (s.slotAt key).nv apron)) ⟨s, []⟩ =
      .ok ((), ⟨s.setGroup l.k gm, []⟩) := by
    rw [hgm]
    exact run_putGroup _ _ _
  refine (run_bind_ok hput).trans ((run_bind_ok (run_later (v := ⟨s.setGroup l.k gm, []⟩) hl1)).trans ?_)
  rw [hgt]
  refine (run_bind_ok (run_discard_ok (run_issueEntry (w := ⟨(s.setGroup l.k gm).setGroup l.k (gm.later l.fi w), []⟩)
    (hroom1.2 _ hlq hlid) (Tab.find_set_same _ _ _)))).trans ?_
  rw [run_modGroup _ (Tab.find_set_same _ _ _)]
  simp [← setGroup_tickOn]
  rfl

end

/-- Settles O35: each word passes its checks and leaves its entry with the operands of its threads. -/
theorem laneGridWordsComplete : Obligations.LaneGridWordsComplete := by
  refine ⟨fun s l ga w key apron hi hd hps hpn hmask hc0 hc1 hr0 hr1 hno hslot => ?_,
    fun s l ga w key m hi ha hm h32 h13 hslot ho => gwrite_enters hi rfl rfl ha hm h32 h13 hslot ho,
    fun s l ga w xs g1 key b bva xy w1 l1 hi hr hne hd hb hbva hslot hsel hxy hl1 hk hfi hg1 hroom =>
      scover_enters hi hr hne hd hb hbva hslot hsel hxy hl1 hk hg1 hroom,
    fun s l ga w xs g1 b hi hb => ⟨fun hr hd hsel => sread_enters hi hb hr hd hsel,
      fun hr ha hsel => ⟨swriteOp_enters false hi hb hr ha hsel, swriteOp_enters true hi hb hr ha hsel⟩⟩⟩
  cases apron with
  | false => exact gread_enters false hi rfl rfl rfl hd hps hpn hmask hc0 hc1 hr0 hr1 hno hslot
  | true => exact gread_enters true hi rfl rfl rfl hd hps hpn hmask hc0 hc1 hr0 hr1 hno hslot

end Sys2Proof.Machine
end

section
/-! SUPPORT. The lane words of the sampler, the transform pipe and Carillon (R414, R415, R427 to R431, R461, R462). -/

namespace Sys2Proof.Machine

open Sys2Proof

section

variable {s : State} {l : Lane} {v : Work} {w : LaneW} {ga : Gang} {xs : List (Nat × List Nat)} {g1 : Group} {desc : Nat}

/-! ## The sampler's words (R414, R415) -/

theorem run_texSlot (hi : LaneIssues v.cur l) (hga : Tab.find v.cur.gangs (l.k / 65536) = some ga)
    (hd : Tab.find ga.tex (fld w.imm.toNat 0 2) = some desc) : texSlot l w.imm.toNat v = .ok (some desc, v) := by
  rw [texSlot, run_bind_ok (run_getGang v hga), hd]
  rfl

theorem run_texChecks {regs : List Nat} (hga : Tab.find v.cur.gangs (l.k / 65536) = some ga)
    (hregs : ∀ x ∈ regs, l.g.lacks x = false) (hb : BarIndexOk w ga) :
    texChecks l regs w.imm.toNat (some desc) v = .ok ((), v) := by
  have hnone : (regs.map (fun x => (l.g.lacks x, 0x04)) ++ [((some desc).isNone, 0x04),
        (decide (fld w.imm.toNat 8 8 ≠ 0xFF ∧ fld w.imm.toNat 8 8 ≥ ga.nbar), 0x04)]).filter (fun (x : Bool × Nat) => x.1) = [] := by
    rw [barIndex_ok hb, List.filter_append, List.append_eq_nil_iff]
    exact ⟨by simpa [List.filter_eq_nil_iff] using hregs, rfl⟩
  rw [texChecks, run_bind_ok (run_getGang v hga)]
  exact run_checkLane hnone

theorem texIssue_enters {form n : Nat} (hi : LaneEnters s l ga 6) (hd : Tab.find ga.tex (fld w.imm.toNat 0 2) = some desc)
    (hb : BarIndexOk w ga) (ha : l.g.lacks (w.a.toNat + (n - 1)) = false) (hdst : l.g.lacks (w.d.toNat + 4) = false) :
    EntersIf (!(l.part w).isEmpty) s l l.g 6 (perform (texIssue form n w) s)
      (.tex desc form w.d.toNat (l.regArgs (l.part w) w.a.toNat n) (texBar w.imm.toNat) l.g.tags) := by
  refine entersIf_of_later (w := w) (op := fun tag => .tex desc form w.d.toNat (l.regArgs (l.part w) w.a.toNat n) (texBar w.imm.toNat) tag) hi ?_
  rw [texIssue, run_bind_ok (run_myLane_of_issues hi.1)]
  dsimp only
  rw [run_bind_ok (run_texSlot (v := ⟨s, []⟩) hi.1 hi.2.1 hd),
    run_bind_ok (run_texChecks (v := ⟨s, []⟩) hi.2.1 (by simp [ha, hdst]) hb), run_bind_ok (run_need_some _ _)]
  rfl

theorem texq_enters (hi : LaneEnters s l ga 6) (hd : Tab.find ga.tex (fld w.imm.toNat 0 2) = some desc)
    (hb : BarIndexOk w ga) (hdst : l.g.lacks (w.d.toNat + 3) = false) (hr : l.Reads s w (l.part w) (plain2 w) xs g1) :
    EntersIf (!xs.isEmpty) s l g1 6 (exec (.texq w) s)
      (.texq desc w.d.toNat (({ l with g := g1 } : Lane).readArgs xs) (texBar w.imm.toNat) l.g.tags) := by
  have hi1 := (run_readOps_of_reads hi.1 hr).2
  have hlacks : g1.lacks (w.d.toNat + 3) = false := by
    obtain ⟨_, _, _, _, _, rfl⟩ := hr
    exact hdst
  refine entersIf_of_readsLater (w := w)
    (op := fun tag => .texq desc w.d.toNat (({ l with g := g1 } : Lane).readArgs xs) (texBar w.imm.toNat) tag) hi hr ?_
  rw [run_bind_ok (run_myLane_of_issues hi.1)]
  refine (run_bind_ok (run_readOps_of_reads hi.1 hr).1).trans ?_
  rw [run_bind_ok (run_laneOf (v := ⟨s.setGroup l.k g1, []⟩) hi1)]
  dsimp only
  rw [run_bind_ok (run_texSlot (v := ⟨s.setGroup l.k g1, []⟩) (l := { l with g := g1 }) hi1 hi.2.1 hd),
    run_bind_ok (run_texChecks (v := ⟨s.setGroup l.k g1, []⟩) (l := { l with g := g1 }) hi.2.1 (by simp [hlacks]) hb),
    run_bind_ok (run_need_some _ _)]
  rfl

/-! ## The transform pipe's words (R427 to R431) -/

theorem placed_checks {a n : Nat} (hp : Placed48 a n) : decide (a ≥ 2 ^ 48) = false ∧ decide (a % n ≠ 0) = false := by
  obtain ⟨hlt, hmod⟩ := hp
  exact ⟨decide_eq_false (by omega), decide_eq_false (by omega)⟩

theorem colourIssue_enters {a : Nat} (kind : Nat) (hi : LaneEnters s l ga 7) (hv : l.plain s 0 ⟨w.b.toNat, true, false⟩ 0 = a)
    (hp : Placed48 a 64) (ha : l.g.lacks (w.a.toNat + 2) = false) (hd : l.g.lacks (w.d.toNat + 2) = false) :
    EntersIf (!(l.part w).isEmpty) s l l.g 7 (perform (colourIssue kind w) s)
      (.colour kind a w.d.toNat (l.regArgs (l.part w) w.a.toNat 3) l.g.tags) := by
  obtain ⟨hlt, hmod⟩ := placed_checks hp
  refine entersIf_of_later (w := w) (op := fun tag => .colour kind a w.d.toNat (l.regArgs (l.part w) w.a.toNat 3) tag) hi ?_
  rw [colourIssue, run_bind_ok (run_myLane_of_issues hi.1), run_bind_ok (run_now _)]
  dsimp only
  rw [Lane.scalar, hv, run_bind_ok (run_checkLane (by rw [ha, hd, hlt, hmod]; rfl))]
  rfl

theorem widthOk_of {n : Nat} (h8 : 8 ≤ n) (h16 : n ≤ 16) : widthOk n = true := decide_eq_true ⟨h8, h16⟩

theorem run_runChecks {a n : Nat} {b : Bool} (hb : b = false) (hp : Placed48 a 4) (h8 : 8 ≤ n) (h16 : n ≤ 16) :
    runChecks l a n b v = .ok ((), v) := by
  obtain ⟨hlt, hmod⟩ := placed_checks hp
  exact run_checkLane (by rw [hb, widthOk_of h8 h16, hlt, hmod]; rfl)

theorem xraw_enters {a n : Nat} (hi : LaneEnters s l ga 7) (hv : l.plain s 0 ⟨w.b.toNat, true, false⟩ 0 = a)
    (hn : fld w.imm.toNat 0 5 = n) (h8 : 8 ≤ n) (h16 : n ≤ 16) (hd : l.g.lacks w.d.toNat = false) :
    EntersIf (!(l.part w).isEmpty) s l l.g 7 (exec (.xraw w) s)
      (.xraw a n (bit w.imm.toNat 8) w.d.toNat ((l.part w).map (fun t => l.targ t [])) l.g.tags) := by
  refine entersIf_of_later (w := w)
    (op := fun tag => .xraw a n (bit w.imm.toNat 8) w.d.toNat ((l.part w).map (fun t => l.targ t [])) tag) hi ?_
  rw [run_bind_ok (run_myLane_of_issues hi.1)]
  dsimp only
  rw [run_bind_ok (run_now _)]
  dsimp only
  rw [Lane.scalar, hv, hn, run_bind_ok (run_checkLane (by rw [hd, widthOk_of h8 h16]; rfl))]
  rfl

theorem xunpk_enters {a n : Nat} (hi : LaneEnters s l ga 7) (hv : l.plain s 0 ⟨w.b.toNat, true, false⟩ 0 = a)
    (hn : fld w.imm.toNat 0 5 = n) (h8 : 8 ≤ n) (h16 : n ≤ 16) (hp : Placed48 a 4) (hd : l.g.lacks w.d.toNat = false) :
    EntersIf (!(l.part w).isEmpty) s l l.g 7 (exec (.xunpk w) s)
      (.unpack a n (bit w.imm.toNat 8) w.d.toNat ((l.part w).map (fun t => l.targ t [])) l.g.tags) := by
  refine entersIf_of_later (w := w)
    (op := fun tag => .unpack a n (bit w.imm.toNat 8) w.d.toNat ((l.part w).map (fun t => l.targ t [])) tag) hi ?_
  rw [run_bind_ok (run_myLane_of_issues hi.1)]
  dsimp only
  rw [run_bind_ok (run_now _)]
  dsimp only
  rw [Lane.scalar, hv, hn, run_bind_ok (run_runChecks hd hp h8 h16)]
  rfl

/-- Reading slots leaves what a broadcast operand reads. -/
theorem scalar_of_reads {ts : List Nat} {rs : List SlotReq} (hr : l.Reads s w ts rs xs g1) (code : Nat) :
    ({ l with g := g1 } : Lane).scalar (s.setGroup l.k g1) code = l.plain s 0 ⟨code, true, false⟩ 0 := by
  obtain ⟨_, _, _, _, _, rfl⟩ := hr
  rfl

theorem xpack_enters {a n : Nat} (hi : LaneEnters s l ga 7) (hv : l.plain s 0 ⟨w.b.toNat, true, false⟩ 0 = a)
    (hn : fld w.imm.toNat 0 5 = n) (h8 : 8 ≤ n) (h16 : n ≤ 16) (hp : Placed48 a 4) (hr : l.Reads s w (l.part w) (plain1 w) xs g1) :
    EntersIf (!xs.isEmpty) s l g1 7 (exec (.xpack w) s) (.pack a n (({ l with g := g1 } : Lane).readArgs xs) l.g.tags) := by
  have hi1 := (run_readOps_of_reads hi.1 hr).2
  obtain ⟨-, -, -, -, -, ht, -⟩ := reads_keeps hr
  refine entersIf_of_readsTagged hi hr ?_
  rw [← ht, run_bind_ok (run_myLane_of_issues hi.1)]
  refine (run_bind_ok (run_readOps_of_reads hi.1 hr).1).trans ?_
  rw [run_bind_ok (run_laneOf (v := ⟨s.setGroup l.k g1, []⟩) hi1)]
  dsimp only
  rw [run_bind_ok (run_now _)]
  dsimp only
  rw [scalar_of_reads hr, hv, hn, run_bind_ok (run_runChecks rfl hp h8 h16)]
  cases xs.isEmpty with
  | true => rfl
  | false =>
    rw [if_pos (by rfl), if_pos (by rfl), run_bind_ok (run_now _), (roomy_of_reads hr hi.2.2).1, run_bind_ok (run_guardA _ _),
      run_bind_ok (run_freshTag (v := ⟨s.setGroup l.k g1, []⟩) hi1.2.1)]
    rfl

/-! ## Carillon's words (R461, R462) -/

theorem klaunch_enters (hi : LaneEnters s l ga 8) (hb : BarIndexOk w ga) (hr : l.Reads s w (l.part w) (plain1 w) xs g1) :
    EntersQueue s l 8 (exec (.klaunch w) s) (.klaunch (fld w.imm.toNat 0 4) (bit w.imm.toNat 4) (bit w.imm.toNat 5)
      (xs.map (fun x => (x.1, min (arg x.2 0) 0xFFFF))) (texBar w.imm.toNat)) := by
  have hi1 := (run_readOps_of_reads hi.1 hr).2
  refine entersQueue_of_reads hi.1 hr hi.2.2 ?_
  rw [run_bind_ok (run_myLane_of_issues hi.1)]
  refine (run_bind_ok (run_readOps_of_reads hi.1 hr).1).trans ?_
  rw [run_bind_ok (run_laneOf (v := ⟨s.setGroup l.k g1, []⟩) hi1), run_bind_ok (run_getGang (w := ⟨s.setGroup l.k g1, []⟩) hi.2.1)]
  dsimp only
  rw [run_bind_ok (run_checkLane (filter_single (barIndex_ok hb)))]
  rfl

theorem kcapt_enters (hi : LaneEnters s l ga 8) (hd : l.g.lacks w.d.toNat = false) :
    EntersQueue s l 8 (exec (.kcapt w) s) (.kcapt (bit w.imm.toNat 4) w.d.toNat (l.part w) l.g.tags) := by
  refine entersQueue_of_later (w := w) (v := ⟨s, []⟩) (gx := l.g)
    (op := fun tag => .kcapt (bit w.imm.toNat 4) w.d.toNat (l.part w) tag) hi.1 hi.2.2 (fun _ => rfl) rfl rfl rfl rfl ?_
  rw [run_bind_ok (run_myLane_of_issues hi.1), run_bind_ok (run_checkLane (filter_single hd))]
  rfl

end

/-- Settles O37: each word passes its checks and leaves its entry with the operands of its threads. -/
theorem samplerTransformAndCarillonLaneWordsComplete : Obligations.SamplerTransformAndCarillonLaneWordsComplete :=
  ⟨fun _ _ _ _ _ hi hd hb => ⟨fun hdst => ⟨fun ha => texIssue_enters hi hd hb ha hdst, fun ha => texIssue_enters hi hd hb ha hdst,
      fun ha => texIssue_enters hi hd hb ha hdst⟩, fun _ _ hdst hr => texq_enters hi hd hb hdst hr⟩,
    fun _ _ _ _ hi => ⟨fun hp ha hd => ⟨colourIssue_enters 1 hi rfl hp ha hd, colourIssue_enters 2 hi rfl hp ha hd,
        colourIssue_enters 3 hi rfl hp ha hd⟩,
      fun h8 h16 => ⟨xraw_enters hi rfl rfl h8 h16, xunpk_enters hi rfl rfl h8 h16,
        fun _ _ hp hr => xpack_enters hi rfl rfl h8 h16 hp hr⟩⟩,
    fun _ _ _ _ hi => ⟨fun _ _ hb hr => klaunch_enters hi hb hr, kcapt_enters hi⟩⟩

end Sys2Proof.Machine
end

section
/-! SUPPORT. The Lantern's lane words (R391, R392, R395, R399, R400). -/

namespace Sys2Proof.Machine

open Sys2Proof

section

variable {s : State} {l : Lane} {v : Work} {w : LaneW} {ga : Gang} {xs : List (Nat × List Nat)} {g1 : Group} {bvh : Nat}

theorem run_slotRecord (hga : Tab.find v.cur.gangs (l.k / 65536) = some ga)
    (hb : Tab.find ga.bvh (fld w.imm.toNat 0 2) = some bvh) : slotRecord l w.imm.toNat v = .ok (some bvh, v) := by
  rw [slotRecord, run_bind_ok (run_getGang v hga), hb]
  rfl

theorem run_lanternChecks {regs : List Nat} {cache : Bool} (hregs : ∀ x ∈ regs, l.g.lacks x = false)
    (hc : cache = true → bvhRclog bvh ≠ 0) : lanternChecks l regs (some bvh) cache v = .ok ((), v) := by
  have hcache : (cache && (((some bvh).map bvhRclog).getD 1 == 0)) = false := by
    cases cache with
    | false => rfl
    | true => simpa using hc rfl
  refine run_checkLane ?_
  rw [hcache, List.filter_append, List.append_eq_nil_iff]
  exact ⟨by simpa [List.filter_eq_nil_iff] using hregs, rfl⟩

/-! ## HITGET, RCLOOK and RCINS (R395, R399, R400) -/

theorem hitget_enters (hi : LaneEnters s l ga 5) (hb : Tab.find ga.bvh (fld w.imm.toNat 0 2) = some bvh)
    (hr : l.Reads s w (l.part w) (plain1 w) xs g1) (hd : l.g.lacks (w.d.toNat + 2) = false) :
    EntersIf (!xs.isEmpty) s l g1 5 (exec (.hitget w) s)
      (.hitget bvh w.c.toNat w.d.toNat (xs.map (fun x => ({ l with g := g1 } : Lane).targ x.1 [arg x.2 0])) l.g.tags) := by
  have hi1 := (run_readOps_of_reads hi.1 hr).2
  have hlacks : g1.lacks (w.d.toNat + 2) = false := by
    obtain ⟨_, _, _, _, _, rfl⟩ := hr
    exact hd
  refine entersIf_of_readsLater (w := w) (op := fun tag =>
    .hitget bvh w.c.toNat w.d.toNat (xs.map (fun x => ({ l with g := g1 } : Lane).targ x.1 [arg x.2 0])) tag) hi hr ?_
  rw [run_bind_ok (run_myLane_of_issues hi.1)]
  refine (run_bind_ok (run_readOps_of_reads hi.1 hr).1).trans ?_
  rw [run_bind_ok (run_laneOf (v := ⟨s.setGroup l.k g1, []⟩) hi1),
    run_bind_ok (run_slotRecord (v := ⟨s.setGroup l.k g1, []⟩) (l := { l with g := g1 }) hi.2.1 hb),
    run_bind_ok (run_lanternChecks (by simpa using hlacks) (by simp)), run_bind_ok (run_need_some _ _)]
  rfl

theorem rclook_enters (hi : LaneEnters s l ga 5) (hb : Tab.find ga.bvh (fld w.imm.toNat 0 2) = some bvh)
    (ha : l.g.lacks (w.a.toNat + 5) = false) (hd : l.g.lacks (w.d.toNat + 1) = false) (hrc : bvhRclog bvh ≠ 0) :
    EntersIf (!(l.part w).isEmpty) s l l.g 5 (exec (.rclook w) s)
      (.rclook bvh w.d.toNat (l.regArgs (l.part w) w.a.toNat 6) l.g.tags) := by
  refine entersIf_of_later (w := w) (op := fun tag => .rclook bvh w.d.toNat (l.regArgs (l.part w) w.a.toNat 6) tag) hi ?_
  rw [run_bind_ok (run_myLane_of_issues hi.1), run_bind_ok (run_slotRecord (v := ⟨s, []⟩) hi.2.1 hb),
    run_bind_ok (run_lanternChecks (by simp [ha, hd]) (fun _ => hrc)), run_bind_ok (run_need_some _ _)]
  rfl

theorem isEmpty_filter_not {α : Type} (ts : List α) (p : α → Bool) : (!(ts.filter p).isEmpty) = ts.any p := by
  induction ts with
  | nil => rfl
  | cons t ts ih => cases h : p t <;> simp [h, ih]

theorem rcins_enters (hi : LaneEnters s l ga 5) (hb : Tab.find ga.bvh (fld w.imm.toNat 0 2) = some bvh)
    (ha : l.g.lacks (w.a.toNat + 7) = false) (hrc : bvhRclog bvh ≠ 0) :
    EntersIf ((l.part w).any (fun t => !((l.g.thread t).cls == .helper))) s l l.g 5 (exec (.rcins w) s)
      (.rcins bvh (l.regArgs ((l.part w).filter (fun t => !((l.g.thread t).cls == .helper))) w.a.toNat 8) l.g.tags) := by
  refine entersIf_of_tagged hi ?_
  rw [run_bind_ok (run_myLane_of_issues hi.1), run_bind_ok (run_slotRecord (v := ⟨s, []⟩) hi.2.1 hb),
    run_bind_ok (run_lanternChecks (by simpa using ha) (fun _ => hrc)), run_bind_ok (run_need_some _ _)]
  dsimp only
  rw [isEmpty_filter_not]
  cases (l.part w).any (fun t => !((l.g.thread t).cls == .helper)) with
  | false => rfl
  | true =>
    rw [if_pos rfl, if_pos rfl, run_bind_ok (run_now _), hi.2.2.1, run_bind_ok (run_guardA _ _),
      run_bind_ok (run_freshTag (v := ⟨s, []⟩) hi.1.2.1)]
    rfl

/-! ## TRACE (R391) -/

/-- What TRACE does for the threads that take part, the rays and the helpers among them. -/
def traceParts (w : LaneW) (l : Lane) (bvh : Nat) : Act Unit := do
  if (l.part w).isEmpty then laneDone
  else if ((l.part w).filter (fun t => !((l.g.thread t).cls == .helper))).isEmpty then
    let tag ← laneLater w
    resultReady l.k tag (helperMisses l (l.part w) w.d.toNat)
  else laterEntry w l.k 5 (fun tag => .trace bvh (bit w.imm.toNat 8) (bit w.imm.toNat 9) w.d.toNat
    (l.regArgs (l.part w) w.a.toNat 8) tag)

/-- TRACE: its checks, and then its parts. -/
def traceWord (w : LaneW) : Act Unit := do
  let l ← myLane
  let r ← slotRecord l w.imm.toNat
  lanternChecks l [w.a.toNat + 7, w.d.toNat + 3] r false
  let bvh ← need r
  traceParts w l bvh

theorem exec_trace_eq : exec (.trace w) s = perform (traceWord w) s := rfl

theorem run_traceWord (hi : LaneEnters s l ga 5) (hb : Tab.find ga.bvh (fld w.imm.toNat 0 2) = some bvh)
    (ha : l.g.lacks (w.a.toNat + 7) = false) (hd : l.g.lacks (w.d.toNat + 3) = false) :
    traceWord w ⟨s, []⟩ = traceParts w l bvh ⟨s, []⟩ := by
  rw [traceWord, run_bind_ok (run_myLane_of_issues hi.1), run_bind_ok (run_slotRecord (v := ⟨s, []⟩) hi.2.1 hb),
    run_bind_ok (run_lanternChecks (by simp [ha, hd]) (by simp)), run_bind_ok (run_need_some _ _)]

theorem trace_enters (hi : LaneEnters s l ga 5) (hb : Tab.find ga.bvh (fld w.imm.toNat 0 2) = some bvh)
    (ha : l.g.lacks (w.a.toNat + 7) = false) (hd : l.g.lacks (w.d.toNat + 3) = false)
    (hfull : (l.part w).any (fun t => !((l.g.thread t).cls == .helper)) = true) :
    EntersQueue s l 5 (exec (.trace w) s) (.trace bvh (bit w.imm.toNat 8) (bit w.imm.toNat 9) w.d.toNat
      (l.regArgs (l.part w) w.a.toNat 8) l.g.tags) := by
  have hne : ¬ ((l.part w).isEmpty = true) := by
    intro hnil
    rw [List.isEmpty_iff.mp hnil] at hfull
    exact absurd hfull (by simp)
  have hrays : ¬ (((l.part w).filter (fun t => !((l.g.thread t).cls == .helper))).isEmpty = true) := by
    simpa [← isEmpty_filter_not] using hfull
  rw [exec_trace_eq]
  refine entersQueue_of_later (w := w) (v := ⟨s, []⟩) (gx := l.g) (op := fun tag => .trace bvh (bit w.imm.toNat 8)
    (bit w.imm.toNat 9) w.d.toNat (l.regArgs (l.part w) w.a.toNat 8) tag) hi.1 hi.2.2 (fun _ => rfl) rfl rfl rfl rfl ?_
  rw [run_traceWord hi hb ha hd, traceParts, if_neg hne, if_neg hrays]

theorem trace_idle (hi : LaneEnters s l ga 5) (hb : Tab.find ga.bvh (fld w.imm.toNat 0 2) = some bvh)
    (ha : l.g.lacks (w.a.toNat + 7) = false) (hd : l.g.lacks (w.d.toNat + 3) = false) (hnone : l.part w = []) :
    exec (.trace w) s = .next (s.setGroup l.k (l.g.laneNext l.fi)) := by
  rw [exec_trace_eq]
  refine perform_of_no_stores ?_ rfl
  rw [run_traceWord hi hb ha hd, traceParts, hnone, if_pos (by rfl)]
  exact run_laneDone (w := ⟨s, []⟩) hi.1.1 hi.1.2.1 hi.1.2.2

theorem getElem?_setNth_same {α : Type} (xs : List α) (i : Nat) (x : α) (h : i < xs.length) : (setNth xs i x)[i]? = some x := by
  induction xs generalizing i with
  | nil => simp at h
  | cons y ys ih =>
    cases i with
    | zero => rfl
    | succ n => simpa [setNth] using ih n (by simpa using h)

/-- A pending result leaves the threads as completing the word does. -/
theorem later_pends (hi : LaneIssues s l) : (l.g.later l.fi w).threads = (l.g.laneNext l.fi).threads ∧
    (l.g.later l.fi w).lpend = l.g.lpend ++ [⟨l.g.tags, false, []⟩] := by
  have hf := hi.2.2
  have hlt : l.fi < l.g.run.frags.length := (List.getElem?_eq_some_iff.mp hf).1
  simp [Group.later, Group.openWindow, Group.laneNext, hf, getElem?_setNth_same _ _ _ hlt]

theorem trace_helpers (hi : LaneEnters s l ga 5) (hb : Tab.find ga.bvh (fld w.imm.toNat 0 2) = some bvh)
    (ha : l.g.lacks (w.a.toNat + 7) = false) (hd : l.g.lacks (w.d.toNat + 3) = false) (hne : l.part w ≠ [])
    (hfull : (l.part w).any (fun t => !((l.g.thread t).cls == .helper)) = false) :
    ∃ g2, exec (.trace w) s = .next (s.setGroup l.k g2) ∧ g2.threads = (l.g.laneNext l.fi).threads ∧ g2.queues = l.g.queues ∧
      g2.lpend = l.g.lpend.map (fun p => if p.tag = l.g.tags then { p with
        ready := true
        writes := p.writes ++ (l.part w).flatMap (fun t => wordWrites t w.d.toNat (hitRecord4 none)) } else p) ++
        [⟨l.g.tags, true, (l.part w).flatMap (fun t => wordWrites t w.d.toNat (hitRecord4 none))⟩] := by
  have hrays : ((l.part w).filter (fun t => !((l.g.thread t).cls == .helper))).isEmpty = true := by
    simpa [← isEmpty_filter_not] using hfull
  have hall : (l.part w).filter (fun t => (l.g.thread t).cls == .helper) = l.part w := by
    simpa [List.filter_eq_self] using hfull
  obtain ⟨hth, hlp⟩ := later_pends (w := w) hi.1
  obtain ⟨hq, -⟩ := later_keeps l.g l.fi w
  refine ⟨{ l.g.later l.fi w with lpend := (l.g.later l.fi w).lpend.map (fun p => if p.tag == l.g.tags then { p with
    ready := true
    writes := p.writes ++ helperMisses l (l.part w) w.d.toNat } else p) }, ?_, hth, hq, ?_⟩
  · rw [exec_trace_eq]
    refine perform_of_no_stores ?_ rfl
    rw [run_traceWord hi hb ha hd, traceParts, if_neg (by simpa using hne), if_pos hrays, run_bind_ok (run_later (v := ⟨s, []⟩) hi.1),
      resultReady, run_modGroup _ (Tab.find_set_same _ _ _)]
    simp
  · simp [hlp, helperMisses, hall]

/-! ## TRACE.SORT (R392) -/

/-- What TRACE.SORT does once its windows are closed. -/
def sortWord (w : LaneW) (l : Lane) : Act Unit := do
  checkLane l [(!l.fr.stack.isEmpty, 0x04)]
  match l.g.run.root with
  | some r => putGroup l.k ({ l.g with run := { l.g.run with root := some (r.sortAt l.fr.pc) } }.resume l.fi l.fr.mask)
  | none =>
    let r ← slotRecord l w.imm.toNat
    lanternChecks l [w.a.toNat + 7, w.d.toNat + 3] r false
    let bvh ← need r
    let rays := l.active.filter (fun t => !((l.g.thread t).cls == .helper))
    guardA ((← now).roomFor l.k 5)
    let tag ← freshTag l.k
    modGroup l.k (fun g => { g with
      sorts := g.sorts + 1
      lpend := if rays.isEmpty then g.lpend else g.lpend ++ [⟨tag, false, []⟩]
      threads := if rays.isEmpty then writeLanes g.threads (helperMisses l l.active w.d.toNat) else g.threads
      run := { g.run with frags := setNth g.run.frags l.fi { l.fr with wait := .tracing l.fr.pc } } })
    if rays.isEmpty then sortTraced l.k
    else discard (issueEntry l.k 5 (.trace bvh (bit w.imm.toNat 8) (bit w.imm.toNat 9) w.d.toNat
      (l.regArgs l.active w.a.toNat 8) tag))

theorem exec_traceSort_eq : exec (.traceSort w) s = perform (do closeLane
                                                                sortWord w (← myLane)) s := rfl

theorem traceSort_parks {l1 : Lane} {r : RootJoin} (hc : Closed s l l1) (hroot : l1.g.run.root = some r) (hst : l1.fr.stack = []) :
    exec (.traceSort w) s = .next (s.setGroup l.k
      ({ l1.g with run := { l1.g.run with root := some (r.sortAt l1.fr.pc) } }.resume l.fi l1.fr.mask)) := by
  rw [exec_traceSort_eq]
  refine closed_completes hc fun _ => ?_
  rw [sortWord, run_bind_ok (run_checkLane (by simp [hst])), hroot, hc.2.2.2.1]
  exact run_putGroup _ _ _

/-- The group of a TRACE.SORT that has issued: its fragment traces, and where it has rays their result is to come. -/
def Group.sorting (g : Group) (l : Lane) (w : LaneW) : Group :=
  let rays := l.active.filter (fun t => !((l.g.thread t).cls == .helper))
  { g with
    tags := g.tags + 1
    sorts := g.sorts + 1
    lpend := if rays.isEmpty then g.lpend else g.lpend ++ [⟨g.tags, false, []⟩]
    threads := if rays.isEmpty then writeLanes g.threads (helperMisses l l.active w.d.toNat) else g.threads
    run := { g.run with frags := setNth g.run.frags l.fi { l.fr with wait := .tracing l.fr.pc } } }

theorem run_sortWord (hi : LaneIssues v.cur l) (hga : Tab.find v.cur.gangs (l.k / 65536) = some ga)
    (hb : Tab.find ga.bvh (fld w.imm.toNat 0 2) = some bvh) (hroot : l.g.run.root = none) (hst : l.fr.stack = [])
    (ha : l.g.lacks (w.a.toNat + 7) = false) (hd : l.g.lacks (w.d.toNat + 3) = false) (hroom : v.cur.roomy l 5) :
    sortWord w l v = (if (l.active.filter (fun t => !((l.g.thread t).cls == .helper))).isEmpty then sortTraced l.k
      else discard (issueEntry l.k 5 (.trace bvh (bit w.imm.toNat 8) (bit w.imm.toNat 9) w.d.toNat
        (l.regArgs l.active w.a.toNat 8) l.g.tags))) ⟨v.cur.setGroup l.k (l.g.sorting l w), v.stores⟩ := by
  rw [sortWord, run_bind_ok (run_checkLane (by simp [hst])), hroot]
  dsimp only
  rw [run_bind_ok (run_slotRecord hga hb), run_bind_ok (run_lanternChecks (by simp [ha, hd]) (by simp)),
    run_bind_ok (run_need_some _ _), run_bind_ok (run_now _), hroom.1, run_bind_ok (run_guardA _ _),
    run_bind_ok (run_freshTag hi.2.1)]
  refine (run_bind_ok (run_modGroup ⟨v.cur.setGroup l.k l.g.tagged, v.stores⟩ (Tab.find_set_same _ _ _) _)).trans ?_
  rw [setGroup_setGroup]
  rfl

theorem closed_gang {l1 : Lane} (hc : Closed s l l1) (hga : Tab.find s.gangs (l.k / 65536) = some ga) :
    Tab.find (s.setGroup l.k l1.g).gangs (l1.k / 65536) = some ga := by
  rw [hc.2.2.1]
  exact hga

theorem traceSort_enters {l1 : Lane} (hc : Closed s l l1) (hga : Tab.find s.gangs (l.k / 65536) = some ga)
    (hb : Tab.find ga.bvh (fld w.imm.toNat 0 2) = some bvh) (hroot : l1.g.run.root = none) (hst : l1.fr.stack = [])
    (ha : l1.g.lacks (w.a.toNat + 7) = false) (hd : l1.g.lacks (w.d.toNat + 3) = false) (hroom : (s.setGroup l.k l1.g).roomy l1 5)
    (hfull : l1.active.any (fun t => !((l1.g.thread t).cls == .helper)) = true) :
    EntersQueue s l1 5 (exec (.traceSort w) s) (.trace bvh (bit w.imm.toNat 8) (bit w.imm.toNat 9) w.d.toNat
      (l1.regArgs l1.active w.a.toNat 8) l1.g.tags) := by
  obtain ⟨hclose, hi1⟩ := run_closeLane_of_closed hc
  have hrays : ¬ ((l1.active.filter (fun t => !((l1.g.thread t).cls == .helper))).isEmpty = true) := by
    simpa [← isEmpty_filter_not] using hfull
  rw [exec_traceSort_eq]
  refine entersQueue_of_next (gx := l1.g.sorting l1 w) (b := s.tick) (g2 := (l1.g.sorting l1 w).issued 5 _ s.tick)
    (perform_of_no_stores ?_ rfl) rfl rfl rfl
  rw [run_bind_ok hclose, run_bind_ok (run_laneOf (v := ⟨s.setGroup l.k l1.g, []⟩) hi1),
    run_sortWord (v := ⟨s.setGroup l.k l1.g, []⟩) hi1 (closed_gang hc hga) hb hroot hst ha hd hroom, if_neg hrays]
  refine (run_discard_ok (run_issueEntry (w := ⟨(s.setGroup l.k l1.g).setGroup l1.k (l1.g.sorting l1 w), []⟩)
    (hroom.2 _ rfl rfl) (Tab.find_set_same _ _ _))).trans ?_
  rw [hc.2.2.1]
  simp [← setGroup_tickOn]

/-- A group whose tracing fragments have entered their meeting. -/
def Group.gathered (g : Group) : Group :=
  { g with run := { g.run with frags := g.run.frags.map (fun (f : Frag) => match f.wait with
    | .tracing x => { f with wait := .meeting g.sorts x }
    | _ => f) } }

theorem run_sortTraced {g : Group} {k : Nat} (hg : Tab.find v.cur.groups k = some g) :
    sortTraced k v = .ok ((), ⟨v.cur.setGroup k g.gathered, v.stores⟩) :=
  run_modGroup v hg _

theorem traceSort_meets {l1 : Lane} (hc : Closed s l l1) (hga : Tab.find s.gangs (l.k / 65536) = some ga)
    (hb : Tab.find ga.bvh (fld w.imm.toNat 0 2) = some bvh) (hroot : l1.g.run.root = none) (hst : l1.fr.stack = [])
    (ha : l1.g.lacks (w.a.toNat + 7) = false) (hd : l1.g.lacks (w.d.toNat + 3) = false) (hroom : (s.setGroup l.k l1.g).roomy l1 5)
    (hfull : l1.active.any (fun t => !((l1.g.thread t).cls == .helper)) = false) :
    ∃ g2, exec (.traceSort w) s = .next (s.setGroup l.k g2) ∧ g2.sorts = l1.g.sorts + 1 ∧ g2.queues = l1.g.queues ∧
      (g2.run.frags[l.fi]?).map (fun f => f.wait) = some (.meeting (l1.g.sorts + 1) l1.fr.pc) := by
  have hrays : (l1.active.filter (fun t => !((l1.g.thread t).cls == .helper))).isEmpty = true := by
    simpa [← isEmpty_filter_not] using hfull
  have hf : (l1.g.sorting l1 w).run.frags[l.fi]? = some { l1.fr with wait := .tracing l1.fr.pc } := by
    have hlt : l.fi < l1.g.run.frags.length := (List.getElem?_eq_some_iff.mp hc.2.2.2.2.2).1
    simp only [Group.sorting, hc.2.2.2.1]
    exact getElem?_setNth_same _ _ _ hlt
  rw [exec_traceSort_eq]
  refine ⟨(l1.g.sorting l1 w).gathered, closed_completes hc fun hi1 => ?_, rfl, rfl, ?_⟩
  · rw [run_sortWord (v := ⟨s.setGroup l.k l1.g, []⟩) hi1 (closed_gang hc hga) hb hroot hst ha hd hroom, if_pos hrays,
      run_sortTraced (Tab.find_set_same _ _ _), setGroup_setGroup]
  · rw [Group.gathered, List.getElem?_map, hf]
    rfl

end

/-- Settles O36: each word passes its checks and leaves its entry; with helpers alone the misses are at hand, and TRACE.SORT meets. -/
theorem lanternLaneWordsComplete : Obligations.LanternLaneWordsComplete :=
  ⟨fun _ _ _ _ _ hi hb => ⟨fun ha hd => ⟨trace_enters hi hb ha hd, trace_idle hi hb ha hd, trace_helpers hi hb ha hd⟩,
      fun _ _ hr hd => hitget_enters hi hb hr hd, rclook_enters hi hb, rcins_enters hi hb⟩,
    fun _ _ _ _ _ _ hc hga hb => ⟨fun _ hroot hst => traceSort_parks hc hroot hst,
      fun hroot hst ha hd hroom => ⟨traceSort_enters hc hga hb hroot hst ha hd hroom, traceSort_meets hc hga hb hroot hst ha hd hroom⟩⟩⟩

end Sys2Proof.Machine
end

section
/-! SUPPORT. SPAWN and QSEND of a lane (R484, R510). -/

namespace Sys2Proof.Machine

open Sys2Proof

section

variable {s : State} {l l2 : Lane} {v : Work} {w : LaneW} {ga : Gang} {xs ys : List (Nat × List Nat)} {g1 : Group}

/-- Completing a long-latency word whose results are known (R89). -/
theorem run_laneLongOf (hi : LaneIssues v.cur l) (rs : List (Nat × Nat)) :
    laneLong w rs v = .ok ((), ⟨v.cur.setGroup l.k (l.g.longDone l.fi w rs), v.stores⟩) := by
  rw [laneLong, run_bind_ok (run_laneOf hi), Group.longDone]
  by_cases hla : w.la = 0
  · rw [if_pos hla, if_pos hla, run_laneResult hi.1 hi.2.1 hi.2.2]
  · rw [if_neg hla, if_neg hla]
    simp [openWindow_tags]

theorem unserved (hw : ∀ x y, l.fr.wait ≠ .borrow x y) : l.unanswered = false ∧ l.served = ([], none) := by
  unfold Lane.unanswered Lane.served
  cases hx : l.fr.wait with
  | borrow x y => exact absurd hx (hw x y)
  | _ => exact ⟨rfl, rfl⟩

theorem filter_unserved (ys : List (Nat × List Nat)) :
    ys.filter (fun x => !([] : List (Nat × Nat)).any (fun y => y.1 == x.1)) = ys := by
  simp

theorem run_checkSrc {rs : List SlotReq} (hi : LaneIssues s l) (hr : ∀ r ∈ rs, l.g.noReg r.code r.wide = false) :
    checkSrc rs ⟨s, []⟩ = .ok ((), ⟨s, []⟩) := by
  have hany : rs.any (fun r => l.g.noReg r.code r.wide) = false := by simpa using hr
  rw [checkSrc, run_bind_ok (run_myLane_of_issues hi), hany]
  rfl

/-! ## SPAWN (R484) -/

theorem spawnLane_gives {la : Launch} {rs : List (Nat × Nat)} {w2 : Work} {node : Nat} (hi : LaneIssues s l)
    (hga : Tab.find s.gangs (l.k / 65536) = some ga) (hla : Tab.find s.launches ga.launch = some la)
    (hd : l.g.noReg w.d.toNat false = false) (hw : ∀ x y, l.fr.wait ≠ .borrow x y) (hset : l.g.settled = true)
    (hr : l.Reads s w (l.part w) (plain2 w) xs g1) (hys : xs.filter (fun x => !((l.g.thread x.1).cls == .helper)) = ys)
    (hnode : w.imm.toNat % 65536 = node) (hlt : node < la.nodes.length) (hpool : s.poolOf ga.launch ga.die + ys.length ≤ 65536)
    (htake : takeEach l (fun _ v x => createInst ga.launch node (arg v 0) ga.die ga.die (BitVec.ofNat 64 x) false) none ys []
      ⟨s.setGroup l.k g1, []⟩ = .ok (some (rs, none), w2))
    (hi2 : LaneIssues w2.cur l2) (hk : l2.k = l.k) (hfi : l2.fi = l.fi) :
    exec (.spawnLane w) s = .next (s.after ⟨w2.cur.setGroup l.k (l2.g.longDone l.fi w
      (rs ++ (xs.filter (fun x => (l.g.thread x.1).cls == .helper)).map (fun x => (x.1, 0)))), w2.stores⟩) := by
  obtain ⟨hun, hserved⟩ := unserved hw
  have hlaunch : myLaunch ⟨s, []⟩ = .ok ((ga.launch, la), ⟨s, []⟩) := by
    simp [myLaunch, run_myGangGroup (w := ⟨s, []⟩) (issuer_of_lane hi) hga, hla]
  have hdie : (s.setGroup l.k g1).dieOf l.k = ga.die := dieOf_group (k := l.k) hga
  refine perform_after ?_
  rw [run_bind_ok (run_checkD_of_issues hi hd), run_bind_ok (run_myLane_of_issues hi), hun, if_neg (by simp)]
  dsimp only
  rw [run_bind_ok hlaunch]
  dsimp only
  rw [hnode]
  refine (run_bind_ok (run_checkSrc hi hr.1)).trans ?_
  rw [if_neg (by omega), hserved]
  dsimp only
  rw [if_pos (by rfl), run_bind_ok (run_settledLane hset)]
  refine (run_bind_ok (run_readOps_of_reads hi hr).1).trans ?_
  rw [run_bind_ok (run_now _)]
  dsimp only
  rw [hdie, hys, filter_unserved, run_bind_ok (run_now _)]
  rw [run_bind_ok (v := ⟨s.setGroup l.k g1, []⟩) (a := ()) (by rw [run_guardA]; exact if_pos (decide_eq_true hpool)),
    run_bind_ok htake]
  dsimp only
  rw [run_laneLongOf hi2, hk, hfi]

/-! ## QSEND (R510) -/

/-- The deposits of the weight that the threads of a QSEND have taken. -/
def sendOp (places : List (Nat × Option Place)) (ys : List (Nat × List Nat)) (ws : List (Nat × Nat)) : EOp :=
  .deposit (ws.map (fun x =>
    (((((places.zip ys).find? (fun y => y.2.1 == x.1)).bind (fun y => y.1.2)).map (fun y => y.pa)).getD 0, BitVec.ofNat 64 x.2)))

/-- The amounts that a QSEND gives its threads, 0 for the helpers. -/
def sendResults (l : Lane) (xs : List (Nat × List Nat)) (ws : List (Nat × Nat)) : List (Nat × Nat) :=
  ws.map (fun x => (x.1, amtOf x.2)) ++ (xs.filter (fun x => (l.g.thread x.1).cls == .helper)).map (fun x => (x.1, 0))

/-- What QSEND does once its weight has been taken. -/
def sendEnd (w : LaneW) (l : Lane) (op : EOp) (ws rs : List (Nat × Nat)) : Act Unit := do
  if !ws.isEmpty then discard (issueEntry l.k 9 op)
  laneLong w rs

theorem qsendLane_takes {places : List (Nat × Option Place)} {w1 w2 u : Work} {ws : List (Nat × Nat)} (hi : LaneIssues s l)
    (hd : l.g.noReg w.d.toNat false = false) (hw : ∀ x y, l.fr.wait ≠ .borrow x y) (hset : l.g.settled = true)
    (hr : l.Reads s w (l.part w) [slot64 w.a, slot32 w.b] xs g1)
    (hys : xs.filter (fun x => !((l.g.thread x.1).cls == .helper)) = ys)
    (hplaces : ys.mapM (fun x => wordPlace { (s.setGroup l.k g1).portOf (.group l.k) with core := none } (arg x.2 0))
      ⟨s.setGroup l.k g1, []⟩ = .ok (places, w1))
    (hgood : ∀ x ∈ places, x.1 = 0) (hroom : w1.cur.roomFor l.k 9 = true)
    (htake : takeEach l (fun _ _ w => pure w) none ys [] w1 = .ok (some (ws, none), w2))
    (hend : sendEnd w l (sendOp places ys ws) ws (sendResults l xs ws) w2 = .ok ((), u)) :
    exec (.qsendLane w) s = .next (s.after u) := by
  obtain ⟨hun, hserved⟩ := unserved hw
  have hi1 := (run_readOps_of_reads hi hr).2
  have hcauses : (places.zip ys).filter (fun c => !(c.1.1 == 0)) = [] := by
    refine List.filter_eq_nil_iff.mpr fun c hc => ?_
    simp [hgood c.1 (List.of_mem_zip hc).1]
  refine perform_after ?_
  rw [run_bind_ok (run_checkD_of_issues hi hd), run_bind_ok (run_myLane_of_issues hi), hun, if_neg (by simp)]
  dsimp only
  rw [hserved]
  dsimp only
  rw [if_pos (by rfl), run_bind_ok (run_settledLane hset)]
  refine (run_bind_ok (run_readOps_of_reads hi hr).1).trans ?_
  rw [hys, run_bind_ok (run_myPort (w := ⟨s.setGroup l.k g1, []⟩) (issuer_of_lane hi1))]
  refine (run_bind_ok hplaces).trans ?_
  rw [hcauses, filter_unserved]
  dsimp only
  rw [run_bind_ok (run_now _), hroom, run_bind_ok (run_guardA _ _), run_bind_ok htake]
  exact hend

theorem sendEnd_issues {op : EOp} {ws rs : List (Nat × Nat)} (hi : LaneIssues v.cur l2) (hk : l2.k = l.k) (hfi : l2.fi = l.fi)
    (hne : ws ≠ []) (hroom : v.cur.roomFor l.k 9 = true) :
    sendEnd w l op ws rs v = .ok ((), ⟨v.cur.tickOn.setGroup l.k ((l2.g.issued 9 op v.cur.tick).longDone l.fi w rs), v.stores⟩) := by
  have hg : Tab.find v.cur.groups l.k = some l2.g := hk ▸ hi.2.1
  have hi3 : LaneIssues (v.cur.tickOn.setGroup l.k (l2.g.issued 9 op v.cur.tick)) { l2 with g := l2.g.issued 9 op v.cur.tick } :=
    ⟨hi.1, by simp [hk], hi.2.2⟩
  rw [sendEnd, if_pos (by simpa using hne), run_bind_ok (run_discard_ok (run_issueEntry hroom hg))]
  refine (run_laneLongOf (v := ⟨v.cur.tickOn.setGroup l.k (l2.g.issued 9 op v.cur.tick), v.stores⟩) hi3 rs).trans ?_
  simp [hk, hfi]

theorem sendEnd_idle {op : EOp} {ws rs : List (Nat × Nat)} (hi : LaneIssues v.cur l2) (hk : l2.k = l.k) (hfi : l2.fi = l.fi)
    (hnil : ws = []) : sendEnd w l op ws rs v = .ok ((), ⟨v.cur.setGroup l.k (l2.g.longDone l.fi w rs), v.stores⟩) := by
  rw [sendEnd, if_neg (by simp [hnil])]
  dsimp only
  rw [run_laneLongOf hi, hk, hfi]

end

/-- Settles O38: each word reads its slots, takes for its full threads, and leaves the amounts, with 0 for the helpers. -/
theorem laneSpawnAndSendComplete : Obligations.LaneSpawnAndSendComplete :=
  ⟨fun _ _ _ _ _ _ _ _ _ _ hi hga hla hd hw hset hr hlt hpool htake hi2 hk hfi =>
      spawnLane_gives hi hga hla hd hw hset hr rfl rfl hlt hpool htake hi2 hk hfi,
    fun _ _ _ _ _ _ _ _ _ _ hi hd hw hset hr hplaces hgood hroom htake hi2 hk hfi hroom2 =>
      ⟨fun hne => qsendLane_takes hi hd hw hset hr rfl hplaces hgood hroom htake (sendEnd_issues hi2 hk hfi hne hroom2),
        fun hnil => qsendLane_takes hi hd hw hset hr rfl hplaces hgood hroom htake (sendEnd_idle hi2 hk hfi hnil)⟩⟩

end Sys2Proof.Machine
end

section
/-! SUPPORT. The head of a queue: when it may perform, and its completion (R17, R24, R31, R249, R302). -/

namespace Sys2Proof.Machine

open Sys2Proof

section

variable {s : State} {w v : Work} {k q code aux word : Nat} {g : Group} {e : Ent} {t : List Ent} {ga : Gang}

theorem run_headOf_of_performs (hp : HeadPerforms w.cur k q g e t) : headOf k q w = .ok ((g, g.queue q, e), w) := by
  obtain ⟨hg, he, hm, hf, hc⟩ := hp
  refine run_headOf hg he hm ?_ ?_
  · rcases hf with hf | hf <;> simp [hf]
  · rcases hc with hc | hc | hc <;> simp [hc]

/-- The group with the head of queue q gone: the mark moves to it, and past the entries withdrawn behind it (R31, R273). -/
def Group.popped (g : Group) (q : Nat) (t : List Ent) : Group :=
  let g1 := { g with queues := Tab.set g.queues q { g.queue q with
    mark := ((t.head?.map Ent.seq).getD (g.queue q).next) - 1
    ents := t } }
  { g1 with batches := { g1.batches with sealed := g1.sealedLeft } }

/-- The group with a status word reported at the queues that keep one (R302). -/
def Group.reported (g : Group) (q word : Nat) : Group :=
  if q = 1 then { g with csts := g.csts.report word }
  else if q = 7 then { g with xsts := g.xsts.report word }
  else if q = 8 then { g with kvec := { g.kvec with sts := g.kvec.sts.report word } }
  else if q = 9 then { g with bsts := g.bsts.report word }
  else g

theorem reported_keeps (g : Group) (q word : Nat) : (g.reported q word).queues = g.queues ∧ (g.reported q word).st = g.st ∧
    (g.reported q word).threads = g.threads := by
  unfold Group.reported
  split
  · exact ⟨rfl, rfl, rfl⟩
  · split
    · exact ⟨rfl, rfl, rfl⟩
    · split
      · exact ⟨rfl, rfl, rfl⟩
      · split <;> exact ⟨rfl, rfl, rfl⟩

theorem run_popHead (hg : Tab.find w.cur.groups k = some g) (he : (g.queue q).ents = e :: t) :
    popHead k q w = .ok ((), ⟨w.cur.setGroup k (g.popped q t), w.stores⟩) := by
  rw [popHead, run_modGroup w hg]
  simp only [he]
  rfl

theorem queue_popped (g : Group) (q : Nat) (t : List Ent) : (g.popped q t).queue q = { g.queue q with
    mark := ((t.head?.map Ent.seq).getD (g.queue q).next) - 1
    ents := t } := by
  simp [Group.popped, Group.queue]

theorem queue_popped_ne (g : Group) {q j : Nat} (t : List Ent) (h : j ≠ q) : (g.popped q t).queue j = g.queue j := by
  simp [Group.popped, Group.queue, Tab.getD_set_ne _ _ _ h]

/-- What `complete` does: the head is popped, its status word is reported, and its barrier arrives. -/
theorem run_complete (hp : HeadPerforms w.cur k q g e t) (hga : Tab.find w.cur.gangs (k / 65536) = some ga)
    (hr : w.cur.reached ga.die e.sent = true) (hword : statusWord code q aux e.seq.toNat = word) :
    complete k q code aux w = (do arriveAt (k / 65536) e.op.bar word
                                  return word : Act Nat) ⟨w.cur.setGroup k ((g.popped q t).reported q word), w.stores⟩ := by
  rw [complete, run_bind_ok (run_headOf_of_performs hp)]
  dsimp only
  rw [run_bind_ok (run_now _), run_bind_ok (run_getGang w hga), hr, run_bind_ok (run_guardA _ _), hword,
    run_bind_ok (run_popHead hp.1 hp.2.1)]
  refine (run_bind_ok (run_modGroup ⟨w.cur.setGroup k (g.popped q t), w.stores⟩ (Tab.find_set_same _ _ _) _)).trans ?_
  rw [setGroup_setGroup]
  rfl

end

/-- Settles O39: the head is popped, its status word reported, and its barrier arrives on the group that is left. -/
theorem entriesComplete : Obligations.EntriesComplete := by
  intro w k q code aux g e t ga hp hga hr word after
  obtain ⟨hqueues, hst, hth⟩ := reported_keeps (g.popped q t) q word
  have hqueue : ∀ j, ((g.popped q t).reported q word).queue j = (g.popped q t).queue j := fun j => by
    rw [Group.queue, hqueues, Group.queue]
  have hword : statusWord code q aux e.seq.toNat = word := by
    rw [statusWord, Nat.mod_eq_of_lt e.seq.isLt]
  have hrun := run_complete hp hga hr hword
  have hmark : (((g.popped q t).reported q word).queue q).mark = after - 1 := by rw [hqueue, queue_popped]
  refine ⟨(g.popped q t).reported q word, by rw [hqueue, queue_popped], hmark, fun h => ?_, by rw [hqueue, queue_popped],
    fun j hj => by rw [hqueue, queue_popped_ne g t hj], hst, hth, fun h => ?_, fun h => ?_, fun h => ?_, fun h => ?_, fun hb => ?_,
    fun a v hb ha => ?_⟩
  · rw [hmark, h]
    exact BitVec.add_sub_cancel _ _
  · subst h
    rfl
  · subst h
    rfl
  · subst h
    rfl
  · subst h
    rfl
  · exact hrun.trans (by rw [hb]; rfl)
  · exact hrun.trans (by rw [hb]; exact run_bind_ok ha)

end Sys2Proof.Machine
end

section
/-! SUPPORT. Lane loads, stores, atomics and FIFO words, and their accesses as they perform (R224 to R229). -/

namespace Sys2Proof.Machine

open Sys2Proof

section

variable {s : State} {l : Lane} {v : Work} {w : LaneW} {ga : Gang} {xs : List (Nat × List Nat)} {g g1 g2 : Group}

/-! ## Issuing an access (R226) -/

/-- What issuing an access does once its word has its tag: the results known at once, the order of an acquire, the threads. -/
def accTail (w : LaneW) (kind : AccKind) (spad : Bool) (known : List (Nat × Nat × W32)) (ts : List AccThread) (l : Lane)
    (d : Option Nat) (tag : Nat) : Act Unit := do
  if d.isSome then resultAdd l.k tag known
  if ordOf w = 1 ∨ ordOf w = 3 then noteAcq l.k l.fi tag
  if ts.isEmpty then
    if d.isSome then resultReady l.k tag []
  else
    modGroup l.k (fun g => { g with
      laccs := g.laccs ++ [⟨tag, kind, spad, w.pty, ordOf w, scopeOf w, polOf w, d, ts, false, l.g.lastEnts, l.g.aldsOut⟩] })

theorem run_whenMod {α : Type} {st : List (Nat × Nat × Nat)} {k : Nat} {b : Prop} [Decidable b] {f : Group → Group} {r : Act α} :
    (if b then (modGroup k f >>= fun _ => r) else r) ⟨s.setGroup k g, st⟩ = r ⟨s.setGroup k (if b then f g else g), st⟩ := by
  by_cases hb : b
  · rw [if_pos hb, if_pos hb, run_bind_ok (run_modGroup _ (Tab.find_set_same _ _ _) _), setGroup_setGroup]
  · rw [if_neg hb, if_neg hb]

/-- The group whose pending result of a tag has more values, and may be complete. -/
def Group.resulted (g : Group) (tag : Nat) (ready : Bool) (ws : List (Nat × Nat × W32)) : Group :=
  { g with lpend := g.lpend.map (fun p => if p.tag == tag then { p with ready := ready || p.ready, writes := p.writes ++ ws } else p) }

theorem resulted_mem {p : LPend} {tag : Nat} (ready : Bool) (ws : List (Nat × Nat × W32)) (hp : p ∈ g.lpend) (ht : p.tag = tag) :
    { p with ready := ready || p.ready, writes := p.writes ++ ws } ∈ (g.resulted tag ready ws).lpend :=
  List.mem_map.mpr ⟨p, hp, by simp [ht]⟩

theorem run_resultAdd {k tag : Nat} {ws : List (Nat × Nat × W32)} (hg : Tab.find v.cur.groups k = some g) :
    resultAdd k tag ws v = .ok ((), ⟨v.cur.setGroup k (g.resulted tag false ws), v.stores⟩) := by
  rw [resultAdd, run_modGroup v hg]
  rfl

theorem run_resultReady {k tag : Nat} {ws : List (Nat × Nat × W32)} (hg : Tab.find v.cur.groups k = some g) :
    resultReady k tag ws v = .ok ((), ⟨v.cur.setGroup k (g.resulted tag true ws), v.stores⟩) := by
  rw [resultReady, run_modGroup v hg]
  rfl

/-- The issuing fragment holds the tag of an acquire. -/
def Group.acquires (g : Group) (fi tag : Nat) : Group :=
  { g with run := { g.run with frags := match g.run.frags[fi]? with
    | none => g.run.frags
    | some f => setNth g.run.frags fi { f with acqs := tag :: f.acqs } } }

/-- The access that issues with a tag. -/
def issuedAcc (w : LaneW) (kind : AccKind) (spad : Bool) (ts : List AccThread) (l : Lane) (d : Option Nat) (tag : Nat) : LAcc :=
  ⟨tag, kind, spad, w.pty, ordOf w, scopeOf w, polOf w, d, ts, false, l.g.lastEnts, l.g.aldsOut⟩

/-- The group with the results known at once, and an acquire's tag. -/
def Group.known (g : Group) (l : Lane) (w : LaneW) (d : Option Nat) (tag : Nat) (ws : List (Nat × Nat × W32)) : Group :=
  let g1 := if d.isSome then g.resulted tag false ws else g
  if ordOf w = 1 ∨ ordOf w = 3 then g1.acquires l.fi tag else g1

/-- The group whose access has issued: with no thread to perform, its result is complete. -/
def Group.accessed (g : Group) (a : LAcc) : Group :=
  if a.todo.isEmpty then (if a.dst.isSome then g.resulted a.tag true [] else g) else { g with laccs := g.laccs ++ [a] }

theorem run_accTail {st : List (Nat × Nat × Nat)} {kind : AccKind} {spad : Bool} {known : List (Nat × Nat × W32)} {ts : List AccThread}
    {d : Option Nat} {tag : Nat} :
    accTail w kind spad known ts l d tag ⟨s.setGroup l.k g, st⟩ =
      .ok ((), ⟨s.setGroup l.k ((g.known l w d tag known).accessed (issuedAcc w kind spad ts l d tag)), st⟩) := by
  refine (run_whenMod (f := fun g => g.resulted tag false known)).trans ?_
  refine (run_whenMod (f := fun g => g.acquires l.fi tag)).trans ?_
  cases ts with
  | nil =>
    cases d with
    | none => rfl
    | some d => exact (run_resultReady (Tab.find_set_same _ _ _)).trans (by simp [Group.known, Group.accessed, issuedAcc])
  | cons t ts => exact (run_modGroup _ (Tab.find_set_same _ _ _) _).trans (by simp [Group.known, Group.accessed, issuedAcc])

theorem known_keeps {d : Option Nat} {tag : Nat} {ws : List (Nat × Nat × W32)} (g : Group) :
    (g.known l w d tag ws).tags = g.tags ∧ (g.known l w d tag ws).laccs = g.laccs ∧ (g.known l w d tag ws).st = g.st ∧
    (g.known l w d tag ws).queues = g.queues := by
  unfold Group.known
  split <;> split <;> exact ⟨rfl, rfl, rfl, rfl⟩

theorem accessed_keeps (g : Group) (a : LAcc) :
    (g.accessed a).tags = g.tags ∧ (g.accessed a).laccs = g.laccs ++ (if a.todo = [] then [] else [a]) ∧ (g.accessed a).st = g.st ∧
    (g.accessed a).queues = g.queues := by
  cases h : a.todo with
  | nil => cases hd : a.dst.isSome <;> simp [Group.accessed, h, hd, Group.resulted]
  | cons t ts => simp [Group.accessed, h]

theorem known_awaits {d : Option Nat} {tag : Nat} {ws : List (Nat × Nat × W32)} (hd : d ≠ none)
    (hp : ∃ p ∈ g.lpend, p.tag = tag ∧ p.ready = false) : ∃ p ∈ (g.known l w d tag ws).lpend, p.tag = tag ∧ p.ready = false := by
  obtain ⟨p, hp, ht, hr⟩ := hp
  have hsome : d.isSome = true := by simpa [Option.isSome_iff_ne_none] using hd
  have hmem := resulted_mem false ws hp ht
  refine ⟨{ p with ready := false || p.ready, writes := p.writes ++ ws }, ?_, ht, by simpa using hr⟩
  · simp only [Group.known, hsome, if_true]
    split <;> exact hmem

theorem accessed_awaits {a : LAcc} (hd : a.dst ≠ none) (hp : ∃ p ∈ g.lpend, p.tag = a.tag ∧ p.ready = false) :
    ∃ p ∈ (g.accessed a).lpend, p.tag = a.tag ∧ (p.ready = true ↔ a.todo = []) := by
  obtain ⟨p, hp, ht, hr⟩ := hp
  have hsome : a.dst.isSome = true := by simpa [Option.isSome_iff_ne_none] using hd
  cases h : a.todo with
  | nil =>
    refine ⟨{ p with ready := true || p.ready, writes := p.writes ++ [] }, ?_, ht, by simp⟩
    rw [Group.accessed, h, if_pos (by rfl), if_pos hsome]
    exact resulted_mem true [] hp ht
  | cons t ts => exact ⟨p, by simpa [Group.accessed, h] using hp, ht, by simp [hr]⟩

/-! ## The words -/

/-- The word completes, its group has a tag more and the access, and a result of it waits for its threads. -/
def LeavesAccess (s : State) (l : Lane) (o : Host.Outcome State Fault Refusal) (a : LAcc) : Prop :=
  ∃ g2, o = .next (s.setGroup l.k g2) ∧ g2.tags = l.g.tags + 1 ∧ g2.laccs = l.g.laccs ++ (if a.todo = [] then [] else [a]) ∧
    g2.st = l.g.st ∧ g2.queues = l.g.queues ∧ (a.dst ≠ none → ∃ p ∈ g2.lpend, p.tag = l.g.tags ∧ (p.ready = true ↔ a.todo = []))

/-- The group of a word that has its tag keeps what the access is told of. -/
theorem leavesAccess_of_tail {m : Act Unit} {gA : Group} {kind : AccKind} {spad : Bool} {known : List (Nat × Nat × W32)}
    {ts : List AccThread} {d : Option Nat} {l1 : Lane} (hk : l1.k = l.k) (htags : gA.tags = l.g.tags + 1) (hl : gA.laccs = l.g.laccs)
    (hst : gA.st = l.g.st) (hq : gA.queues = l.g.queues) (hp : d ≠ none → ∃ p ∈ gA.lpend, p.tag = l.g.tags ∧ p.ready = false)
    (hm : m ⟨s, []⟩ = accTail w kind spad known ts l1 d l.g.tags ⟨s.setGroup l1.k gA, []⟩) :
    LeavesAccess s l (perform m s) (issuedAcc w kind spad ts l1 d l.g.tags) := by
  obtain ⟨ht1, hl1, hst1, hq1⟩ := known_keeps (l := l1) (w := w) (d := d) (tag := l.g.tags) (ws := known) gA
  obtain ⟨ht2, hl2, hst2, hq2⟩ := accessed_keeps (gA.known l1 w d l.g.tags known) (issuedAcc w kind spad ts l1 d l.g.tags)
  refine ⟨_, perform_of_no_stores (hm.trans (hk ▸ run_accTail)) rfl, ht2.trans (ht1.trans htags), ?_, hst2.trans (hst1.trans hst),
    hq2.trans (hq1.trans hq), fun hd => accessed_awaits (a := issuedAcc w kind spad ts l1 d l.g.tags) hd (known_awaits hd (hp hd))⟩
  rw [hl2, hl1, hl]

theorem later_laccs (g : Group) (fi : Nat) (w : LaneW) : (g.later fi w).laccs = g.laccs ∧ (g.later fi w).tags = g.tags + 1 := by
  unfold Group.later Group.laneNext Group.openWindow
  split <;> split <;> exact ⟨rfl, rfl⟩

theorem later_awaits (hf : g.run.frags[l.fi]? = some l.fr) : ∃ p ∈ (g.later l.fi w).lpend, p.tag = g.tags ∧ p.ready = false :=
  ⟨⟨g.tags, false, []⟩, by simp [Group.later, Group.openWindow, hf], rfl, rfl⟩

theorem laneNext_laccs (g : Group) (fi : Nat) : (g.laneNext fi).laccs = g.laccs := by
  unfold Group.laneNext
  split <;> rfl

theorem run_waitAcq (hi : LaneIssues s l) (ha : l.acquired) : waitAcq ⟨s, []⟩ = .ok ((), ⟨s, []⟩) := by
  have hno : l.fr.acqs.any (fun t => l.g.laccs.any (fun a => a.tag == t)) = false := by
    simp only [List.any_eq_false, List.any_eq_true, beq_iff_eq, not_exists, not_and]
    exact fun t ht a ha' => ha t ht a ha'
  rw [waitAcq, run_bind_ok (run_myLane_of_issues hi), hno]
  exact run_guardA _ _

theorem run_checkThreads {spad : Bool} {n : Nat} {ts : List AccThread} (hga : Tab.find s.gangs (l.k / 65536) = some ga)
    (hi : LaneIssues s l) (hf : ∀ t ∈ ts, accCause spad ga n t.addr = 0) {l1 : Lane} :
    checkThreads l1 spad n ts ⟨s, []⟩ = .ok ((), ⟨s, []⟩) := by
  have hcs : (ts.map (fun t => (accCause spad ga n t.addr, t.addr))).filter (fun c => !(c.1 == 0)) = [] := by
    simp only [List.filter_eq_nil_iff, List.mem_map]
    rintro _ ⟨t, ht, rfl⟩
    simp [hf t ht]
  rw [checkThreads, run_bind_ok (run_myGangGroup (w := ⟨s, []⟩) (issuer_of_lane hi) hga)]
  dsimp only
  rw [hcs]
  rfl

/-- A load's or an atomic's access, whose result is to come. -/
theorem issueLater_leaves {m : Act Unit} {kind : AccKind} {spad : Bool} {known : List (Nat × Nat × W32)} {ts : List AccThread}
    {rs : List SlotReq} {us : List Nat} (hi : LaneIssues s l) (hr : l.Reads s w us rs xs g1) (hkind : kind ≠ .store)
    (hm : m ⟨s, []⟩ = issueAccess w kind spad known ts ⟨s.setGroup l.k g1, []⟩) :
    LeavesAccess s l (perform m s) (issuedAcc w kind spad ts { l with g := g1 } (some w.d.toNat) l.g.tags) := by
  have hi1 := (run_readOps_of_reads hi hr).2
  obtain ⟨hq, hst, -, hrun, -, ht, -⟩ := reads_keeps hr
  obtain ⟨hlq, hlst, -⟩ := later_keeps g1 l.fi w
  obtain ⟨hll, hlt⟩ := later_laccs g1 l.fi w
  have hl : g1.laccs = l.g.laccs := by
    obtain ⟨_, _, _, _, _, rfl⟩ := hr
    rfl
  refine leavesAccess_of_tail (known := known) (gA := g1.later l.fi w) rfl (by rw [hlt, ht]) (hll.trans hl) (hlst.trans hst)
    (hlq.trans hq) (fun _ => ht ▸ later_awaits (l := l) (hrun ▸ hi.2.2)) ?_
  rw [hm, issueAccess, run_bind_ok (run_myLane_of_issues hi1)]
  · refine (run_bind_ok (run_later (v := ⟨s.setGroup l.k g1, []⟩) (w := w) hi1)).trans ?_
    rw [← ht, setGroup_setGroup]
    rfl
  · exact hkind

/-- A store's access. -/
theorem issueStore_leaves {m : Act Unit} {spad : Bool} {ts : List AccThread} {rs : List SlotReq} {us : List Nat}
    (hi : LaneIssues s l) (hr : l.Reads s w us rs xs g1)
    (hm : m ⟨s, []⟩ = issueAccess w .store spad [] ts ⟨s.setGroup l.k g1, []⟩) :
    LeavesAccess s l (perform m s) (issuedAcc w .store spad ts { l with g := g1 } none l.g.tags) := by
  have hi1 := (run_readOps_of_reads hi hr).2
  obtain ⟨hq, hst, -, -, -, ht, -⟩ := reads_keeps hr
  have hl : g1.laccs = l.g.laccs := by
    obtain ⟨_, _, _, _, _, rfl⟩ := hr
    rfl
  refine leavesAccess_of_tail (known := []) (gA := ({ g1 with tags := g1.tags + 1 } : Group).laneNext l.fi) rfl (by simp [ht])
    ((laneNext_laccs _ _).trans hl) (by simpa using hst) (by simpa using hq) (fun h => absurd rfl h) ?_
  rw [hm, issueAccess, run_bind_ok (run_myLane_of_issues hi1)]
  refine (run_bind_ok (run_modGroup ⟨s.setGroup l.k g1, []⟩ hi1.2.1 _)).trans ?_
  rw [setGroup_setGroup, ← ht]
  rfl

section

variable (hi : LaneIssues s l) (hga : Tab.find s.gangs (l.k / 65536) = some ga) (ha : l.acquired)

include hi hga ha

theorem loadLane_leaves {spad : Bool} {ts : List AccThread} (hd : l.g.noReg w.d.toNat (wide64 w.pty) = false)
    (hr : l.Reads s w (l.part w) [addrSlot spad w.a] xs g1)
    (hts : xs.map (fun x => (⟨x.1, effAddr spad (arg x.2 0) w true, 0, 0⟩ : AccThread)) = ts)
    (hf : ∀ t ∈ ts, accCause spad ga (tySize w.pty) t.addr = 0) :
    LeavesAccess s l (perform (loadLane spad w) s) (issuedAcc w .load spad ts { l with g := g1 } (some w.d.toNat) l.g.tags) := by
  subst hts
  obtain ⟨hread, hi1⟩ := run_readOps_of_reads hi hr
  refine issueLater_leaves (known := []) hi hr (by simp) ?_
  rw [loadLane, run_bind_ok (run_waitAcq hi ha), run_bind_ok (run_checkD_of_issues hi hd), run_bind_ok (run_myLane_of_issues hi),
    run_bind_ok hread]
  exact run_bind_ok (run_checkThreads (s := s.setGroup l.k g1) (l := { l with g := g1 }) (ga := ga) hga hi1 hf)

theorem storeLane_leaves {spad : Bool} {ts : List AccThread}
    (hr : l.Reads s w (l.part w) [addrSlot spad w.a, slotT w.pty w.b] xs g1)
    (hts : (xs.filter (fun x => !((l.g.thread x.1).cls == .helper))).map (fun x =>
      (⟨x.1, effAddr spad (arg x.2 0) w true, arg x.2 1 % 2 ^ tyBits w.pty, 0⟩ : AccThread)) = ts)
    (hf : ∀ t ∈ ts, accCause spad ga (tySize w.pty) t.addr = 0) :
    LeavesAccess s l (perform (storeLane spad w) s) (issuedAcc w .store spad ts { l with g := g1 } none l.g.tags) := by
  subst hts
  obtain ⟨hread, hi1⟩ := run_readOps_of_reads hi hr
  refine issueStore_leaves hi hr ?_
  rw [storeLane, run_bind_ok (run_waitAcq hi ha), run_bind_ok (run_myLane_of_issues hi), run_bind_ok hread]
  exact run_bind_ok (run_checkThreads (s := s.setGroup l.k g1) (l := { l with g := g1 }) (ga := ga) hga hi1 hf)

theorem atomLane_leaves {spad : Bool} {ts : List AccThread} (hd : l.g.noReg w.d.toNat (wide64 w.pty) = false)
    (hr : l.Reads s w (l.part w)
      ([addrSlot spad w.a, slotT w.pty w.b] ++ (if w.imm.toNat % 16 = 7 then [slotT w.pty w.c] else [])) xs g1)
    (hts : (xs.filter (fun x => !((l.g.thread x.1).cls == .helper))).map (fun x =>
      (⟨x.1, effAddr spad (arg x.2 0) w false, arg x.2 1 % 2 ^ tyBits w.pty, arg x.2 2 % 2 ^ tyBits w.pty⟩ : AccThread)) = ts)
    (hf : ∀ t ∈ ts, accCause spad ga (tySize w.pty) t.addr = 0) :
    LeavesAccess s l (perform (atomLane spad w) s)
      (issuedAcc w (.atomic (w.imm.toNat % 16)) spad ts { l with g := g1 } (some w.d.toNat) l.g.tags) := by
  subst hts
  obtain ⟨hread, hi1⟩ := run_readOps_of_reads hi hr
  refine issueLater_leaves (known := resultWrites w.d.toNat (wide64 w.pty)
    ((xs.filter (fun x => (l.g.thread x.1).cls == .helper)).map (fun x => (x.1, 0)))) hi hr (by simp) ?_
  rw [atomLane, run_bind_ok (run_waitAcq hi ha), run_bind_ok (run_checkD_of_issues hi hd), run_bind_ok (run_myLane_of_issues hi)]
  dsimp only
  rw [run_bind_ok hread]
  exact run_bind_ok (run_checkThreads (s := s.setGroup l.k g1) (l := { l with g := g1 }) (ga := ga) hga hi1 hf)

end

/-! ## FIFO banks (R228, R229) -/

section

variable {hs : List Nat} {pos h key : Nat} (hi : LaneIssues s l) (hga : Tab.find s.gangs (l.k / 65536) = some ga) (ha : l.acquired)
  (hset : l.g.settled = true) (hpos : fld w.imm.toNat 0 3 = pos) (hh : fld w.imm.toNat 3 6 = h)
  (hkey : 512 * pos + h = key) (hhold : Tab.getD ga.hold pos [] = hs) (hp : pos < ga.cores) (hlen : h < hs.length)
  (hmode : nth hs h 0 = 2)

include hi hga hpos hh hkey hhold hp hlen hmode in
theorem run_fifoOf : fifoOf l w ⟨s, []⟩ = .ok ((l.k / 65536, ga, key, true), ⟨s, []⟩) := by
  subst hpos hh hkey hhold
  rw [fifoOf, run_bind_ok (run_myGangGroup (w := ⟨s, []⟩) (issuer_of_lane hi) hga)]
  dsimp only
  rw [if_neg (by omega), hmode]
  rfl

include hi hga ha hset hpos hh hkey hhold hp hlen hmode

theorem fqput_puts {q : List (List W32)} (hq : Tab.getD ga.fifos key [] = q) (hroom : q.length < 64)
    (hr : l.Reads s w (l.part w) (plain1 w) xs g1) :
    exec (.fqput w) s = .next ((s.setGang (l.k / 65536) { ga with fifos := Tab.set ga.fifos key (q ++ [(upFrom 0 32).map (fun t =>
      if (l.g.thread t).cls = .helper then 0 else BitVec.ofNat 32 ((valueAt xs t).getD 0))]) }).setGroup l.k (g1.laneNext l.fi)) := by
  subst hq
  obtain ⟨hread, hi1⟩ := run_readOps_of_reads hi hr
  refine perform_of_no_stores ?_ rfl
  rw [run_bind_ok (run_waitAcq hi ha), run_bind_ok (run_myLane_of_issues hi), run_bind_ok (run_settledLane hset),
    run_bind_ok (run_fifoOf hi hga hpos hh hkey hhold hp hlen hmode)]
  dsimp only
  rw [run_bind_ok (run_checkSrc (rs := [slot32 w.a]) hi hr.1)]
  rw [if_neg (by simp), if_neg (by omega)]
  refine (run_bind_ok hread).trans ?_
  rw [run_bind_ok (run_putGang _ _ _)]
  refine (run_laneDone (l := { l with g := g1 }) hi1.1 hi1.2.1 hi1.2.2).trans ?_
  rw [← setGroup_setGroup (s.setGang _ _) l.k g1]
  refine congrArg (fun e => Except.ok ((), Work.mk (((s.setGang (l.k / 65536) { ga with
    fifos := Tab.set ga.fifos key (Tab.getD ga.fifos key [] ++ [e]) }).setGroup l.k g1).setGroup l.k (g1.laneNext l.fi)) []))
    (List.map_congr_left fun t _ => ?_)
  rw [valueAt]
  cases xs.find? (fun x => x.1 == t) <;> simp

theorem fqget_gets {e : List W32} {rest : List (List W32)} (hq : Tab.getD ga.fifos key [] = e :: rest)
    (hd : l.g.noReg w.d.toNat false = false) :
    exec (.fqget w) s = .next ((s.setGang (l.k / 65536) { ga with fifos := Tab.set ga.fifos key rest }).setGroup l.k
      (l.g.longDone l.fi w ((l.part w).map (fun t => (t, (nth e t 0).toNat))))) := by
  refine perform_of_no_stores ?_ rfl
  rw [run_bind_ok (run_waitAcq hi ha), run_bind_ok (run_checkD_of_issues hi hd), run_bind_ok (run_myLane_of_issues hi),
    run_bind_ok (run_settledLane hset), run_bind_ok (run_fifoOf hi hga hpos hh hkey hhold hp hlen hmode)]
  dsimp only
  rw [hq]
  dsimp only
  rw [if_neg (by simp), run_bind_ok (run_putGang _ _ _)]
  exact run_laneLong (s := s.setGang (l.k / 65536) { ga with fifos := Tab.set ga.fifos key rest }) hi _

end

/-! ## An access as it performs (R224, R226) -/

/-- The group whose access with a tag has these threads left; one with none left is gone. -/
def Group.accLeft (g : Group) (tag : Nat) (rest : List AccThread) : Group :=
  { g with laccs := (g.laccs.map (fun b => if b.tag == tag then { b with todo := rest } else b)).filter (fun b => !b.todo.isEmpty) }

/-- The group with a thread's value among the results of its access. -/
def Group.accValued (g : Group) (a : LAcc) (t : AccThread) (v : Nat) : Group :=
  match a.dst with
  | none => g
  | some d => g.resulted a.tag false
      (resultWrites d (wide64 a.ty) [(t.tnum, if isInt a.ty then tyPut a.ty false (tyRead a.ty v) else v)])

/-- The group once a thread of an access has performed: with the last, the result is complete. -/
def Group.accStepped (g : Group) (a : LAcc) (t : AccThread) (rest : List AccThread) (v : Nat) : Group :=
  let g1 := (g.accValued a t v).accLeft a.tag rest
  if rest.isEmpty then g1.resulted a.tag true [] else g1

/-- What the step of an access does with a value. -/
def accGives (gk : Nat) (a : LAcc) (t : AccThread) (rest : List AccThread) (v : Nat) : Act Bool := do
  match a.dst with
  | none => pure ()
  | some d =>
    let fill := if isInt a.ty then tyPut a.ty false (tyRead a.ty v) else v
    resultAdd gk a.tag (resultWrites d (wide64 a.ty) [(t.tnum, fill)])
  modGroup gk (fun g => { g with
    laccs := (g.laccs.map (fun b => if b.tag == a.tag then { b with todo := rest } else b)).filter (fun b => !b.todo.isEmpty) })
  if rest.isEmpty then resultReady gk a.tag []
  return !rest.isEmpty

theorem run_accGives {gk x : Nat} {a : LAcc} {t : AccThread} {rest : List AccThread} (hg : Tab.find v.cur.groups gk = some g) :
    accGives gk a t rest x v = .ok (!rest.isEmpty, ⟨v.cur.setGroup gk (g.accStepped a t rest x), v.stores⟩) := by
  have hend : ∀ u : Work, Tab.find u.cur.groups gk = some (g.accValued a t x) → (do
      modGroup gk (fun g => { g with
        laccs := (g.laccs.map (fun b => if b.tag == a.tag then { b with todo := rest } else b)).filter (fun b => !b.todo.isEmpty) })
      if rest.isEmpty then resultReady gk a.tag []
      return !rest.isEmpty : Act Bool) u = .ok (!rest.isEmpty, ⟨u.cur.setGroup gk (g.accStepped a t rest x), u.stores⟩) := by
    intro u hu
    rw [run_bind_ok (run_modGroup u hu _)]
    cases rest with
    | nil =>
      refine (run_bind_ok (run_resultReady (Tab.find_set_same _ _ _))).trans ?_
      rw [setGroup_setGroup]
      rfl
    | cons y ys => rfl
  unfold accGives
  cases hd : a.dst with
  | none =>
    have hv : g.accValued a t x = g := by rw [Group.accValued, hd]
    exact hend v (by rw [hv]; exact hg)
  | some d =>
    have hv : g.accValued a t x = g.resulted a.tag false
        (resultWrites d (wide64 a.ty) [(t.tnum, if isInt a.ty then tyPut a.ty false (tyRead a.ty x) else x)]) := by
      rw [Group.accValued, hd]
    refine (run_bind_ok (run_resultAdd hg)).trans ?_
    rw [← hv]
    refine (hend _ (Tab.find_set_same _ _ _)).trans ?_
    rw [setGroup_setGroup]

theorem accPerform_gives {gk k x : Nat} {a : LAcc} {t : AccThread} {rest : List AccThread} {w1 w2 : Work}
    (hg : Tab.find s.groups gk = some g) (ha : g.laccs[k]? = some a) (htodo : a.todo = t :: rest)
    (hfind : g.laccs.find? (fun b => b.tag == a.tag) = some a)
    (hord : ∀ b ∈ g.laccs.takeWhile (fun b => !(b.tag == a.tag)), ∀ y ∈ b.todo,
      keepsOrder s (s.portOf (.group gk)) b y a t = false)
    (hc : accCheck (s.portOf (.group gk)) gk g a ⟨s, []⟩ = .ok (true, w1))
    (hone : accOnce (s.portOf (.group gk)) (gk / 65536) a t w1 = .ok (.ok x, w2)) (hg2 : Tab.find w2.cur.groups gk = some g2) :
    ∃ g3, exec (.laneMemoryAccessPerform gk k 1) s = .next (s.after ⟨w2.cur.setGroup gk g3, w2.stores⟩) ∧
      g3.laccs = (g2.laccs.map (fun b => if b.tag = a.tag then { b with todo := rest } else b)).filter (fun b => !b.todo.isEmpty) ∧
      (∀ d p, a.dst = some d → p ∈ g2.lpend → p.tag = a.tag → ∃ p1 ∈ g3.lpend, p1.tag = a.tag ∧ (rest = [] → p1.ready = true) ∧
        p1.writes = p.writes ++ resultWrites d (wide64 a.ty)
          [(t.tnum, if isInt a.ty then tyPut a.ty false (tyRead a.ty x) else x)]) := by
  have hno : (g.laccs.takeWhile (fun b => !(b.tag == a.tag))).any
      (fun b => b.todo.any (fun y => keepsOrder s (s.portOf (.group gk)) b y a t)) = false := by
    simp only [List.any_eq_false]
    exact fun b hb => by simpa using hord b hb
  have hstep : accStep gk a.tag ⟨s, []⟩ = .ok (!rest.isEmpty, ⟨w2.cur.setGroup gk (g2.accStepped a t rest x), w2.stores⟩) := by
    rw [accStep, run_bind_ok (run_getGroup (w := ⟨s, []⟩) hg), hfind, run_bind_ok (run_need_some _ _), htodo]
    dsimp only
    rw [run_bind_ok (run_now _), run_bind_ok (run_now _), hno, run_bind_ok (run_guardA _ _), run_bind_ok hc, if_neg (by simp),
      run_bind_ok hone]
    exact run_accGives hg2
  have hlaccs : (g2.accValued a t x).laccs = g2.laccs := by
    unfold Group.accValued
    split <;> rfl
  refine ⟨g2.accStepped a t rest x, perform_after ?_, ?_, ?_⟩
  · rw [run_bind_ok (run_getGroup (w := ⟨s, []⟩) hg), ha, run_bind_ok (run_need_some _ _), accRun, run_bind_ok hstep]
    cases rest <;> rfl
  · cases rest <;> simp [Group.accStepped, Group.resulted, Group.accLeft, hlaccs]
  · intro d p hd hp ht
    have hval : g2.accValued a t x = g2.resulted a.tag false
        (resultWrites d (wide64 a.ty) [(t.tnum, if isInt a.ty then tyPut a.ty false (tyRead a.ty x) else x)]) := by
      rw [Group.accValued, hd]
    have hmem := resulted_mem false (resultWrites d (wide64 a.ty)
      [(t.tnum, if isInt a.ty then tyPut a.ty false (tyRead a.ty x) else x)]) hp ht
    rw [Group.accStepped, hval]
    cases rest with
    | nil => exact ⟨_, resulted_mem (g := Group.accLeft _ a.tag []) true [] hmem ht, ht, fun _ => rfl, List.append_nil _⟩
    | cons y ys => exact ⟨_, hmem, ht, by simp, rfl⟩

end

/-- Settles O32: what passes its checks leaves its access; a FIFO bank gives and takes its head; an access gives a thread's value. -/
theorem laneMemoryWordsIssueTheirAccess : Obligations.LaneMemoryWordsIssueTheirAccess := by
  refine ⟨fun s l w ga spad hi hga ha => ⟨fun xs g1 hd hr hf => ?_, fun xs g1 hr hf => ?_, fun xs g1 hd hr hf => ?_⟩,
    fun s l w ga hs hi hga ha hset hhold hp hlen hmode => ⟨fun xs g1 hroom hr => ?_, fun e rest hq hd => ?_⟩,
    fun s gk k g a t rest w1 v w2 g2 hg ha htodo hfind hord hc hone hg2 =>
      accPerform_gives hg ha htodo hfind hord hc hone hg2⟩
  · have h := loadLane_leaves hi hga ha hd hr rfl hf
    cases spad <;> exact h
  · have h := storeLane_leaves hi hga ha hr rfl hf
    cases spad <;> exact h
  · have h := atomLane_leaves hi hga ha hd hr rfl hf
    cases spad <;> exact h
  · exact fqput_puts hi hga ha hset rfl rfl rfl hhold hp hlen hmode rfl hroom hr
  · exact fqget_gets hi hga ha hset rfl rfl rfl hhold hp hlen hmode hq hd

end Sys2Proof.Machine
end

section
/-! SUPPORT. A store to another die's scratch ways (R212, R216, R251). -/

namespace Sys2Proof.Machine

open Sys2Proof

/-- A translation that the cluster holds: address 0 is the first byte of die 1's scratch aperture, uncached and writable. -/
def scratchPage : Tlb := ⟨0, 0, 12, 5 * 2 ^ 45 + 2 ^ 43 + 0x68, 0⟩

/-- The machine as reset, with one way of die 1 in scratch mode and the page in die 0's cluster 0, where a group issues. -/
def scratchStoreState : State :=
  let s := State.reset
  let g := Group.start ⟨0, 0, 0, 0, 0, 0⟩ 0 0 0 1 []
  { s with
    actor := .scalar 0
    dies := Tab.set (Tab.set s.dies 1 { Die.reset with wmask := 1 }) 0
      { Die.reset with clusters := [(0, { Cluster.off with tlb := [scratchPage] })] }
    groups := [(0, { g with st := g.st.put 1 1 })] }

/-- The store puts its byte at die 1, at once. -/
theorem scratchStore_puts :
    (match exec (.sst 1 0 0 0) scratchStoreState with
      | .next t => some (Mem.get t.mem (2 ^ 48 + 2 ^ 40))
      | _ => none) = some 1 := by decide +kernel

theorem scratchStore_target : scratchStoreState.translate (scratchStoreState.portOf (.group 0)) 0 =
      .leaf scratchPage.pte 12 (5 * 2 ^ 45 + 2 ^ 43) ∧
    scratchStoreState.target (5 * 2 ^ 45 + 2 ^ 43) = some (.scratch 1 0) ∧ (scratchStoreState.portOf (.group 0)).die = 0 := by
  decide +kernel

theorem scratchStore_writeKey : scratchStoreState.writeKey (scratchStoreState.portOf (.group 0)) 0 = none := by
  obtain ⟨hleaf, htarget, hdie⟩ := scratchStore_target
  simp only [State.writeKey, hleaf, htarget, hdie]
  rfl

theorem scratchStore_not_far : ¬ scratchStoreState.farDevice (scratchStoreState.portOf (.group 0)) 0 := by
  rintro ⟨pte, lg, pa, d, off, hl, ht, -⟩
  obtain ⟨hleaf, htarget, -⟩ := scratchStore_target
  rw [hleaf] at hl
  cases hl
  rw [htarget] at ht
  cases ht

/-- Refutes O58: `State.writeKey` is none for a store to another die's scratch aperture, so the statement lets no byte change, but
such a store puts its byte at the home's scratch way in the same turn (R251; only a write to GDDR of another die travels). -/
theorem not_scalarStoresKeepTheRest : ¬ Obligations.ScalarStoresKeepTheRest := by
  intro h
  have hput := scratchStore_puts
  cases ht : exec (.sst 1 0 0 0) scratchStoreState with
  | next t =>
    rw [ht] at hput
    have hkeep := (h scratchStoreState (.group 0) _ 1 0 0 0 t rfl ⟨rfl, rfl⟩ (fun _ _ hw => by cases hw) ht scratchStore_not_far).1
      (2 ^ 48 + 2 ^ 40) (fun k hk => nomatch scratchStore_writeKey.symm.trans hk)
    rw [Option.some.inj hput] at hkeep
    exact absurd hkeep (by decide)
  | fault f => rw [ht] at hput; cases hput
  | refused r => rw [ht] at hput; cases hput

end Sys2Proof.Machine
end

section
/-! SUPPORT. Entries of the queues at work: the rules of a queue's head, and the entries of queues L, C and M
(R232, R293 to R297, R309, R318 to R330). -/

namespace Sys2Proof.Machine

open Sys2Proof

section

variable {s : State} {w v w1 w2 w3 w4 : Work} {k q n : Nat} {g : Group} {e : Ent} {t : List Ent} {ga : Gang} {c : Ctx} {op : EOp}

/-! ## The head of a queue -/

theorem run_headEnt (hg : Tab.find w.cur.groups k = some g) (he : (g.queue q).ents = e :: t) : headEnt k q w = .ok (e, w) := by
  rw [headEnt, run_bind_ok (run_getGroup (w := w) hg), he]
  exact run_need_some _ _

theorem run_setHead (hg : Tab.find w.cur.groups k = some g) (he : (g.queue q).ents = e :: t) (f : Ent → Ent) :
    setHead k q f w = .ok ((), ⟨w.cur.setGroup k (g.headSet q (f e) t), w.stores⟩) := by
  rw [setHead, run_modGroup w hg]
  simp only [he]
  rfl

theorem run_headPort (hg : Tab.find w.cur.groups k = some g) (he : (g.queue q).ents = e :: t) :
    headPort k q w = .ok (w.cur.portAt k g e, w) := by
  rw [headPort, run_bind_ok (run_getGroup (w := w) hg), enginePort, bind_assoc, run_bind_ok (run_now _)]
  dsimp only [pure_bind]
  rw [he]
  rfl

/-- A head that has completed: its status so far, as the code and the detail of its word. -/
def finishHead (k q : Nat) : Act Unit := do
  if ← headReached k q then
    let e ← headEnt k q
    discard (complete k q (e.status.toNat / 16) (e.status.toNat % 16))

theorem run_finishHead (h : Completes k q w v) : finishHead k q w = .ok ((), v) := by
  rcases h with ⟨hno, rfl⟩ | ⟨g, e, t, word, hg, he, hyes, hdone⟩
  · rw [finishHead, run_bind_ok hno]
    rfl
  · rw [finishHead, run_bind_ok hyes, if_pos rfl, run_bind_ok (run_headEnt hg he)]
    exact run_discard_ok hdone

/-! ## Queue L (R232) -/

theorem range_performs {fn a size : Nat} {keep : List Nat} (hp : HeadPerforms s k 0 g e t) (hop : e.op = .range fn a size)
    {p : Port} (hport : { s.portAt k g e with core := (s.portOf (.group k)).core } = p) {done : Bool}
    (hrun : rangeRun k p fn keep a (size / 32) n e.pos ⟨s, []⟩ = .ok (done, w1)) :
    (done = false → exec (.rangeMaintenancePerform ⟨k, n⟩ keep) s = .next (s.after w1)) ∧
    (∀ word, done = true → complete k 0 0 0 w1 = .ok (word, v) →
      exec (.rangeMaintenancePerform ⟨k, n⟩ keep) s = .next (s.after v)) := by
  subst hport
  refine ⟨fun hd => perform_after ?_, fun word hd hc => perform_after ?_⟩
  all_goals
    rw [run_bind_ok (run_headOf_of_performs (w := ⟨s, []⟩) hp)]
    dsimp only
    rw [hop]
    dsimp only
    rw [run_bind_ok (run_headPort (w := ⟨s, []⟩) hp.1 hp.2.1), run_bind_ok (run_now _)]
    refine (run_bind_ok hrun).trans ?_
    rw [hd]
  · rfl
  · exact run_discard_ok hc

/-! ## Queue C (R293 to R297) -/

/-- What a copy whose sectors are done does: it publishes, and completes. -/
def copyEnd (k : Nat) (p : Port) (r : Nat) : Act Unit := do
  if ← headReached k 1 then
    let inst := (← now).instOf (.group k)
    let e ← headEnt k 1
    match ← (if bit r 146 then publish p inst (8 + fld r 144 2) (fld r 160 32) else pure none) with
    | some (c, a) =>
      arriveAt (k / 65536) e.op.bar (statusWord (e.status.toNat / 16) 1 (e.status.toNat % 16) e.seq.toNat)
      haltHead k 1 c a
    | none => discard (complete k 1 (e.status.toNat / 16) (e.status.toNat % 16))

/-- What a copy does once its indexes are read. -/
def copyWork (k : Nat) (p : Port) (kind : CopyKind) (r n : Nat) : Act Unit := do
  let e ← need ((← getGroup k).queue 1).ents.head?
  let els := copyEls kind r e.buf
  setHead k 1 (fun x => { x with started := true })
  if ← copyRun k p kind r els n ((copySectors els).drop e.pos) then copyEnd k p r

/-- A turn of a copy. -/
def copyTurn (k n : Nat) : Act Unit := do
  let (_, _, e) ← headOf k 1
  match e.op with
  | .copy kind r _ =>
    let s ← now
    guardA (e.started || decide (s.copiesBegun k < 16))
    let p ← headPort k 1
    let gather := match kind with | .gather => true | _ => false
    let go ← (if gather && !e.started then gatherStart k p r else pure true)
    if go then copyWork k p kind r n
  | _ => stall

theorem exec_copyEntryPerform_eq : exec (.copyEntryPerform k n) s = perform (copyTurn k n) s := rfl

/-- The turn with its indexes read, or none to read. -/
theorem run_copyTurn {kind : CopyKind} {r nd : Nat} (hp : HeadPerforms s k 1 g e t) (hop : e.op = .copy kind r nd)
    (hroom : e.started = true ∨ s.copiesBegun k < 16) {go : Bool}
    (hgo : ((kind ≠ .gather ∨ e.started = true) ∧ go = true ∧ w1 = ⟨s, []⟩) ∨
      (kind = .gather ∧ e.started = false ∧ gatherStart k (s.portAt k g e) r ⟨s, []⟩ = .ok (go, w1))) :
    copyTurn k n ⟨s, []⟩ = (if go then copyWork k (s.portAt k g e) kind r n else pure ()) w1 := by
  have hbegun : (e.started || decide (s.copiesBegun k < 16)) = true := by simpa using hroom
  rw [copyTurn, run_bind_ok (run_headOf_of_performs (w := ⟨s, []⟩) hp)]
  dsimp only
  rw [hop]
  dsimp only
  rw [run_bind_ok (run_now _), hbegun, run_bind_ok (run_guardA _ _), run_bind_ok (run_headPort (w := ⟨s, []⟩) hp.1 hp.2.1)]
  rcases hgo with ⟨hno, rfl, rfl⟩ | ⟨rfl, hst, hg⟩
  · rcases hno with hno | hno
    · cases kind with
      | gather => exact absurd rfl hno
      | plain => rfl
      | multi mask => rfl
    · rw [hno]
      cases kind <;> rfl
  · rw [hst]
    exact run_bind_ok hg

theorem run_copyWork {p : Port} {kind : CopyKind} {r : Nat} (hg : Tab.find w.cur.groups k = some g) (he : (g.queue 1).ents = e :: t)
    {done : Bool} (hrun : copyRun k p kind r (copyEls kind r e.buf) n ((copySectors (copyEls kind r e.buf)).drop e.pos)
      ⟨w.cur.setGroup k (g.headSet 1 { e with started := true } t), w.stores⟩ = .ok (done, w1)) :
    copyWork k p kind r n w = (if done then copyEnd k p r else pure ()) w1 := by
  rw [copyWork, run_bind_ok (run_getGroup (w := w) hg), he, List.head?_cons, run_bind_ok (run_need_some _ _)]
  rw [run_bind_ok (run_setHead hg he _)]
  exact run_bind_ok hrun

theorem run_copyEnd {p : Port} {r : Nat} (hb : bit r 146 = false) (h : Completes k 1 w v) : copyEnd k p r w = .ok ((), v) := by
  refine Eq.trans ?_ (run_finishHead h)
  rcases h with ⟨hno, -⟩ | ⟨g, e, t, word, hg, he, hyes, -⟩
  · rw [copyEnd, finishHead, run_bind_ok hno, run_bind_ok hno]
    rfl
  · rw [copyEnd, finishHead, run_bind_ok hyes, run_bind_ok hyes, if_pos rfl, if_pos rfl, run_bind_ok (run_now _),
      run_bind_ok (run_headEnt hg he), run_bind_ok (run_headEnt hg he), hb]
    rfl

theorem run_copyEnd_publishes {p : Port} {r word : Nat} (hb : bit r 146 = true) (hr : headReached k 1 w = .ok (true, w))
    (hg : Tab.find w.cur.groups k = some g) (he : (g.queue 1).ents = e :: t)
    (hpub : publish p (w.cur.instOf (.group k)) (8 + fld r 144 2) (fld r 160 32) w = .ok (none, w1))
    (hc : complete k 1 (e.status.toNat / 16) (e.status.toNat % 16) w1 = .ok (word, v)) : copyEnd k p r w = .ok ((), v) := by
  rw [copyEnd, run_bind_ok hr, if_pos rfl, run_bind_ok (run_now _), run_bind_ok (run_headEnt hg he), hb]
  refine (run_bind_ok hpub).trans ?_
  exact run_discard_ok hc

theorem rangeAndCopyEntriesPerform : RangeAndCopyEntriesPerform := by
  refine ⟨fun s k g e t fn a size n keep w1 hp hop => ⟨fun hrun => (range_performs (v := w1) hp hop rfl hrun).1 rfl,
      fun word v hrun hc => (range_performs hp hop rfl hrun).2 word rfl hc⟩,
    fun s k g e t kind r nd n w0 g0 e0 t0 w1 hp hop hroom => ⟨fun hk hs hgo => ?_, fun hstart hg0 he0 => ?_⟩⟩
  · exact perform_after ((run_copyTurn hp hop hroom (.inr ⟨hk, hs, hgo⟩)).trans rfl)
  · have hturn : copyTurn k n ⟨s, []⟩ = copyWork k (s.portAt k g e) kind r n w0 := by
      refine (run_copyTurn (go := true) (w1 := w0) hp hop hroom ?_).trans rfl
      rcases hstart with ⟨hno, hw⟩ | ⟨hk, hs, hgo⟩
      · exact .inl ⟨hno, rfl, hw⟩
      · exact .inr ⟨hk, hs, hgo⟩
    refine ⟨fun hrun => perform_after (hturn.trans (run_copyWork hg0 he0 hrun)), fun v hrun hb hc => perform_after ?_,
      fun g1 e1 t1 w2 word v hrun hb hr hg1 he1 hpub hc => perform_after ?_⟩
    · exact (hturn.trans (run_copyWork hg0 he0 hrun)).trans (run_copyEnd hb hc)
    · exact (hturn.trans (run_copyWork hg0 he0 hrun)).trans (run_copyEnd_publishes hb hr hg1 he1 hpub hc)

/-! ## Queue M (R318 to R327) -/

theorem run_ctxHead (hp : CtxHeadPerforms w.cur n c ga e t) : ctxHead n w = .ok ((c, ga, e), w) := by
  obtain ⟨hc, hg, he, hh, hr, hs⟩ := hp
  rw [ctxHead, run_bind_ok (run_now _), run_bind_ok (run_getCtx (w := w) hc), run_bind_ok (run_getGang w hg), he, List.head?_cons,
    run_bind_ok (run_need_some _ _), hh, hr, hs]
  exact run_bind_ok (run_guardA _ _)

theorem run_modMatrix (hg : Tab.find w.cur.gangs n = some ga) (pos : Nat) (f : Matrix → Matrix) :
    modMatrix n pos f w =
      .ok ((), ⟨w.cur.setGang n { ga with matrix := Tab.set ga.matrix pos (f (ga.matrixOf pos)) }, w.stores⟩) := by
  rw [modMatrix, run_modGang w hg]
  rfl

theorem run_rewrite (f : Sram → Bool) : upd (fun s => s.rewrite f) w = .ok ((), ⟨w.cur.rewrite f, w.stores⟩) := run_upd _ _

/-- The tiles of a load are lost on the cores it names (R318). -/
def unloadTiles (n tile : Nat) (r : Record) : Act Unit :=
  forM (namedCores r) (fun x => modMatrix n x.2 (fun m => { m with tiles := Tab.del m.tiles tile }))

theorem mloadb_performs {tile off : Nat} {r : Record} {x : Except (Nat × Nat) Nat} (hp : CtxHeadPerforms s n c ga e t)
    (hop : e.op = .mloadb tile r off) (hu : unloadTiles n tile r ⟨s, []⟩ = .ok ((), w1))
    (hx : onCores (loadCore n (s.portOf (.ctx n)) tile r off) (namedCores r) 0 w1 = .ok (x, w2)) :
    (∀ st, x = .ok st →
      ctxComplete n (st / 16) (st % 16) ⟨w2.cur.rewrite (fun y => (namedCores r).any (fun x => Sram.ofTile n x.2 tile y)), w2.stores⟩
        = .ok ((), w3) → takeBanks n w3 = .ok ((), v) → exec (.mloadbEntryPerform n) s = .next (s.after v)) ∧
    (∀ code a, x = .error (code, a) → unloadTiles n tile r w2 = .ok ((), w4) → ctxHalt n code a w4 = .ok ((), v) →
      exec (.mloadbEntryPerform n) s = .next (s.after v)) := by
  refine ⟨fun st hst hc ht => perform_after ?_, fun code a hst hu2 hh => perform_after ?_⟩
  all_goals
    subst hst
    rw [run_bind_ok (run_ctxHead (w := ⟨s, []⟩) hp)]
    dsimp only
    rw [hop]
    dsimp only
    rw [run_bind_ok (run_now _)]
    refine (run_bind_ok hu).trans ?_
    refine (run_bind_ok hx).trans ?_
    dsimp only
  · rw [run_bind_ok (run_rewrite _)]
    exact (run_bind_ok hc).trans ht
  · exact (run_bind_ok hu2).trans hh

/-- The accumulators of the cores that a multiplication names are as a gang had them (R320). -/
def restoreAccs (n : Nat) (ga : Gang) (r : Record) : Act Unit :=
  forM (namedCores r) (fun x => modMatrix n x.2 (fun m => { m with accs := (ga.matrixOf x.2).accs }))

/-- The banks that feed a multiplication are kept, or not (R320). -/
def keepBanks (n : Nat) (bcast : Bool) (r : Record) (keep : Bool) : Act Unit :=
  forM (feedersOf bcast r) (fun f => modMatrix n f (fun m => { m with kept := keep }))

theorem mma_performs {c0 : Ctx} {g0 : Gang} {e0 : Ent} {t0 : List Ent} {w0 : Work} {acc tile : Nat} {bcast keep bc : Bool} {r : Record}
    {acol : List Nat} {x : Except (Nat × Nat) Nat} (hp0 : CtxHeadPerforms s n c0 g0 e0 t0) (ht : takeBanks n ⟨s, []⟩ = .ok ((), w0))
    (hp : CtxHeadPerforms w0.cur n c ga e t) (hop : e.op = .mma bcast acc r tile keep)
    (hread : ∀ f ∈ feedersOf bcast r, (Tab.find e.reads f).isSome)
    (hs : readScales (w0.cur.portOf (.ctx n)) (shAcsa r) (shK r) w0 = .ok (.ok (acol, bc), w1))
    (hx : onCores (multiplyCore n (w0.cur.portOf (.ctx n)) bcast acc r tile acol bc
      (!(w1.cur.corrections == w0.cur.corrections))) (namedCores r) 0 w1 = .ok (x, w2)) :
    (∀ st, x = .ok st → keepBanks n bcast r keep w2 = .ok ((), w3) → ctxComplete n (st / 16) (st % 16) w3 = .ok ((), w4) →
      takeBanks n w4 = .ok ((), v) → exec (.mmaEntryPerform n) s = .next (s.after v)) ∧
    (∀ code a, x = .error (code, a) → restoreAccs n ga r w2 = .ok ((), w3) → ctxHalt n code a w3 = .ok ((), v) →
      exec (.mmaEntryPerform n) s = .next (s.after v)) := by
  have hall : (feedersOf bcast r).all (fun f => (Tab.find e.reads f).isSome) = true := by simpa using hread
  refine ⟨fun st hst hk hc ht2 => perform_after ?_, fun code a hst hu2 hh => perform_after ?_⟩
  all_goals
    subst hst
    rw [run_bind_ok (run_discard_ok (run_ctxHead (w := ⟨s, []⟩) hp0)), run_bind_ok ht, run_bind_ok (run_ctxHead hp)]
    dsimp only
    rw [hop]
    dsimp only
    rw [run_bind_ok (run_now _), hall, run_bind_ok (run_guardA _ _), run_bind_ok (run_now _)]
    refine (run_bind_ok hs).trans ?_
    refine (run_bind_ok (run_now _)).trans ?_
    refine (run_bind_ok hx).trans ?_
    dsimp only
  · exact (run_bind_ok hk).trans ((run_bind_ok hc).trans ht2)
  · exact (run_bind_ok hu2).trans hh

theorem rewrite_of_clean {s : State} (f : Sram → Bool) (hb : s.sramBad = []) (hc : s.sramCorr = []) : s.rewrite f = s := by
  rw [State.rewrite, hb, hc]
  cases s
  simp_all

/-- Words of SRAM without an error are read as they are (R222). -/
theorem run_readWords_of_clean (die : Nat) (f : Sram → Bool) (hb : w.cur.sramBad = []) (hc : w.cur.sramCorr = []) :
    readWords die f w = .ok (0, w) := by
  rw [readWords, run_bind_ok (run_now _), hb, hc]
  rfl

theorem worse_zero_worse (c : Nat) : worse (worse c 0) 0 = worse c 0 := by
  unfold worse
  split
  · exact ite_self _
  · rfl

/-- A core's product, over SRAM without an error (R319, R320). -/
theorem run_multiplyOn {acc tile j pos f : Nat} {r : Record} {bank : Bank} {acol : List Nat} {m m1 : Matrix} {x : Tile} {a0 : Acc}
    {y : Tab W32 × Nat} (hg : Tab.find w.cur.gangs n = some ga) (hb : w.cur.sramBad = []) (hc : w.cur.sramCorr = [])
    (hm : ga.matrixOf pos = m) (hx : Tab.getD m.tiles tile ⟨shK r, shN r, shBfmt r, [], [], []⟩ = x)
    (ha : Tab.getD m.accs acc (accOf r j) = a0) (hy : productOf r x acol (bankRows bank r) a0.elems = y)
    (hm1 : { m with accs := Tab.set m.accs acc { (if shAccdis r then accOf r j else a0) with elems := y.1 } } = m1)
    (hfmt : shAfmt r ≠ 13) (hvote : badVote bank r = false) :
    multiplyOn n acc r tile j pos (some (f, bank)) (bankRows bank r) acol false false w =
      .ok (worse y.2 0, ⟨w.cur.setGang n { ga with matrix := Tab.set ga.matrix pos m1 }, w.stores⟩) := by
  subst hm hx ha hy hm1
  rw [multiplyOn, run_bind_ok (run_getGang w hg), run_bind_ok (run_now _)]
  dsimp only
  rw [run_bind_ok (run_readWords_of_clean _ _ hb hc), run_bind_ok (run_readWords_of_clean _ _ hb hc)]
  rw [run_bind_ok (run_modMatrix hg _ _), run_bind_ok (run_rewrite _),
    rewrite_of_clean (s := w.cur.setGang _ _) _ hb hc, hb]
  have hlost : (if shAccdis r = true then [] else
      (upFrom 0 (shM r * shN r)).filter (fun i => ([] : List Sram).contains (.acc n pos acc i))) = [] := by
    split
    · rfl
    · exact List.filter_eq_nil_iff.mpr fun _ _ => by simp
  have hfirst : (shAfmt r == 13 && (bankRows bank r).any (fun x => x.1.any (fun y => decide (y ≥ 64)))) = false := by
    rw [beq_eq_false_iff_ne.mpr hfmt, Bool.false_and]
  rw [hlost, hfirst, Option.map_some, Option.getD_some, hvote]
  simp only [List.foldl_cons, List.foldl_nil, Bool.or_self, Bool.false_eq_true, if_false, worse_zero_worse]
  rfl

theorem mzero_performs {acc code : Nat} {r : Record} {free : Bool} (hp : CtxHeadPerforms s n c ga e t) (hop : e.op = .mzero acc r free)
    {named : Sram → Bool} (hn : (fun y => (namedCores r).any (fun x => Sram.ofAcc n x.2 acc y)) = named)
    (hr : readWords ga.die named ⟨s, []⟩ = .ok (code, w1))
    (hz : forM (namedCores r) (fun x => modMatrix n x.2 (fun m =>
      { m with accs := if free then Tab.del m.accs acc else Tab.set m.accs acc (accOf r x.1) })) w1 = .ok ((), w2))
    (hd : ctxComplete n (if code = 0 then 0 else 2) 0 ⟨w2.cur.rewrite named, w2.stores⟩ = .ok ((), w3))
    (ht : takeBanks n w3 = .ok ((), v)) : exec (.mzeroEntryPerform n) s = .next (s.after v) := by
  subst hn
  refine perform_after ?_
  rw [run_bind_ok (run_ctxHead (w := ⟨s, []⟩) hp)]
  dsimp only
  rw [hop]
  dsimp only
  refine (run_bind_ok hr).trans ?_
  refine (run_bind_ok hz).trans ?_
  rw [run_bind_ok (run_rewrite _)]
  exact (run_bind_ok hd).trans ht

theorem mfeed_performs {row word : Nat} {words : List W32} {fmt : Option W32} {m : Matrix} (hp : HeadPerforms s k 2 g e t)
    (hop : e.op = .mfeed row words fmt) (hga : Tab.find s.gangs (k / 65536) = some ga) (hm : ga.matrixOf g.id.pos = m)
    (hfree : Tab.find m.fill.rows row = none)
    (ht : takeBanks (k / 65536) ⟨s.setGang (k / 65536) { ga with
      matrix := Tab.set ga.matrix g.id.pos (m.setFill { m.fill with rows := Tab.set m.fill.rows row ⟨words, fmt⟩ }) }, []⟩ = .ok ((), w1))
    (hc : complete k 2 0 0 w1 = .ok (word, v)) : exec (.mfeedEntryPerform k) s = .next (s.after v) := by
  subst hm
  refine perform_after ?_
  rw [run_bind_ok (run_headOf_of_performs (w := ⟨s, []⟩) hp)]
  dsimp only
  rw [hop]
  dsimp only
  rw [run_bind_ok (run_getGang (w := ⟨s, []⟩) hga), show Tab.find (ga.matrixOf (posOf g)).fill.rows row = none from hfree,
    run_bind_ok (run_guardA _ _), run_bind_ok (run_modMatrix (w := ⟨s, []⟩) hga _ _)]
  exact (run_bind_ok ht).trans (run_discard_ok hc)

theorem mscale_performs {word : Nat} {scales : List (Nat × Byte)} {m : Matrix} (hp : HeadPerforms s k 2 g e t)
    (hop : e.op = .mscale scales) (hga : Tab.find s.gangs (k / 65536) = some ga) (hm : ga.matrixOf g.id.pos = m)
    (hfree : ∀ x ∈ scales, Tab.find m.fill.rows x.1 = none)
    (hc : complete k 2 0 0 ⟨s.setGang (k / 65536) { ga with
      matrix := Tab.set ga.matrix g.id.pos (m.setFill { m.fill with scales := scales.foldl (fun t x => Tab.set t x.1 x.2) m.fill.scales }) }, []⟩ = .ok (word, v)) :
    exec (.mscaleEntryPerform k) s = .next (s.after v) := by
  subst hm
  have hall : scales.all (fun x => (Tab.find (ga.matrixOf (posOf g)).fill.rows x.1).isNone) = true :=
    List.all_eq_true.mpr fun x hx => Option.isNone_iff_eq_none.mpr (hfree x hx)
  refine perform_after ?_
  rw [run_bind_ok (run_headOf_of_performs (w := ⟨s, []⟩) hp)]
  dsimp only
  rw [hop]
  dsimp only
  rw [run_bind_ok (run_getGang (w := ⟨s, []⟩) hga), hall, run_bind_ok (run_guardA _ _),
    run_bind_ok (run_modMatrix (w := ⟨s, []⟩) hga _ _)]
  exact run_discard_ok hc

/-- A drain whose accumulator is not there. -/
theorem mdrain_of_none {acc base : Nat} {spad zero sat : Bool} {rm : Nat} {bar : BarRef} {elems : List Nat}
    (hp : HeadPerforms s k 2 g e t) (hop : e.op = .mdrain acc spad zero sat rm base bar)
    (hga : Tab.find s.gangs (k / 65536) = some ga) (hno : Tab.find (ga.matrixOf g.id.pos).accs acc = none)
    (hj : joinStatus k 2 0x40 ⟨s, []⟩ = .ok ((), w1)) (hc : Completes k 2 w1 v) :
    exec (.mdrainEntryPerform ⟨k, n⟩ elems) s = .next (s.after v) := by
  refine perform_after ?_
  rw [run_bind_ok (run_headOf_of_performs (w := ⟨s, []⟩) hp)]
  dsimp only
  rw [hop]
  dsimp only
  rw [run_bind_ok (run_getGang (w := ⟨s, []⟩) hga), run_bind_ok (run_headPort (w := ⟨s, []⟩) hp.1 hp.2.1),
    show Tab.find (ga.matrixOf (posOf g)).accs acc = none from hno]
  exact (run_bind_ok hj).trans (run_finishHead hc)

theorem mdrain_of_some {acc base : Nat} {spad zero sat : Bool} {rm : Nat} {bar : BarRef} {elems : List Nat} {a : Acc} {done : Bool}
    (hp : HeadPerforms s k 2 g e t) (hop : e.op = .mdrain acc spad zero sat rm base bar)
    (hga : Tab.find s.gangs (k / 65536) = some ga) (ha : Tab.find (ga.matrixOf g.id.pos).accs acc = some a)
    (htake : forM (elems.filter (fun i => decide (i < a.m * a.n))) (drainTake k acc a)
      ⟨s.setGroup k (g.headSet 2 { e with started := true } t), []⟩ = .ok ((), w1))
    (hrun : drainRun k (s.portAt k g e) acc spad zero sat rm base n
      ((sortBy (fun x => x) (((drainBytes a spad base).map (fun x => x.1 / 32)).eraseDups)).drop e.pos) w1 = .ok (done, w2)) :
    (done = false → exec (.mdrainEntryPerform ⟨k, n⟩ elems) s = .next (s.after w2)) ∧
    (done = true → Completes k 2 w2 v → exec (.mdrainEntryPerform ⟨k, n⟩ elems) s = .next (s.after v)) := by
  refine ⟨fun hd => perform_after ?_, fun hd hc => perform_after ?_⟩
  all_goals
    subst hd
    rw [run_bind_ok (run_headOf_of_performs (w := ⟨s, []⟩) hp)]
    dsimp only
    rw [hop]
    dsimp only
    rw [run_bind_ok (run_getGang (w := ⟨s, []⟩) hga), run_bind_ok (run_headPort (w := ⟨s, []⟩) hp.1 hp.2.1),
      show Tab.find (ga.matrixOf (posOf g)).accs acc = some a from ha]
    dsimp only
    rw [run_bind_ok (run_setHead (w := ⟨s, []⟩) hp.1 hp.2.1 _)]
    refine (run_bind_ok htake).trans ?_
    refine (run_bind_ok hrun).trans ?_
  · rfl
  · exact run_finishHead hc

theorem matrixEntriesPerform : MatrixEntriesPerform := by
  refine ⟨fun s n c g e t tile r off w1 x w2 w3 w4 v hp hop hu hx => ?_,
    fun s n c0 g0 e0 t0 w0 c g e t acc bcast r tile keep acol bc w1 x w2 w3 w4 v hp0 ht hp hop hread hs hx => ?_,
    fun w n g acc r tile j pos f bank acol hg hb hc hfmt hvote => run_multiplyOn hg hb hc rfl rfl rfl rfl rfl hfmt hvote,
    fun s n c g e t acc r free code w1 w2 w3 v hp hop hr hz hd ht => mzero_performs hp hop rfl hr hz hd ht,
    fun s k g e t ga row words fmt w1 word v hp hop hga hfree ht hc => mfeed_performs hp hop hga rfl hfree ht hc,
    fun s k g e t ga scales word v hp hop hga hfree hc => mscale_performs hp hop hga rfl hfree hc,
    fun s k g e t ga acc spad zero sat rm base bar elems n w1 w2 hp hop hga =>
      ⟨fun v hno hj hc => mdrain_of_none hp hop hga hno hj hc, fun a ha htake =>
        ⟨fun hrun => (mdrain_of_some (v := w2) hp hop hga ha htake hrun).1 rfl,
          fun v hrun hc => (mdrain_of_some hp hop hga ha htake hrun).2 rfl hc⟩⟩⟩
  · exact mloadb_performs hp hop hu hx
  · exact mma_performs hp0 ht hp hop hread hs hx

end

/-- Settles O40: the head is found, its work runs, and what the work leaves completes, halts or goes on. -/
theorem copyAndMatrixWorkPerforms : Obligations.CopyAndMatrixWorkPerforms := ⟨rangeAndCopyEntriesPerform, matrixEntriesPerform⟩

end Sys2Proof.Machine
end

section
/-! SUPPORT. Entries of queues G and Z at work, and slots that the engine spills (R222, R341, R347 to R361, R372 to R382). -/

namespace Sys2Proof.Machine

open Sys2Proof

section

variable {s : State} {w v w0 w1 w2 w3 w4 w5 : Work} {k q n key word : Nat} {g : Group} {e : Ent} {t : List Ent} {op : EOp}

/-! ## How a turn of an entry begins -/

/-- A turn of the head of a queue is what is done for it. -/
theorem perform_head {f : Group × Queue × Ent → Act Unit} (hp : HeadPerforms s k q g e t)
    (hf : f (g, g.queue q, e) ⟨s, []⟩ = .ok ((), v)) : perform (headOf k q >>= f) s = .next (s.after v) :=
  perform_after ((run_bind_ok (run_headOf_of_performs (w := ⟨s, []⟩) hp)).trans hf)

theorem run_modSlot (key : Nat) (f : Slot → Slot) :
    modSlot key f w = .ok ((), ⟨w.cur.setSlot key (f (w.cur.slotAt key)), w.stores⟩) := run_upd _ _

theorem run_putHead (key x : Nat) :
    putHead key x w = .ok ((), ⟨w.cur.store (cupolaKey key) 32 x, (cupolaKey key, 32, x) :: w.stores⟩) := rfl

theorem later_mem (s : State) (u : Who) (c : Cause) : (s.later u c).mem = s.mem := by
  unfold State.later
  split
  · rfl
  · exact setStream_mem ..

theorem run_causeLater (u : Who) (c : Cause) : upd (fun s => s.later u c) w = .ok ((), ⟨w.cur.later u c, w.stores⟩) := by
  rw [run_upd, setMem_of_mem_eq (later_mem ..)]

/-! ## Queue G -/

theorem run_victimFirst_of_none (h : (w.cur.slotAt key).oldGen = none) : victimFirst k key n w = .ok (true, w) := by
  rw [victimFirst, run_bind_ok (run_now _), h]
  rfl

section

variable {patch key bucket : Nat} {r : Record} {victim : Bool} {bar : BarRef}

theorem dice_ends (hp : HeadPerforms s k 3 g e t) (hop : e.op = .dice patch r key victim bucket bar) (hpos : e.pos = 1024)
    (hd : geoDone k ⟨s, []⟩ = .ok ((), v)) : exec (.diceEntryPerform ⟨k, n⟩) s = .next (s.after v) := by
  refine perform_head hp ?_
  dsimp only
  rw [hop]
  dsimp only
  rw [if_pos hpos]
  exact hd

theorem dice_waits (hp : HeadPerforms s k 3 g e t) (hop : e.op = .dice patch r key victim bucket bar) (hpos : e.pos ≠ 1024)
    (hv : victimFirst k key n ⟨s, []⟩ = .ok (false, v)) : exec (.diceEntryPerform ⟨k, n⟩) s = .next (s.after v) := by
  refine perform_head hp ?_
  dsimp only
  rw [hop]
  dsimp only
  rw [if_neg hpos]
  exact run_bind_ok hv

theorem dice_fills {sl : Slot} {h : Nat} {st : SlotState} (hp : HeadPerforms s k 3 g e t)
    (hop : e.op = .dice patch r key victim bucket bar) (hpos : e.pos ≠ 1024) (hv : victimFirst k key n ⟨s, []⟩ = .ok (true, w0))
    (hsl : w0.cur.slotAt key = sl) (hh : gridHeader patch r bucket sl.gen = h)
    (hw : forM (gridRecords r sl.nu sl.nv) (fun x => poke (cupolaKey key + x.1) x.2.1 x.2.2)
      ⟨w0.cur.store (cupolaKey key) 512 h, (cupolaKey key, 512, h) :: w0.stores⟩ = .ok ((), w1))
    (hst : (if (w1.cur.slotAt key).state == .spilling then SlotState.spilling else .ready) = st)
    (hd : geoDone k ⟨w1.cur.setSlot key { w1.cur.slotAt key with state := st }, w1.stores⟩ = .ok ((), v)) :
    exec (.diceEntryPerform ⟨k, n⟩) s = .next (s.after v) := by
  subst hsl hh hst
  refine perform_head hp ?_
  dsimp only
  rw [hop]
  dsimp only
  rw [if_neg hpos]
  refine (run_bind_ok hv).trans ?_
  rw [if_pos rfl, run_bind_ok (run_now _), run_bind_ok (run_poke _ _ _ _)]
  refine (run_bind_ok hw).trans ?_
  rw [run_bind_ok (run_modSlot _ _)]
  exact hd

end

section

variable {image key bucket m : Nat} {victim : Bool} {bar : BarRef} {g0 g1 : Group} {e0 e1 : Ent} {t0 t1 : List Ent}
  {x : Option (Nat × Nat)}

theorem fill_ends (hp : HeadPerforms s k 3 g e t) (hop : e.op = .fill image key victim bucket bar) (hpos : e.pos = 1024)
    (hd : geoDone k ⟨s, []⟩ = .ok ((), v)) : exec (.fillEntryPerform ⟨k, n⟩) s = .next (s.after v) := by
  refine perform_head hp ?_
  dsimp only
  rw [hop]
  dsimp only
  rw [if_pos hpos]
  exact hd

theorem fill_waits (hp : HeadPerforms s k 3 g e t) (hop : e.op = .fill image key victim bucket bar) (hpos : e.pos ≠ 1024)
    (hv : victimFirst k key n ⟨s, []⟩ = .ok (false, v)) : exec (.fillEntryPerform ⟨k, n⟩) s = .next (s.after v) := by
  refine perform_head hp ?_
  dsimp only
  rw [hop]
  dsimp only
  rw [if_neg hpos]
  exact run_bind_ok hv

/-- What the entry of a fill does with its last sector read: the slot holds the grid. -/
def fillEnd (k key bucket : Nat) : Act Unit := do
  let s ← now
  let h := s.gridHead key
  let h1 := setFld (setFld (setFld h 117 2 1) 192 32 (s.slotAt key).gen) 224 32 (fld bucket 0 32)
  putHead key h1
  modSlot key (fun sl => { sl with
    state := if sl.state == .spilling then .spilling else if hdSampled h1 then .sampled else .ready
    nu := hdNu h1, nv := hdNv h1 })
  geoDone k

theorem run_fillEnd {h : Nat} {sl : Slot} {st : SlotState}
    (hh : setFld (setFld (setFld (w.cur.gridHead key) 117 2 1) 192 32 (w.cur.slotAt key).gen) 224 32 (fld bucket 0 32) = h)
    (hput : putHead key h w = .ok ((), w2)) (hsl : w2.cur.slotAt key = sl)
    (hst : (if sl.state == .spilling then SlotState.spilling else if hdSampled h then .sampled else .ready) = st)
    (hd : geoDone k ⟨w2.cur.setSlot key { sl with
      state := st
      nu := hdNu h
      nv := hdNv h }, w2.stores⟩ = .ok ((), v)) : fillEnd k key bucket w = .ok ((), v) := by
  subst hh hsl hst
  rw [fillEnd, run_bind_ok (run_now _)]
  refine (run_bind_ok hput).trans ?_
  rw [run_bind_ok (run_modSlot _ _)]
  exact hd

theorem fill_reads (hp : HeadPerforms s k 3 g e t) (hop : e.op = .fill image key victim bucket bar) (hpos : e.pos ≠ 1024)
    (hv : victimFirst k key n ⟨s, []⟩ = .ok (true, w0)) (hg0 : Tab.find w0.cur.groups k = some g0) (he0 : (g0.queue 3).ents = e0 :: t0)
    (hm : min n (512 - e0.pos) = m) (hx : fillSectors k (w0.cur.portAt k g0 e0) key image m e0.pos w0 = .ok (x, w1)) :
    (∀ c a, x = some (c, a) → haltHead k 3 c a w1 = .ok ((), v) → exec (.fillEntryPerform ⟨k, n⟩) s = .next (s.after v)) ∧
    (x = none → Tab.find w1.cur.groups k = some g1 → (g1.queue 3).ents = e1 :: t1 →
      (if e0.pos + m = 512 then fillEnd k key bucket else pure ())
        ⟨w1.cur.setGroup k (g1.headSet 3 { e1 with pos := e0.pos + m } t1), w1.stores⟩ = .ok ((), v) →
      exec (.fillEntryPerform ⟨k, n⟩) s = .next (s.after v)) := by
  subst hm
  refine ⟨fun c a hc hh => ?_, fun hc hg1 he1 hd => ?_⟩
  all_goals
    subst hc
    refine perform_head hp ?_
    dsimp only
    rw [hop]
    dsimp only
    rw [if_neg hpos]
    refine (run_bind_ok hv).trans ?_
    rw [if_pos rfl, run_bind_ok (run_headEnt hg0 he0), run_bind_ok (run_headPort hg0 he0)]
    refine (run_bind_ok hx).trans ?_
    dsimp only
  · exact hh
  · rw [run_bind_ok (run_setHead hg1 he1 _)]
    exact hd

end

section

variable {image key m st : Nat} {bar : BarRef} {sent : Tab Nat} {cause : Option (Nat × Nat)}

theorem spill_ends (hp : HeadPerforms s k 3 g e t) (hop : e.op = .spill key image bar) (hpos : e.pos = 1024)
    (hd : geoDone k ⟨s, []⟩ = .ok ((), v)) : exec (.spillEntryPerform k n) s = .next (s.after v) := by
  refine perform_head hp ?_
  dsimp only
  rw [hop]
  dsimp only
  rw [run_bind_ok (run_now _), if_pos hpos]
  exact hd

theorem spill_writes (hp : HeadPerforms s k 3 g e t) (hop : e.op = .spill key image bar) (hpos : e.pos ≠ 1024)
    (hn : s.naming key = 1) (hput : putHead key (setFld (s.gridHead key) 118 1 1) ⟨s, []⟩ = .ok ((), w0))
    (hs : spillSectors (s.portAt k g e) (s.portAt k g e).die key image (min n (512 - e.pos)) e.pos 0 [] 0 w0 =
      .ok ((m, sent, st, cause), w1)) (hnote : spillNote k m sent st w1 = .ok ((), w2))
    (hset : setHead k 3 (fun x => { x with pos := e.pos + m }) w2 = .ok ((), w3)) :
    (∀ c a, cause = some (c, a) → haltHead k 3 c a w3 = .ok ((), v) → exec (.spillEntryPerform k n) s = .next (s.after v)) ∧
    (cause = none → e.pos + m ≠ 512 → exec (.spillEntryPerform k n) s = .next (s.after w3)) ∧
    (∀ w4, cause = none → e.pos + m = 512 → spillEnd (s.portAt k g e) key (2 ^ 63 + image % 2 ^ 48) w3 = .ok (none, w4) →
      geoDone k w4 = .ok ((), v) → exec (.spillEntryPerform k n) s = .next (s.after v)) := by
  refine ⟨fun c a hc hh => ?_, fun hc hno => ?_, fun w4 hc hall hend hd => ?_⟩
  all_goals
    subst hc
    refine perform_head hp ?_
    dsimp only
    rw [hop]
    dsimp only
    rw [run_bind_ok (run_now _), if_neg hpos, run_bind_ok (run_headPort (w := ⟨s, []⟩) hp.1 hp.2.1)]
    dsimp only
    rw [hn, run_bind_ok (run_guardA _ _)]
    refine (run_bind_ok hput).trans ?_
    refine (run_bind_ok hs).trans ?_
    refine (run_bind_ok hnote).trans ?_
    refine (run_bind_ok hset).trans ?_
    dsimp only
  · exact hh
  · rw [if_neg hno]
    rfl
  · rw [if_pos hall]
    exact (run_bind_ok hend).trans hd

end

theorem engineSpill_acts (hi : s.slotIdle key = true) (hh : (s.slotAt key).holders = []) (ho : (s.slotAt key).oldGen = none)
    (hf : (s.slotAt key).failed = false) :
    ((s.slotAt key).state = .sampled → hdRemain (s.gridHead key) = 0 → releaseSlot key ⟨s, []⟩ = .ok ((), v) →
      exec (.engineSpill key) s = .next (s.after v)) ∧
    (∀ n sent st, (s.slotAt key).state = .spilling →
      spillSlot (s.slotPort key) (slotPlace key).2.1 key ⟨s.setSlot key { s.slotAt key with state := .spilling }, []⟩ =
        .ok ((n, sent, .done st), v) → exec (.engineSpill key) s = .next (s.after v)) := by
  refine ⟨fun hs hr hrel => perform_after ?_, fun n sent st hs hspill => perform_after ?_⟩
  all_goals
    rw [run_bind_ok (run_now _), slotPlace]
    dsimp only
    rw [hi, hh, ho, run_bind_ok (run_guardA _ _), hf, Bool.false_and, run_bind_ok (run_guardA _ _), hs]
  · rw [hr]
    exact hrel
  · rw [if_neg (by simp), run_bind_ok (by rfl), run_bind_ok (run_modSlot _ _)]
    exact run_bind_ok hspill

theorem gread_performs {m : GMap} {dst tag : Nat} {threads : List (Nat × Bool)} (hp : HeadPerforms s k 3 g e t)
    (hop : e.op = .gread key m dst threads tag) (hr : s.gridReadyFor key e.born = true) {h : Nat} (hh : s.gridHead key = h)
    (hres : resultReady k tag (threads.flatMap (fun x => (upFrom 0 12).map (fun i =>
      (x.1, dst + i, BitVec.ofNat 32 (nth (s.vertexWords key (hdNu h) (hdNv h) m x.1 x.2) i 0))))) ⟨s, []⟩ = .ok ((), w1))
    (hc : complete k 3 0 0 w1 = .ok (word, w2)) (hrel : releaseSlot key w2 = .ok ((), v)) :
    exec (.greadEntryPerform k) s = .next (s.after v) := by
  subst hh
  refine perform_head hp ?_
  dsimp only
  rw [hop]
  dsimp only
  rw [run_bind_ok (run_now _), hr, run_bind_ok (run_guardA _ _)]
  refine (run_bind_ok hres).trans ?_
  exact (run_bind_ok (run_discard_ok hc)).trans hrel

theorem gwrite_performs {m : GMap} {mask nu : Nat} {args : List (Nat × List W32)} (hp : HeadPerforms s k 3 g e t)
    (hop : e.op = .gwrite key mask nu args m)
    (hw : forM args (fun x => forM ((bitsOf 12 mask).zip x.2) (fun y =>
      poke (cupolaKey key + vertexOff nu (m.vertex x.1).1.toNat (m.vertex x.1).2.toNat + 4 * y.1) 4 y.2.toNat)) ⟨s, []⟩ = .ok ((), w1))
    (hc : complete k 3 0 0 w1 = .ok (word, w2)) (hrel : releaseSlot key w2 = .ok ((), v)) :
    exec (.gwriteEntryPerform k) s = .next (s.after v) := by
  refine perform_head hp ?_
  dsimp only
  rw [hop]
  refine (run_bind_ok hw).trans ?_
  exact (run_bind_ok (run_discard_ok hc)).trans hrel

theorem geometryEntriesPerform : GeometryEntriesPerform := by
  refine ⟨fun w k key n => run_victimFirst_of_none, fun s k g e t patch r key victim bucket bar n w0 w1 v hp hop =>
      ⟨dice_ends hp hop, dice_waits hp hop, fun hpos hv hw hd => dice_fills hp hop hpos hv rfl rfl hw rfl hd⟩,
    fun s k g e t image key victim bucket bar n w0 g0 e0 t0 x w1 v hp hop => ⟨fill_ends hp hop, fill_waits hp hop,
      fun hpos hv hg0 he0 hx => ⟨fun c a hc hh => ?_, fun g1 e1 t1 hc hg1 he1 => ⟨fun hno => ?_, fun w2 hall hput hd => ?_⟩⟩⟩,
    fun s k g e t key image bar n w0 m sent st cause w1 w2 v hp hop =>
      ⟨spill_ends hp hop, fun hpos hn hput hs hnote w3 hset => spill_writes hp hop hpos hn hput hs hnote hset⟩,
    fun s key w hi hh ho hf => engineSpill_acts hi hh ho hf,
    fun s k g e t key m dst threads tag w1 word w2 v hp hop hr hres hc hrel => gread_performs hp hop hr rfl hres hc hrel,
    fun s k g e t key mask nu args m w1 word w2 v hp hop hw hc hrel => gwrite_performs hp hop hw hc hrel⟩
  · exact (fill_reads (g1 := g0) (e1 := e0) (t1 := t0) hp hop hpos hv hg0 he0 rfl hx).1 c a hc hh
  · exact (fill_reads hp hop hpos hv hg0 he0 rfl hx).2 hc hg1 he1 (by rw [if_neg hno]; rfl)
  · exact (fill_reads hp hop hpos hv hg0 he0 rfl hx).2 hc hg1 he1 (by rw [if_pos hall]; exact run_fillEnd rfl hput rfl rfl hd)

/-! ## Queue Z -/

section

variable {b : Raster} {bar : BarRef} {ok : Bool}

theorem sflush_performs {x y : Nat} {depth : W32} {g1 : Group} {e1 : Ent} {t1 : List Ent} {more : Bool} (hp : HeadPerforms s k 4 g e t)
    (hop : e.op = .sflush b x y depth bar)
    (hrun : flushRun k (s.portAt k g e) b depth.toNat n e.pos ⟨s.setGroup k (g.headSet 4 { e with started := true } t), []⟩ =
      .ok (more, w1)) :
    (more = false → exec (.sflushEntryPerform k n) s = .next (s.after w1)) ∧
    (more = true → Tab.find w1.cur.groups k = some g1 → (g1.queue 4).ents = e1 :: t1 →
      (e1.pos < 512 * patSamples b.header → exec (.sflushEntryPerform k n) s = .next (s.after w1)) ∧
      (512 * patSamples b.header ≤ e1.pos → zDone k w1 = .ok (ok, v) → exec (.sflushEntryPerform k n) s = .next (s.after v))) := by
  refine ⟨fun hm => ?_, fun hm hg1 he1 => ⟨fun hlt => ?_, fun hle hz => ?_⟩⟩
  all_goals
    subst hm
    refine perform_head hp ?_
    dsimp only
    rw [hop]
    dsimp only
    rw [run_bind_ok (run_headPort (w := ⟨s, []⟩) hp.1 hp.2.1), run_bind_ok (run_setHead (w := ⟨s, []⟩) hp.1 hp.2.1 _)]
    refine (run_bind_ok hrun).trans ?_
  · rfl
  · rw [if_pos rfl, run_bind_ok (run_getGroup (w := w1) hg1), he1, List.head?_cons, run_bind_ok (run_need_some _ _),
      if_neg (Nat.not_le.mpr hlt)]
    rfl
  · rw [if_pos rfl, run_bind_ok (run_getGroup (w := w1) hg1), he1, List.head?_cons, run_bind_ok (run_need_some _ _), if_pos hle]
    exact run_discard_ok hz

/-- The end of SGRID's entry: it completes and gives its slot back. -/
def sgridEnd (k key : Nat) : Act Unit := do
  if ← zDone k then releaseSlot key

theorem run_sgridEnd (hz : (zDone k w = .ok (false, v)) ∨ (zDone k w = .ok (true, w1) ∧ releaseSlot key w1 = .ok ((), v))) :
    sgridEnd k key w = .ok ((), v) := by
  rcases hz with hz | ⟨hz, hr⟩
  · exact run_bind_ok hz
  · exact (run_bind_ok hz).trans hr

section

variable {bx bk gang slot : Nat}

theorem sgrid_ends (hp : HeadPerforms s k 4 g e t) (hop : e.op = .sgrid b bx bk key gang bar) (hr : s.gridReadyFor key e.born = true)
    (hpos : e.pos = 65536) (hend : sgridEnd k key ⟨s, []⟩ = .ok ((), v)) :
    exec (.sgridEntryPerform ⟨k, n⟩) s = .next (s.after v) := by
  refine perform_head hp ?_
  dsimp only
  rw [hop]
  dsimp only
  rw [run_bind_ok (run_now _), hr, run_bind_ok (run_guardA _ _), if_pos hpos]
  exact hend

theorem sgrid_samples {h : Nat} {rows : List (List (Option Nat))} {hits : List Hit × Nat} {best : Tab Hit} {more : Bool}
    (hp : HeadPerforms s k 4 g e t) (hop : e.op = .sgrid b bx bk key gang bar) (hr : s.gridReadyFor key e.born = true)
    (hpos : e.pos ≠ 65536) (hh : s.gridHead key = h)
    (hslot : readSlot (s.portAt k g e).die key (hdNu h) (hdNv h) ⟨s, []⟩ = .ok (slot, w0))
    (hrows : (if s.badAt (cupolaKey key) 32 then [] else s.gridRows key (hdNu h) (hdNv h)) = rows)
    (hhits : (if rows.isEmpty then ([], 0) else gridHits b bx bk h (hdNu h) (hdNv h) rows) = hits) (hbest : bestHits hits.1 = best)
    (hnote : zNote k 0 (worseSts slot hits.2) none w0 = .ok ((), w1))
    (hrun : sampleRun k (s.portAt k g e) b best n ((sortBy (fun x => x) ((best.map (fun h => h.1 / 2)).eraseDups)).filter
      (fun z => decide (e.pos ≤ z))) w1 = .ok (more, w2)) :
    (more = false → exec (.sgridEntryPerform ⟨k, n⟩) s = .next (s.after w2)) ∧
    (more = true → markSampled key gang bx bk w2 = .ok ((), w3) → setHead k 4 (fun e => { e with pos := 65536 }) w3 = .ok ((), w4) →
      sgridEnd k key w4 = .ok ((), v) → exec (.sgridEntryPerform ⟨k, n⟩) s = .next (s.after v)) := by
  subst hh hrows hhits hbest
  refine ⟨fun hm => ?_, fun hm hmark hset hend => ?_⟩
  all_goals
    subst hm
    refine perform_head hp ?_
    dsimp only
    rw [hop]
    dsimp only
    rw [run_bind_ok (run_now _), hr, run_bind_ok (run_guardA _ _), if_neg hpos,
      run_bind_ok (run_headPort (w := ⟨s, []⟩) hp.1 hp.2.1)]
    refine (run_bind_ok hslot).trans ?_
    refine (run_bind_ok hnote).trans ?_
    refine (run_bind_ok hrun).trans ?_
  · rfl
  · exact (run_bind_ok hmark).trans ((run_bind_ok hset).trans hend)

end

theorem sresolve_performs {x y base : Nat} {more : Bool} (hp : HeadPerforms s k 4 g e t) (hop : e.op = .sresolve b x y base bar)
    (hrun : resolveRun k (s.portAt k g e) b base n ((sortBy (fun x => x) (((upFrom 0 32).flatMap (fun y => (upFrom 0 32).map (fun x =>
      (base + y * patPitch b.header + 8 * x) / 32))).eraseDups)).drop e.pos)
      ⟨s.setGroup k (g.headSet 4 { e with started := true } t), []⟩ = .ok (more, w1)) :
    (more = false → exec (.sresolveEntryPerform k n) s = .next (s.after w1)) ∧
    (more = true → zDone k w1 = .ok (ok, v) → exec (.sresolveEntryPerform k n) s = .next (s.after v)) := by
  refine ⟨fun hm => ?_, fun hm hz => ?_⟩
  all_goals
    subst hm
    refine perform_head hp ?_
    dsimp only
    rw [hop]
    dsimp only
    rw [run_bind_ok (run_headPort (w := ⟨s, []⟩) hp.1 hp.2.1)]
    dsimp only
    rw [run_bind_ok (run_setHead (w := ⟨s, []⟩) hp.1 hp.2.1 _)]
    refine (run_bind_ok hrun).trans ?_
  · rfl
  · exact run_discard_ok hz

theorem scover_performs {bx bk dst tag : Nat} {args : List TArg} (hp : HeadPerforms s k 4 g e t)
    (hop : e.op = .scover b bx bk key dst args tag) (hr : s.gridReadyFor key e.born = true)
    (hrun : scoverRun k key b bx bk dst tag args ⟨s, []⟩ = .ok ((), v)) : exec (.scoverEntryPerform k) s = .next (s.after v) := by
  refine perform_head hp ?_
  dsimp only
  rw [hop]
  dsimp only
  rw [run_bind_ok (run_now _), hr, run_bind_ok (run_guardA _ _)]
  exact hrun

theorem sread_performs {dst tag : Nat} {args : List TArg} (hp : HeadPerforms s k 4 g e t) (hop : e.op = .sread b dst args tag)
    (hrun : sreadRun k (s.portAt k g e) b dst tag n (args.drop e.pos) ⟨s, []⟩ = .ok ((), v)) :
    exec (.sampleRecordEntryPerform ⟨k, n⟩) s = .next (s.after v) := by
  refine perform_head hp ?_
  dsimp only
  rw [run_bind_ok (run_headPort (w := ⟨s, []⟩) hp.1 hp.2.1), hop]
  exact hrun

/-- The end of a turn of SWRITE's entry: with every sector written it completes; a cause is raised at its thread. -/
def swriteEnd (k : Nat) (exited done : Bool) : Option (Nat × Nat × Nat) → Act Unit
  | none => if done then discard (zDone k) else pure ()
  | some (c, i, a) =>
    if exited then haltHead k 4 c a
    else do
      setHead k 4 (fun e => { e with pos := 32 })
      upd (fun s => s.later (.group k) (Cause.ofThread c i a))
      discard (zDone k)

theorem swrite_performs {z : Bool} {tag : Nat} {args mine : List TArg} {done : Bool} {cause : Option (Nat × Nat × Nat)}
    (hp : HeadPerforms s k 4 g e t) (hop : e.op = .swrite b z args tag) (hmine : args.filter (fun t => !t.helper) = mine)
    (hrun : swriteRun k (s.portAt k g e) b z mine n
      ((sortBy (fun x => x) ((mine.map (fun t => b.selected (nth t.words 0 0).toNat / 32)).eraseDups)).drop e.pos) ⟨s, []⟩ =
      .ok ((done, cause), w1))
    (hend : swriteEnd k g.exited done cause w1 = .ok ((), v)) : exec (.sampleRecordEntryPerform ⟨k, n⟩) s = .next (s.after v) := by
  subst hmine
  refine perform_head hp ?_
  dsimp only
  rw [run_bind_ok (run_headPort (w := ⟨s, []⟩) hp.1 hp.2.1), hop]
  refine (run_bind_ok hrun).trans (Eq.trans ?_ hend)
  cases cause with
  | none => rfl
  | some x => rfl

theorem rasterEntriesPerform : RasterEntriesPerform := by
  refine ⟨fun s k g e t b x y depth bar n w1 hp hop => ⟨fun hrun => ?_, fun g1 e1 t1 ok v hrun hg1 he1 => ?_⟩,
    fun s k g e t b bx bk key gang bar n hp hop hr => ⟨fun w1 v hpos hz hrel => ?_, fun v hpos hz => ?_,
      fun slot w0 w1 w2 w3 w4 v hpos hslot hnote => ⟨fun hrun => ?_, fun hrun hmark hset => ⟨fun hz => ?_, fun w5 hz hrel => ?_⟩⟩⟩,
    fun s k g e t b x y base bar n w1 hp hop => ⟨fun hrun => ?_, fun ok v hrun hz => ?_⟩,
    fun s k g e t b bx bk key dst args tag v hp hop hr hrun => scover_performs hp hop hr hrun,
    fun s k g e t b dst args tag n v hp hop hrun => sread_performs hp hop hrun,
    fun s k g e t b z args tag n w1 hp hop => ⟨fun hrun => ?_, fun ok v hrun hz => ?_, fun x c i a v hrun hx hh => ?_,
      fun x c i a w2 ok v hrun hx hset hz => ?_⟩⟩
  · exact (sflush_performs (v := w1) (ok := true) (g1 := g) (e1 := e) (t1 := t) hp hop hrun).1 rfl
  · exact (sflush_performs hp hop hrun).2 rfl hg1 he1
  · exact sgrid_ends hp hop hr hpos (run_sgridEnd (.inr ⟨hz, hrel⟩))
  · exact sgrid_ends hp hop hr hpos (run_sgridEnd (w1 := v) (.inl hz))
  · exact (sgrid_samples (w3 := w2) (w4 := w2) (v := w2) hp hop hr hpos rfl hslot rfl rfl rfl hnote hrun).1 rfl
  · exact (sgrid_samples hp hop hr hpos rfl hslot rfl rfl rfl hnote hrun).2 rfl hmark hset (run_sgridEnd (w1 := v) (.inl hz))
  · exact (sgrid_samples hp hop hr hpos rfl hslot rfl rfl rfl hnote hrun).2 rfl hmark hset (run_sgridEnd (.inr ⟨hz, hrel⟩))
  · exact (sresolve_performs (ok := true) (v := w1) hp hop hrun).1 rfl
  · exact (sresolve_performs hp hop hrun).2 rfl hz
  · exact swrite_performs hp hop rfl hrun rfl
  · exact swrite_performs hp hop rfl hrun (run_discard_ok hz)
  · exact swrite_performs hp hop rfl hrun (by rw [swriteEnd, if_pos hx]; exact hh)
  · refine swrite_performs hp hop rfl hrun ?_
    rw [swriteEnd, if_neg (by simp [hx]), run_bind_ok hset, run_bind_ok (run_causeLater _ _)]
    exact run_discard_ok hz

end

end

/-- Settles O41: the head is found, its sectors or its slot are worked on, and it completes, halts or goes on. -/
theorem gridWorkPerforms : Obligations.GridWorkPerforms := ⟨geometryEntriesPerform, rasterEntriesPerform⟩

end Sys2Proof.Machine
end

section
/-! SUPPORT. Entries of queues Y and H at work, and the meeting of TRACE.SORT (R391 to R404, R410 to R417). -/

namespace Sys2Proof.Machine

open Sys2Proof

section

variable {s : State} {w v w1 w2 w3 w4 : Work} {k q n tag word : Nat} {g : Group} {e : Ent} {t : List Ent} {bvh : Record}
  {args : List TArg}

/-! ## Queue Y, thread by thread (R391, R395, R399 to R402) -/

/-- What an entry of TRACE does with its threads traced. -/
def traceEnd (k tag : Nat) (g : Group) : Act Unit := do
  resultReady k tag []
  discard (complete k 5 0 0)
  let sorting := g.run.frags.any (fun f => match f.wait with | .tracing _ => true | _ => false)
  let windowed := g.run.frags.any (fun f => f.wins.any (fun v => v.1 == tag))
  if sorting && !windowed then
    modGroup k (fun g => g.writeTags [tag])
    sortTraced k

theorem trace_performs {cb cf : Bool} {dst : Nat} {more : Bool} (hp : HeadPerforms s k 5 g e t)
    (hop : e.op = .trace bvh cb cf dst args tag)
    (hrun : traceRun k (s.portAt k g e) bvh cb cf dst tag n (args.drop e.pos) ⟨s, []⟩ = .ok (more, w1))
    (hend : (if more then traceEnd k tag g else pure ()) w1 = .ok ((), v)) :
    exec (.traceEntryPerform ⟨k, n⟩) s = .next (s.after v) := by
  refine perform_head hp ?_
  dsimp only
  rw [hop]
  dsimp only
  rw [run_bind_ok (run_headPort (w := ⟨s, []⟩) hp.1 hp.2.1)]
  refine (run_bind_ok hrun).trans (Eq.trans ?_ hend)
  cases more <;> rfl

theorem traceEnd_alone (hr : resultReady k tag [] w = .ok ((), w2)) (hc : complete k 5 0 0 w2 = .ok (word, v))
    (hno : ∀ f ∈ g.run.frags, ∀ x, f.wait ≠ .tracing x) : traceEnd k tag g w = .ok ((), v) := by
  have hsort : (g.run.frags.any (fun f => match f.wait with | .tracing _ => true | _ => false)) = false := by
    rw [List.any_eq_false]
    intro f hf
    split
    · exact absurd ‹_› (hno f hf _)
    · exact Bool.false_ne_true
  rw [traceEnd, run_bind_ok hr, run_bind_ok (run_discard_ok hc), if_neg (by rw [Bool.and_eq_true]; exact fun h => Bool.false_ne_true (hsort.symm.trans h.1))]
  rfl

theorem traceEnd_sorts {f : Frag} {x : Int} (hr : resultReady k tag [] w = .ok ((), w2)) (hc : complete k 5 0 0 w2 = .ok (word, w3))
    (hf : f ∈ g.run.frags) (hx : f.wait = .tracing x) (hwin : ∀ f ∈ g.run.frags, ∀ y ∈ f.wins, y.1 ≠ tag)
    (hw : modGroup k (fun g => g.writeTags [tag]) w3 = .ok ((), w4)) (hs : sortTraced k w4 = .ok ((), v)) :
    traceEnd k tag g w = .ok ((), v) := by
  have hno : g.run.frags.any (fun f => f.wins.any (fun v => v.1 == tag)) = false := by
    simp only [List.any_eq_false, List.any_eq_true, beq_iff_eq, not_exists, not_and]
    exact hwin
  rw [traceEnd, run_bind_ok hr, run_bind_ok (run_discard_ok hc), if_pos (by
    rw [hno, Bool.not_false, Bool.and_true, List.any_eq_true]
    exact ⟨f, hf, by rw [hx]⟩)]
  exact (run_bind_ok hw).trans hs

theorem hitget_performs {sel dst : Nat} (hp : HeadPerforms s k 5 g e t) (hop : e.op = .hitget bvh sel dst args tag)
    (hrun : hitgetRun k (s.portAt k g e) bvh sel dst tag n (args.drop e.pos) ⟨s, []⟩ = .ok ((), v)) :
    exec (.hitgetEntryPerform ⟨k, n⟩) s = .next (s.after v) := by
  refine perform_head hp ?_
  dsimp only
  rw [hop]
  exact (run_bind_ok (run_headPort (w := ⟨s, []⟩) hp.1 hp.2.1)).trans hrun

theorem rclook_performs {dst : Nat} (hp : HeadPerforms s k 5 g e t) (hop : e.op = .rclook bvh dst args tag)
    (hrun : rclookRun k (s.portAt k g e) bvh dst tag n (args.drop e.pos) ⟨s, []⟩ = .ok ((), v)) :
    exec (.rclookEntryPerform ⟨k, n⟩) s = .next (s.after v) := by
  refine perform_head hp ?_
  dsimp only
  rw [hop]
  exact (run_bind_ok (run_headPort (w := ⟨s, []⟩) hp.1 hp.2.1)).trans hrun

/-- The end of a turn of RCINS's entry: with every thread done it completes; a cause is raised at its thread. -/
def rcinsEnd (k : Nat) (exited done : Bool) : Option (Nat × Nat × Nat) → Act Unit
  | none => if done then yDone k else pure ()
  | some (c, i, a) =>
    if exited then haltHead k 5 c a
    else do
      setHead k 5 (fun e => { e with pos := 32 })
      upd (fun s => s.later (.group k) (Cause.ofThread c i a))
      yDone k

theorem rcins_performs {done : Bool} {cause : Option (Nat × Nat × Nat)} (hp : HeadPerforms s k 5 g e t)
    (hop : e.op = .rcins bvh args tag)
    (hrun : rcinsRun k (s.portAt k g e) bvh n (args.drop e.pos) ⟨s, []⟩ = .ok ((done, cause), w1))
    (hend : rcinsEnd k g.exited done cause w1 = .ok ((), v)) : exec (.rcinsEntryPerform ⟨k, n⟩) s = .next (s.after v) := by
  refine perform_head hp ?_
  dsimp only
  rw [hop]
  dsimp only
  rw [run_bind_ok (run_headPort (w := ⟨s, []⟩) hp.1 hp.2.1)]
  refine (run_bind_ok hrun).trans (Eq.trans ?_ hend)
  cases cause with
  | none => rfl
  | some x => rfl

/-! ## RCFADE (R403, R404) -/

theorem queue_headSet (g : Group) (q : Nat) (e : Ent) (t : List Ent) :
    (g.headSet q e t).queue q = { g.queue q with ents := e :: t } := by
  simp [Group.headSet, Group.queue]

theorem queue_headSet_ne (g : Group) {q j : Nat} (e : Ent) (t : List Ent) (h : j ≠ q) : (g.headSet q e t).queue j = g.queue j :=
  Tab.getD_set_ne _ _ _ h

/-- That the head has begun changes nothing of which entries have committed. -/
theorem committedTo_headSet {q : Nat} (he : (g.queue q).ents = e :: t) {e1 : Ent} (hc : e1.committed = e.committed)
    (hs : e1.seq = e.seq) (after : List (Nat × W16)) : (g.headSet q e1 t).committedTo after = g.committedTo after := by
  unfold Group.committedTo
  refine List.all_congr rfl fun a => ?_
  by_cases ha : a.1 = q
  · rw [ha, queue_headSet, he]
    simp only [List.all_cons, hc, hs]
  · rw [queue_headSet_ne g e1 t ha]

/-- The port of a head that has begun is the port it had. -/
theorem portAt_started {q : Nat} (hg : Tab.find s.groups k = some g) (he : (g.queue q).ents = e :: t) :
    (s.setGroup k (g.headSet q { e with started := true } t)).portAt k (g.headSet q { e with started := true } t)
      { e with started := true } = s.portAt k g e := by
  have hclear : (g.headSet q { e with started := true } t).clearFor { e with started := true } = g.clearFor e := by
    unfold Group.clearFor
    rw [committedTo_headSet (e1 := { e with started := true }) he rfl rfl]
    rfl
  have hport := portOf_setGroup (h := g.headSet q { e with started := true } t) hg rfl (.group k)
  rw [State.portAt, State.portAt, State.engine, State.engine, hclear, hport]

theorem rcfade_performs {f : Nat} {bar : BarRef} {g1 : Group} {e1 : Ent} {t1 : List Ent} {more : Bool} (hp : HeadPerforms s k 5 g e t)
    (hop : e.op = .rcfade bvh f bar)
    (hrun : fadeRun k (s.portAt k g e) bvh f n e.pos ⟨s.setGroup k (g.headSet 5 { e with started := true } t), []⟩ = .ok (more, w1)) :
    (more = false → exec (.rcfadeEntryPerform k n) s = .next (s.after w1)) ∧
    (more = true → Tab.find w1.cur.groups k = some g1 → (g1.queue 5).ents = e1 :: t1 →
      (e1.pos < 2 ^ bvhRclog bvh → exec (.rcfadeEntryPerform k n) s = .next (s.after w1)) ∧
      (2 ^ bvhRclog bvh ≤ e1.pos → yDone k w1 = .ok ((), v) → exec (.rcfadeEntryPerform k n) s = .next (s.after v))) := by
  have hqueue : ((g.headSet 5 { e with started := true } t).queue 5).ents = { e with started := true } :: t := by rw [queue_headSet]
  refine ⟨fun hm => ?_, fun hm hg1 he1 => ⟨fun hlt => ?_, fun hle hy => ?_⟩⟩
  all_goals
    subst hm
    refine perform_head hp ?_
    dsimp only
    rw [hop]
    dsimp only
    rw [run_bind_ok (run_setHead (w := ⟨s, []⟩) hp.1 hp.2.1 _),
      run_bind_ok (run_headPort (w := ⟨s.setGroup k (g.headSet 5 { e with started := true } t), []⟩) (Tab.find_set_same _ _ _) hqueue),
      portAt_started hp.1 hp.2.1]
    refine (run_bind_ok hrun).trans ?_
  · rfl
  · rw [if_pos rfl, run_bind_ok (run_getGroup (w := w1) hg1), he1, List.head?_cons, run_bind_ok (run_need_some _ _),
      if_neg (Nat.not_le.mpr hlt)]
    rfl
  · rw [if_pos rfl, run_bind_ok (run_getGroup (w := w1) hg1), he1, List.head?_cons, run_bind_ok (run_need_some _ _), if_pos hle]
    exact hy

/-! ## The meeting of TRACE.SORT (R393, R394) -/

section

variable {α β : Type} (f : α → β) (key : β → Nat)

theorem insertBy_map (a : α) (l : List α) : insertBy key (f a) (l.map f) = (insertBy (fun x => key (f x)) a l).map f := by
  induction l with
  | nil => rfl
  | cons b l ih =>
    simp only [List.map_cons, insertBy]
    split
    · rfl
    · rw [ih, List.map_cons]

/-- Sorting by a key of an image is sorting by the key and then mapping. -/
theorem sortBy_map (l : List α) : sortBy key (l.map f) = (sortBy (fun x => key (f x)) l).map f := by
  suffices h : ∀ acc : List α, (l.map f).foldl (fun acc x => insertBy key x acc) (acc.map f) =
      (l.foldl (fun acc x => insertBy (fun x => key (f x)) x acc) acc).map f from h []
  induction l with
  | nil => exact fun _ => rfl
  | cons a l ih =>
    intro acc
    rw [List.map_cons, List.foldl_cons, List.foldl_cons, insertBy_map, ih]

end

/-- The movers of a group with their threads, in the order of their positions. -/
def Group.moverThreads (g : Group) : List (Nat × Nat × Thread) := g.movers.map (fun m => (m.1, m.2, g.thread m.1))

/-- The thread that each position takes: the movers in the order of their KIND. -/
def Group.sortedMoves (g : Group) : List (Nat × Thread) :=
  (g.moverThreads.map (fun m => m.1)).zip ((sortBy (fun m => m.2.1) g.moverThreads).map (fun m => m.2.2))

/-- The moves of a meeting, read off a list that names the mover's group with each. -/
theorem moves_of_alone (key : Nat) (ms : List (Nat × Nat × Thread)) :
    ((((ms.map (fun m => (key, m))).map (fun m => (m.1, m.2.1))).zip
      ((sortBy (fun (m : Nat × Nat × Nat × Thread) => m.2.2.1) (ms.map (fun m => (key, m)))).map (fun m => m.2.2.2))).filter
        (fun m => m.1.1 == key)).map (fun m => (m.1.2, m.2)) =
      (ms.map (fun m => m.1)).zip ((sortBy (fun m => m.2.1) ms).map (fun m => m.2.2)) := by
  have hspots : (ms.map (fun m => (key, m))).map (fun m => (m.1, m.2.1)) = (ms.map (fun m => m.1)).map (fun i => (key, i)) := by
    rw [List.map_map, List.map_map]
    rfl
  have hsorted : (sortBy (fun (m : Nat × Nat × Nat × Thread) => m.2.2.1) (ms.map (fun m => (key, m)))).map (fun m => m.2.2.2) =
      (sortBy (fun m => m.2.1) ms).map (fun m => m.2.2) := by
    rw [sortBy_map, List.map_map]
    rfl
  rw [hspots, hsorted, List.zip_map_left, List.filter_eq_self.mpr, List.map_map]
  · exact List.map_id _
  · intro m hm
    obtain ⟨x, -, rfl⟩ := List.mem_map.mp hm
    exact beq_self_eq_true key

theorem traceSort_alone {gang pos regcnt : Nat} {x : Int} (hs : s.groups = [(groupKey gang 0, g)])
    (hk : groupKey gang 0 / 65536 = gang) (hpos : g.id.pos = pos) (hreg : g.regcnt = regcnt) (hex : g.exited = false)
    (hn : g.sorts ≤ n) (hx : g.meetingAt n = some x) (hst : g.st.stopped = false) :
    exec (.traceSortMeeting gang pos regcnt n) s = .next (s.setGroup (groupKey gang 0) (g.afterMeeting x g.sortedMoves)) := by
  have hmembers : sortBy (fun (g : Nat × Group) => g.1) (s.groups.filter (fun g => g.1 / 65536 == gang && g.2.id.pos == pos &&
      g.2.regcnt == regcnt && !g.2.exited && decide (g.2.sorts ≤ n))) = [(groupKey gang 0, g)] := by
    rw [hs, List.filter_cons_of_pos (by simp [hk, hpos, hreg, hex, hn])]
    rfl
  have hg : Tab.find s.groups (groupKey gang 0) = some g := by
    rw [hs]
    exact if_pos rfl
  refine perform_of_no_stores ?_ rfl
  rw [run_bind_ok (run_now _)]
  dsimp only
  rw [hmembers]
  simp only [List.map_cons, List.map_nil, hx]
  rw [run_bind_ok (v := ⟨s, []⟩) (a := ()) (by simp [hst])]
  rw [if_neg (by simp)]
  simp only [List.flatMap_cons, List.flatMap_nil, List.append_nil, List.head?_cons, Option.getD_some]
  have hall : g.movers.map (fun m => (groupKey gang 0, m.1, m.2, g.thread m.1)) =
      g.moverThreads.map (fun m => (groupKey gang 0, m)) := by
    rw [Group.moverThreads, List.map_map]
    rfl
  rw [hall]
  refine (run_bind_ok (run_modGroup ⟨s, []⟩ hg _)).trans ?_
  rw [moves_of_alone]
  rfl

theorem lanternEntriesPerform : LanternEntriesPerform := by
  refine ⟨fun s k g e t bvh cb cf dst args tag n w1 hp hop => ⟨fun hrun => ?_, fun w2 word w3 hrun hr hc => ⟨fun hno => ?_,
      fun f x w4 v hf hx hwin hw hs => ?_⟩⟩,
    fun bvh sel dst args tag s k g e t n v hp hop hrun => hitget_performs hp hop hrun,
    fun bvh dst args tag s k g e t n v hp hop hrun => rclook_performs hp hop hrun,
    fun s k g e t bvh args tag n w1 hp hop => ⟨fun hrun => ?_, fun v hrun hy => ?_, fun x c i a v hrun hx hh => ?_,
      fun x c i a w2 v hrun hx hset hy => ?_⟩,
    fun s k g e t bvh f bar n w1 hp hop => ⟨fun hrun => ?_, fun g1 e1 t1 v hrun hg1 he1 => ?_⟩,
    fun s gang pos regcnt n g x v hs hk hpos hreg hex hn hx hst hv => ?_⟩
  · exact trace_performs hp hop hrun rfl
  · exact trace_performs hp hop hrun (traceEnd_alone hr hc hno)
  · exact trace_performs hp hop hrun (traceEnd_sorts hr hc hf hx hwin hw hs)
  · exact rcins_performs hp hop hrun rfl
  · exact rcins_performs hp hop hrun hy
  · exact rcins_performs hp hop hrun (by rw [rcinsEnd, if_pos hx]; exact hh)
  · refine rcins_performs hp hop hrun ?_
    rw [rcinsEnd, if_neg (by simp [hx]), run_bind_ok hset, run_bind_ok (run_causeLater _ _)]
    exact hy
  · exact (rcfade_performs (v := w1) (g1 := g) (e1 := e) (t1 := t) hp hop hrun).1 rfl
  · exact (rcfade_performs hp hop hrun).2 rfl hg1 he1
  · subst hv
    exact traceSort_alone hs hk hpos hreg hex hn hx hst

/-! ## Queue H (R410 to R417) -/

theorem tex_performs {r : Record} {form dst : Nat} {bar : BarRef} {ahead : List Nat} (hp : HeadPerforms s k 6 g e t)
    (hop : e.op = .tex r form dst args bar tag)
    (ha : readAhead k (s.portAt k g e) (fun t => texReads r form (t.words.map (fun x => x.toNat))) (args.drop e.pos) ahead ⟨s, []⟩ =
      .ok ((), w1)) (hrun : texRun k (s.portAt k g e) r form dst tag args n (args.drop e.pos) w1 = .ok ((), v)) :
    exec (.texEntryPerform ⟨k, ahead, n⟩) s = .next (s.after v) := by
  refine perform_head hp ?_
  dsimp only
  rw [hop]
  dsimp only
  rw [run_bind_ok (run_headPort (w := ⟨s, []⟩) hp.1 hp.2.1)]
  exact (run_bind_ok ha).trans hrun

theorem texq_performs {r : Record} {dst : Nat} {bar : BarRef} {ahead : List Nat} (hp : HeadPerforms s k 6 g e t)
    (hop : e.op = .texq r dst args bar tag)
    (ha : readAhead k (s.portAt k g e) (texqReads r) (args.drop e.pos) ahead ⟨s, []⟩ = .ok ((), w1))
    (hrun : texqRun k (s.portAt k g e) r dst tag n (args.drop e.pos) w1 = .ok ((), v)) :
    exec (.texqEntryPerform ⟨k, ahead, n⟩) s = .next (s.after v) := by
  refine perform_head hp ?_
  dsimp only
  rw [hop]
  dsimp only
  rw [run_bind_ok (run_headPort (w := ⟨s, []⟩) hp.1 hp.2.1)]
  exact (run_bind_ok ha).trans hrun

theorem samplerEntriesPerform : SamplerEntriesPerform :=
  ⟨fun _ _ _ _ _ _ _ _ _ _ _ _ _ _ _ hp hop ha hrun => tex_performs hp hop ha hrun,
    fun _ _ _ _ _ _ _ _ _ _ _ _ _ _ hp hop ha hrun => texq_performs hp hop ha hrun, fun _ _ _ _ _ => rfl⟩

end

end Sys2Proof.Machine
end

section
/-! SUPPORT. Entries of queues X, K and B at work (R419, R424 to R444, R450 to R462, R497, R500 to R510). -/

namespace Sys2Proof.Machine

open Sys2Proof

section

variable {s : State} {w v w0 w1 w2 w3 : Work} {k q n a dst tag word : Nat} {g g1 : Group} {e e1 : Ent} {t t1 : List Ent}
  {args : List TArg} {r : Record} {ga : Gang}

/-! ## The pipe of queue X (R419) -/

theorem run_pipeEntry (hp : PipePerforms s k g e t) :
    pipeEntry k ⟨s, []⟩ = if e.started then .ok (some (g, g.queue 7, e), ⟨s, []⟩)
      else .ok (none, ⟨s.setGroup k (g.headSet 7 { e with started := true } t), []⟩) := by
  rw [pipeEntry, run_bind_ok hp.2]
  dsimp only
  cases e.started with
  | true => rfl
  | false => exact run_bind_ok (run_setHead (w := ⟨s, []⟩) hp.1.1 hp.1.2.1 _)

/-- A turn that finds the entry not yet taken takes it. -/
theorem perform_taken {f : Option (Group × Queue × Ent) → Act Unit} (hp : PipePerforms s k g e t) (hs : e.started = false)
    (hf : f none = pure ()) :
    perform (pipeEntry k >>= f) s = .next (s.setGroup k (g.headSet 7 { e with started := true } t)) := by
  refine perform_of_no_stores ?_ rfl
  rw [run_bind_ok ((run_pipeEntry hp).trans (if_neg (by simp [hs]))), hf]
  rfl

/-- A turn of the entry that the pipe has is what is done for it. -/
theorem perform_pipe {f : Option (Group × Queue × Ent) → Act Unit} (hp : PipePerforms s k g e t) (hs : e.started = true)
    (hf : f (some (g, g.queue 7, e)) ⟨s, []⟩ = .ok ((), v)) : perform (pipeEntry k >>= f) s = .next (s.after v) :=
  perform_after ((run_bind_ok ((run_pipeEntry hp).trans (if_pos hs))).trans hf)

theorem pipe_takes (hp : PipePerforms s k g e t) (hs : e.started = false) :
    ∀ i ∈ [Instr.colourTransformEntryPerform k, .packEntryPerform k, .xrawEntryPerform k, .xfclrEntryPerform k,
      .xdeltaEntryPerform k, .xdcmpEntryPerform k],
      exec i s = .next (s.setGroup k (g.headSet 7 { e with started := true } t)) := by
  simp only [List.mem_cons, List.not_mem_nil, or_false]
  rintro i (rfl | rfl | rfl | rfl | rfl | rfl)
  all_goals exact perform_taken hp hs rfl

/-! ## The transforms (R424 to R433) -/

/-- What a colour transform does with its descriptor read. -/
def colourKnown (k kind a tag : Nat) (args : List TArg) : Except (Nat × Nat) Nat → Act Unit
  | .error (c, x) => xFault k tag args c x
  | .ok r => if !xdOk kind r then xFault k tag args 0x80 a else setHead k 7 (fun e => { e with buf := toBytes 64 r })

section

variable {kind : Nat} (hp : PipePerforms s k g e t) (hs : e.started = true) (hop : e.op = .colour kind a dst args tag)

include hp hs hop

/-- A colour transform with its descriptor still to read. -/
theorem colour_reads {x : Except (Nat × Nat) Nat} (hb : e.buf = []) (hx : readRange (s.portAt k g e) fresh a 64 ⟨s, []⟩ = .ok (x, w1))
    (hend : colourKnown k kind a tag args x w1 = .ok ((), v)) : exec (.colourTransformEntryPerform k) s = .next (s.after v) := by
  refine perform_pipe hp hs ?_
  dsimp only
  rw [hop]
  dsimp only
  rw [run_bind_ok (run_headPort (w := ⟨s, []⟩) hp.1.1 hp.1.2.1), hb, if_pos (by rfl)]
  refine (run_bind_ok hx).trans (Eq.trans ?_ hend)
  cases x <;> rfl

theorem colour_runs (hb : e.buf ≠ [])
    (hrun : colourRun k (s.portAt k g e) kind (ofBytes e.buf) dst tag args args [] 0 ⟨s, []⟩ = .ok ((), v)) :
    exec (.colourTransformEntryPerform k) s = .next (s.after v) := by
  refine perform_pipe hp hs ?_
  dsimp only
  rw [hop]
  dsimp only
  rw [run_bind_ok (run_headPort (w := ⟨s, []⟩) hp.1.1 hp.1.2.1), if_neg (by simpa using hb)]
  exact hrun

end

theorem rawRun_of_poison {wd : Nat} (hpo : g.poison = true)
    (hend : rawEnd k dst tag args [] g.p0 g.p1 true 0xA1 w = .ok ((), v)) : rawRun k g a wd true dst tag args w = .ok ((), v) := by
  rw [rawRun, if_pos (by rw [hpo]; rfl)]
  exact hend

/-! ## XFCLR (R444) -/

section

variable {first count : Nat} (hp : PipePerforms s k g e t) (hs : e.started = true) (hop : e.op = .xfclr r first count)

include hp hs hop

theorem xfclr_ends (hle : count ≤ e.pos) (hd : xDone k ⟨s, []⟩ = .ok ((), v)) :
    exec (.xfclrEntryPerform k) s = .next (s.after v) := by
  refine perform_pipe hp hs ?_
  dsimp only
  rw [hop]
  dsimp only
  rw [if_pos hle]
  exact hd

theorem xfclr_clears {from_ last m : Nat} {x : Option (Nat × Nat)} (hlt : e.pos < count) (hfrom : sfModes r + first + e.pos = from_)
    (hlast : sfModes r + first + count = last) (hm : min (last - from_) (32 - from_ % 32) = m)
    (hx : clearModes k (s.portAt k g e) last m from_ ⟨s, []⟩ = .ok (x, w1)) :
    (x = none → (e.pos + m < count → exec (.xfclrEntryPerform k) s = .next (s.after w1)) ∧
      (count ≤ e.pos + m → xDone k w1 = .ok ((), v) → exec (.xfclrEntryPerform k) s = .next (s.after v))) ∧
    (∀ c y, x = some (c, y) → haltHead k 7 c y w1 = .ok ((), v) → exec (.xfclrEntryPerform k) s = .next (s.after v)) := by
  subst hfrom hlast hm
  refine ⟨fun hn => ⟨fun hmore => ?_, fun hall hd => ?_⟩, fun c y hc hh => ?_⟩
  all_goals
    refine perform_pipe hp hs ?_
    dsimp only
    rw [hop]
    dsimp only
    rw [if_neg (Nat.not_le.mpr hlt), run_bind_ok (run_headPort (w := ⟨s, []⟩) hp.1.1 hp.1.2.1)]
    refine (run_bind_ok hx).trans ?_
  · rw [hn]
    exact congrFun (if_neg (Nat.not_le.mpr hmore)) w1
  · rw [hn]
    exact (congrFun (if_pos hall) w1).trans hd
  · rw [hc]
    exact hh

end

/-! ## XDELTA and XDCMP (R434 to R443) -/

section

variable {tile : Nat} (hp : PipePerforms s k g e t) (hs : e.started = true)

include hp hs

/-- A turn of XDELTA's entry that still gathers what it merges. -/
theorem xdelta_gathers {src : Nat} {mask : W64} (hop : e.op = .xdelta r tile src mask) (h0 : e.pos = 0)
    (hrun : (do
      if ← havePieces k (memPiece (s.portAt k g e) true) 0 [(sfModes r + tile, 1)] then
        if ← havePieces k (memPiece (s.portAt k g e) false) 1 (tilePieces r tile (Tab.getD e.reads 0 0 / 4)) then
          if ← havePieces k (spadPiece (k / 65536)) 16 (sectorPieces 10 src 256) then
            deltaMerge k (s.portAt k g e) r tile src mask e : Act Unit) ⟨s, []⟩ = .ok ((), v)) :
    exec (.xdeltaEntryPerform k) s = .next (s.after v) := by
  refine perform_pipe hp hs ?_
  dsimp only
  rw [hop]
  dsimp only
  rw [run_bind_ok (run_headPort (w := ⟨s, []⟩) hp.1.1 hp.1.2.1), if_neg (not_not_intro h0)]
  exact hrun

theorem xdelta_writes {src : Nat} {mask : W64} (hop : e.op = .xdelta r tile src mask) (h0 : e.pos ≠ 0)
    (hn : tileNext k (s.portAt k g e) r tile e ⟨s, []⟩ = .ok ((), v)) : exec (.xdeltaEntryPerform k) s = .next (s.after v) := by
  refine perform_pipe hp hs ?_
  dsimp only
  rw [hop]
  dsimp only
  rw [run_bind_ok (run_headPort (w := ⟨s, []⟩) hp.1.1 hp.1.2.1), if_pos h0]
  exact hn

theorem xdcmp_writes (hop : e.op = .xdcmp r tile) (h0 : e.pos ≠ 0)
    (hn : tileNext k (s.portAt k g e) r tile e ⟨s, []⟩ = .ok ((), v)) : exec (.xdcmpEntryPerform k) s = .next (s.after v) := by
  refine perform_pipe hp hs ?_
  dsimp only
  rw [hop]
  dsimp only
  rw [run_bind_ok (run_headPort (w := ⟨s, []⟩) hp.1.1 hp.1.2.1), if_pos h0]
  exact hn

/-- What XDCMP's entry does with its mode read. -/
def dcmpRead (k : Nat) (p : Port) (r : Record) (tile : Nat) (e : Ent) : Act Unit := do
  let m := Tab.getD e.reads 0 0
  joinStatus k 7 (worseSts (pieceSt m) (if (tileLen (m / 4)).isNone then 0xA2 else 0))
  if (tileLen (m / 4)).isNone || m / 4 == 1 then tileDone k
  else if ← havePieces k (memPiece p false) 1 (tilePieces r tile (m / 4)) then dcmpExpand k p r tile (m / 4) e

theorem xdcmp_reads {more : Bool} (hop : e.op = .xdcmp r tile) (h0 : e.pos = 0)
    (hm : havePieces k (memPiece (s.portAt k g e) true) 0 [(sfModes r + tile, 1)] ⟨s, []⟩ = .ok (more, w1))
    (hend : (if more then dcmpRead k (s.portAt k g e) r tile e else pure ()) w1 = .ok ((), v)) :
    exec (.xdcmpEntryPerform k) s = .next (s.after v) := by
  refine perform_pipe hp hs ?_
  dsimp only
  rw [hop]
  dsimp only
  rw [run_bind_ok (run_headPort (w := ⟨s, []⟩) hp.1.1 hp.1.2.1), if_neg (not_not_intro h0)]
  exact (run_bind_ok hm).trans hend

omit hp hs in
theorem run_dcmpRead {p : Port} {m : Nat} (hm : Tab.getD e.reads 0 0 = m)
    (hj : joinStatus k 7 (worseSts (pieceSt m) (if (tileLen (m / 4)).isNone then 0xA2 else 0)) w1 = .ok ((), w2)) :
    ((tileLen (m / 4) = none ∨ m / 4 = 1) → tileDone k w2 = .ok ((), v) → dcmpRead k p r tile e w1 = .ok ((), v)) ∧
    (tileLen (m / 4) ≠ none → m / 4 ≠ 1 → ∀ more,
      havePieces k (memPiece p false) 1 (tilePieces r tile (m / 4)) w2 = .ok (more, w3) →
      (if more then dcmpExpand k p r tile (m / 4) e else pure ()) w3 = .ok ((), v) → dcmpRead k p r tile e w1 = .ok ((), v)) := by
  subst hm
  refine ⟨fun hno hd => ?_, fun hlen h1 more hx hend => ?_⟩
  all_goals
    rw [dcmpRead, run_bind_ok hj]
  · rw [if_pos (by simpa using hno)]
    exact hd
  · rw [if_neg (by simpa using ⟨hlen, h1⟩)]
    exact (run_bind_ok hx).trans hend

end

theorem transformEntriesPerform : TransformEntriesPerform := by
  refine ⟨fun s k g e t hp hs => pipe_takes hp hs, fun s k g e t kind a dst args tag w1 hp hs hop =>
      ⟨fun r g1 e1 t1 hb hx hok hg1 he1 => ?_, fun r v hb hx hok hf => ?_, fun c x v hb hx hf => colour_reads hp hs hop hb hx hf,
        fun v hb hrun => colour_runs hp hs hop hb hrun⟩,
    fun a wd args tag s k g e t v hp hs hop hrun => ?_, fun a wd sx dst args tag s k g e t v hp hs hop hrun => ?_,
    fun a wd chain dst args tag s k g e t v hp hs hop hrun => ?_,
    fun w k g a wd dst tag args v hpo hend => rawRun_of_poison hpo hend,
    fun s k g e t r first count w1 v hp hs hop => ⟨xfclr_ends hp hs hop, fun hlt =>
      ⟨fun hx => (xfclr_clears hp hs hop hlt rfl rfl rfl hx).1 rfl, fun c x hx hh => ?_⟩⟩,
    fun s k g e t r tile src mask w1 w2 w3 v hp hs hop => ⟨xdelta_writes hp hs hop, fun h0 hm => ?_, fun h0 hm hd => ?_,
      fun h0 hm hd hf => ?_, fun h0 hm hd hf hrun => ?_⟩,
    fun s k g e t r tile w1 w2 w3 v hp hs hop => ⟨xdcmp_writes hp hs hop, fun h0 hm => xdcmp_reads hp hs hop h0 hm rfl,
      fun h0 hm hj => ⟨fun hno hd => ?_, fun hlen h1 => ⟨fun hx => ?_, fun hx hend => ?_⟩⟩⟩⟩
  · refine colour_reads hp hs hop hb hx ?_
    rw [colourKnown, if_neg (by simp [hok])]
    exact run_setHead hg1 he1 _
  · exact colour_reads hp hs hop hb hx (by rw [colourKnown, if_pos (by simp [hok])]; exact hf)
  · refine perform_pipe hp hs ?_
    dsimp only
    rw [hop]
    exact hrun
  · refine perform_pipe hp hs ?_
    dsimp only
    rw [hop]
    exact hrun
  · refine perform_pipe hp hs ?_
    dsimp only
    rw [hop]
    exact hrun
  · exact (xfclr_clears hp hs hop hlt rfl rfl rfl hx).2 c x rfl hh
  · exact xdelta_gathers hp hs hop h0 (run_bind_ok hm)
  · exact xdelta_gathers hp hs hop h0 ((run_bind_ok hm).trans (run_bind_ok hd))
  · exact xdelta_gathers hp hs hop h0 ((run_bind_ok hm).trans ((run_bind_ok hd).trans (run_bind_ok hf)))
  · exact xdelta_gathers hp hs hop h0 ((run_bind_ok hm).trans ((run_bind_ok hd).trans ((run_bind_ok hf).trans hrun)))
  · exact xdcmp_reads hp hs hop h0 hm ((run_dcmpRead (w3 := w2) rfl hj).1 hno hd)
  · exact xdcmp_reads hp hs hop h0 hm ((run_dcmpRead rfl hj).2 hlen h1 false hx rfl)
  · exact xdcmp_reads hp hs hop h0 hm ((run_dcmpRead rfl hj).2 hlen h1 true hx hend)

/-! ## Queue K (R450 to R462) -/

/-- A turn of the entry that the array has is what is done for it. -/
theorem perform_array {f : Group × Queue × Ent → Act Unit} (hp : ArrayPerforms s k g e t)
    (hf : f (g, g.queue 8, e) ⟨s, []⟩ = .ok ((), v)) : perform (arrayHead k >>= f) s = .next (s.after v) :=
  perform_after ((run_bind_ok hp.2).trans hf)

theorem ktwin_performs (hp : ArrayPerforms s k g e t) (hop : e.op = .ktwin n) (hga : Tab.find s.gangs (k / 65536) = some ga)
    (hm : modCarillon ga (fun c => { c with twin := n }) ⟨s, []⟩ = .ok ((), w1)) (hc : complete k 8 0 0 w1 = .ok (word, v)) :
    exec (.ktwinEntryPerform k) s = .next (s.after v) := by
  refine perform_array hp ?_
  dsimp only
  rw [hop]
  dsimp only
  rw [run_bind_ok (run_getGang (w := ⟨s, []⟩) hga)]
  exact (run_bind_ok hm).trans (run_discard_ok hc)

theorem kpeal_ends {src slot : Nat} {bar : BarRef} (hp : ArrayPerforms s k g e t) (hop : e.op = .kpeal src slot bar)
    (hle : 128 ≤ e.pos) (hd : pealEnd k slot e ⟨s, []⟩ = .ok ((), v)) : exec (.kpealEntryPerform ⟨k, n⟩) s = .next (s.after v) := by
  refine perform_array hp ?_
  dsimp only
  rw [hop]
  dsimp only
  rw [if_pos hle]
  exact hd

theorem kpeal_reads {src slot m : Nat} {bar : BarRef} {x : Except Nat (List Nat × Nat)} (hp : ArrayPerforms s k g e t)
    (hop : e.op = .kpeal src slot bar) (hlt : e.pos < 128) (hm : min n (128 - e.pos) = m)
    (hx : pealSectors (k / 65536) m (src + 32 * e.pos) ⟨s, []⟩ = .ok (x, w1)) :
    (∀ cells st, x = .ok (cells, st) → Tab.find w1.cur.groups k = some g1 → (g1.queue 8).ents = e1 :: t1 →
      exec (.kpealEntryPerform ⟨k, n⟩) s = .next (s.after ⟨w1.cur.setGroup k (g1.headSet 8 { e1 with
        started := true
        pos := e1.pos + m
        status := BitVec.ofNat 32 (worseSts e1.status.toNat st)
        buf := e1.buf ++ cells.flatMap (toBytes 2) } t1), w1.stores⟩)) ∧
    (∀ c, x = .error c → haltHead k 8 c src w1 = .ok ((), v) → exec (.kpealEntryPerform ⟨k, n⟩) s = .next (s.after v)) := by
  subst hm
  refine ⟨fun cells st hc hg1 he1 => ?_, fun c hc hh => ?_⟩
  all_goals
    subst hc
    refine perform_array hp ?_
    dsimp only
    rw [hop]
    dsimp only
    rw [if_neg (Nat.not_le.mpr hlt)]
    refine (run_bind_ok hx).trans ?_
    dsimp only
  · exact run_setHead hg1 he1 _
  · exact hh

theorem run_pealEnd {slot st : Nat} {cells : List Nat} {ok : Bool} (hga : Tab.find w.cur.gangs (k / 65536) = some ga)
    (hcells : (upFrom 0 2048).map (fun i => ofBytes ((e.buf.drop (2 * i)).take 2)) = cells) (hok : cells.all cellOk = ok)
    (hm : modCarillon ga (fun c => { c with
      peals := Tab.set c.peals slot (if ok then cells else killPeal)
      loaded := c.loaded ||| 2 ^ slot }) w = .ok ((), w1)) (hst : worseSts e.status.toNat (if ok then 0 else 0x41) = st)
    (hc : complete k 8 (st / 16) (st % 16) ⟨w1.cur.rewrite (w1.cur.pealWords ga slot), w1.stores⟩ = .ok (word, v)) :
    pealEnd k slot e w = .ok ((), v) := by
  subst hcells hok hst
  rw [pealEnd]
  dsimp only
  rw [run_bind_ok (run_getGang w hga)]
  refine (run_bind_ok hm).trans ?_
  exact (run_bind_ok (run_upd _ _)).trans (run_discard_ok hc)

theorem run_modVectors (hg : Tab.find w.cur.groups k = some g) (f : KVec → KVec) :
    modVectors k f w = .ok ((), ⟨w.cur.setGroup k { g with kvec := f g.kvec }, w.stores⟩) := run_modGroup w hg _

theorem krst_performs {lv cv : Bool} {kv : KVec} (hp : ArrayPerforms s k g e t) (hop : e.op = .krst lv cv)
    (hkv : { g.kvec with
      lv := if lv then [] else g.kvec.lv
      cv := if cv then [] else g.kvec.cv } = kv)
    (hc : complete k 8 0 0 ⟨(s.setGroup k { g with kvec := kv }).rewrite
      (fun w => (lv && lvWords k 0 64 w) || (cv && cvWords k 0 w)), []⟩ = .ok (word, v)) :
    exec (.krstEntryPerform k) s = .next (s.after v) := by
  subst hkv
  refine perform_array hp ?_
  dsimp only
  rw [hop]
  dsimp only
  rw [run_bind_ok (run_modVectors (w := ⟨s, []⟩) hp.1.1 _), run_bind_ok (run_rewrite _)]
  exact run_discard_ok hc

theorem klaunch_performs {peal st : Nat} {half go : Bool} {vals : Tab Nat} {bar : BarRef} (hp : ArrayPerforms s k g e t)
    (hop : e.op = .klaunch peal half go vals bar)
    (hr : (if go then ring k peal else pure 0) ⟨(s.setGroup k { g with kvec := { g.kvec with
      lv := driveHalf g.kvec.lv half vals } }).rewrite (lvWords k (32 * b2n half) 32), []⟩ = .ok (st, w1))
    (hc : complete k 8 (st / 16) (st % 16) w1 = .ok (word, v)) : exec (.klaunchEntryPerform k) s = .next (s.after v) := by
  refine perform_array hp ?_
  dsimp only
  rw [hop]
  dsimp only
  rw [run_bind_ok (run_modVectors (w := ⟨s, []⟩) hp.1.1 _), run_bind_ok (run_rewrite _)]
  exact (run_bind_ok hr).trans (run_discard_ok hc)

/-- A peal over SRAM without an error (R449, R455). -/
theorem run_ring {peal : Nat} {c : Carillon} {cells : List Nat} {kv : KVec} (hg : Tab.find w.cur.groups k = some g)
    (hga : Tab.find w.cur.gangs (k / 65536) = some ga) (hb : w.cur.sramBad = []) (hcr : w.cur.sramCorr = [])
    (hc : w.cur.carillon ga = c) (hcells : (upFrom 0 2048).map (fun i => nth (Tab.getD c.peals peal killPeal) i 0xA000) = cells)
    (hkv : { g.kvec with
      lv := []
      cv := railTab (evaluate c.twin cells (fun i => Tab.getD g.kvec.lv i 0xFFFF)) } = kv) :
    ring k peal w = .ok (0, ⟨w.cur.setGroup k { g with kvec := kv }, w.stores⟩) := by
  subst hc hcells hkv
  have hsafe : ∀ x lost v, orLost w.cur x lost v = v := fun x lost v => by
    rw [orLost, hb]
    rfl
  rw [ring, run_bind_ok (run_getGroup (w := w) hg), run_bind_ok (run_getGang w hga), run_bind_ok (run_now _)]
  simp only [hsafe]
  rw [run_bind_ok (run_readWords_of_clean _ _ hb hcr), run_bind_ok (run_readWords_of_clean _ _ hb hcr),
    run_bind_ok (run_modVectors hg _), run_bind_ok (run_rewrite _), rewrite_of_clean (s := w.cur.setGroup k _) _ hb hcr]
  rfl

theorem kcapt_performs {x : Nat} {half : Bool} {threads : List Nat} (hp : ArrayPerforms s k g e t)
    (hop : e.op = .kcapt half dst threads tag) (hga : Tab.find s.gangs (k / 65536) = some ga)
    (hx : readWords ga.die (cvRead k half threads) ⟨s, []⟩ = .ok (x, w1))
    (hr : resultReady k tag (threads.map (fun t => (t, dst, BitVec.ofNat 32
      (if s.sramBad.contains (.cv k (32 * b2n half + t)) then 0xFFFF else Tab.getD g.kvec.cv (32 * b2n half + t) 0xFFFF)))) w1 =
        .ok ((), w2)) (hc : complete k 8 x (if x = 3 then 2 else 0) w2 = .ok (word, v)) :
    exec (.kcaptEntryPerform k) s = .next (s.after v) := by
  refine perform_array hp ?_
  dsimp only
  rw [hop]
  dsimp only
  rw [run_bind_ok (run_getGang (w := ⟨s, []⟩) hga)]
  refine (run_bind_ok hx).trans ?_
  exact (run_bind_ok hr).trans (run_discard_ok hc)

/-! ## Queue B (R497, R504, R505) -/

theorem deposit_performs {adds : List (Nat × W64)} {more : Bool} (hp : HeadPerforms s k 9 g e t) (hop : e.op = .deposit adds)
    (hw : e.wrote = e.pos) (hrun : depositRun k (s.dieOf k) (adds.drop e.pos) ⟨s, []⟩ = .ok (more, w1)) :
    (more = false → exec (.ballastDepositPerform k) s = .next (s.after w1)) ∧
    (more = true → Tab.find w1.cur.groups k = some g1 → (g1.queue 9).ents = e1 :: t1 →
      complete k 9 (e1.status.toNat / 16) (e1.status.toNat % 16) w1 = .ok (word, v) →
      exec (.ballastDepositPerform k) s = .next (s.after v)) := by
  refine ⟨fun hm => ?_, fun hm hg1 he1 hc => ?_⟩
  all_goals
    subst hm
    refine perform_head hp ?_
    dsimp only
    rw [hop]
    dsimp only
    rw [hw, beq_self_eq_true, run_bind_ok (run_guardA _ _), run_bind_ok (run_now _)]
    refine (run_bind_ok hrun).trans ?_
  · rfl
  · rw [if_pos rfl, run_bind_ok (run_getGroup (w := w1) hg1), he1, List.head?_cons, run_bind_ok (run_need_some _ _)]
    exact run_discard_ok hc

theorem qretw_performs {x : W64} (hp : HeadPerforms s k 9 g e t) (hop : e.op = .qretw x)
    (hr : returnWeight (s.dieOf k) x.toNat ⟨s, []⟩ = .ok ((), w1)) (hc : complete k 9 0 0 w1 = .ok (word, v)) :
    exec (.qretEntryPerform k) s = .next (s.after v) := by
  refine perform_head hp ?_
  dsimp only
  rw [run_bind_ok (run_now _), hop]
  exact (run_bind_ok hr).trans (run_discard_ok hc)

theorem run_when {b : Prop} [Decidable b] {m r : Act Unit} (h : (if b then m else pure ()) w = .ok ((), v)) :
    (if b then (m >>= fun _ => r) else r) w = r v := by
  by_cases hb : b
  · rw [if_pos hb] at h ⊢
    exact run_bind_ok h
  · rw [if_neg hb] at h ⊢
    cases h
    rfl

/-- What a word in memory returns: weight of a live root of the launch (R505). -/
def State.returnable (s : State) (k old : Nat) : Bool :=
  match s.root (rootOf old) with
  | none => false
  | some r => r.live && r.launch == s.launchOf k && r.gen % 64 == tagOf old

theorem qretm_performs {pa home st old : Nat} (hp : HeadPerforms s k 9 g e t) (hop : e.op = .qretm pa)
    (hh : homeOf (s.wordAt pa).target = home)
    (hm : (if home ≠ s.dieOf k ∧ home ≠ 4 then together (s.dieOf k) home else pure ()) ⟨s, []⟩ = .ok ((), w0))
    (hw : wordStep (s.dieOf k) pa (fun old => if old = 0 then (0, 0) else if s.returnable k old then (0, 0) else (old, 0x42)) w0 =
      .ok ((st, old), w1)) (hr : (if st ≠ 0x42 ∧ st ≠ 0x33 then returnWeight home old else pure ()) w1 = .ok ((), w2))
    (hc : complete k 9 (st / 16) (st % 16) w2 = .ok (word, v)) : exec (.qretEntryPerform k) s = .next (s.after v) := by
  subst hh
  refine perform_head hp ?_
  dsimp only
  rw [run_bind_ok (run_now _), hop]
  refine (run_when hm).trans ?_
  refine (run_bind_ok hw).trans ?_
  refine (run_when hr).trans ?_
  exact run_discard_ok hc

theorem carillonAndBallastEntriesPerform : CarillonAndBallastEntriesPerform := by
  refine ⟨fun s k g e t ga n w1 word v hp hop hga hm hc => ktwin_performs hp hop hga hm hc,
    fun s k g e t src slot bar n hp hop => ⟨fun v hle hd => kpeal_ends hp hop hle hd,
      fun cells st w1 g1 e1 t1 hlt hx hg1 he1 => (kpeal_reads (v := w1) hp hop hlt rfl hx).1 cells st rfl hg1 he1,
      fun c w1 v hlt hx hh => (kpeal_reads (g1 := g) (e1 := e) (t1 := t) hp hop hlt rfl hx).2 c rfl hh⟩,
    fun w k slot e ga w1 word v hga hm hc => run_pealEnd hga rfl rfl hm rfl hc,
    fun s k g e t lv cv word v hp hop hc => krst_performs hp hop rfl hc,
    fun s k g e t peal half go vals bar st w1 word v hp hop hr hc => klaunch_performs hp hop hr hc,
    fun w k peal g ga hg hga hb hcr => run_ring hg hga hb hcr rfl rfl rfl,
    fun s k g e t ga half dst threads tag x w1 w2 word v hp hop hga hx hr hc => kcapt_performs hp hop hga hx hr hc,
    fun s k g e t adds w1 hp hop hw => ⟨fun hrun => ?_, fun g1 e1 t1 word v hrun hg1 he1 hc => ?_⟩,
    fun s k g e t x w1 word v hp hop hr hc => qretw_performs hp hop hr hc,
    fun s k g e t pa w0 st old w1 w2 word v hp hop hm hw hr hc => qretm_performs hp hop rfl hm hw hr hc⟩
  · exact (deposit_performs (g1 := g) (e1 := e) (t1 := t) (word := 0) (v := w1) hp hop hw hrun).1 rfl
  · exact (deposit_performs hp hop hw hrun).2 rfl hg1 he1 hc

end

/-- Settles O42: the head is found, or the pipe's or the array's, and its work runs. -/
theorem laneEngineEntriesPerform : Obligations.LaneEngineEntriesPerform :=
  ⟨lanternEntriesPerform, samplerEntriesPerform, transformEntriesPerform, carillonAndBallastEntriesPerform⟩

end Sys2Proof.Machine
end

section
/-! SUPPORT. Entries on their last turn: what the head of a queue needs to complete, and that it keeps it while its work is done
(R17, R31, R249, R302). -/

namespace Sys2Proof.Machine

open Sys2Proof

section

variable {s : State} {w v w1 : Work} {k q n tag code aux word : Nat} {g g1 : Group} {e : Ent} {t : List Ent} {ga : Gang}

/-! ## The last turn -/

theorem LastTurn.performs (h : LastTurn s k q g ga e t) : HeadPerforms s k q g e t := by
  obtain ⟨hg, hga, he, hh, hr, hs, hf, hb, -⟩ := h
  refine ⟨hg, he, ?_, hf, .inr (.inl hb)⟩
  rw [State.mayPerform, instOf_group hga, hh, hr, hs]
  rfl

/-- The head of queue q of group k is on its last turn, with the entries `t` behind it; the group's other queues and its stream are
those of `g`. -/
def Ready (s : State) (k q : Nat) (g : Group) (t : List Ent) : Prop :=
  ∃ g1 ga e, LastTurn s k q g1 ga e t ∧ (∀ j, j ≠ q → g1.queue j = g.queue j) ∧ g1.st = g.st

/-- Queue q of the group holds `t`; its other queues and its stream are those of `g`. -/
def Group.Without (g1 g : Group) (q : Nat) (t : List Ent) : Prop :=
  (g1.queue q).ents = t ∧ (∀ j, j ≠ q → g1.queue j = g.queue j) ∧ g1.st = g.st

theorem LastTurn.ready (h : LastTurn s k q g ga e t) : Ready s k q g t := ⟨g, ga, e, h, fun _ _ => rfl, rfl⟩

theorem leaves_of_run {i : Instr} {m : Act Unit} (hm : exec i s = perform m s) (h : m ⟨s, []⟩ = .ok ((), v))
    (hg : Tab.find v.cur.groups k = some g1) (hw : g1.Without g q t) : Leaves s k q g t i :=
  ⟨s.after v, g1, hm.trans (perform_after h), hg, hw⟩

theorem leaves_of_next {i : Instr} (h : exec i s = .next (s.after v)) (hg : Tab.find v.cur.groups k = some g1)
    (hw : g1.Without g q t) : Leaves s k q g t i := ⟨s.after v, g1, h, hg, hw⟩

/-! ## What keeps the head ready -/

/-- A change of the head that keeps what it does, where it stands, and what it has sent. -/
def KeepsTurn (f : Ent → Ent) : Prop := ∀ e, (f e).op = e.op ∧ (f e).seq = e.seq ∧ (f e).sent = e.sent ∧ (e.started = true → (f e).started = true)

theorem fenced_headSet (g : Group) (q : Nat) (e1 : Ent) (t : List Ent) (e : Ent) :
    (g.headSet q e1 t).fenced q e = g.fenced q e := rfl

theorem LastTurn.headSet {f : Ent → Ent} (h : LastTurn s k q g ga e t) (hf : KeepsTurn f) :
    LastTurn (s.setGroup k (g.headSet q (f e) t)) k q (g.headSet q (f e) t) ga (f e) t := by
  obtain ⟨hg, hga, he, hh, hr, hs, hfe, hb, hsent⟩ := h
  obtain ⟨hop, hseq, hse, hst⟩ := hf e
  refine ⟨Tab.find_set_same _ _ _, hga, by rw [queue_headSet], by rw [queue_headSet]; exact hh, hr, hs, ?_, hop ▸ hb, ?_⟩
  · refine hfe.imp hst fun hno => ?_
    rw [fenced_headSet, ← hno]
    unfold Group.fenced
    rw [hseq]
  · rw [hse]
    exact hsent

/-- The head changes, and is still on its last turn. -/
theorem Ready.setHead {f : Ent → Ent} (h : Ready w.cur k q g t) (hf : KeepsTurn f) :
    ∃ g1, setHead k q f w = .ok ((), ⟨w.cur.setGroup k g1, w.stores⟩) ∧ Ready (w.cur.setGroup k g1) k q g t := by
  obtain ⟨g1, ga, e, hl, hq, hst⟩ := h
  exact ⟨g1.headSet q (f e) t, run_setHead hl.1 hl.2.2.1 f, g1.headSet q (f e) t, ga, f e, hl.headSet hf,
    fun j hj => (queue_headSet_ne g1 _ _ hj).trans (hq j hj), hst⟩

/-- The group changes in what its queues and its stream do not hold. -/
theorem LastTurn.setGroup (h : LastTurn s k q g ga e t) (hq : g1.queues = g.queues) (hst : g1.st = g.st) :
    LastTurn (s.setGroup k g1) k q g1 ga e t := by
  obtain ⟨-, hga, he, hh, hr, hs, hfe, hb, hsent⟩ := h
  have hqueue : g1.queue q = g.queue q := by rw [Group.queue, hq, Group.queue]
  refine ⟨Tab.find_set_same _ _ _, hga, by rw [hqueue, he], by rw [hqueue, hh], hr, by rw [hst, hs], ?_, hb, hsent⟩
  unfold Group.fenced at hfe ⊢
  rw [hst]
  exact hfe

theorem Ready.modGroup {f : Group → Group} (h : Ready w.cur k q g t) (hf : ∀ g, (f g).queues = g.queues ∧ (f g).st = g.st) :
    ∃ g1, modGroup k f w = .ok ((), ⟨w.cur.setGroup k g1, w.stores⟩) ∧ Ready (w.cur.setGroup k g1) k q g t := by
  obtain ⟨g1, ga, e, hl, hq, hst⟩ := h
  obtain ⟨hfq, hfs⟩ := hf g1
  refine ⟨f g1, run_modGroup w hl.1 f, f g1, ga, e, hl.setGroup hfq hfs, fun j hj => ?_, hfs.trans hst⟩
  rw [← hq j hj, Group.queue, hfq, Group.queue]

theorem Ready.resultReady {ws : List (Nat × Nat × W32)} (h : Ready w.cur k q g t) :
    ∃ g1, resultReady k tag ws w = .ok ((), ⟨w.cur.setGroup k g1, w.stores⟩) ∧ Ready (w.cur.setGroup k g1) k q g t :=
  h.modGroup fun _ => ⟨rfl, rfl⟩

/-- The machine changes in what a head does not need. -/
theorem Ready.congr {s1 : State} (h : Ready s k q g t) (hg : s1.groups = s.groups) (hgang : s1.gangs = s.gangs)
    (hi : ∀ i, s1.instRuns i = s.instRuns i) (hr : ∀ d x, s1.reached d x = s.reached d x) : Ready s1 k q g t := by
  obtain ⟨g1, ga, e, ⟨h1, h2, h3, h4, h5, h6, h7, h8, h9⟩, hq⟩ := h
  exact ⟨g1, ga, e, ⟨hg ▸ h1, hgang ▸ h2, h3, h4, (hi _).trans h5, h6, h7, h8, (hr _ _).trans h9⟩, hq⟩

/-! ## Completion -/

theorem Ready.reached (h : Ready w.cur k q g t) : headReached k q w = .ok (true, w) := by
  obtain ⟨g1, ga, e, ⟨hg, hga, he, -, -, -, -, -, hr⟩, -⟩ := h
  rw [headReached, run_bind_ok (run_getGroup (w := w) hg), run_bind_ok (run_getGang w hga), run_bind_ok (run_now _), he,
    List.head?_cons, Option.map_some, Option.getD_some, hr]
  rfl

theorem Ready.complete (h : Ready w.cur k q g t) (code aux : Nat) :
    ∃ word g1, complete k q code aux w = .ok (word, ⟨w.cur.setGroup k g1, w.stores⟩) ∧ g1.Without g q t := by
  obtain ⟨g1, ga, e, hl, hq, hst⟩ := h
  obtain ⟨hqueues, hst1, -⟩ := reported_keeps (g1.popped q t) q (statusWord code q aux e.seq.toNat)
  have hqueue : ∀ j, ((g1.popped q t).reported q (statusWord code q aux e.seq.toNat)).queue j = (g1.popped q t).queue j := fun j => by
    rw [Group.queue, hqueues, Group.queue]
  have hp := hl.performs
  obtain ⟨-, hga, -, -, -, -, -, hb, hr⟩ := hl
  refine ⟨statusWord code q aux e.seq.toNat, (g1.popped q t).reported q (statusWord code q aux e.seq.toNat),
    (run_complete hp hga hr rfl).trans ?_, ?_, fun j hj => ?_, hst1.trans hst⟩
  · rw [hb]
    rfl
  · rw [hqueue, queue_popped]
  · rw [hqueue, queue_popped_ne g1 t hj, hq j hj]

/-- The head completes with the status that it has gathered. -/
theorem Ready.completes (h : Ready w.cur k q g t) :
    ∃ g1, Completes k q w ⟨w.cur.setGroup k g1, w.stores⟩ ∧ g1.Without g q t := by
  have hr := h.reached
  obtain ⟨g0, ga, e, hl, -⟩ := id h
  obtain ⟨word, g1, hc, hw⟩ := h.complete (e.status.toNat / 16) (e.status.toNat % 16)
  exact ⟨g1, .inr ⟨g0, e, t, word, hl.1, hl.2.2.1, hr, hc⟩, hw⟩

/-! ## Queues L, C and M -/

/-- What completes a queue's head with the status it has gathered. -/
theorem Ready.finishHead (h : Ready w.cur k q g t) :
    ∃ g1, finishHead k q w = .ok ((), ⟨w.cur.setGroup k g1, w.stores⟩) ∧ g1.Without g q t := by
  obtain ⟨g1, hc, hw⟩ := h.completes
  exact ⟨g1, run_finishHead hc, hw⟩

theorem run_rangeRun_of_done {p : Port} {fn a last i : Nat} {keep : List Nat} (h : last ≤ i) :
    rangeRun k p fn keep a last n i w = .ok (true, w) := by
  cases n with
  | zero =>
    rw [rangeRun, decide_eq_true h]
    rfl
  | succ n =>
    rw [rangeRun, if_pos h]
    rfl

theorem range_leaves {fn a size : Nat} {keep : List Nat} (h : LastTurn s k 0 g ga e t) (hop : e.op = .range fn a size)
    (hd : size / 32 ≤ e.pos) : Leaves s k 0 g t (.rangeMaintenancePerform ⟨k, n⟩ keep) := by
  obtain ⟨word, g1, hc, hw⟩ := Ready.complete (w := ⟨s, []⟩) h.ready 0 0
  exact leaves_of_next ((range_performs h.performs hop rfl (run_rangeRun_of_done hd)).2 word rfl hc) (Tab.find_set_same _ _ _) hw

theorem run_copyRun_nil {p : Port} {kind : CopyKind} {r : Nat} {els : List CopyEl} : copyRun k p kind r els n [] w = .ok (true, w) := by
  cases n <;> rfl

theorem keepsTurn_started : KeepsTurn (fun e => { e with started := true }) := fun _ => ⟨rfl, rfl, rfl, fun _ => rfl⟩

theorem copy_leaves {kind : CopyKind} {r nd : Nat} (h : LastTurn s k 1 g ga e t) (hop : e.op = .copy kind r nd)
    (hs : e.started = true) (hb : bit r 146 = false) (hd : (copySectors (copyEls kind r e.buf)).length ≤ e.pos) :
    Leaves s k 1 g t (.copyEntryPerform k n) := by
  have hready : Ready (s.setGroup k (g.headSet 1 { e with started := true } t)) k 1 g t :=
    ⟨_, ga, _, h.headSet keepsTurn_started, fun j hj => queue_headSet_ne g _ _ hj, rfl⟩
  obtain ⟨g1, hc, hw⟩ := Ready.completes (w := ⟨s.setGroup k (g.headSet 1 { e with started := true } t), []⟩) hready
  have hrun : copyRun k (s.portAt k g e) kind r (copyEls kind r e.buf) n ((copySectors (copyEls kind r e.buf)).drop e.pos)
      ⟨s.setGroup k (g.headSet 1 { e with started := true } t), []⟩ =
      .ok (true, ⟨s.setGroup k (g.headSet 1 { e with started := true } t), []⟩) := by
    rw [List.drop_of_length_le hd]
    exact run_copyRun_nil
  have hturn := (run_copyTurn (n := n) (w1 := ⟨s, []⟩) h.performs hop (.inl hs) (.inl ⟨.inr hs, rfl, rfl⟩)).trans
    ((run_copyWork (w := ⟨s, []⟩) h.1 h.2.2.1 hrun).trans (run_copyEnd hb hc))
  exact leaves_of_run exec_copyEntryPerform_eq hturn (Tab.find_set_same _ _ _) hw

/-- A gang's matrix changes. -/
theorem Ready.setMatrix {m : Tab Matrix} (h : LastTurn s k q g ga e t) :
    Ready (s.setGang (k / 65536) { ga with matrix := m }) k q g t := by
  obtain ⟨h1, -, h3, h4, h5, h6, h7, h8, h9⟩ := h
  exact ⟨g, { ga with matrix := m }, e, ⟨h1, Tab.find_set_same _ _ _, h3, h4, h5, h6, h7, h8, h9⟩, fun _ _ => rfl, rfl⟩

/-- No multiplication waits for its banks where the context's queue is empty. -/
theorem run_takeBanks_of_empty {m : Nat} (h : ∀ c, Tab.find w.cur.ctxs m = some c → c.queue.ents = []) :
    takeBanks m w = .ok ((), w) := by
  rw [takeBanks, run_bind_ok (run_now _)]
  cases hc : Tab.find w.cur.ctxs m with
  | none => rfl
  | some c =>
    dsimp only
    rw [h c hc]
    rfl

theorem mfeed_leaves {row : Nat} {words : List W32} {fmt : Option W32} (h : LastTurn s k 2 g ga e t) (hop : e.op = .mfeed row words fmt)
    (hfree : Tab.find (ga.matrixOf g.id.pos).fill.rows row = none)
    (hctx : ∀ c, Tab.find s.ctxs (k / 65536) = some c → c.queue.ents = []) : Leaves s k 2 g t (.mfeedEntryPerform k) := by
  have hready := Ready.setMatrix (m := Tab.set ga.matrix g.id.pos ((ga.matrixOf g.id.pos).setFill { (ga.matrixOf g.id.pos).fill with
    rows := Tab.set (ga.matrixOf g.id.pos).fill.rows row ⟨words, fmt⟩ })) h
  obtain ⟨word, g1, hc, hw⟩ := Ready.complete (w := ⟨_, []⟩) hready 0 0
  exact leaves_of_next (mfeed_performs h.performs hop h.2.1 rfl hfree (run_takeBanks_of_empty hctx) hc) (Tab.find_set_same _ _ _) hw

theorem mscale_leaves {scales : List (Nat × Byte)} (h : LastTurn s k 2 g ga e t) (hop : e.op = .mscale scales)
    (hfree : ∀ x ∈ scales, Tab.find (ga.matrixOf g.id.pos).fill.rows x.1 = none) : Leaves s k 2 g t (.mscaleEntryPerform k) := by
  have hready := Ready.setMatrix (m := Tab.set ga.matrix g.id.pos ((ga.matrixOf g.id.pos).setFill { (ga.matrixOf g.id.pos).fill with
    scales := scales.foldl (fun t x => Tab.set t x.1 x.2) (ga.matrixOf g.id.pos).fill.scales })) h
  obtain ⟨word, g1, hc, hw⟩ := Ready.complete (w := ⟨_, []⟩) hready 0 0
  exact leaves_of_next (mscale_performs h.performs hop h.2.1 rfl hfree hc) (Tab.find_set_same _ _ _) hw

theorem mdrain_leaves {acc base rm : Nat} {spad zero sat : Bool} {bar : BarRef} {elems : List Nat} (h : LastTurn s k 2 g ga e t)
    (hop : e.op = .mdrain acc spad zero sat rm base bar) (hno : Tab.find (ga.matrixOf g.id.pos).accs acc = none) :
    Leaves s k 2 g t (.mdrainEntryPerform ⟨k, n⟩ elems) := by
  obtain ⟨g1, hj, hready⟩ := Ready.setHead (w := ⟨s, []⟩) h.ready (f := fun e =>
    { e with started := true, status := BitVec.ofNat 32 (worseSts e.status.toNat 0x40) }) fun _ => ⟨rfl, rfl, rfl, fun _ => rfl⟩
  obtain ⟨g2, hc, hw⟩ := Ready.completes (w := ⟨s.setGroup k g1, []⟩) hready
  exact leaves_of_next (mdrain_of_none h.performs hop h.2.1 hno hj hc) (Tab.find_set_same _ _ _) hw

theorem rangeCopyAndFeedEntriesEnd : RangeCopyAndFeedEntriesEnd :=
  ⟨fun _ _ _ _ _ _ _ _ _ _ _ h hop hd => range_leaves h hop hd,
    fun _ _ _ _ _ _ _ _ _ _ h hop hw => copy_leaves h hop hw.1 hw.2.1 hw.2.2,
    fun _ _ _ _ _ _ _ _ _ h hop hw => mfeed_leaves h hop hw.1 hw.2,
    fun _ _ _ _ _ _ _ h hop hw => mscale_leaves h hop hw,
    fun _ _ _ _ _ _ _ _ _ _ _ _ _ _ _ h hop hw => mdrain_leaves h hop hw⟩

end

end Sys2Proof.Machine
end

section
/-! SUPPORT. The last turns of the entries of queues G, Z, Y, H, X, K and B (R341, R347 to R349, R358 to R361, R372 to R382, R391 to
R404, R410 to R417, R424 to R444, R456 to R462, R504, R505). -/

namespace Sys2Proof.Machine

open Sys2Proof

section

variable {s : State} {w v w1 : Work} {k q n tag code aux word key : Nat} {g g1 : Group} {e : Ent} {t : List Ent} {ga : Gang}
  {bar : BarRef}

/-! ## Queue G -/

theorem Ready.geoDone (h : Ready w.cur k 3 g t) :
    ∃ g1, geoDone k w = .ok ((), ⟨w.cur.setGroup k g1, w.stores⟩) ∧ g1.Without g 3 t := by
  obtain ⟨g1, hset, hr⟩ := h.setHead (f := fun e => { e with pos := 1024 }) fun _ => ⟨rfl, rfl, rfl, id⟩
  obtain ⟨g2, hf, hw⟩ := Ready.finishHead (w := ⟨w.cur.setGroup k g1, w.stores⟩) hr
  refine ⟨g2, ?_, hw⟩
  rw [Machine.geoDone, run_bind_ok hset]
  refine Eq.trans hf ?_
  rw [setGroup_setGroup]

theorem run_releaseSlot_of_not_sampled (h : (w.cur.slotAt key).state ≠ .sampled) : releaseSlot key w = .ok ((), w) := by
  rw [releaseSlot, run_bind_ok (run_now _)]
  have hno : ((w.cur.slotAt key).state == .sampled) = false := beq_eq_false_iff_ne.mpr h
  simp only [hno, Bool.false_and]
  rfl

theorem gread_leaves {m : GMap} {dst : Nat} {threads : List (Nat × Bool)} (h : LastTurn s k 3 g ga e t)
    (hop : e.op = .gread key m dst threads tag) (hr : s.gridReadyFor key e.born = true) (hns : (s.slotAt key).state ≠ .sampled) :
    Leaves s k 3 g t (.greadEntryPerform k) := by
  obtain ⟨g1, hres, hready⟩ := Ready.resultReady (w := ⟨s, []⟩) h.ready
  obtain ⟨word, g2, hc, hw⟩ := Ready.complete (w := ⟨s.setGroup k g1, []⟩) hready 0 0
  exact leaves_of_next (gread_performs h.performs hop hr rfl hres hc (run_releaseSlot_of_not_sampled hns)) (Tab.find_set_same _ _ _) hw

/-- The machine has changed in memory and its error marks at most. -/
def Stored (w v : Work) : Prop := { v.cur with mem := w.cur.mem, bad := w.cur.bad, corr := w.cur.corr } = w.cur

theorem stored_refl (w : Work) : Stored w w := rfl

theorem Stored.trans {u : Work} (h1 : Stored u w) (h2 : Stored w v) : Stored u v := by
  unfold Stored at *
  rw [← h1, ← h2]

theorem stored_poke (k n x : Nat) : ∃ v, poke k n x w = .ok ((), v) ∧ Stored w v := ⟨_, run_poke .., rfl⟩

theorem forM_stored {α : Type} {f : α → Act Unit} (hf : ∀ x w, ∃ v, f x w = .ok ((), v) ∧ Stored w v) (l : List α) (w : Work) :
    ∃ v, forM l f w = .ok ((), v) ∧ Stored w v := by
  induction l generalizing w with
  | nil => exact ⟨w, rfl, rfl⟩
  | cons x l ih =>
    obtain ⟨u, hu, hs⟩ := hf x w
    obtain ⟨v, hv, hs2⟩ := ih u
    have hcons : forM (x :: l) f = (f x >>= fun _ => forM l f) := rfl
    exact ⟨v, by rw [hcons, run_bind_ok hu, hv], hs.trans hs2⟩

theorem Stored.ready (h : Stored w v) (hr : Ready w.cur k q g t) : Ready v.cur k q g t := by
  unfold Stored at h
  rw [← h] at hr
  exact hr

theorem gwrite_leaves {m : GMap} {mask nu : Nat} {args : List (Nat × List W32)} (h : LastTurn s k 3 g ga e t)
    (hop : e.op = .gwrite key mask nu args m) (hns : (s.slotAt key).state ≠ .sampled) :
    Leaves s k 3 g t (.gwriteEntryPerform k) := by
  obtain ⟨v, hv, hs⟩ := forM_stored (f := fun (x : Nat × List W32) => forM ((bitsOf 12 mask).zip x.2) (fun y =>
      poke (cupolaKey key + vertexOff nu (m.vertex x.1).1.toNat (m.vertex x.1).2.toNat + 4 * y.1) 4 y.2.toNat))
    (fun x w => forM_stored (fun y w => stored_poke _ _ _) _ w) args ⟨s, []⟩
  obtain ⟨word, g2, hc, hw⟩ := (hs.ready h.ready).complete 0 0
  have hns2 : (v.cur.slotAt key).state ≠ .sampled := by
    have hslot := congrArg (fun s => s.slotAt key) hs
    exact fun hh => hns ((congrArg Slot.state hslot).symm.trans hh)
  exact leaves_of_next (gwrite_performs h.performs hop hv hc (run_releaseSlot_of_not_sampled (w := ⟨v.cur.setGroup k g2, v.stores⟩) hns2))
    (Tab.find_set_same _ _ _) hw

/-! ## Queue Z -/

/-- A head that completes with its status, read from its queue. -/
def doneHead (k q : Nat) : Act Unit := do
  if ← headReached k q then
    let e ← need ((← getGroup k).queue q).ents.head?
    discard (complete k q (e.status.toNat / 16) (e.status.toNat % 16))

theorem Ready.doneHead (h : Ready w.cur k q g t) :
    ∃ g1, doneHead k q w = .ok ((), ⟨w.cur.setGroup k g1, w.stores⟩) ∧ g1.Without g q t := by
  have hr := h.reached
  obtain ⟨g0, ga, e, hl, -⟩ := id h
  obtain ⟨word, g1, hc, hw⟩ := h.complete (e.status.toNat / 16) (e.status.toNat % 16)
  obtain ⟨hg, -, he, -⟩ := hl
  refine ⟨g1, ?_, hw⟩
  rw [Machine.doneHead, run_bind_ok hr, if_pos rfl, run_bind_ok (run_getGroup (w := w) hg), he, List.head?_cons,
    run_bind_ok (run_need_some _ _)]
  exact run_discard_ok hc

theorem Ready.zDone (h : Ready w.cur k 4 g t) :
    ∃ g1, zDone k w = .ok (true, ⟨w.cur.setGroup k g1, w.stores⟩) ∧ g1.Without g 4 t := by
  have hr := h.reached
  obtain ⟨g0, ga, e, hl, -⟩ := id h
  obtain ⟨word, g1, hc, hw⟩ := h.complete (e.status.toNat / 16) (e.status.toNat % 16)
  obtain ⟨hg, -, he, -⟩ := hl
  refine ⟨g1, ?_, hw⟩
  rw [Machine.zDone, run_bind_ok hr, if_pos rfl, run_bind_ok (run_getGroup (w := w) hg), he, List.head?_cons,
    run_bind_ok (run_need_some _ _), run_bind_ok (run_discard_ok hc)]
  rfl

/-- The head has begun, and is still on its last turn. -/
theorem LastTurn.begun (h : LastTurn s k q g ga e t) :
    Ready (s.setGroup k (g.headSet q { e with started := true } t)) k q g t :=
  ⟨_, ga, _, h.headSet keepsTurn_started, fun _ hj => queue_headSet_ne g _ _ hj, rfl⟩

theorem run_flushRun_of_done {p : Port} {b : Raster} {depth z : Nat} (h : 512 * patSamples b.header ≤ z) :
    flushRun k p b depth n z w = .ok (true, w) := by
  cases n with
  | zero => rfl
  | succ n =>
    rw [flushRun, if_pos h]
    rfl

theorem sflush_leaves {b : Raster} {x y : Nat} {depth : W32} (h : LastTurn s k 4 g ga e t) (hop : e.op = .sflush b x y depth bar)
    (hd : 512 * patSamples b.header ≤ e.pos) : Leaves s k 4 g t (.sflushEntryPerform k n) := by
  obtain ⟨g1, hz, hw⟩ := Ready.zDone (w := ⟨s.setGroup k (g.headSet 4 { e with started := true } t), []⟩) h.begun
  have hents : ((g.headSet 4 { e with started := true } t).queue 4).ents = { e with started := true } :: t := by rw [queue_headSet]
  exact leaves_of_next (((sflush_performs h.performs hop (run_flushRun_of_done hd)).2 rfl (Tab.find_set_same _ _ _) hents).2 hd hz)
    (Tab.find_set_same _ _ _) hw

theorem sgrid_leaves {b : Raster} {bx bk gang : Nat} (h : LastTurn s k 4 g ga e t) (hop : e.op = .sgrid b bx bk key gang bar)
    (hr : s.gridReadyFor key e.born = true) (hns : (s.slotAt key).state ≠ .sampled) (hpos : e.pos = 65536) :
    Leaves s k 4 g t (.sgridEntryPerform ⟨k, n⟩) := by
  obtain ⟨g1, hz, hw⟩ := Ready.zDone (w := ⟨s, []⟩) h.ready
  exact leaves_of_next (sgrid_ends h.performs hop hr hpos (run_sgridEnd (.inr ⟨hz, run_releaseSlot_of_not_sampled hns⟩)))
    (Tab.find_set_same _ _ _) hw

theorem run_resolveRun_nil {p : Port} {b : Raster} {base : Nat} : resolveRun k p b base n [] w = .ok (true, w) := by
  cases n <;> rfl

theorem length_upFrom (a n : Nat) : (upFrom a n).length = n := by
  rw [upFrom_eq_range', List.length_range']

theorem length_insertBy {α : Type} (key : α → Nat) (a : α) (l : List α) : (insertBy key a l).length = l.length + 1 := by
  induction l with
  | nil => rfl
  | cons b l ih =>
    rw [insertBy]
    split
    · rfl
    · rw [List.length_cons, ih, List.length_cons]

theorem length_sortBy {α : Type} (key : α → Nat) (l : List α) : (sortBy key l).length = l.length := by
  suffices h : ∀ acc : List α, (l.foldl (fun acc x => insertBy key x acc) acc).length = acc.length + l.length by
    exact (h []).trans (Nat.zero_add _)
  induction l with
  | nil => exact fun _ => rfl
  | cons a l ih =>
    intro acc
    rw [List.foldl_cons, ih, length_insertBy, List.length_cons]
    omega

theorem length_eraseDups_le (l : List Nat) : l.eraseDups.length ≤ l.length := by
  induction hn : l.length using Nat.strongRecOn generalizing l with
  | ind n ih =>
    cases l with
    | nil => simp
    | cons a l =>
      subst hn
      have hlt := Nat.lt_succ_of_le (List.length_filter_le (fun b => !b == a) l)
      rw [List.eraseDups_cons, List.length_cons, List.length_cons]
      exact Nat.succ_le_succ (Nat.le_trans (ih _ hlt _ rfl) (List.length_filter_le ..))

/-- The sectors of a list of n things are n at most. -/
theorem length_sectors_le (l : List Nat) : (sortBy (fun x => x) l.eraseDups).length ≤ l.length := by
  rw [length_sortBy]
  exact length_eraseDups_le _

theorem sresolve_leaves {b : Raster} {x y base : Nat} (h : LastTurn s k 4 g ga e t) (hop : e.op = .sresolve b x y base bar)
    (hd : 1024 ≤ e.pos) : Leaves s k 4 g t (.sresolveEntryPerform k n) := by
  obtain ⟨g1, hz, hw⟩ := Ready.zDone (w := ⟨s.setGroup k (g.headSet 4 { e with started := true } t), []⟩) h.begun
  have hlen : (sortBy (fun x => x) (((upFrom 0 32).flatMap (fun y => (upFrom 0 32).map (fun x =>
      (base + y * patPitch b.header + 8 * x) / 32))).eraseDups)).length ≤ e.pos :=
    Nat.le_trans (length_sectors_le _) (Nat.le_trans (by
      simp only [List.length_flatMap, List.length_map, length_upFrom]
      decide) hd)
  refine leaves_of_next ((sresolve_performs h.performs hop ?_).2 rfl hz) (Tab.find_set_same _ _ _) hw
  rw [List.drop_of_length_le hlen]
  exact run_resolveRun_nil

theorem scover_leaves {b : Raster} {bx bk dst : Nat} (h : LastTurn s k 4 g ga e t) (hop : e.op = .scover b bx bk key dst [] tag)
    (hr : s.gridReadyFor key e.born = true) (hns : (s.slotAt key).state ≠ .sampled) :
    Leaves s k 4 g t (.scoverEntryPerform k) := by
  obtain ⟨g1, hres, hready⟩ := Ready.resultReady (w := ⟨s, []⟩) h.ready
  obtain ⟨word, g2, hc, hw⟩ := Ready.complete (w := ⟨s.setGroup k g1, []⟩) hready 0 0
  refine leaves_of_next (v := ⟨(s.setGroup k g1).setGroup k g2, []⟩) (scover_performs h.performs hop hr ?_) (Tab.find_set_same _ _ _) hw
  rw [scoverRun, run_bind_ok hres, run_bind_ok (run_discard_ok hc)]
  exact run_releaseSlot_of_not_sampled hns

theorem sread_leaves {b : Raster} {dst : Nat} {args : List TArg} (h : LastTurn s k 4 g ga e t) (hop : e.op = .sread b dst args tag)
    (hd : args.length ≤ e.pos) : Leaves s k 4 g t (.sampleRecordEntryPerform ⟨k, n⟩) := by
  obtain ⟨g1, hres, hready⟩ := Ready.resultReady (w := ⟨s, []⟩) h.ready
  obtain ⟨word, g2, hc, hw⟩ := Ready.complete (w := ⟨s.setGroup k g1, []⟩) hready 0 0
  refine leaves_of_next (v := ⟨(s.setGroup k g1).setGroup k g2, []⟩) (sread_performs h.performs hop ?_) (Tab.find_set_same _ _ _) hw
  rw [List.drop_of_length_le hd, sreadRun, run_bind_ok hres]
  exact run_discard_ok hc

theorem swrite_leaves {b : Raster} {z : Bool} {args : List TArg} (h : LastTurn s k 4 g ga e t) (hop : e.op = .swrite b z args tag)
    (hd : args.length ≤ e.pos) : Leaves s k 4 g t (.sampleRecordEntryPerform ⟨k, n⟩) := by
  obtain ⟨g1, hz, hw⟩ := Ready.zDone (w := ⟨s, []⟩) h.ready
  have hlen : (sortBy (fun x => x) (((args.filter (fun t => !t.helper)).map (fun t =>
      b.selected (nth t.words 0 0).toNat / 32)).eraseDups)).length ≤ e.pos := by
    refine Nat.le_trans (length_sectors_le _) ?_
    rw [List.length_map]
    exact Nat.le_trans (List.length_filter_le ..) hd
  refine leaves_of_next (swrite_performs (done := true) (cause := none) (w1 := ⟨s, []⟩) h.performs hop rfl ?_ (run_discard_ok hz))
    (Tab.find_set_same _ _ _) hw
  rw [List.drop_of_length_le hlen]
  cases n <;> rfl

/-! ## Queues Y and H -/

section

variable {bvh : Record} {args : List TArg} {dst : Nat}

theorem trace_leaves {cb cf : Bool} (h : LastTurn s k 5 g ga e t) (hop : e.op = .trace bvh cb cf dst args tag)
    (hd : args.length ≤ e.pos) (hno : ∀ f ∈ g.run.frags, ∀ x, f.wait ≠ .tracing x) :
    Leaves s k 5 g t (.traceEntryPerform ⟨k, n⟩) := by
  obtain ⟨g1, hres, hready⟩ := Ready.resultReady (tag := tag) (ws := []) (w := ⟨s, []⟩) h.ready
  obtain ⟨word, g2, hc, hw⟩ := Ready.complete (w := ⟨s.setGroup k g1, []⟩) hready 0 0
  refine leaves_of_next (v := ⟨(s.setGroup k g1).setGroup k g2, []⟩)
    (trace_performs (more := true) (w1 := ⟨s, []⟩) h.performs hop ?_ (traceEnd_alone hres hc hno)) (Tab.find_set_same _ _ _) hw
  rw [List.drop_of_length_le hd]
  cases n <;> rfl

theorem hitget_leaves {sel : Nat} (h : LastTurn s k 5 g ga e t) (hop : e.op = .hitget bvh sel dst args tag) (hd : args.length ≤ e.pos) :
    Leaves s k 5 g t (.hitgetEntryPerform ⟨k, n⟩) := by
  obtain ⟨g1, hres, hready⟩ := Ready.resultReady (tag := tag) (ws := []) (w := ⟨s, []⟩) h.ready
  obtain ⟨word, g2, hc, hw⟩ := Ready.complete (w := ⟨s.setGroup k g1, []⟩) hready 0 0
  refine leaves_of_next (v := ⟨(s.setGroup k g1).setGroup k g2, []⟩) (hitget_performs h.performs hop ?_) (Tab.find_set_same _ _ _) hw
  rw [List.drop_of_length_le hd, hitgetRun, run_bind_ok hres]
  exact run_discard_ok hc

theorem rclook_leaves (h : LastTurn s k 5 g ga e t) (hop : e.op = .rclook bvh dst args tag) (hd : args.length ≤ e.pos) :
    Leaves s k 5 g t (.rclookEntryPerform ⟨k, n⟩) := by
  obtain ⟨g1, hres, hready⟩ := Ready.resultReady (tag := tag) (ws := []) (w := ⟨s, []⟩) h.ready
  obtain ⟨word, g2, hc, hw⟩ := Ready.complete (w := ⟨s.setGroup k g1, []⟩) hready 0 0
  refine leaves_of_next (v := ⟨(s.setGroup k g1).setGroup k g2, []⟩) (rclook_performs h.performs hop ?_) (Tab.find_set_same _ _ _) hw
  rw [List.drop_of_length_le hd, rclookRun, run_bind_ok hres]
  exact run_discard_ok hc

theorem rcins_leaves (h : LastTurn s k 5 g ga e t) (hop : e.op = .rcins bvh args tag) (hd : args.length ≤ e.pos) :
    Leaves s k 5 g t (.rcinsEntryPerform ⟨k, n⟩) := by
  obtain ⟨g1, hy, hw⟩ := Ready.doneHead (w := ⟨s, []⟩) h.ready
  refine leaves_of_next (v := ⟨s.setGroup k g1, []⟩)
    (rcins_performs (done := true) (cause := none) (w1 := ⟨s, []⟩) h.performs hop ?_ hy) (Tab.find_set_same _ _ _) hw
  rw [List.drop_of_length_le hd]
  cases n <;> rfl

theorem run_fadeRun_of_done {p : Port} {f i : Nat} (h : 2 ^ bvhRclog bvh ≤ i) : fadeRun k p bvh f n i w = .ok (true, w) := by
  cases n with
  | zero => rfl
  | succ n =>
    rw [fadeRun, if_pos h]
    rfl

theorem rcfade_leaves {f : Nat} (h : LastTurn s k 5 g ga e t) (hop : e.op = .rcfade bvh f bar) (hd : 2 ^ bvhRclog bvh ≤ e.pos) :
    Leaves s k 5 g t (.rcfadeEntryPerform k n) := by
  obtain ⟨g1, hy, hw⟩ := Ready.doneHead (w := ⟨s.setGroup k (g.headSet 5 { e with started := true } t), []⟩) h.begun
  have hents : ((g.headSet 5 { e with started := true } t).queue 5).ents = { e with started := true } :: t := by rw [queue_headSet]
  exact leaves_of_next (((rcfade_performs h.performs hop (run_fadeRun_of_done hd)).2 rfl (Tab.find_set_same _ _ _) hents).2 hd hy)
    (Tab.find_set_same _ _ _) hw

/-- Every thread of a sample entry is done: its results are complete, and it completes with the status it has gathered. -/
theorem Ready.texComplete {ws : Ent → List (Nat × Nat × W32)} (h : Ready w.cur k 6 g t) :
    ∃ g1, texComplete k tag ws w = .ok ((), ⟨w.cur.setGroup k g1, w.stores⟩) ∧ g1.Without g 6 t := by
  obtain ⟨g0, ga, e, hl, -⟩ := id h
  obtain ⟨hg, -, he, -⟩ := hl
  obtain ⟨g1, hres, hready⟩ := h.resultReady (tag := tag) (ws := ws e)
  obtain ⟨word, g2, hc, hw⟩ := Ready.complete (w := ⟨w.cur.setGroup k g1, w.stores⟩) hready (e.status.toNat / 16) (e.status.toNat % 16)
  refine ⟨g2, ?_, hw⟩
  rw [Machine.texComplete, run_bind_ok (run_getGroup (w := w) hg), he, List.head?_cons, run_bind_ok (run_need_some _ _),
    run_bind_ok hres, run_discard_ok hc, setGroup_setGroup]

theorem tex_leaves {r : Record} {form : Nat} (h : LastTurn s k 6 g ga e t) (hop : e.op = .tex r form dst args bar tag)
    (hd : args.length ≤ e.pos) : Leaves s k 6 g t (.texEntryPerform ⟨k, [], n⟩) := by
  obtain ⟨g1, hc, hw⟩ := Ready.texComplete (tag := tag) (ws := maskWords dst args) (w := ⟨s, []⟩) h.ready
  refine leaves_of_next (v := ⟨s.setGroup k g1, []⟩) (tex_performs (w1 := ⟨s, []⟩) h.performs hop rfl ?_) (Tab.find_set_same _ _ _) hw
  rw [List.drop_of_length_le hd, texRun]
  exact hc

theorem texq_leaves {r : Record} (h : LastTurn s k 6 g ga e t) (hop : e.op = .texq r dst args bar tag)
    (hd : args.length ≤ e.pos) : Leaves s k 6 g t (.texqEntryPerform ⟨k, [], n⟩) := by
  obtain ⟨g1, hc, hw⟩ := Ready.texComplete (tag := tag) (ws := fun _ => []) (w := ⟨s, []⟩) h.ready
  refine leaves_of_next (v := ⟨s.setGroup k g1, []⟩) (texq_performs (w1 := ⟨s, []⟩) h.performs hop rfl ?_) (Tab.find_set_same _ _ _) hw
  rw [List.drop_of_length_le hd, texqRun]
  exact hc

end

/-! ## Queue X -/

section

variable {a dst : Nat} {args : List TArg} {r : Record}

/-- A group alone on the machine has the pipe (R419). -/
theorem pipe_of_sole (h : LastTurn s k 7 g ga e t) (hs : Sole s k g e) : PipePerforms s k g e t := by
  refine ⟨h.performs, ?_⟩
  rw [Answers, pipeHead, run_bind_ok (run_headOf_of_performs (w := ⟨s, []⟩) h.performs)]
  dsimp only
  rw [run_bind_ok (run_now _)]
  have hno : s.groups.filter (fun x => !(x.1 == k) && s.poolPlace 0 x.1 x.2 == s.poolPlace 0 k g) = [] := by
    rw [hs.1, List.filter_cons_of_neg (by simp), List.filter_nil]
  rw [hno]
  rfl

theorem colour_leaves {kind : Nat} (h : LastTurn s k 7 g ga e t) (hs : Sole s k g e) (hop : e.op = .colour kind a dst [] tag)
    (hb : e.buf ≠ []) : Leaves s k 7 g t (.colourTransformEntryPerform k) := by
  obtain ⟨g1, hres, hready⟩ := Ready.resultReady (tag := tag) (ws := []) (w := ⟨s, []⟩) h.ready
  obtain ⟨word, g2, hc, hw⟩ := Ready.complete (w := ⟨s.setGroup k g1, []⟩) hready (0 / 16) (0 % 16)
  refine leaves_of_next (v := ⟨(s.setGroup k g1).setGroup k g2, []⟩) (colour_runs (pipe_of_sole h hs) hs.2 hop hb ?_)
    (Tab.find_set_same _ _ _) hw
  rw [colourRun, run_bind_ok hres]
  exact run_discard_ok hc

theorem pack_leaves {wd : Nat} (h : LastTurn s k 7 g ga e t) (hs : Sole s k g e) (hop : e.op = .pack a wd args tag)
    (hz : (packBits wd args).1 = 0) : Leaves s k 7 g t (.packEntryPerform k) := by
  obtain ⟨word, g1, hc, hw⟩ := Ready.complete (w := ⟨s, []⟩) h.ready 0 0
  refine leaves_of_next (v := ⟨s.setGroup k g1, []⟩) (perform_pipe (pipe_of_sole h hs) hs.2 ?_) (Tab.find_set_same _ _ _) hw
  dsimp only
  rw [hop]
  dsimp only
  rw [packRun, run_bind_ok (run_headPort (w := ⟨s, []⟩) h.1 h.2.2.1)]
  dsimp only
  rw [if_pos hz]
  exact run_discard_ok hc

theorem xraw_leaves {wd : Nat} (h : LastTurn s k 7 g ga e t) (hs : Sole s k g e) (hop : e.op = .xraw a wd true dst args tag)
    (hpo : g.poison = true) : Leaves s k 7 g t (.xrawEntryPerform k) := by
  obtain ⟨g1, hmod, hr1⟩ := Ready.modGroup (w := ⟨s, []⟩) h.ready (f := fun g0 => { g0 with p0 := g.p0, p1 := g.p1, poison := true })
    fun _ => ⟨rfl, rfl⟩
  obtain ⟨g2, hres, hr2⟩ := Ready.resultReady (tag := tag) (ws := args.map (fun t => (t.tnum, dst, BitVec.ofNat 32 (nth [] t.tnum 0))))
    (w := ⟨s.setGroup k g1, []⟩) hr1
  obtain ⟨word, g3, hc, hw⟩ := Ready.complete (w := ⟨(s.setGroup k g1).setGroup k g2, []⟩) hr2 (0xA1 / 16) (0xA1 % 16)
  refine leaves_of_next (v := ⟨((s.setGroup k g1).setGroup k g2).setGroup k g3, []⟩) (perform_pipe (pipe_of_sole h hs) hs.2 ?_)
    (Tab.find_set_same _ _ _) hw
  dsimp only
  rw [hop]
  refine rawRun_of_poison hpo ?_
  rw [rawEnd, run_bind_ok hmod, run_bind_ok hres]
  exact run_discard_ok hc

theorem xfclr_leaves {first count : Nat} (h : LastTurn s k 7 g ga e t) (hs : Sole s k g e) (hop : e.op = .xfclr r first count)
    (hd : count ≤ e.pos) : Leaves s k 7 g t (.xfclrEntryPerform k) := by
  obtain ⟨g1, hx, hw⟩ := Ready.doneHead (w := ⟨s, []⟩) h.ready
  exact leaves_of_next (xfclr_ends (pipe_of_sole h hs) hs.2 hop hd hx) (Tab.find_set_same _ _ _) hw

theorem Ready.tileNext {p : Port} {tile : Nat} {x : Ent} (h : Ready w.cur k 7 g t) (hd : (x.buf.length - 1) / 32 + 1 < x.pos) :
    ∃ g1, tileNext k p r tile x w = .ok ((), ⟨w.cur.setGroup k g1, w.stores⟩) ∧ g1.Without g 7 t := by
  obtain ⟨g1, hx, hw⟩ := h.doneHead
  refine ⟨g1, ?_, hw⟩
  rw [Machine.tileNext]
  dsimp only
  rw [if_pos (by omega)]
  exact hx

theorem xdelta_leaves {tile src : Nat} {mask : W64} (h : LastTurn s k 7 g ga e t) (hs : Sole s k g e)
    (hop : e.op = .xdelta r tile src mask) (hd : (e.buf.length - 1) / 32 + 1 < e.pos) : Leaves s k 7 g t (.xdeltaEntryPerform k) := by
  obtain ⟨g1, hx, hw⟩ := Ready.tileNext (w := ⟨s, []⟩) h.ready hd
  exact leaves_of_next (xdelta_writes (pipe_of_sole h hs) hs.2 hop (by omega) hx) (Tab.find_set_same _ _ _) hw

theorem xdcmp_leaves {tile : Nat} (h : LastTurn s k 7 g ga e t) (hs : Sole s k g e) (hop : e.op = .xdcmp r tile)
    (hd : (e.buf.length - 1) / 32 + 1 < e.pos) : Leaves s k 7 g t (.xdcmpEntryPerform k) := by
  obtain ⟨g1, hx, hw⟩ := Ready.tileNext (w := ⟨s, []⟩) h.ready hd
  exact leaves_of_next (xdcmp_writes (pipe_of_sole h hs) hs.2 hop (by omega) hx) (Tab.find_set_same _ _ _) hw

end

/-! ## Queues K and B -/

section

/-- A group alone on the machine has the array (R453). -/
theorem array_of_alone (h : LastTurn s k 8 g ga e t) (hs : s.groups = [(k, g)]) : ArrayPerforms s k g e t := by
  refine ⟨h.performs, ?_⟩
  rw [Answers, arrayHead, run_bind_ok (run_headOf_of_performs (w := ⟨s, []⟩) h.performs)]
  dsimp only
  rw [run_bind_ok (run_now _)]
  have hno : s.groups.filter (fun x => !(x.1 == k) && s.poolPlace 1 x.1 x.2 == s.poolPlace 1 k g) = [] := by
    rw [hs, List.filter_cons_of_neg (by simp), List.filter_nil]
  rw [hno]
  rfl

/-- A launch's array changes. -/
theorem instRuns_setLaunch {l : Launch} {c : Tab Carillon} {m i : Nat} (hl : Tab.find s.launches m = some l) :
    (s.setLaunch m { l with carillons := c }).instRuns i = s.instRuns i := by
  unfold State.instRuns
  rw [setLaunch_insts, setLaunch_launches]
  cases Tab.find s.insts i with
  | none => rfl
  | some x =>
    dsimp only
    rw [Tab.find_set]
    by_cases hx : x.launch = m
    · rw [if_pos hx, hx, hl]
      rfl
    · rw [if_neg hx]

theorem run_modCarillon (ga : Gang) (f : Carillon → Carillon) : ∃ s1, modCarillon ga f w = .ok ((), ⟨s1, w.stores⟩) ∧
    s1.groups = w.cur.groups ∧ s1.gangs = w.cur.gangs ∧ (∀ i, s1.instRuns i = w.cur.instRuns i) ∧
    (∀ d x, s1.reached d x = w.cur.reached d x) := by
  cases hl : Tab.find w.cur.launches ga.launch with
  | none =>
    refine ⟨w.cur, ?_, rfl, rfl, fun _ => rfl, fun _ _ => rfl⟩
    rw [modCarillon, run_upd]
    simp only [hl]
    rfl
  | some l =>
    refine ⟨w.cur.setLaunch ga.launch { l with
      carillons := Tab.set l.carillons (w.cur.carKey ga) (f (w.cur.carillon ga)) }, ?_, rfl, rfl,
      fun _ => instRuns_setLaunch hl, fun _ _ => rfl⟩
    rw [modCarillon, run_upd]
    simp only [hl]
    rfl

theorem ktwin_leaves {x : Nat} (h : LastTurn s k 8 g ga e t) (hs : s.groups = [(k, g)]) (hop : e.op = .ktwin x) :
    Leaves s k 8 g t (.ktwinEntryPerform k) := by
  obtain ⟨s1, hm, h1, h2, h3, h4⟩ := run_modCarillon (w := ⟨s, []⟩) ga (fun c => { c with twin := x })
  obtain ⟨word, g1, hc, hw⟩ := Ready.complete (w := ⟨s1, []⟩) (h.ready.congr h1 h2 h3 h4) 0 0
  exact leaves_of_next (ktwin_performs (array_of_alone h hs) hop h.2.1 hm hc) (Tab.find_set_same _ _ _) hw

theorem kpeal_leaves {src slot : Nat} (h : LastTurn s k 8 g ga e t) (hs : s.groups = [(k, g)]) (hop : e.op = .kpeal src slot bar)
    (hd : 128 ≤ e.pos) : Leaves s k 8 g t (.kpealEntryPerform ⟨k, n⟩) := by
  obtain ⟨cells, hcells⟩ : ∃ cells, (upFrom 0 2048).map (fun i => ofBytes ((e.buf.drop (2 * i)).take 2)) = cells := ⟨_, rfl⟩
  obtain ⟨s1, hm, h1, h2, h3, h4⟩ := run_modCarillon (w := ⟨s, []⟩) ga (fun c => { c with
    peals := Tab.set c.peals slot (if cells.all cellOk then cells else killPeal)
    loaded := c.loaded ||| 2 ^ slot })
  obtain ⟨st, hst⟩ : ∃ st, worseSts e.status.toNat (if cells.all cellOk then 0 else 0x41) = st := ⟨_, rfl⟩
  obtain ⟨word, g1, hc, hw⟩ := Ready.complete (w := ⟨s1.rewrite (s1.pealWords ga slot), []⟩) (h.ready.congr h1 h2 h3 h4)
    (st / 16) (st % 16)
  exact leaves_of_next (kpeal_ends (array_of_alone h hs) hop hd (run_pealEnd (w := ⟨s, []⟩) h.2.1 hcells rfl hm hst hc))
    (Tab.find_set_same _ _ _) hw

theorem krst_leaves {lv cv : Bool} (h : LastTurn s k 8 g ga e t) (hs : s.groups = [(k, g)]) (hop : e.op = .krst lv cv) :
    Leaves s k 8 g t (.krstEntryPerform k) := by
  obtain ⟨kv, hkv⟩ : ∃ kv, { g.kvec with
      lv := if lv then [] else g.kvec.lv
      cv := if cv then [] else g.kvec.cv } = kv := ⟨_, rfl⟩
  have hr : Ready (s.setGroup k { g with kvec := kv }) k 8 g t := ⟨_, ga, e, h.setGroup rfl rfl, fun _ _ => rfl, rfl⟩
  obtain ⟨word, g1, hc, hw⟩ := Ready.complete
    (w := ⟨(s.setGroup k { g with kvec := kv }).rewrite (fun w => (lv && lvWords k 0 64 w) || (cv && cvWords k 0 w)), []⟩)
    (hr.congr rfl rfl (fun _ => rfl) (fun _ _ => rfl)) 0 0
  exact leaves_of_next (krst_performs (array_of_alone h hs) hop hkv hc) (Tab.find_set_same _ _ _) hw

theorem klaunch_leaves {peal : Nat} {half go : Bool} {vals : Tab Nat} (h : LastTurn s k 8 g ga e t) (hs : s.groups = [(k, g)])
    (hop : e.op = .klaunch peal half go vals bar) (hb : s.sramBad = []) (hcr : s.sramCorr = []) :
    Leaves s k 8 g t (.klaunchEntryPerform k) := by
  obtain ⟨g1, hg1⟩ : ∃ g1, { g with kvec := { g.kvec with lv := driveHalf g.kvec.lv half vals } } = g1 := ⟨_, rfl⟩
  have hl : LastTurn (s.setGroup k g1) k 8 g1 ga e t := hg1 ▸ h.setGroup rfl rfl
  have hclean := rewrite_of_clean (s := s.setGroup k g1) (lvWords k (32 * b2n half) 32) hb hcr
  have hring : ∃ g2, (if go then ring k peal else pure 0) ⟨s.setGroup k g1, []⟩ = .ok (0, ⟨(s.setGroup k g1).setGroup k g2, []⟩) ∧
      Ready ((s.setGroup k g1).setGroup k g2) k 8 g t := by
    cases go with
    | true =>
      exact ⟨_, run_ring (w := ⟨s.setGroup k g1, []⟩) hl.1 hl.2.1 hb hcr rfl rfl rfl, _, ga, e, hl.setGroup rfl rfl,
        fun _ _ => hg1 ▸ rfl, hg1 ▸ rfl⟩
    | false =>
      refine ⟨g1, ?_, g1, ga, e, hl.setGroup rfl rfl, fun _ _ => hg1 ▸ rfl, hg1 ▸ rfl⟩
      rw [setGroup_setGroup]
      rfl
  obtain ⟨g2, hrun, hr⟩ := hring
  obtain ⟨word, g3, hc, hw⟩ := Ready.complete (w := ⟨(s.setGroup k g1).setGroup k g2, []⟩) hr (0 / 16) (0 % 16)
  refine leaves_of_next (v := ⟨((s.setGroup k g1).setGroup k g2).setGroup k g3, []⟩)
    (klaunch_performs (st := 0) (array_of_alone h hs) hop ?_ hc) (Tab.find_set_same _ _ _) hw
  rw [hg1, hclean]
  exact hrun

theorem kcapt_leaves {half : Bool} {dst : Nat} {threads : List Nat} (h : LastTurn s k 8 g ga e t) (hs : s.groups = [(k, g)])
    (hop : e.op = .kcapt half dst threads tag) (hb : s.sramBad = []) (hcr : s.sramCorr = []) :
    Leaves s k 8 g t (.kcaptEntryPerform k) := by
  obtain ⟨g1, hres, hready⟩ := Ready.resultReady (w := ⟨s, []⟩) h.ready
  obtain ⟨word, g2, hc, hw⟩ := Ready.complete (w := ⟨s.setGroup k g1, []⟩) hready 0 0
  exact leaves_of_next (kcapt_performs (array_of_alone h hs) hop h.2.1 (run_readWords_of_clean (w := ⟨s, []⟩) _ _ hb hcr) hres hc)
    (Tab.find_set_same _ _ _) hw

theorem deposit_leaves {adds : List (Nat × W64)} (h : LastTurn s k 9 g ga e t) (hop : e.op = .deposit adds)
    (hd : adds.length ≤ e.pos) (hwr : e.wrote = e.pos) : Leaves s k 9 g t (.ballastDepositPerform k) := by
  obtain ⟨word, g1, hc, hw⟩ := Ready.complete (w := ⟨s, []⟩) h.ready (e.status.toNat / 16) (e.status.toNat % 16)
  refine leaves_of_next (v := ⟨s.setGroup k g1, []⟩) ((deposit_performs h.performs hop hwr ?_).2 rfl h.1 h.2.2.1 hc)
    (Tab.find_set_same _ _ _) hw
  rw [List.drop_of_length_le hd]
  rfl

theorem qretw_leaves {x : W64} (h : LastTurn s k 9 g ga e t) (hop : e.op = .qretw x) (hz : amtOf x.toNat = 0) :
    Leaves s k 9 g t (.qretEntryPerform k) := by
  obtain ⟨word, g1, hc, hw⟩ := Ready.complete (w := ⟨s, []⟩) h.ready 0 0
  refine leaves_of_next (v := ⟨s.setGroup k g1, []⟩) (qretw_performs (w1 := ⟨s, []⟩) h.performs hop ?_ hc) (Tab.find_set_same _ _ _) hw
  rw [returnWeight]
  dsimp only
  rw [if_pos hz]
  rfl

end

theorem laneEngineEntriesEnd : LaneEngineEntriesEnd :=
  ⟨fun _ _ _ _ _ _ _ _ _ _ _ _ _ h hop hw => trace_leaves h hop hw.1 hw.2,
    fun _ _ _ _ _ _ _ _ _ _ _ _ h hop hw => hitget_leaves h hop hw,
    fun _ _ _ _ _ _ _ _ _ _ _ h hop hw => rclook_leaves h hop hw,
    fun _ _ _ _ _ _ _ _ _ _ h hop hw => rcins_leaves h hop hw,
    fun _ _ _ _ _ _ _ _ _ _ h hop hw => rcfade_leaves h hop hw,
    fun _ _ _ _ _ _ _ _ _ _ _ _ _ h hop hw => tex_leaves h hop hw,
    fun _ _ _ _ _ _ _ _ _ _ _ _ h hop hw => texq_leaves h hop hw,
    fun _ _ _ _ _ _ _ _ _ _ h hop hw => colour_leaves h hw.1 hop hw.2,
    fun _ _ _ _ _ _ _ _ _ _ h hop hw => pack_leaves h hw.1 hop hw.2,
    fun _ _ _ _ _ _ _ _ _ _ _ h hop hw => xraw_leaves h hw.1 hop hw.2,
    fun _ _ _ _ _ _ _ _ _ h hop hw => xfclr_leaves h hw.1 hop hw.2,
    fun _ _ _ _ _ _ _ _ _ _ h hop hw => xdelta_leaves h hw.1 hop hw.2,
    fun _ _ _ _ _ _ _ _ h hop hw => xdcmp_leaves h hw.1 hop hw.2,
    fun _ _ _ _ _ _ _ h hop hw => ktwin_leaves h hw hop,
    fun _ _ _ _ _ _ _ _ _ _ h hop hw => kpeal_leaves h hw.1 hop hw.2,
    fun _ _ _ _ _ _ _ _ h hop hw => krst_leaves h hw hop,
    fun _ _ _ _ _ _ _ _ _ _ _ h hop hw => klaunch_leaves h hw.1 hop hw.2.1 hw.2.2,
    fun _ _ _ _ _ _ _ _ _ _ h hop hw => kcapt_leaves h hw.1 hop hw.2.1 hw.2.2,
    fun _ _ _ _ _ _ _ h hop hw => deposit_leaves h hop hw.1 hw.2,
    fun _ _ _ _ _ _ _ h hop hw => qretw_leaves h hop hw⟩

end

end Sys2Proof.Machine
end

section
/-! SUPPORT. The last turns of the entries of queue G that move a grid, and the slot that the engine frees by itself (R341, R347 to
R349). -/

namespace Sys2Proof.Machine

open Sys2Proof

section

variable {s : State} {w v : Work} {k n key : Nat} {g : Group} {e : Ent} {t : List Ent} {ga : Gang} {bar : BarRef}

theorem dice_leaves {patch bucket : Nat} {r : Record} {victim : Bool} (h : LastTurn s k 3 g ga e t)
    (hop : e.op = .dice patch r key victim bucket bar) (hpos : e.pos = 1024) : Leaves s k 3 g t (.diceEntryPerform ⟨k, n⟩) := by
  obtain ⟨g1, hd, hw⟩ := Ready.geoDone (w := ⟨s, []⟩) h.ready
  exact leaves_of_next (dice_ends h.performs hop hpos hd) (Tab.find_set_same _ _ _) hw

theorem fill_leaves {image bucket : Nat} {victim : Bool} (h : LastTurn s k 3 g ga e t)
    (hop : e.op = .fill image key victim bucket bar) (hpos : e.pos = 1024) : Leaves s k 3 g t (.fillEntryPerform ⟨k, n⟩) := by
  obtain ⟨g1, hd, hw⟩ := Ready.geoDone (w := ⟨s, []⟩) h.ready
  exact leaves_of_next (fill_ends h.performs hop hpos hd) (Tab.find_set_same _ _ _) hw

theorem spill_leaves {image : Nat} (h : LastTurn s k 3 g ga e t) (hop : e.op = .spill key image bar) (hpos : e.pos = 1024) :
    Leaves s k 3 g t (.spillEntryPerform k n) := by
  obtain ⟨g1, hd, hw⟩ := Ready.geoDone (w := ⟨s, []⟩) h.ready
  exact leaves_of_next (spill_ends h.performs hop hpos hd) (Tab.find_set_same _ _ _) hw

/-! ## A slot that the engine frees -/

/-- A page that its cluster's translations hold is found without a walk. -/
theorem walked_of_kept {p : Port} {va : Nat} {x : Tlb} (hx : s.kept p va = some x) : s.walked p va = s := by
  rw [State.walked, hx, Option.isSome_some, Bool.or_true, Bool.true_or, if_pos rfl]

theorem translate_of_kept {p : Port} {va : Nat} {x : Tlb} (hva : va < 2 ^ 48) (hx : s.kept p va = some x) :
    s.translate p va = .leaf x.pte x.lg (x.pa va) := by
  rw [State.translate, if_neg (by omega), hx]

theorem run_locate_of_kept {p : Port} {va : Nat} {x : Tlb} {m : Need} (hva : va < 2 ^ 48) (hx : w.cur.kept p va = some x)
    (ht : w.cur.target (x.pa va) = some (.gddr p.die)) (hc : leafCause m (.gddr p.die) x.pte = 0) (hty : fld x.pte 6 2 = 1) :
    locate p va m w = .ok (.ok ⟨.gddr p.die, x.pa va, 1⟩, w) := by
  have hwalk : upd (fun s => s.walked p va) w = .ok ((), w) := by
    rw [run_upd, walked_of_kept hx]
    rfl
  rw [locate, run_bind_ok (run_now _), run_bind_ok hwalk, translate_of_kept hva hx]
  dsimp only
  rw [ht]
  have hpage : pageType (.gddr p.die) x.pte = 1 := hty
  dsimp only
  rw [hc, hpage]
  rfl

theorem leafCause_atomic {d pte : Nat} (h2 : bit pte 2 = true) (h3 : bit pte 3 = true) (h5 : bit pte 5 = true) (hty : fld pte 6 2 = 1) :
    leafCause .atomic (.gddr d) pte = 0 := by
  simp [leafCause, pageType, h2, h3, h5, hty]

theorem setDie_slots_kept (d : Nat) (f : Die → Die) : ∃ v, modDie d f w = .ok ((), v) ∧ v.cur.slots = w.cur.slots := by
  rw [modDie, run_upd]
  refine ⟨_, rfl, ?_⟩
  cases Tab.find w.cur.dies d <;> rfl

theorem run_storeHome_uncached (d pa n x : Nat) :
    ∃ v, storeHome d pa n x 1 w = .ok ((), v) ∧ v.cur.slots = w.cur.slots := by
  obtain ⟨v, hv, hs⟩ := setDie_slots_kept (w := ⟨w.cur.store pa n x, (pa, n, x) :: w.stores⟩) d (fun d =>
    d.combine (pa / 256) (bytesOfBlock pa n) (Mem.read (w.cur.store pa n x).mem (pa / 256 * 256) 256))
  refine ⟨v, ?_, hs⟩
  rw [storeHome, if_neg (by decide)]
  dsimp only
  rw [run_bind_ok (run_poke ..), if_pos (by decide), toController, run_bind_ok (run_now _)]
  exact hv

/-- A read and write of memory of the port's own die that no core and no other die holds leaves the slots as they are. -/
theorem run_rmwPlace_at_home {p : Port} {pa : Nat} {f : Nat → Nat} (hcore : p.core = none) (hb : w.cur.badAt pa n = false)
    (hcr : w.cur.corrAt pa n = false) (hto : w.cur.toldOf p.die pa n = false) :
    ∃ old v, rmwPlace p ⟨.gddr p.die, pa, 1⟩ n f w = .ok (.ok old, v) ∧ v.cur.slots = w.cur.slots := by
  have hdrop : upd (fun s => s.dropLine p (pa / 256)) w = .ok ((), w) := by
    rw [run_upd, State.dropLine, hcore]
    rfl
  have hread : readKey p.die pa n w = .ok (.ok (Mem.read w.cur.mem pa n), w) := by
    rw [run_readKey hb, State.readOnce, hcr]
    rfl
  obtain ⟨u, hu, hs⟩ := run_storeHome_uncached (w := w) p.die pa n (f (Mem.read w.cur.mem pa n))
  refine ⟨Mem.read w.cur.mem pa n, ⟨(u.cur.wakeWatch p.die (sectorsOf pa n)).setMem u.cur.mem, u.stores⟩, ?_, hs⟩
  rw [rmwPlace, run_bind_ok (run_now _)]
  dsimp only
  rw [homeOf, run_bind_ok hdrop, if_neg (by simp)]
  refine (run_bind_ok hread).trans ?_
  dsimp only
  rw [if_neg (by simp), hto]
  refine (run_bind_ok hu).trans ?_
  rw [run_bind_ok (run_upd _ _)]
  rfl

theorem gate_slots (s : State) (d c : Nat) : (s.gate d c).slots = s.slots := by
  rw [State.gate]
  split
  · split <;> rfl
  · rfl

theorem run_freeSlot (key : Nat) : ∃ v, freeSlot key w = .ok ((), v) ∧ (v.cur.slotAt key).state = .free ∧
    (v.cur.slotAt key).gen = (w.cur.slotAt key).gen := by
  obtain ⟨w1, hw1⟩ : ∃ w1 : Work, ⟨w.cur.setSlot key { Slot.fresh with gen := (w.cur.slotAt key).gen }, w.stores⟩ = w1 := ⟨_, rfl⟩
  have hslot : ∀ s1 : State, s1.slots = w1.cur.slots → s1.slotAt key = { Slot.fresh with gen := (w.cur.slotAt key).gen } := by
    intro s1 h1
    rw [State.slotAt, h1, ← hw1]
    simp only [State.setSlot, Tab.find_set_same]
  have hrun : modSlot key (fun sl => { Slot.fresh with gen := sl.gen }) w = .ok ((), w1) := hw1 ▸ run_modSlot _ _
  rw [freeSlot, run_bind_ok hrun]
  dsimp only
  rw [run_bind_ok (run_now _)]
  cases w1.cur.clusterOf (slotPlace key).1 (slotPlace key).2.1 (slotPlace key).2.2 with
  | none =>
    have h := hslot w1.cur rfl
    exact ⟨w1, rfl, by rw [h]; rfl, by rw [h]⟩
  | some c =>
    have h := hslot ((w1.cur.gate (slotPlace key).2.1 c).setMem w1.cur.mem) (gate_slots ..)
    exact ⟨_, run_upd _ _, by rw [h]; rfl, by rw [h]⟩

theorem naming_of_slotIdle (h : s.slotIdle key = true) : s.naming key = 0 := by
  rw [State.slotIdle] at h
  exact eq_of_beq (Bool.and_eq_true_iff.mp h).2

theorem engineSpill_frees {x : Tlb} (hi : s.slotIdle key = true) (hh : (s.slotAt key).holders = []) (ho : (s.slotAt key).oldGen = none)
    (hf : (s.slotAt key).failed = false) (hs : (s.slotAt key).state = .sampled) (hr : hdRemain (s.gridHead key) = 0)
    (hva : hdPatch (s.gridHead key) < 2 ^ 48) (hx : s.kept (s.slotPort key) (hdPatch (s.gridHead key)) = some x)
    (h2 : bit x.pte 2 = true) (h3 : bit x.pte 3 = true) (h5 : bit x.pte 5 = true) (hty : fld x.pte 6 2 = 1)
    (ht : s.target (x.pa (hdPatch (s.gridHead key))) = some (.gddr (s.slotPort key).die))
    (hb : s.badAt (x.pa (hdPatch (s.gridHead key))) 8 = false) (hcr : s.corrAt (x.pa (hdPatch (s.gridHead key))) 8 = false)
    (hto : s.toldOf (s.slotPort key).die (x.pa (hdPatch (s.gridHead key))) 8 = false) :
    ∃ t, exec (.engineSpill key) s = .next t ∧ (t.slotAt key).state = .free ∧ (t.slotAt key).gen = (s.slotAt key).gen := by
  obtain ⟨old, u, hu, hslots⟩ := run_rmwPlace_at_home (w := ⟨s, []⟩) (p := s.slotPort key) (f := fun _ => 2 ^ 63) rfl hb hcr hto
  have hat : u.cur.slotAt key = s.slotAt key := by
    cases hfind : Tab.find s.slots key with
    | none =>
      rw [State.slotAt, hfind] at hs
      exact SlotState.noConfusion hs
    | some sl => simp only [State.slotAt, hslots, hfind]
  obtain ⟨v, hv, hfree, hgen⟩ := run_freeSlot (w := u) key
  refine ⟨s.after v, (engineSpill_acts hi hh ho hf).1 hs hr ?_, hfree, hgen.trans (congrArg Slot.gen hat)⟩
  have hatomic : atomicVA (s.slotPort key) (hdPatch (s.gridHead key)) 8 (fun _ => 2 ^ 63) ⟨s, []⟩ = .ok (.ok old, u) := by
    rw [atomicVA, run_bind_ok (run_locate_of_kept (w := ⟨s, []⟩) hva hx ht (leafCause_atomic h2 h3 h5 hty) hty)]
    exact hu
  rw [releaseSlot, run_bind_ok (run_now _)]
  dsimp only
  rw [hs, hr, hh, naming_of_slotIdle hi]
  refine Eq.trans ?_ hv
  exact run_bind_ok hatomic

theorem gridEntriesEnd : GridEntriesEnd :=
  ⟨fun _ _ _ _ _ _ _ _ _ _ _ _ _ h hop hpos => dice_leaves h hop hpos,
    fun _ _ _ _ _ _ _ _ _ _ _ _ h hop hpos => fill_leaves h hop hpos,
    fun _ _ _ _ _ _ _ _ _ _ h hop hpos => spill_leaves h hop hpos,
    fun _ _ _ _ _ _ _ _ _ _ _ h hop hw => gread_leaves h hop hw.1 hw.2,
    fun _ _ _ _ _ _ _ _ _ _ _ h hop hw => gwrite_leaves h hop hw,
    fun _ _ _ _ _ _ _ _ _ _ _ _ h hop hw => sflush_leaves h hop hw,
    fun _ _ _ _ _ _ _ _ _ _ _ _ _ h hop hw => sgrid_leaves h hop hw.1 hw.2.1 hw.2.2,
    fun _ _ _ _ _ _ _ _ _ _ _ _ h hop hw => sresolve_leaves h hop hw,
    fun _ _ _ _ _ _ _ _ _ _ _ _ h hop hw => scover_leaves h hop hw.1 hw.2,
    fun _ _ _ _ _ _ _ _ _ _ _ h hop hw => sread_leaves h hop hw,
    fun _ _ _ _ _ _ _ _ _ _ _ h hop hw => swrite_leaves h hop hw,
    fun _ _ _ hi hh ho hf hs hr hva hx h2 h3 h5 hty ht hb hcr hto =>
      engineSpill_frees hi hh ho hf hs hr hva hx h2 h3 h5 hty ht hb hcr hto⟩

end

end Sys2Proof.Machine
end

section
/-! SUPPORT. The one entry of a context's queue on its last turn: a load of plain memory, a product fed by rows, and zeroing
(R318, R320, R322). -/

namespace Sys2Proof.Machine

open Sys2Proof

section

variable {s : State} {w v w1 : Work} {n : Nat} {c : Ctx} {ga : Gang} {e : Ent} {p : Port}

/-! ## What keeps the head of a context -/

/-- The context's one entry may perform, whatever its gang's matrix holds. -/
def Awaits (s : State) (n : Nat) (c : Ctx) (e : Ent) : Prop := ∃ ga, CtxHeadPerforms s n c ga e []

/-- The machine has changed in its gangs at most. -/
def Ganged (w v : Work) : Prop := { v.cur with gangs := w.cur.gangs } = w.cur

theorem Ganged.trans {u : Work} (h1 : Ganged u w) (h2 : Ganged w v) : Ganged u v := by
  unfold Ganged at *
  rw [← h1, ← h2]

theorem Awaits.congr {s1 : State} (h : Awaits s n c e) (hc : s1.ctxs = s.ctxs) (hg : s1.gangs = s.gangs)
    (hi : s1.insts = s.insts) (hl : s1.launches = s.launches) : Awaits s1 n c e := by
  obtain ⟨ga, h1, h2, h3, h4, h5, h6⟩ := h
  refine ⟨ga, hc ▸ h1, hg ▸ h2, h3, h4, ?_, h6⟩
  rw [← h5]
  unfold State.instRuns
  rw [hi, hl]

theorem stands_modMatrix (h : Awaits w.cur n c e) (pos : Nat) (f : Matrix → Matrix) :
    ∃ v, modMatrix n pos f w = .ok ((), v) ∧ Awaits v.cur n c e ∧ Ganged w v := by
  obtain ⟨ga, h1, h2, h3⟩ := h
  exact ⟨_, run_modMatrix h2 pos f, ⟨_, h1, Tab.find_set_same .., h3⟩, rfl⟩

theorem stands_forM {α : Type} {f : α → Act Unit}
    (hf : ∀ x w, Awaits w.cur n c e → ∃ v, f x w = .ok ((), v) ∧ Awaits v.cur n c e ∧ Ganged w v) (l : List α)
    (h : Awaits w.cur n c e) : ∃ v, forM l f w = .ok ((), v) ∧ Awaits v.cur n c e ∧ Ganged w v := by
  induction l generalizing w with
  | nil => exact ⟨w, rfl, h, rfl⟩
  | cons x l ih =>
    obtain ⟨u, hu, hsu, hgu⟩ := hf x w h
    obtain ⟨v, hv, hsv, hgv⟩ := ih hsu
    have hcons : forM (x :: l) f = (f x >>= fun _ => forM l f) := rfl
    exact ⟨v, by rw [hcons, run_bind_ok hu, hv], hsv, hgu.trans hgv⟩

/-- Work on each named core in turn answers with a status, where work on one core does and keeps what it needs. -/
theorem stands_onCores {f : Nat → Nat → Act (Except (Nat × Nat) Nat)} (l : List (Nat × Nat)) (st : Nat) (h : Awaits w.cur n c e)
    (hf : ∀ x ∈ l, ∀ v, Awaits v.cur n c e → Ganged w v →
      ∃ y u, f x.1 x.2 v = .ok (.ok y, u) ∧ Awaits u.cur n c e ∧ Ganged v u) :
    ∃ y v, onCores f l st w = .ok (.ok y, v) ∧ Awaits v.cur n c e ∧ Ganged w v := by
  suffices hgen : ∀ v, Awaits v.cur n c e → Ganged w v →
      ∃ y u, onCores f l st v = .ok (.ok y, u) ∧ Awaits u.cur n c e ∧ Ganged v u from hgen w h rfl
  induction l generalizing st with
  | nil => exact fun v hv _ => ⟨st, v, rfl, hv, rfl⟩
  | cons x l ih =>
    intro v hv hg
    obtain ⟨y, u, hy, hu, hgu⟩ := hf x (List.mem_cons_self ..) v hv hg
    obtain ⟨z, t, hz, ht, hgt⟩ := ih (worseSts st y) (fun x hx => hf x (List.mem_cons_of_mem _ hx)) u hu (hg.trans hgu)
    exact ⟨z, t, by rw [onCores, run_bind_ok hy]; exact hz, ht, hgu.trans hgt⟩

theorem run_ctxComplete (h : Awaits w.cur n c e) (hr : e.report = none) (code aux : Nat) :
    ∃ c1, ctxComplete n code aux w = .ok ((), ⟨w.cur.setCtx n c1, w.stores⟩) ∧ c1.queue.ents = [] ∧ c1.queue.mark = e.seq ∧
      c1.st = c.st := by
  obtain ⟨ga, hp⟩ := h
  refine ⟨{ c with
    sts := c.sts.report (statusWord code 2 aux e.seq.toNat)
    queue := { c.queue with mark := e.seq, ents := c.queue.ents.drop 1 } }, ?_, ?_, rfl, rfl⟩
  · rw [ctxComplete, run_bind_ok (run_ctxHead hp)]
    dsimp only
    rw [run_bind_ok (run_putCtx _ _ _), hr]
    rfl
  · obtain ⟨-, -, he, -⟩ := hp
    dsimp only
    rw [he]
    rfl

/-- The entry completes, and no other waits for banks. -/
theorem ctxLeaves_of_stands {i : Instr} (h : Awaits w.cur n c e) (hr : e.report = none) (code aux : Nat)
    (hi : ∀ w3 v, ctxComplete n code aux w = .ok ((), w3) → takeBanks n w3 = .ok ((), v) → exec i s = .next (s.after v)) :
    CtxLeaves s n c e i := by
  obtain ⟨c1, hc, hents, hmark, hst⟩ := run_ctxComplete h hr code aux
  have hfind : Tab.find (w.cur.setCtx n c1).ctxs n = some c1 := Tab.find_set_same ..
  refine ⟨_, c1, hi _ _ hc (run_takeBanks_of_empty fun c2 h2 => ?_), hfind, hents, hmark, hst⟩
  rw [Option.some.inj (h2.symm.trans hfind)]
  exact hents

/-! ## Loads of plain memory -/

theorem plainAt_congr {a b : Nat} (hg : Ganged w v) (h : w.cur.plainAt p a b) : v.cur.plainAt p a b := by
  unfold Ganged at hg
  rw [← hg] at h
  exact h

theorem run_readVA_of_plainAt {a b : Nat} (h : w.cur.plainAt p a b) : ∃ x, readVA p fresh a b w = .ok (.ok x, w) := by
  obtain ⟨ha, x, hx, h2, hty, ht, hb, hc⟩ := h
  have hread : readKey p.die (x.pa a) b w = .ok (.ok (Mem.read w.cur.mem (x.pa a) b), w) := by
    rw [run_readKey hb, State.readOnce, hc]
    rfl
  have hcause : leafCause .read (.gddr p.die) x.pte = 0 := by rw [leafCause, h2]; rfl
  refine ⟨Mem.read w.cur.mem (x.pa a) b, ?_⟩
  rw [readVA, run_bind_ok (run_locate_of_kept ha hx ht hcause hty)]
  dsimp only
  rw [readPlace, run_bind_ok (run_now _)]
  dsimp only
  rw [if_pos (by decide), if_neg (by simp)]
  exact hread

theorem run_readElems_of_plainAt {b : Nat} (l : List Nat) (h : ∀ a ∈ l, w.cur.plainAt p a b) :
    ∃ xs, readElems p b l w = .ok (.ok (xs, false), w) := by
  induction l with
  | nil => exact ⟨[], rfl⟩
  | cons a l ih =>
    obtain ⟨x, hx⟩ := run_readVA_of_plainAt (h a (List.mem_cons_self ..))
    obtain ⟨xs, hxs⟩ := ih fun a ha => h a (List.mem_cons_of_mem _ ha)
    refine ⟨x :: xs, ?_⟩
    rw [readElems]
    refine (run_bind_ok (a := .ok (x, false)) (v := w) ?_).trans ?_
    · rw [run_bind_ok hx]
      rfl
    · exact run_bind_ok hxs

theorem run_readScales_of_zero (b : Nat) : readScales p 0 b w = .ok (.ok (List.replicate b 0x7F, false), w) := rfl

theorem run_loadTile {r : Record} {off j : Nat} (hrs : shBrsa r = 0) (hcs : shBcsa r = 0)
    (h : ∀ i < shK r, ∀ m < shN r, w.cur.plainAt p (elemVA ((shBbase r + off) % 2 ^ 64)
      ((i : Int) * shBrs r + (((j % 4) * shN r + m) * shBes r * matSize (shBfmt r) : Nat))) (matSize (shBfmt r))) :
    ∃ x, loadTile p r off j w = .ok (.ok x, w) := by
  obtain ⟨xs, hxs⟩ := run_readElems_of_plainAt (w := w) (p := p) (b := matSize (shBfmt r))
    ((upFrom 0 (shK r)).flatMap (fun (k : Nat) => (upFrom 0 (shN r)).map (fun n =>
      elemVA ((shBbase r + off) % 2 ^ 64) ((k : Int) * shBrs r + (((j % 4) * shN r + n) * shBes r * matSize (shBfmt r) : Nat))))) (by
    intro a ha
    obtain ⟨i, hi, ha⟩ := List.mem_flatMap.mp ha
    obtain ⟨m, hm, rfl⟩ := List.mem_map.mp ha
    exact h i (by have := mem_upFrom.mp hi; omega) m (by have := mem_upFrom.mp hm; omega))
  rw [loadTile, run_bind_ok (run_now _)]
  dsimp only
  rw [run_bind_ok hxs]
  dsimp only
  rw [hrs, hcs, if_pos rfl, run_bind_ok (run_readScales_of_zero _)]
  dsimp only
  rw [run_bind_ok (run_readScales_of_zero _)]
  exact ⟨_, rfl⟩

theorem mloadb_leaves {tile off : Nat} {r : Record} (hp : CtxHeadPerforms s n c ga e []) (hr : e.report = none)
    (hop : e.op = .mloadb tile r off) (hrs : shBrsa r = 0) (hcs : shBcsa r = 0)
    (h : ∀ x ∈ namedCores r, ∀ i < shK r, ∀ j < shN r, s.plainAt (s.portOf (.ctx n))
        (elemVA ((shBbase r + off) % 2 ^ 64) ((i : Int) * shBrs r + (((x.1 % 4) * shN r + j) * shBes r * matSize (shBfmt r) : Nat)))
        (matSize (shBfmt r))) : CtxLeaves s n c e (.mloadbEntryPerform n) := by
  obtain ⟨w1, hu, hs1, hg1⟩ := stands_forM (w := ⟨s, []⟩) (fun (x : Nat × Nat) w hw =>
    stands_modMatrix hw x.2 (fun m => { m with tiles := Tab.del m.tiles tile })) (namedCores r) ⟨ga, hp⟩
  obtain ⟨st, w2, hx, hs2, hg2⟩ := stands_onCores (f := loadCore n (s.portOf (.ctx n)) tile r off) (namedCores r) 0 hs1 (by
    intro x hx v hv hg
    obtain ⟨y, hy⟩ := run_loadTile (w := v) (p := s.portOf (.ctx n)) (off := off) (j := x.1) hrs hcs
      fun i hi j hj => plainAt_congr (hg1.trans hg) (h x hx i hi j hj)
    obtain ⟨u, hu, hsu, hgu⟩ := stands_modMatrix hv x.2 (fun m => { m with tiles := Tab.set m.tiles tile y.1 })
    refine ⟨y.2, u, ?_, hsu, hgu⟩
    rw [loadCore, run_bind_ok hy]
    exact run_bind_ok hu)
  refine ctxLeaves_of_stands
    (w := ⟨w2.cur.rewrite (fun y => (namedCores r).any (fun x => Sram.ofTile n x.2 tile y)), w2.stores⟩)
    (hs2.congr rfl rfl rfl rfl) hr (st / 16) (st % 16) fun w3 v hc ht => ?_
  exact (mloadb_performs (w4 := w3) hp hop hu hx).1 st rfl hc ht

/-! ## Products fed by rows -/

theorem stands_multiplyOn {acc tile j pos : Nat} {r : Record} {f : Nat} {bank : Bank} {rows : List (List Nat × Nat)} {acol : List Nat}
    (h : Awaits w.cur n c e) (hb : w.cur.sramBad = []) (hcr : w.cur.sramCorr = []) :
    ∃ code v, multiplyOn n acc r tile j pos (some (f, bank)) rows acol false false w = .ok (code, v) ∧ Awaits v.cur n c e ∧
      Ganged w v := by
  obtain ⟨ga, h1, h2, h3⟩ := h
  rw [multiplyOn, run_bind_ok (run_getGang w h2), run_bind_ok (run_now _)]
  dsimp only
  rw [run_bind_ok (run_readWords_of_clean _ _ hb hcr), run_bind_ok (run_readWords_of_clean _ _ hb hcr)]
  rw [run_bind_ok (run_modMatrix h2 _ _), run_bind_ok (run_rewrite _), rewrite_of_clean (s := w.cur.setGang _ _) _ hb hcr]
  exact ⟨_, _, rfl, ⟨_, h1, Tab.find_set_same .., h3⟩, rfl⟩

theorem stands_multiplyCore {bcast : Bool} {acc tile j pos : Nat} {r : Record} {acol : List Nat} (hsrc : shAsrc r = false)
    (h : Awaits w.cur n c e) (hb : w.cur.sramBad = []) (hcr : w.cur.sramCorr = []) :
    ∃ y v, multiplyCore n p bcast acc r tile acol false false j pos w = .ok (.ok y, v) ∧ Awaits v.cur n c e ∧ Ganged w v := by
  obtain ⟨ga, hp⟩ := id h
  obtain ⟨-, hga, -⟩ := hp
  obtain ⟨code, v, hm, hs, hg⟩ := stands_multiplyOn (acc := acc) (tile := tile) (j := j) (pos := pos) (r := r)
    (f := feeder bcast r j pos) (bank := (ga.matrixOf (feeder bcast r j pos)).other)
    (rows := bankRows (ga.matrixOf (feeder bcast r j pos)).other r) (acol := acol) h hb hcr
  refine ⟨code * 16 + (if code = 0 then 0 else pos), v, ?_, hs, hg⟩
  rw [multiplyCore, run_bind_ok (run_getGang w hga), run_bind_ok (run_now _), hsrc]
  exact run_bind_ok hm

/-- A multiplication whose feeders have all given their banks takes none. -/
theorem run_takeBanks_of_taken {acc tile : Nat} {bcast keep : Bool} {r : Record} (hp : CtxHeadPerforms w.cur n c ga e [])
    (hop : e.op = .mma bcast acc r tile keep) (hread : ∀ f ∈ feedersOf bcast r, (Tab.find e.reads f).isSome) :
    takeBanks n w = .ok ((), ⟨w.cur.setCtx n c, w.stores⟩) := by
  obtain ⟨hc, hga, he, -⟩ := hp
  have hno : (feedersOf bcast r).filter (fun f => !(Tab.find e.reads f).isSome && (ga.matrixOf f).canFeed (shM r)) = [] :=
    List.filter_eq_nil_iff.mpr fun f hf => by rw [hread f hf]; simp
  have hsame : { c with queue := { c.queue with ents := { e with reads := e.reads } :: [] } } = c := by
    rw [← he]
  rw [takeBanks, run_bind_ok (run_now _), hc]
  dsimp only
  rw [he]
  dsimp only
  rw [hop]
  dsimp only
  rw [run_bind_ok (run_getGang w hga), hno]
  refine (run_bind_ok rfl).trans ?_
  rw [run_modCtx w hc, ← hop]
  exact congrArg (fun x => Except.ok ((), Work.mk (w.cur.setCtx n x) w.stores)) hsame

theorem mma_leaves {acc tile : Nat} {bcast keep : Bool} {r : Record} (hp : CtxHeadPerforms s n c ga e []) (hr : e.report = none)
    (hop : e.op = .mma bcast acc r tile keep) (hsrc : shAsrc r = false) (hcsa : shAcsa r = 0)
    (hread : ∀ f ∈ feedersOf bcast r, (Tab.find e.reads f).isSome) (hb : s.sramBad = []) (hcr : s.sramCorr = []) :
    CtxLeaves s n c e (.mmaEntryPerform n) := by
  have hp0 : CtxHeadPerforms (s.setCtx n c) n c ga e [] := by
    obtain ⟨-, h⟩ := hp
    exact ⟨Tab.find_set_same .., h⟩
  obtain ⟨st, w2, hx, hs2, hg2⟩ := stands_onCores (w := ⟨s.setCtx n c, []⟩)
    (f := multiplyCore n ((s.setCtx n c).portOf (.ctx n)) bcast acc r tile (List.replicate (shK r) 0x7F) false false)
    (namedCores r) 0 ⟨ga, hp0⟩ (fun x _ v hv hg => by
      unfold Ganged at hg
      exact stands_multiplyCore hsrc hv ((congrArg State.sramBad hg).trans hb) ((congrArg State.sramCorr hg).trans hcr))
  obtain ⟨w3, hk, hs3, -⟩ := stands_forM (fun f w hw => stands_modMatrix hw f (fun m => { m with kept := keep })) (feedersOf bcast r) hs2
  have hscales : readScales ((s.setCtx n c).portOf (.ctx n)) (shAcsa r) (shK r) ⟨s.setCtx n c, []⟩ =
      .ok (.ok (List.replicate (shK r) 0x7F, false), ⟨s.setCtx n c, []⟩) := by rw [hcsa]; rfl
  have hfix : (!((⟨s.setCtx n c, []⟩ : Work).cur.corrections == (⟨s.setCtx n c, []⟩ : Work).cur.corrections)) = false := by simp
  refine ctxLeaves_of_stands hs3 hr (st / 16) (st % 16) fun w4 v hc ht => ?_
  exact (mma_performs (w0 := ⟨s.setCtx n c, []⟩) hp (run_takeBanks_of_taken (w := ⟨s, []⟩) hp hop hread) hp0 hop hread hscales
    (by rw [hfix]; exact hx)).1 st rfl hk hc ht

/-! ## Zeroing -/

theorem stands_counts {f : Nat → State → State} (hf : ∀ x s, (f x s).ctxs = s.ctxs ∧ (f x s).gangs = s.gangs ∧
    (f x s).insts = s.insts ∧ (f x s).launches = s.launches) {α : Type} (d : Nat) (l : List α) (h : Awaits w.cur n c e) :
    ∃ v, forM l (fun _ => upd (f d)) w = .ok ((), v) ∧ Awaits v.cur n c e := by
  induction l generalizing w with
  | nil => exact ⟨w, rfl, h⟩
  | cons x l ih =>
    obtain ⟨h1, h2, h3, h4⟩ := hf d w.cur
    obtain ⟨v, hv, hs⟩ := ih (w := ⟨(f d w.cur).setMem w.cur.mem, w.stores⟩) (h.congr h1 h2 h3 h4)
    have hcons : forM (x :: l) (fun _ => upd (f d)) = (upd (f d) >>= fun _ => forM l (fun _ => upd (f d))) := rfl
    exact ⟨v, by rw [hcons, run_bind_ok (run_upd _ _), hv], hs⟩

theorem stands_readWords (h : Awaits w.cur n c e) (d : Nat) (f : Sram → Bool) :
    ∃ code v, readWords d f w = .ok (code, v) ∧ Awaits v.cur n c e := by
  obtain ⟨u, hu, hsu⟩ := stands_counts (f := fun d s => s.countBad d) (fun d s => by
    unfold State.countBad
    cases Tab.find s.dies d <;> exact ⟨rfl, rfl, rfl, rfl⟩) d (w.cur.sramBad.filter f) h
  obtain ⟨v, hv, hsv⟩ := stands_counts (f := fun d s => s.countCorr d) (fun d s => by
    unfold State.countCorr
    cases Tab.find s.dies d <;> exact ⟨rfl, rfl, rfl, rfl⟩) d (w.cur.sramCorr.filter f) hsu
  obtain ⟨code, hcode⟩ : ∃ code, (if !(w.cur.sramBad.filter f).isEmpty then 3 else
    if !(w.cur.sramCorr.filter f).isEmpty then 2 else 0) = code := ⟨_, rfl⟩
  refine ⟨code, v, ?_, hsv⟩
  rw [readWords, run_bind_ok (run_now _), hcode]
  exact (run_bind_ok hu).trans ((run_bind_ok hv).trans rfl)

theorem mzero_leaves {acc : Nat} {r : Record} {free : Bool} (hp : CtxHeadPerforms s n c ga e []) (hr : e.report = none)
    (hop : e.op = .mzero acc r free) : CtxLeaves s n c e (.mzeroEntryPerform n) := by
  obtain ⟨named, hn⟩ : ∃ named, (fun y => (namedCores r).any (fun x => Sram.ofAcc n x.2 acc y)) = named := ⟨_, rfl⟩
  obtain ⟨code, w1, hw1, hs1⟩ := stands_readWords (w := ⟨s, []⟩) ⟨ga, hp⟩ ga.die named
  obtain ⟨w2, hw2, hs2, -⟩ := stands_forM (fun (x : Nat × Nat) w hw => stands_modMatrix hw x.2 (fun m =>
      { m with accs := if free then Tab.del m.accs acc else Tab.set m.accs acc (accOf r x.1) })) (namedCores r) hs1
  exact ctxLeaves_of_stands (w := ⟨w2.cur.rewrite named, w2.stores⟩) (hs2.congr rfl rfl rfl rfl) hr (if code = 0 then 0 else 2) 0
    fun w3 v hc ht => mzero_performs hp hop hn hw1 hw2 hc ht

theorem contextEntriesEnd : ContextEntriesEnd := fun _ _ _ _ _ hp hr =>
  ⟨fun _ _ _ hop hrs hcs h => mloadb_leaves hp hr hop hrs hcs h,
    fun _ _ _ _ _ hop hsrc hcsa hread hb hcr => mma_leaves hp hr hop hsrc hcsa hread hb hcr,
    fun _ _ _ hop => mzero_leaves hp hr hop⟩

end

end Sys2Proof.Machine
end

section
/-! ## Obligation O60: forms that complete in states given by their fields -/

namespace Sys2Proof.Machine

open Sys2Proof

section

variable {s : State} {w : Work} {k va fl r brec h : Nat} {g g1 : Group} {ga : Gang} {d a b : BitVec 5}

/-- L2CFG to the mask that the die has changes nothing, and gives it. -/
theorem l2cfg_same {x : Die} (hi : GangIssues s k g ga) (hp : s.privileged (.group k) = true) (hs : g.settled = true)
    (hx : Tab.find s.dies ga.die = some x) (hlt : x.wmask < 2 ^ 16) (hc : popcount 16 x.wmask ≤ 12)
    (hm : (g.st.get a.toNat).toNat = x.wmask) :
    execL2cfg d a s = .next ((s.setDie ga.die x).wordDone k g g.st.pc (g.st.put d.toNat (BitVec.ofNat 64 x.wmask))) := by
  obtain ⟨hu, hg⟩ := hi.1
  have hways : bitsOf 16 (x.wmask ^^^ x.wmask) = [] := by
    rw [Nat.xor_self]
    decide
  rw [execL2cfg_eq hi hp hs hx hm hlt hc, Nat.and_self, if_neg (not_not_intro rfl)]
  refine perform_of_no_stores ?_ rfl
  rw [setWays]
  refine (run_bind_ok (a := ()) (v := ⟨s, []⟩) (by rw [hways]; rfl)).trans ?_
  rw [run_bind_ok (run_modDie (w := ⟨s, []⟩) hx _)]
  exact run_groupFinishWith (w := ⟨s.setDie ga.die x, []⟩) hu hg _ _

/-- A patch whose HANDLE names nothing is no work for BFILL, and one whose image lies nowhere none for either word (R349). -/
theorem diceAndBfill_answer (hr : DiceReads s k g ga a b r brec h w g1) :
    (fld h 62 2 = 0 → execBfill d a b s = .next
      (s.after ⟨w.cur.wordDone k g1 g1.st.pc (g1.st.put d.toNat (BitVec.ofNat 64 (resultWord h 7 false))), w.stores⟩)) ∧
    (fld h 62 2 = 2 → fld h 0 48 = 0 → ∀ fill, perform (diceOp fill d a b) s = .next
      (s.after ⟨w.cur.wordDone k g1 g1.st.pc (g1.st.put d.toNat (BitVec.ofNat 64 (resultWord h 6 false))), w.stores⟩)) := by
  have hi : GroupIssues w.cur k g1 := by
    obtain ⟨-, -, -, -, -, -, hi, -⟩ := hr
    exact hi
  refine ⟨fun hk => diceOp_completes hr ?_, fun hk h0 fill => diceOp_completes hr ?_⟩
  · rw [diceDecide_bfill (.inl hk)]
    exact run_groupGives hi _ _
  · rw [diceDecide_noImage hk h0]
    exact run_groupGives hi _ _

theorem modeAndGridWordsAnswer : ModeAndGridWordsAnswer := by
  refine ⟨fun s u st n hi hw => exec_trap_raises n hi hw, ?_, fun s k g ga x d a hi hp hs hx hlt hc hm => l2cfg_same hi hp hs hx hlt hc hm,
    fun s k g ga d a b r brec h w g1 hr => ?_⟩
  · intro s k g ga d a b hi ht hr hs x hs2 hx hpos hlen hmode hbar hsame
    have hok : ¬ (x ≥ 2 ^ 9 ∨ x % 8 ≥ ga.cores ∨ x / 8 ≥ hs2.length ∨ nth hs2 (x / 8) 0 > 2 ∨
        (x % 8 = 0 ∧ 8192 * (x / 8) < 16 * ga.nbar)) := by omega
    exact bankcfg_same hi ht hr hs rfl hsame hx hok rfl
  · obtain ⟨h0, h2⟩ := diceAndBfill_answer (d := d) hr
    exact ⟨h0, fun hk hno => ⟨h2 hk hno false, h2 hk hno true⟩⟩

/-- Settles O60: each form by its run from the fields of its state. -/
theorem formsCompleteFromTheirState : Obligations.FormsCompleteFromTheirState := by
  obtain ⟨hpatch, -, hsplit, hbound, hspill⟩ := geometryWordsComplete
  exact ⟨modeAndGridWordsAnswer, hpatch, hsplit, hbound, hspill, rasterWordsComplete, rangeCopyAndFeedEntriesEnd, contextEntriesEnd,
    gridEntriesEnd, laneEngineEntriesEnd⟩

end

end Sys2Proof.Machine
end

section
/-! ## Obligation O43: messages between sites -/

namespace Sys2Proof.Machine

open Sys2Proof

section

variable {s : State} {w v w1 : Work} {src dst : Nat} {m : Msg} {rest : List Msg} {want : MsgBody → Bool}

/-! ## Arrival (R253, R513) -/

theorem run_upd_of_mem {f : State → State} {t : State} (h : f w.cur = t) (hm : t.mem = w.cur.mem) :
    upd f w = .ok ((), ⟨t, w.stores⟩) := by
  subst h
  rw [run_upd, setMem_of_mem_eq hm]

theorem run_post (m : Msg) : post m w = .ok ((), ⟨w.cur.posts m, w.stores⟩) := run_upd_of_mem rfl rfl

theorem run_arriveEarly (h : Arrives s src dst m rest) (hw : want m.body = true) :
    arriveEarly src dst want ⟨s, []⟩ = .ok (m, ⟨s.onLinks rest, []⟩) := by
  obtain ⟨hup, hfirst⟩ := h
  rw [arriveEarly, run_bind_ok (run_now _), hup, run_bind_ok (run_guardA _ _), hfirst]
  dsimp only
  rw [hw, run_bind_ok (run_guardA _ _), run_bind_ok (run_upd_of_mem rfl rfl)]
  rfl

theorem run_arriveMsg (h : Comes s src dst m rest) (hw : want m.body = true) :
    arriveMsg src dst want ⟨s, []⟩ = .ok (m, ⟨s.onLinks rest, []⟩) := by
  obtain ⟨⟨hup, hfirst⟩, hc⟩ := h
  rw [arriveMsg, run_bind_ok (run_now _), hup, run_bind_ok (run_guardA _ _), hfirst]
  dsimp only
  rw [hw, hc, run_bind_ok (run_guardA _ _), run_bind_ok (run_upd_of_mem rfl rfl)]
  rfl

/-- What a message does once it has left its link. -/
theorem perform_comes {f : Msg → Act Unit} (h : Comes s src dst m rest) (hw : want m.body = true)
    (hf : f m ⟨s.onLinks rest, []⟩ = .ok ((), v)) : perform (arriveMsg src dst want >>= f) s = .next (s.after v) :=
  perform_after ((run_bind_ok (run_arriveMsg h hw)).trans hf)

theorem perform_arrives {f : Msg → Act Unit} (h : Arrives s src dst m rest) (hw : want m.body = true)
    (hf : f m ⟨s.onLinks rest, []⟩ = .ok ((), v)) : perform (arriveEarly src dst want >>= f) s = .next (s.after v) :=
  perform_after ((run_bind_ok (run_arriveEarly h hw)).trans hf)

/-- A machine reached without a store is the next one. -/
theorem after_of_mem {t : State} (hm : t.mem = s.mem) : s.after ⟨t, []⟩ = t := by
  show t.setMem s.mem = t
  rw [← hm, setMem_self]

/-! ## The Ballast (R496, R497, R500, R507) -/

theorem run_modRoot {root : Nat} {d : Die} {r : Root} (f : Root → Root) (hd : Tab.find w.cur.dies (rootDie root) = some d)
    (hr : Tab.find d.roots (root / 4) = some r) : modRoot root f w =
      .ok ((), ⟨w.cur.setDie (rootDie root) { d with roots := Tab.set d.roots (root / 4) (f r) }, w.stores⟩) := by
  rw [modRoot, run_modDie w hd, hr]

theorem root_of_find {root : Nat} {d : Die} {r : Root} (hd : Tab.find s.dies (rootDie root) = some d)
    (hr : Tab.find d.roots (root / 4) = some r) : s.root root = some r := by
  rw [State.root, State.die, Tab.getD, hd]
  exact hr

section

variable {root tag amt : Nat} {d : Die} {r : Root}

theorem returnMsg_void (hc : Comes s src dst m rest) (hb : m.body = .ret root tag amt) (hd : Tab.find s.dies (rootDie root) = some d)
    (hr : Tab.find d.roots (root / 4) = some r) (hv : r.live = false ∨ r.gen % 64 ≠ tag) :
    exec (.returnMsg src dst) s = .next (s.onLinks rest) := by
  have hno : (r.live && r.gen % 64 == tag) = false := by
    rcases hv with hv | hv
    · rw [hv, Bool.false_and]
    · rw [beq_eq_false_iff_ne.mpr hv, Bool.and_false]
  refine (perform_comes hc (by rw [hb]) (v := ⟨s.onLinks rest, []⟩) ?_).trans (congrArg _ (after_of_mem rfl))
  rw [hb]
  dsimp only
  rw [returnHere, run_bind_ok (run_now _), root_of_find (s := s.onLinks rest) hd hr]
  dsimp only
  rw [hno]
  rfl

theorem returnMsg_counts (hc : Comes s src dst m rest) (hb : m.body = .ret root tag amt)
    (hd : Tab.find s.dies (rootDie root) = some d) (hr : Tab.find d.roots (root / 4) = some r) (hl : r.live = true)
    (ht : r.gen % 64 = tag) (hs : settleRoot root ⟨(s.onLinks rest).setDie (rootDie root) { d with
      roots := Tab.set d.roots (root / 4) { r with returned := r.returned + amt } }, []⟩ = .ok ((), v)) :
    exec (.returnMsg src dst) s = .next (s.after v) := by
  refine perform_comes hc (by rw [hb]) ?_
  rw [hb]
  dsimp only
  rw [returnHere, run_bind_ok (run_now _), root_of_find (s := s.onLinks rest) hd hr]
  dsimp only
  rw [hl, ht, beq_self_eq_true, Bool.and_true, if_pos rfl, run_bind_ok (run_modRoot (w := ⟨s.onLinks rest, []⟩) _ hd hr)]
  exact hs

/-- A root that has units out is not settled. -/
theorem run_settleRoot_of_out (hr : w.cur.root root = some r) (hne : r.returned ≠ r.issued) : settleRoot root w = .ok ((), w) := by
  rw [settleRoot, run_bind_ok (run_now _), hr]
  dsimp only
  rw [beq_eq_false_iff_ne.mpr hne, Bool.and_false]
  rfl

theorem run_borrowAt {launch : Nat} (hd : Tab.find w.cur.dies (rootDie root) = some d) (hr : Tab.find d.roots (root / 4) = some r) :
    ((r.live = true ∧ r.gen % 64 = tag ∧ r.launch = launch ∧ r.issued + 2 ^ 24 ≤ 2 ^ 63) → borrowAt root tag launch w =
      .ok (true, ⟨w.cur.setDie (rootDie root) { d with
        roots := Tab.set d.roots (root / 4) { r with issued := r.issued + 2 ^ 24 } }, w.stores⟩)) ∧
    (¬(r.live = true ∧ r.gen % 64 = tag ∧ r.launch = launch ∧ r.issued + 2 ^ 24 ≤ 2 ^ 63) →
      borrowAt root tag launch w = .ok (false, w)) := by
  have hok : (r.live && r.gen % 64 == tag && r.launch == launch && decide (r.issued + 2 ^ 24 ≤ 2 ^ 63)) =
      decide (r.live = true ∧ r.gen % 64 = tag ∧ r.launch = launch ∧ r.issued + 2 ^ 24 ≤ 2 ^ 63) := by
    rw [Bool.eq_iff_iff]
    simp [and_assoc]
  rw [borrowAt, run_bind_ok (run_now _), root_of_find hd hr]
  dsimp only
  rw [hok]
  refine ⟨fun h => ?_, fun h => ?_⟩
  · rw [decide_eq_true h, if_pos rfl, run_bind_ok (run_modRoot _ hd hr)]
    rfl
  · rw [decide_eq_false h]
    rfl

theorem borrowMsg_answers {launch who : Nat} (hc : Comes s src dst m rest) (hb : m.body = .borrow root tag launch who)
    (hd : Tab.find s.dies (rootDie root) = some d) (hr : Tab.find d.roots (root / 4) = some r) :
    let s1 := s.onLinks rest
    let ok := r.live = true ∧ r.gen % 64 = tag ∧ r.launch = launch ∧ r.issued + 2 ^ 24 ≤ 2 ^ 63
    let s2 := s1.setDie (rootDie root) { d with roots := Tab.set d.roots (root / 4) { r with issued := r.issued + 2 ^ 24 } }
    (ok → exec (.borrowMsg src dst) s = .next (s2.posts ⟨dst, src, (s2.die dst).vclock, .grant root tag who⟩)) ∧
    (¬ok → exec (.borrowMsg src dst) s = .next (s1.posts ⟨dst, src, (s1.die dst).vclock, .refuse who⟩)) := by
  intro s1 ok s2
  obtain ⟨hyes, hno⟩ := run_borrowAt (w := ⟨s1, []⟩) (tag := tag) (launch := launch) hd hr
  refine ⟨fun h => ?_, fun h => ?_⟩
  · refine (perform_comes hc (by rw [hb]) (v := ⟨s2.posts ⟨dst, src, (s2.die dst).vclock, .grant root tag who⟩, []⟩) ?_).trans
      (congrArg _ (after_of_mem rfl))
    rw [hb]
    dsimp only
    rw [run_bind_ok (hyes h), run_bind_ok (run_now _)]
    exact run_post _
  · refine (perform_comes hc (by rw [hb]) (v := ⟨s1.posts ⟨dst, src, (s1.die dst).vclock, .refuse who⟩, []⟩) ?_).trans
      (congrArg _ (after_of_mem rfl))
    rw [hb]
    dsimp only
    rw [run_bind_ok (hno h), run_bind_ok (run_now _)]
    exact run_post _

end

section

variable {k n : Nat} {g : Group}

/-- What changes a stream's wait alone. -/
theorem onWait_of {st : Stream} {f : Wait → Wait} {a : Wait} (hw : f st.wait = a) (ht : f st.twait = st.twait) :
    st.onWait f = { st with wait := a } := by
  rw [Stream.onWait, hw, ht]

/-- A stream that waits for a borrow hears its answer. -/
theorem run_answer_scalar {ok : Bool} (hg : Tab.find w.cur.groups k = some g) (hw : g.st.wait = .borrow none n)
    (ht : g.st.twait = .none) : answer (2 * k) ok w =
      .ok ((), ⟨w.cur.setGroup k { g with st := { g.st with wait := .borrow (some ok) n } }, w.stores⟩) := by
  have hk : 2 * k / 2 = k := by omega
  have hz : 2 * k % 2 = 0 := by omega
  rw [answer, hk, run_modGroup w hg, hz, if_pos rfl,
    onWait_of (a := .borrow (some ok) n) (by rw [hw]) (by rw [ht])]

/-- The units of a grant land where the weight held lets them. The word they make is a variable, for a sum of 2^24 is not to be
counted out. -/
theorem run_grantTo {root tag x y : Nat} (hg : Tab.find w.cur.groups k = some g) (hy : weightWord root tag (2 ^ 24) = y)
    (hx : joinWeight g.wgt.toNat y = some x) :
    grantTo k root tag w = .ok ((), ⟨w.cur.setGroup k { g with wgt := BitVec.ofNat 64 x }, w.stores⟩) := by
  rw [grantTo, run_bind_ok (run_now _), hy, hg]
  dsimp only
  rw [hx]
  exact run_putGroup _ _ _

theorem grantMsg_joins {root tag x : Nat} (hc : Comes s src dst m rest) (hb : m.body = .grant root tag (2 * k))
    (hg : Tab.find s.groups k = some g) (hw : g.st.wait = .borrow none n) (ht : g.st.twait = .none)
    (hx : joinWeight g.wgt.toNat (weightWord root tag (2 ^ 24)) = some x) :
    exec (.grantMsg src dst) s = .next ((s.onLinks rest).setGroup k { g with
      wgt := BitVec.ofNat 64 x
      st := { g.st with wait := .borrow (some true) n } }) := by
  have hk : 2 * k / 2 = k := by omega
  refine (perform_comes hc (by rw [hb]) (v := ⟨(s.onLinks rest).setGroup k { g with
      wgt := BitVec.ofNat 64 x
      st := { g.st with wait := .borrow (some true) n } }, []⟩) ?_).trans (congrArg _ (after_of_mem rfl))
  rw [hb]
  dsimp only
  rw [hk, run_bind_ok (run_grantTo (w := ⟨s.onLinks rest, []⟩) hg rfl hx),
    run_answer_scalar (g := { g with wgt := BitVec.ofNat 64 x }) (n := n) (Tab.find_set_same _ _ _) hw ht, setGroup_setGroup]

theorem refuseMsg_scalar (hc : Comes s src dst m rest) (hb : m.body = .refuse (2 * k)) (hg : Tab.find s.groups k = some g)
    (hw : g.st.wait = .borrow none n) (ht : g.st.twait = .none) : exec (.refuseMsg src dst) s =
      .next ((s.onLinks rest).setGroup k { g with st := { g.st with wait := .borrow (some false) n } }) := by
  refine (perform_comes hc (by rw [hb]) ?_).trans (congrArg _ (after_of_mem rfl))
  rw [hb]
  exact run_answer_scalar (w := ⟨s.onLinks rest, []⟩) hg hw ht

theorem refuseMsg_lane (hc : Comes s src dst m rest) (hb : m.body = .refuse (2 * k + 1)) (hg : Tab.find s.groups k = some g) :
    exec (.refuseMsg src dst) s = .next ((s.onLinks rest).setGroup k { g with run := { g.run with
      frags := answerFrags false g.run.frags } }) := by
  have hk : (2 * k + 1) / 2 = k := by omega
  have hz : (2 * k + 1) % 2 = 1 := by omega
  refine (perform_comes hc (by rw [hb]) ?_).trans (congrArg _ (after_of_mem rfl))
  rw [hb]
  dsimp only
  rw [answer, hk, run_modGroup ⟨s.onLinks rest, []⟩ hg, hz, if_neg (by decide)]

end

/-- What a deposit that has come tells the group that sent it, if its entry awaits it (R504). -/
def tellDeposited (k st : Nat) : Act Unit := do
  let awaited := match Tab.find (← now).groups k with
    | none => false
    | some g => match (g.queue 9).ents with
      | [] => false
      | e :: _ => (match e.op with | .deposit _ => true | _ => false) && e.wrote == e.pos + 1
  if awaited then deposited k st

theorem depositMsg_deposits {k pa st : Nat} {x : W64} (hc : Comes s src dst m rest) (hb : m.body = .deposit k pa x)
    (hd : deposit pa x.toNat ⟨s.onLinks rest, []⟩ = .ok (st, w1)) (ht : tellDeposited k st w1 = .ok ((), v)) :
    exec (.depositMsg src dst) s = .next (s.after v) := by
  refine perform_comes hc (by rw [hb]) ?_
  rw [hb]
  exact (run_bind_ok hd).trans ht

theorem run_tellDeposited_none {k st : Nat} (h : Tab.find w.cur.groups k = none) : tellDeposited k st w = .ok ((), w) := by
  rw [tellDeposited, run_bind_ok (run_now _), h]
  rfl

theorem run_tellDeposited {k st : Nat} {g : Group} {e : Ent} {t : List Ent} {adds : List (Nat × W64)}
    (hg : Tab.find w.cur.groups k = some g) (he : (g.queue 9).ents = e :: t) (hop : e.op = .deposit adds) (hw : e.wrote = e.pos + 1) :
    tellDeposited k st w = .ok ((), ⟨w.cur.setGroup k (g.headSet 9 { e with
      pos := e.pos + 1
      wrote := e.pos + 1
      started := true
      status := BitVec.ofNat 32 (worseSts e.status.toNat st) } t), w.stores⟩) := by
  rw [tellDeposited, run_bind_ok (run_now _)]
  simp only [hg, he, hop, hw, beq_self_eq_true, Bool.and_self, if_true]
  rw [deposited, ← hop]
  exact run_setHead hg he _

theorem wakeMsg_wakes {root gen issued : Nat} (hc : Comes s src dst m rest) (hb : m.body = .wake root gen issued) :
    exec (.wakeMsg src dst) s = .next ((s.onLinks rest).wakeRoot dst root gen issued) := by
  refine (perform_comes hc (by rw [hb]) (v := ⟨(s.onLinks rest).wakeRoot dst root gen issued, []⟩) ?_).trans
    (congrArg _ (after_of_mem rfl))
  rw [hb]
  exact run_upd_of_mem rfl rfl

theorem ballastMessagesAct : BallastMessagesAct := by
  intro s src dst m rest hc s1
  refine ⟨fun root tag amt d r v hb hd hr => ⟨fun h => returnMsg_void hc hb hd hr h, fun hl ht hne => ?_, fun hl ht hs =>
      returnMsg_counts hc hb hd hr hl ht hs⟩,
    fun root tag launch who d r hb hd hr => borrowMsg_answers hc hb hd hr,
    fun root tag k n g x hb hg hw ht hx => grantMsg_joins hc hb hg hw ht hx,
    fun k n g hb hg hw ht => refuseMsg_scalar hc hb hg hw ht, fun k g hb hg => refuseMsg_lane hc hb hg,
    fun k pa x st w1 hb hd => ⟨fun hno => depositMsg_deposits hc hb hd (run_tellDeposited_none hno),
      fun g e t adds hg he hop hw => depositMsg_deposits hc hb hd (run_tellDeposited hg he hop hw)⟩,
    fun root gen issued hb => wakeMsg_wakes hc hb⟩
  refine (returnMsg_counts hc hb hd hr hl ht (run_settleRoot_of_out (r := { r with returned := r.returned + amt }) ?_ hne)).trans
    (congrArg _ (after_of_mem rfl))
  exact root_of_find (Tab.find_set_same _ _ _) (Tab.find_set_same _ _ _)

/-! ## The Tether agents (R479 to R481) -/

section

variable {n : Nat} {l : Launch}

theorem stealRequest_none (hc : Comes s src dst m rest) (hl : Tab.find s.launches n = some l) (hb : m.body = .stealRequest n)
    (he : (l.tether dst).deque = []) :
    exec (.stealRequest src dst) s = .next ((s.onLinks rest).posts ⟨dst, src, (s.die dst).vclock, .stealReply n⟩) := by
  refine (perform_comes hc (by rw [hb]) (v := ⟨(s.onLinks rest).posts ⟨dst, src, (s.die dst).vclock, .stealReply n⟩, []⟩) ?_).trans
    (congrArg _ (after_of_mem rfl))
  rw [hb]
  dsimp only
  rw [run_bind_ok (run_getLaunch (w := ⟨s.onLinks rest, []⟩) hl), run_bind_ok (run_now _), he]
  exact run_post _

theorem stealRequest_gives {e : DqEnt} {t : List DqEnt} (hc : Comes s src dst m rest) (hl : Tab.find s.launches n = some l)
    (hb : m.body = .stealRequest n) (he : (l.tether dst).deque = e :: t) :
    exec (.stealRequest src dst) s = .next (((s.onLinks rest).setLaunch n (l.setTether dst (fun x => { x with deque := t }))).posts
      ⟨dst, src, (s.die dst).vclock, .transfer n e⟩) := by
  refine (perform_comes hc (by rw [hb]) (v := ⟨((s.onLinks rest).setLaunch n (l.setTether dst (fun x => { x with deque := t }))).posts
    ⟨dst, src, (s.die dst).vclock, .transfer n e⟩, []⟩) ?_).trans (congrArg _ (after_of_mem rfl))
  rw [hb]
  dsimp only
  rw [run_bind_ok (run_getLaunch (w := ⟨s.onLinks rest, []⟩) hl), run_bind_ok (run_now _), he]
  dsimp only
  rw [run_bind_ok (run_putLaunch _ _ _)]
  exact run_post _

theorem stealReply_frees (hc : Comes s src dst m rest) (hl : Tab.find s.launches n = some l) (hb : m.body = .stealReply n) :
    exec (.stealReply src dst) s = .next ((s.onLinks rest).setLaunch n (l.setTether dst (fun x => { x with
        stealing := false
        retryAt := ((s.die dst).clk + 256) % 2 ^ 64 }))) := by
  refine (perform_comes hc (by rw [hb]) ?_).trans (congrArg _ (after_of_mem rfl))
  rw [hb]
  dsimp only
  rw [run_bind_ok (run_now _)]
  exact run_modLaunch (w := ⟨s.onLinks rest, []⟩) hl _

theorem transfer_joins {e : DqEnt} {i : Inst} (hc : Comes s src dst m rest) (hl : Tab.find s.launches n = some l)
    (hb : m.body = .transfer n e) (hst : l.state = 1) (hlen : (l.tether dst).deque.length < 4096)
    (hi : Tab.find s.insts (instKey n e.inst) = some i) :
    exec (.transferMsg src dst) s = .next (((s.onLinks rest).setLaunch n (l.setTether dst (fun x => { x with
        deque := x.deque ++ [e]
        stealing := false }))).setInst (instKey n e.inst) { i with die := dst }) := by
  refine (perform_comes hc (by rw [hb]) ?_).trans (congrArg _ (after_of_mem rfl))
  have hl1 : Tab.find (s.onLinks rest).launches n = some l := hl
  rw [hb]
  dsimp only
  rw [run_bind_ok (run_now _), hl1, Option.map_some, Option.getD_some, decide_eq_true hlen, run_bind_ok (run_guardA _ _),
    run_bind_ok (run_modLaunch (w := ⟨s.onLinks rest, []⟩) hl _), if_pos hst]
  exact run_modInst (w := ⟨(s.onLinks rest).setLaunch n _, []⟩) hi _

theorem depthReport_hears {depth bx bk : Nat} (hc : Comes s src dst m rest) (hl : Tab.find s.launches n = some l)
    (hb : m.body = .depth n depth bx bk) :
    exec (.depthReport src dst) s = .next ((s.onLinks rest).setLaunch n (l.setTether dst (fun x => { x with
        heard := Tab.set x.heard src (depth, bx, bk) }))) := by
  refine (perform_comes hc (by rw [hb]) ?_).trans (congrArg _ (after_of_mem rfl))
  rw [hb]
  exact run_modLaunch (w := ⟨s.onLinks rest, []⟩) hl _

end

theorem tetherMessagesAct : TetherMessagesAct := fun _ _ _ _ _ _ _ hc hl =>
  ⟨fun hb he => stealRequest_none hc hl hb he, fun _ _ hb he => stealRequest_gives hc hl hb he, fun hb => stealReply_frees hc hl hb,
    fun _ _ hb hst hlen hi => transfer_joins hc hl hb hst hlen hi, fun _ _ _ hb => depthReport_hears hc hl hb⟩

/-! ## The memory system and the host (R251 to R253, R514, R516, R520) -/

theorem readBlock_mem (s : State) (d b : Nat) : (s.readBlock d b).mem = s.mem := by
  unfold State.readBlock
  dsimp only
  split <;> simp [foldl_mem]

theorem readMsg_answers {block : Nat} (hc : Comes s src dst m rest) (hb : m.body = .read block) :
    exec (.readMsg src dst) s = .next (((s.onLinks rest).readBlock dst block).posts ⟨dst, src, (s.die dst).vclock,
      .rdata block (Mem.read s.mem (256 * block) 256) (s.die dst).vclock (s.blockErrs block)⟩) := by
  have hmem : ((s.onLinks rest).readBlock dst block).mem = (s.onLinks rest).mem := readBlock_mem ..
  refine (perform_comes hc (by rw [hb]) (v := ⟨((s.onLinks rest).readBlock dst block).posts ⟨dst, src, (s.die dst).vclock,
      .rdata block (Mem.read s.mem (256 * block) 256) (s.die dst).vclock (s.blockErrs block)⟩, []⟩) ?_).trans
    (congrArg _ (after_of_mem hmem))
  rw [hb]
  dsimp only
  rw [run_bind_ok (run_now _), run_bind_ok (run_upd_of_mem rfl hmem)]
  exact run_post _

theorem rdataMsg_completes {block data errs : Nat} {clk : Tab Nat} {d : Die} (ha : Arrives s src dst m rest)
    (hb : m.body = .rdata block data clk errs) (hd : Tab.find s.dies dst = some d) :
    (covers d.vclock clk = true → exec (.rdataMsg src dst) s = .next ((s.onLinks rest).setDie dst { d with
      copies := d.copies.filter (fun x => !(x.block == block)) ++ [⟨block, data, d.clk, errs⟩]
      rdata := d.rdata.filter (fun x => !(x.1 == block)) })) ∧
    (covers d.vclock clk = false → exec (.rdataMsg src dst) s = .next ((s.onLinks rest).setDie dst { d with
      rdata := d.rdata ++ [(block, data, clk, errs)] })) := by
  have hclk : ((s.onLinks rest).die dst).vclock = d.vclock := by
    have hd1 : Tab.find (s.onLinks rest).dies dst = some d := hd
    rw [State.die, Tab.getD, hd1]
    rfl
  refine ⟨fun hcov => ?_, fun hcov => ?_⟩
  all_goals
    refine (perform_arrives ha (by rw [hb]) ?_).trans (congrArg _ (after_of_mem rfl))
    rw [hb]
    dsimp only
    rw [run_bind_ok (run_now _), hclk, hcov]
    exact run_modDie (w := ⟨s.onLinks rest, []⟩) hd _

theorem ackMsg_counts {n : Nat} (ha : Arrives s src dst m rest) (hb : m.body = .ack n) :
    (dst = 4 → exec (.ackMsg src dst) s = .next { s.onLinks rest with
      hostAcked := Tab.set s.hostAcked src (max n (Tab.getD s.hostAcked src 0)) }) ∧
    (∀ d, dst ≠ 4 → Tab.find s.dies dst = some d → exec (.ackMsg src dst) s = .next ((s.onLinks rest).setDie dst { d with
      acked := Tab.set d.acked src (max n (Tab.getD d.acked src 0)) })) := by
  refine ⟨fun h4 => ?_, fun d h4 hd => ?_⟩
  all_goals
    refine (perform_arrives ha (by rw [hb]) ?_).trans (congrArg _ (after_of_mem rfl))
    rw [hb]
    dsimp only
  · rw [if_pos h4]
    exact run_upd_of_mem rfl rfl
  · rw [if_neg h4]
    exact run_modDie (w := ⟨s.onLinks rest, []⟩) hd _

/-- A counted message waits in the inbox. -/
theorem run_arriveCounted (ha : Arrives s src dst m rest) (hw : want m.body = true) :
    arriveCounted src dst want ⟨s, []⟩ = .ok ((), ⟨{ s.onLinks rest with inbox := s.inbox ++ [m] }, []⟩) := by
  rw [arriveCounted, run_bind_ok (run_arriveEarly ha hw)]
  exact run_upd_of_mem rfl rfl

theorem writeMsg_arrives {pa n x addr : Nat} {normal : Bool} {bytes : List (BitVec 8)} (ha : Arrives s src dst m rest)
    (hb : m.body = .write pa n x normal) (hs : src ≠ 4 ∨ bytes = []) :
    exec (.writeMsg src dst addr bytes) s = .next { s.onLinks rest with inbox := s.inbox ++ [m] } := by
  have hno : ¬(src = 4 ∧ bytes ≠ []) := by
    rintro ⟨h4, hne⟩
    exact hs.elim (fun h => h h4) hne
  refine perform_of_no_stores ?_ rfl
  rw [run_bind_ok (run_now _), if_neg hno]
  exact run_arriveCounted ha (by rw [hb])

theorem noticeMsg_arrives {pa n : Nat} (ha : Arrives s src dst m rest) (hb : m.body = .notice pa n) :
    exec (.noticeMsg src dst) s = .next { s.onLinks rest with inbox := s.inbox ++ [m] } :=
  perform_of_no_stores (run_arriveCounted ha (by rw [hb])) rfl

theorem writeMsg_ownMemory {addr : Nat} {bytes : List (BitVec 8)} (hne : bytes ≠ []) (h1 : s.target addr = some .host)
    (h2 : s.target (addr + bytes.length - 1) = some .host) :
    exec (.writeMsg 4 4 addr bytes) s = .next (s.store addr bytes.length (ofBytes bytes)) := by
  refine perform_of_stores (l := [(addr, bytes.length, ofBytes bytes)]) ?_ rfl
  rw [run_bind_ok (run_now _), if_pos ⟨rfl, hne⟩, if_pos rfl, h1, h2, run_bind_ok (run_guardA _ _)]
  exact run_poke ..

theorem writeMsg_sends {addr n : Nat} {bytes : List (BitVec 8)} (hne : bytes ≠ []) (h4 : dst ≠ 4)
    (hm : s.hostMay dst addr bytes.length = true)
    (hs : sendShared 4 (some dst) (.write addr bytes.length (ofBytes bytes) true) addr bytes.length ⟨s, []⟩ = .ok (n, w)) :
    exec (.writeMsg 4 dst addr bytes) s = .next (s.after w) := by
  refine perform_after ?_
  rw [run_bind_ok (run_now _), if_pos ⟨rfl, hne⟩, if_neg h4, hm, run_bind_ok (run_guardA _ _)]
  exact run_discard_ok hs

theorem messageApply_applies (ht : takeFirst (fun x => x.src == src && x.dst == dst) s.inbox = some (m, rest))
    (ha : applyShared m ⟨{ s with inbox := rest }, []⟩ = .ok ((), w)) (hr : takeReplies dst (w.cur.die dst).rdata w = .ok ((), v)) :
    exec (.messageApply src dst) s = .next (s.after v) := by
  refine perform_after ?_
  rw [run_bind_ok (run_now _), ht]
  dsimp only
  rw [run_bind_ok (run_upd_of_mem rfl rfl)]
  refine (run_bind_ok ha).trans ?_
  rw [run_bind_ok (run_now _)]
  exact hr

theorem hostRegisterResponse_heard {die tag x : Nat} (hc : Comes s die 4 m rest) (hb : m.body = .hostResponse tag x) :
    exec (.hostRegisterResponse die) s = .next { s.onLinks rest with hostReads := s.hostReads ++ [(tag, x)] } := by
  refine (perform_comes hc (by rw [hb]) (v := ⟨{ s.onLinks rest with hostReads := s.hostReads ++ [(tag, x)] }, []⟩) ?_).trans
    (congrArg _ (after_of_mem rfl))
  rw [hb]
  exact run_upd_of_mem rfl rfl

theorem eventFlit_heard {die code arg : Nat} (hc : Comes s die 4 m rest) (hb : m.body = .event code arg) :
    exec (.eventFlit die) s = .next { s.onLinks rest with hostEvents := s.hostEvents ++ [(die, code, arg)] } := by
  refine (perform_comes hc (by rw [hb]) (v := ⟨{ s.onLinks rest with hostEvents := s.hostEvents ++ [(die, code, arg)] }, []⟩) ?_).trans
    (congrArg _ (after_of_mem rfl))
  rw [hb]
  exact run_upd_of_mem rfl rfl

theorem memoryMessagesAct : MemoryMessagesAct :=
  ⟨fun _ _ _ _ _ _ hc hb => readMsg_answers hc hb, fun _ _ _ _ _ _ _ _ _ _ ha hb hd => rdataMsg_completes ha hb hd,
    fun _ _ _ _ _ _ ha hb => ackMsg_counts ha hb, fun _ _ _ _ _ _ _ _ _ _ _ ha hb hs => writeMsg_arrives ha hb hs,
    fun _ _ _ _ _ _ _ ha hb => noticeMsg_arrives ha hb, fun _ _ _ hne h1 h2 => writeMsg_ownMemory hne h1 h2,
    fun _ _ _ _ _ _ hne h4 hm hs => writeMsg_sends hne h4 hm hs, fun _ _ _ _ _ _ _ ht ha hr => messageApply_applies ht ha hr,
    fun _ _ _ _ _ _ hc hb => hostRegisterResponse_heard hc hb, fun _ _ _ _ _ _ hc hb => eventFlit_heard hc hb⟩

/-- Settles O43: a message leaves its link by the rule of arrival, and then does what its body says. -/
theorem messagesActOnArrival : Obligations.MessagesActOnArrival := ⟨ballastMessagesAct, tetherMessagesAct, memoryMessagesAct⟩

end

end Sys2Proof.Machine
end

section
/-! ## Obligation O44: what happens without an instruction -/

namespace Sys2Proof.Machine

open Sys2Proof

section

variable {s : State} {w : Work} {die k : Nat} {d : Die}

theorem die_of_find (hd : Tab.find s.dies die = some d) : s.die die = d := by
  rw [State.die, Tab.getD, hd]
  rfl

/-! ## Energy, power and temperature (R474, R475, R477, R523) -/

theorem lt_div_succ_mul {a b : Nat} (hb : 0 < b) : a < (a / b + 1) * b := by
  rw [Nat.mul_comm]
  exact Nat.lt_mul_div_succ a hb

/-- A power reading that is the mean of its window, rounded either way, is taken. -/
theorem isMeanPower_of_rounded {mw nj past : Nat} (hp : 0 < past) (hlt : mw < 2 ^ 32)
    (hmw : mw = nj * 1500 / past ∨ mw = (nj * 1500 + past - 1) / past) : isMeanPower mw nj past = true := by
  have hfloor : nj * 1500 < (nj * 1500 / past + 1) * past := lt_div_succ_mul hp
  have hceil : nj * 1500 + past - 1 < ((nj * 1500 + past - 1) / past + 1) * past :=
    lt_div_succ_mul hp
  have h1 := Nat.div_mul_le_self (nj * 1500) past
  have h2 := Nat.div_mul_le_self (nj * 1500 + past - 1) past
  rw [isMeanPower, decide_eq_true hlt, Bool.and_true, Bool.and_eq_true, decide_eq_true_eq, decide_eq_true_eq]
  rcases hmw with rfl | rfl <;> omega

theorem run_notify (code : Nat) : notify die code w = .ok ((), ⟨w.cur.notified die code, w.stores⟩) := by
  rw [notify, run_bind_ok (run_now _), run_bind_ok (run_upd_of_mem (t := w.cur.tickOn) rfl rfl), sendEvent, run_bind_ok (run_now _)]
  exact run_post _

theorem powerEventsAct : PowerEventsAct := by
  refine ⟨fun s die d hd hover => perform_of_no_stores ?_ rfl, fun s die d mw hd hp hlt hmw => perform_of_no_stores ?_ rfl,
    fun s die d sensor temp hd hs h1 h2 hh => perform_of_no_stores ?_ rfl, fun s die d temps hd hlen hall => perform_of_no_stores ?_ rfl,
    fun s die d sensor temp hd hs h1 h2 => perform_of_no_stores ?_ rfl, fun s die d cl hd hc => perform_of_no_stores ?_ rfl⟩
  · rw [run_bind_ok (run_getDie (w := ⟨s, []⟩) hd)]
    dsimp only
    rw [Die.periodOver, decide_eq_true hover, run_bind_ok (run_guardA _ _)]
    exact run_putDie _ _ _
  · rw [run_bind_ok (run_getDie (w := ⟨s, []⟩) hd)]
    dsimp only
    rw [isMeanPower_of_rounded (by omega) hlt hmw, decide_eq_true hp, run_bind_ok (run_guardA _ _)]
    exact run_putDie _ _ _
  · have hok : tempOk temp = true := by
      rw [tempOk, decide_eq_true (by omega), decide_eq_true h2]
      rfl
    rw [run_bind_ok (run_getDie (w := ⟨s, []⟩) hd), decide_eq_true hs, hok, decide_eq_true h1, hh, run_bind_ok (run_guardA _ _),
      run_bind_ok (run_putDie _ _ _)]
    exact run_notify 4
  · have hok : temps.all (fun t => tempOk t && decide (t < 1680)) = true := by
      refine List.all_eq_true.mpr fun t ht => ?_
      obtain ⟨hlo, hhi⟩ := hall t ht
      rw [tempOk, decide_eq_true hlo, decide_eq_true (by omega), decide_eq_true hhi]
      rfl
    rw [hlen, hok, run_bind_ok (run_guardA _ _)]
    exact run_modDie ⟨s, []⟩ hd _
  · have hok : tempOk temp = true := by
      rw [tempOk, decide_eq_true (by omega), decide_eq_true h2]
      rfl
    rw [decide_eq_true hs, hok, decide_eq_true h1, run_bind_ok (run_guardA _ _), run_bind_ok (run_modDie ⟨s, []⟩ hd _)]
    exact run_upd_of_mem rfl rfl
  · rw [decide_eq_true hc, run_bind_ok (run_guardA _ _)]
    exact run_modDie ⟨s, []⟩ hd _

/-! ## Links and freeze (R288, R512, R513, R515) -/

theorem hasDie_of_find (hd : Tab.find s.dies die = some d) : s.hasDie die = true := by
  rw [State.hasDie, hd]
  rfl

theorem hasLink_host (hd : Tab.find s.dies die = some d) : s.hasLink die 0 = true := by
  rw [State.hasLink, Nat.xor_zero, hasDie_of_find hd]
  rfl

theorem xor_ne_self (hk : 0 < k) : die ^^^ k ≠ die := by
  intro h
  have h2 := congrArg (die ^^^ ·) h
  simp only [← Nat.xor_assoc, Nat.xor_self, Nat.zero_xor] at h2
  omega

theorem run_modLink_host (f : Die → Link → Link) (hd : Tab.find w.cur.dies die = some d) : modLink die 0 f w =
    .ok ((), ⟨w.cur.setDie die { d with links := Tab.set d.links 0 (f d (d.link 0)) }, w.stores⟩) := by
  rw [modLink, if_pos rfl]
  exact run_bind_ok (run_modDie w hd _)

/-- Both ends of a link between dies change. -/
theorem run_modLink {d2 : Die} (f : Die → Link → Link) (hk : 0 < k) (hd : Tab.find w.cur.dies die = some d)
    (hd2 : Tab.find w.cur.dies (die ^^^ k) = some d2) : modLink die k f w =
    .ok ((), ⟨(w.cur.setDie die { d with links := Tab.set d.links k (f d (d.link k)) }).setDie (die ^^^ k)
      { d2 with links := Tab.set d2.links k (f d2 (d2.link k)) }, w.stores⟩) := by
  have hd3 : Tab.find (w.cur.setDie die { d with links := Tab.set d.links k (f d (d.link k)) }).dies (die ^^^ k) = some d2 := by
    rw [State.setDie, Tab.find_set, if_neg (xor_ne_self hk), hd2]
  rw [modLink, if_neg (by omega)]
  refine (run_bind_ok (run_modDie w hd _)).trans ?_
  exact run_bind_ok (run_modDie ⟨_, w.stores⟩ hd3 _)

theorem run_freezeAll : freezeAll w = .ok ((), ⟨{ w.cur with frozen := true }, w.stores⟩) := run_upd_of_mem rfl rfl

theorem run_thawAll : thawAll w = .ok ((), ⟨{ w.cur with frozen := false }, w.stores⟩) := run_upd_of_mem rfl rfl

theorem linkAndFreezeEventsAct : LinkAndFreezeEventsAct := by
  refine ⟨fun s => ⟨perform_of_no_stores run_freezeAll rfl, perform_of_no_stores run_freezeAll rfl, perform_of_no_stores run_thawAll rfl,
      perform_of_no_stores run_thawAll rfl⟩,
    fun s die d width rate hd hr h0 h16 => perform_of_no_stores ?_ rfl, fun s die k d d2 width rate hd hk hk4 hd2 hr h0 h64 => perform_of_no_stores ?_ rfl,
    fun s die d hd hst => perform_of_no_stores ?_ rfl, fun s die k d since hd hdown hlate => perform_of_no_stores ?_ rfl,
    fun s die d weight hd => perform_of_no_stores ?_ rfl, fun s die k n d hd hl => perform_of_no_stores ?_ rfl⟩
  · rw [run_bind_ok (run_now _), hasLink_host hd, List.contains_iff_mem.mpr hr, decide_eq_true h0, if_pos rfl, decide_eq_true h16,
      run_bind_ok (run_guardA _ _)]
    exact run_modLink_host _ hd
  · have hlink : s.hasLink die k = true := by
      rw [State.hasLink, hasDie_of_find hd, hasDie_of_find hd2, decide_eq_true hk4]
      rfl
    rw [run_bind_ok (run_now _), hlink, List.contains_iff_mem.mpr hr, decide_eq_true h0, if_neg (by omega), decide_eq_true h64,
      run_bind_ok (run_guardA _ _)]
    exact run_modLink _ hk hd hd2
  · rw [run_bind_ok (run_now _), run_bind_ok (run_now _), hasLink_host hd, die_of_find hd, hst, run_bind_ok (run_guardA _ _)]
    exact run_modLink_host _ hd
  · rw [run_bind_ok (run_getDie (w := ⟨s, []⟩) hd), hdown, run_bind_ok (run_need_some _ _), decide_eq_true hlate,
      run_bind_ok (run_guardA _ _), run_bind_ok (run_now _), run_bind_ok (run_upd_of_mem rfl rfl)]
    exact run_freezeAll
  · rw [run_bind_ok (run_getDie (w := ⟨s, []⟩) hd)]
    exact run_putDie _ _ _
  · rw [run_bind_ok (run_now _), hl, run_bind_ok (run_guardA _ _)]
    exact run_modDie ⟨s, []⟩ hd _

/-! ## Accumulators and the Tether agents (R479, R480, R497) -/

theorem run_chooseVictim {n v : Nat} {l : Launch} (hl : Tab.find w.cur.launches n = some l) (hst : l.state = 1)
    (hd : (Tab.find l.dies die).isSome = true) (hidle : w.cur.tetherIdle l n die = true) (hno : (l.tether die).stealing = false)
    (hre : reached64 (w.cur.die die).clk (l.tether die).retryAt = true) (hv : l.victim die = some v) :
    chooseVictim die n w = .ok ((), ⟨(w.cur.setLaunch n (l.setTether die (fun t => { t with stealing := true }))).posts
      ⟨die, v, (w.cur.die die).vclock, .stealRequest n⟩, w.stores⟩) := by
  rw [chooseVictim, run_bind_ok (run_now _), run_bind_ok (run_getLaunch w hl), hst, hd, hidle, hno, hre, run_bind_ok (run_guardA _ _),
    hv, run_bind_ok (run_need_some _ _), run_bind_ok (run_putLaunch _ _ _)]
  exact run_post _

theorem agentEventsAct : AgentEventsAct := by
  refine ⟨fun s die k d a hd ha hlate => perform_of_no_stores ?_ rfl,
    fun s die n l v hl hst hd hidle hno hre hv => ⟨perform_of_no_stores (run_chooseVictim (w := ⟨s, []⟩) hl hst hd hidle hno hre hv) rfl,
      perform_of_no_stores (run_chooseVictim (w := ⟨s, []⟩) hl hst hd hidle hno hre hv) rfl⟩,
    fun s die n l other hl hst hout hd hother hran => perform_of_no_stores ?_ rfl⟩
  · have hv : ((s.setDie die { d with accums := d.accums.filter (fun x => !(x == a)) }).die die).vclock = d.vclock := by
      rw [die_of_find (d := { d with accums := d.accums.filter (fun x => !(x == a)) }) (Tab.find_set_same _ _ _)]
    rw [run_bind_ok (run_getDie (w := ⟨s, []⟩) hd), ha, run_bind_ok (run_need_some _ _), decide_eq_true hlate,
      run_bind_ok (run_guardA _ _), forward, run_bind_ok (run_modDie ⟨s, []⟩ hd _), run_bind_ok (run_now _), hv]
    exact run_post _
  · rw [run_bind_ok (run_now _), run_bind_ok (run_getLaunch (w := ⟨s, []⟩) hl)]
    dsimp only
    rw [hst, hout, hd, decide_eq_true hran, run_bind_ok (run_guardA _ _), run_bind_ok (run_putLaunch _ _ _), hother]
    exact run_bind_ok (run_post _)

/-- Settles O44: each event passes its guard and makes its one change. -/
theorem unitsActByThemselves : Obligations.UnitsActByThemselves := ⟨powerEventsAct, linkAndFreezeEventsAct, agentEventsAct⟩

end

end Sys2Proof.Machine
end

section
/-! ## Obligation O45: the host's accesses to the register region -/

namespace Sys2Proof.Machine

open Sys2Proof

section

variable {s : State} {w : Work} {die off size val tag : Nat} {d : Die}

/-! ## Writes of whole registers (R528) -/

theorem setFld_whole {x n v : Nat} (hx : x < 2 ^ n) : setFld x 0 n v = v % 2 ^ n := by
  simp [setFld, fld, Nat.mod_eq_of_lt hx]

/-- A write of the eight bytes of a register carries none of its present value. -/
theorem regWrite_whole (ho : off % 8 = 0) (hr : s.reg64 die off < 2 ^ 64) (v : Nat) :
    s.regWrite die off 8 v = s.write64 die off (v % 2 ^ 64) (2 ^ 64 - 1) := by
  have ha : off / 8 * 8 = off := by omega
  have hcov : setFld 0 0 64 (2 ^ 64 - 1) = 2 ^ 64 - 1 := by decide
  rw [State.regWrite, if_pos (by decide), State.regPut]
  simp only [ha, ho, Nat.mul_zero]
  rw [setFld_whole hr, hcov]

theorem and_ones_of_lt {v : Nat} (h : v < 2 ^ 64) : v &&& 2 ^ 64 - 1 = v := by
  rw [Nat.and_two_pow_sub_one_eq_mod, Nat.mod_eq_of_lt h]

theorem reg64_host (ho : 0x8000 ≤ off ∧ off < 0x9000) (hd : Tab.find s.dies die = some d) (hopen : d.boot.opened = true) :
    s.reg64 die off = hostReg d.host (off - 0x8000) := by
  rw [State.reg64, die_of_find hd, if_neg (by omega), hopen]
  simp only [Bool.not_true, Bool.false_eq_true, if_false]
  rw [if_neg (by omega), if_neg (by omega), if_neg (by omega), if_pos ho]

theorem write64_host {v cov : Nat} (ho : 0x8000 ≤ off ∧ off < 0x9000) (hd : Tab.find s.dies die = some d) (hopen : d.boot.opened = true) :
    s.write64 die off v cov = s.setDie die (d.hostSet (writeHost d.host (off - 0x8000) v cov)) := by
  rw [State.write64, hd]
  simp only [hopen, Bool.not_true, Bool.false_eq_true, if_false]
  rw [if_neg (by omega), if_neg (by omega), if_neg (by omega), if_neg (by omega), if_pos ho]
  rfl

theorem regWrite_lqtail (hd : Tab.find s.dies die = some d) (hopen : d.boot.opened = true) (hlt : d.host.lqtail < 2 ^ 32) (v : Nat) :
    s.regWrite die 0x8010 8 v = s.setDie die (d.hostSet (writeTail d.host (v % 2 ^ 64))) := by
  have hreg : s.reg64 die 0x8010 = d.host.lqtail := reg64_host (by decide) hd hopen
  rw [regWrite_whole (by decide) (by omega), write64_host (by decide) hd hopen, writeHost, if_neg (by decide), if_neg (by decide),
    if_pos (by decide)]

theorem regWrite_hcmd (hd : Tab.find s.dies die = some d) (hopen : d.boot.opened = true) (v : Nat) :
    s.regWrite die 0x8040 8 v = s.setDie die (d.hostSet (writeHcmd d.host (v % 2 ^ 64))) := by
  have hreg : s.reg64 die 0x8040 = 0 := reg64_host (by decide) hd hopen
  have hcov : fld (2 ^ 64 - 1) 0 8 = 0xFF := by decide
  rw [regWrite_whole (by decide) (by omega), write64_host (by decide) hd hopen, writeHost, if_neg (by decide), if_neg (by decide),
    if_neg (by decide), if_neg (by decide), if_neg (by decide), if_neg (by decide), if_pos (by decide), hcov, if_pos rfl,
    and_ones_of_lt (Nat.mod_lt _ (by decide))]

theorem regWrite_mcclr (hd : Tab.find s.dies die = some d) (hopen : d.boot.opened = true) (v : Nat) :
    s.regWrite die 0x1008 8 v = s.setDie die { d with
      mc := if v % 2 = 1 then { McRegs.reset with wcwait := d.mc.wcwait } else d.mc } := by
  have hreg : s.reg64 die 0x1008 = 0 := by
    rw [State.reg64, die_of_find hd, if_neg (by decide), hopen]
    rfl
  have hbit : bit (v % 2 ^ 64) 0 = decide (v % 2 = 1) := by
    have h2 : v % 2 ^ 64 % 2 = v % 2 := Nat.mod_mod_of_dvd v (by decide)
    simp [bit, h2]
  rw [regWrite_whole (by decide) (by omega), State.write64, hd]
  simp only [hopen, Bool.not_true, Bool.false_eq_true, if_false]
  rw [if_neg (by decide), if_pos (by decide), if_pos trivial, and_ones_of_lt (Nat.mod_lt _ (by decide)), writeMc, if_neg (by decide),
    if_pos (by decide), hbit]
  simp only [decide_eq_true_eq]

theorem regWrite_attcmd (hd : Tab.find s.dies die = some d) (hno : d.boot.attBusy = false) :
    s.regWrite die 0x368 8 1 = s.setDie die { d with boot := { d.boot with
      attBusy := true
      attNonce := d.boot.nonce } } := by
  have hreg : s.reg64 die 0x368 = 0 := by
    rw [State.reg64, die_of_find hd, if_pos (by decide)]
    rfl
  have hbit : bit (1 % 2 ^ 64 &&& 2 ^ 64 - 1) 0 = true := by decide
  rw [regWrite_whole (by decide) (by omega), State.write64, hd]
  dsimp only
  rw [if_pos (by decide), if_pos rfl, writeBoot, if_neg (by decide), if_neg (by decide), if_pos rfl, hbit, hno]
  rfl

/-! ## Accesses that reach a die (R514, R516) -/

theorem run_hostReaches (h : HostReaches w.cur die) : hostReaches die w = .ok ((), w) := by
  obtain ⟨h1, h2, h3⟩ := h
  rw [hostReaches, run_bind_ok (run_now _), h1, h2, h3]
  exact run_guardA _ _

theorem run_hostWrite (h : HostReaches w.cur die) : hostWrite die off size val w =
    .ok ((), ⟨if off % size = 0 then w.cur.wroteReg die off size val else w.cur, w.stores⟩) := by
  rw [hostWrite, run_bind_ok (run_hostReaches h)]
  by_cases ha : off % size = 0
  · rw [if_pos ha, if_pos ha]
    exact run_upd _ _
  · rw [if_neg ha, if_neg ha]
    rfl

theorem wroteReg_mem : (s.wroteReg die off size val).mem = s.mem := rfl

/-- A write of a whole register whose effect on the machine is known. -/
theorem run_hostWrite_whole {t : State} (h : HostReaches w.cur die) (ho : off % 8 = 0)
    (ht : w.cur.regWrite die off 8 (val % 2 ^ 64) = t) (hm : t.mem = w.cur.mem) :
    hostWrite die off 8 val w = .ok ((), ⟨t, w.stores⟩) := by
  rw [run_hostWrite h, if_pos ho, State.wroteReg, ht, setMem_of_mem_eq hm]

theorem hostRegisterRequest_answers (h : HostReaches s die) (hs : size ∈ [1, 2, 4, 8]) (ho : off < 2 ^ 43) :
    exec (.hostRegisterRequest die false off size val tag) s = .next (s.posts ⟨die, 4, (s.die die).vclock,
      .hostResponse tag (if off % size = 0 then s.regRead die off size else 0)⟩) ∧
    exec (.hostRegisterRequest die true off size val tag) s = .next
      ((if off % size = 0 then s.wroteReg die off size val else s).posts ⟨die, 4, (s.die die).vclock, .hostResponse tag 0⟩) := by
  refine ⟨perform_of_no_stores ?_ rfl, perform_of_no_stores ?_ (by split <;> rfl)⟩
  all_goals
    rw [List.contains_iff_mem.mpr hs, decide_eq_true ho, run_bind_ok (run_guardA _ _), run_bind_ok (run_hostReaches (w := ⟨s, []⟩) h),
      run_bind_ok (run_now _)]
    dsimp only
  · exact run_post _
  · rw [if_pos rfl, run_bind_ok (run_hostWrite (w := ⟨s, []⟩) h)]
    exact run_post _

theorem hostRegisterAccessesComplete : HostRegisterAccessesComplete := by
  refine ⟨fun s die off size val tag h hs ho => hostRegisterRequest_answers h hs ho,
    fun s die off size val h hs ho hown => perform_of_no_stores ?_ (by split <;> rfl),
    fun s die val d h hd hopen hlt => perform_of_no_stores ?_ rfl, fun s die val d h hd hopen => perform_of_no_stores ?_ rfl,
    fun s die val d h hd hopen hno hop => perform_of_no_stores ?_ rfl, fun s die d h hd hno => perform_of_no_stores ?_ rfl⟩
  · have hown2 : ownWrites.contains (off / 8 * 8) = false := by
      rw [← Bool.not_eq_true, List.contains_iff_mem]
      exact hown
    rw [List.contains_iff_mem.mpr hs, decide_eq_true ho, hown2, run_bind_ok (run_guardA _ _)]
    exact run_hostWrite (w := ⟨s, []⟩) h
  · refine run_hostWrite_whole (w := ⟨s, []⟩) h (by decide) ((regWrite_lqtail hd hopen hlt _).trans ?_) rfl
    rw [Nat.mod_mod, writeTail, Nat.mod_mod_of_dvd val (by decide : 2 ^ 32 ∣ 2 ^ 64)]
  · refine run_hostWrite_whole (w := ⟨s, []⟩) h (by decide) ((regWrite_mcclr hd hopen _).trans ?_) rfl
    rw [Nat.mod_mod_of_dvd val (by decide : 2 ∣ 2 ^ 64)]
  · have hf : fld val 0 8 = val % 256 := by simp [fld]
    have hf2 : fld (val % 2 ^ 64 % 2 ^ 64) 0 8 = val % 256 := by
      rw [Nat.mod_mod]
      simp only [fld, Nat.pow_zero, Nat.div_one]
      exact Nat.mod_mod_of_dvd val (by decide)
    have hbad : ¬(1 ≤ val % 256 ∧ val % 256 ≤ 5) := by omega
    have hguard : (decide (1 ≤ val % 256) && decide (val % 256 ≤ 5)) = false := by
      rw [← Bool.decide_and, decide_eq_false hbad]
    rw [run_bind_ok (run_getDie (w := ⟨s, []⟩) hd), hno, hf, hguard, run_bind_ok (run_guardA _ _)]
    refine run_hostWrite_whole (w := ⟨s, []⟩) h (by decide) ((regWrite_hcmd hd hopen _).trans ?_) rfl
    rw [writeHcmd, hf2, if_neg (by rw [hno]; decide), if_neg hbad]
  · rw [run_bind_ok (run_now _), die_of_find hd, hno, run_bind_ok (run_guardA _ _)]
    exact run_hostWrite_whole (w := ⟨s, []⟩) h (by decide) (regWrite_attcmd hd hno) rfl

/-- Settles O45: an access that reaches its die reads the register, or writes it by the rule of its block. -/
theorem hostRegistersReadAndWrite : Obligations.HostRegistersReadAndWrite := hostRegisterAccessesComplete

end

end Sys2Proof.Machine
end

section
/-! ## Obligation O46: boot, quotes and reset -/

namespace Sys2Proof.Machine

open Sys2Proof

section

variable {s : State} {w1 w2 : Work} {die : Nat} {d d1 d2 : Die}

/-! ## Boot (R521) -/

theorem boot_unreadable (hd : Tab.find s.dies die = some d) (hreq : d.boot.bootReq = true)
    (hr : bootRead die d.boot.bootaddr 1024 ⟨s, []⟩ = .ok (none, w1)) (hd1 : Tab.find w1.cur.dies die = some d1) :
    exec (.boot die) s = .next (s.after ⟨w1.cur.setDie die { d1 with boot := { d.boot with
      bootReq := false
      bootsts := 6 } }, w1.stores⟩) := by
  refine perform_after ?_
  rw [run_bind_ok (run_getDie (w := ⟨s, []⟩) hd), hreq, run_bind_ok (run_guardA _ _)]
  refine (run_bind_ok hr).trans ?_
  exact run_modDie w1 hd1 _

theorem boot_checks {h b : List Byte} (hd : Tab.find s.dies die = some d) (hreq : d.boot.bootReq = true)
    (hr : bootRead die d.boot.bootaddr 1024 ⟨s, []⟩ = .ok (some h, w1))
    (hb : bootRead die (d.boot.bootaddr + 1024) (ofBytes ((h.drop 8).take 8)) w1 = .ok (some b, w2))
    (hd2 : Tab.find w2.cur.dies die = some d2) :
    exec (.boot die) s = .next (s.after ⟨w2.cur.setDie die { d2 with
      boot := if (bootCheck die h b).1 = 1 then { d.boot with
          bootReq := false
          bootsts := 1
          fwver := ofBytes ((h.drop 4).take 4)
          mr := ofBytes (sha256 (toBytes 32 d.boot.mr ++ (bootCheck die h b).2)) }
        else { d.boot with
          bootReq := false
          bootsts := (bootCheck die h b).1 } }, w2.stores⟩) := by
  refine perform_after ?_
  rw [run_bind_ok (run_getDie (w := ⟨s, []⟩) hd), hreq, run_bind_ok (run_guardA _ _)]
  refine (run_bind_ok hr).trans ((run_bind_ok hb).trans ?_)
  dsimp only
  by_cases hc : (bootCheck die h b).1 = 1
  · rw [if_pos hc, if_pos hc]
    exact run_modDie w2 hd2 _
  · rw [if_neg hc, if_neg hc]
    exact run_modDie w2 hd2 _

/-! ## Quotes (R522) -/

theorem quoteReady_writes (hd : Tab.find s.dies die = some d) (hbusy : d.boot.attBusy = true) :
    exec (.quoteReady die) s = .next ((s.setDie die { d with boot := { d.boot with
      attBusy := false
      quote := Config.quote die (ofBytes (quoteDigest die d.boot)) s.tick % 2 ^ 3072 } }).tickOn.notified die 5) := by
  obtain ⟨quote, hquote⟩ : ∃ quote, Config.quote die (ofBytes (quoteDigest die d.boot)) s.tick % 2 ^ 3072 = quote := ⟨_, rfl⟩
  refine perform_of_no_stores ?_ rfl
  rw [run_bind_ok (run_getDie (w := ⟨s, []⟩) hd), hbusy, run_bind_ok (run_guardA _ _), run_bind_ok (run_now _), hquote,
    run_bind_ok (run_putDie _ _ _), run_bind_ok (run_upd_of_mem (t := State.tickOn _) rfl rfl)]
  exact run_notify 5

/-! ## Reset (R521) -/

theorem find_map_reset {l : List Nat} {n : Nat} {x : Die} (h : Tab.find (l.map (fun d => (d, Die.reset))) n = some x) : x = Die.reset := by
  induction l with
  | nil => cases h
  | cons a l ih =>
    rw [List.map_cons, Tab.find] at h
    split at h
    · exact (Option.some.inj h).symm
    · exact ih h

theorem resetAll_resets (s : State) (form : Nat) :
    ∃ t, exec (.resetAll form) s = .next t ∧ t.groups = [] ∧ t.ctxs = [] ∧ t.gangs = [] ∧ t.insts = [] ∧
      t.launches = [] ∧ t.slots = [] ∧ t.msgs = [] ∧ t.frozen = false ∧ t.form = (if form ≤ 2 then form else s.form) ∧
      (∀ d x, Tab.find t.dies d = some x → x = Die.reset) ∧
      (∀ k, Mem.get t.mem k = if 2 ^ 47 ≤ k ∧ k < 2 ^ 47 + 2 ^ 45 then Mem.get s.mem k else 0) := by
  refine ⟨_, rfl, rfl, rfl, rfl, rfl, rfl, rfl, rfl, rfl, rfl, fun d x hx => find_map_reset hx, fun k => ?_⟩
  have hcell : hostCell k = true ↔ 2 ^ 47 ≤ k ∧ k < 2 ^ 47 + 2 ^ 45 := by
    rw [hostCell, Bool.and_eq_true, decide_eq_true_eq, decide_eq_true_eq]
  refine (get_filter hostCell s.mem k).trans ?_
  simp only [hcell]

/-- Settles O46: the ROM ends by what it reads, a quote is its digest's, and reset filters the memory by the host's keys. -/
theorem machineBootsAndResets : Obligations.MachineBootsAndResets :=
  ⟨fun _ _ _ _ _ hd hreq hr hd1 => boot_unreadable hd hreq hr hd1, fun _ _ _ _ _ _ _ _ hd hreq hr hb hd2 => boot_checks hd hreq hr hb hd2,
    fun _ _ _ hd hbusy => quoteReady_writes hd hbusy, resetAll_resets⟩

end

end Sys2Proof.Machine
end

section
/-! ## Obligation O47: launch records and host commands -/

namespace Sys2Proof.Machine

open Sys2Proof

section

variable {s : State} {w v w1 w2 w3 w4 : Work} {die n arg : Nat} {d d1 : Die} {l : Launch}

/-! ## Launch records (R517, R519) -/

theorem run_modHost (f : HostRegs → HostRegs) (hd : Tab.find w.cur.dies die = some d) :
    modHost die f w = .ok ((), ⟨w.cur.setDie die (d.hostSet (f d.host)), w.stores⟩) := run_modDie w hd _

/-- What a die does with a launch record that it has read (R517). -/
def takeRecord (die addr r index : Nat) : Act Unit :=
  match bitsOf 4 (fld r 750 4) with
  | [] => writeState die addr 3 0xB0
  | first :: _ =>
    if first = die then do
      match ← readLaunch die index addr r with
      | none => writeState die addr 3 0xB0
      | some l =>
        let n := (← now).nextLaunch
        putLaunch n l
        upd (fun s => { s with nextLaunch := n + 1 })
    else pure ()

theorem launchRecord_reads {r : Nat} (hd : Tab.find s.dies die = some d) (hb : d.boot.bootsts = 1) (hq : d.host.lqhead ≠ d.host.lqtail)
    (hr : physRead die (d.host.lqbase + 128 * (d.host.lqhead % 2 ^ d.host.lqctl)) 128 ⟨s, []⟩ = .ok (r, w1))
    (hd1 : Tab.find w1.cur.dies die = some d1)
    (ht : takeRecord die (d.host.lqbase + 128 * (d.host.lqhead % 2 ^ d.host.lqctl)) r d.host.lqhead
      ⟨w1.cur.setDie die (d1.hostSet { d1.host with lqhead := (d1.host.lqhead + 1) % 2 ^ 32 }), w1.stores⟩ = .ok ((), v)) :
    exec (.launchRecord die) s = .next (s.after v) := by
  refine perform_after ?_
  rw [run_bind_ok (run_getDie (w := ⟨s, []⟩) hd)]
  dsimp only
  rw [hb, beq_eq_false_iff_ne.mpr hq, run_bind_ok (run_guardA _ _)]
  refine (run_bind_ok hr).trans ?_
  rw [run_bind_ok (run_modHost _ hd1)]
  refine Eq.trans ?_ ht
  unfold takeRecord
  rcases bitsOf 4 (fld r 750 4) with - | ⟨first, t⟩
  · rfl
  · rfl

theorem takeRecord_skips {addr r index first : Nat} {t : List Nat} (hs : bitsOf 4 (fld r 750 4) = first :: t) (hne : first ≠ die) :
    takeRecord die addr r index w = .ok ((), w) := by
  rw [takeRecord, hs]
  dsimp only
  rw [if_neg hne]
  rfl

theorem takeRecord_names_none {addr r index : Nat} (hs : bitsOf 4 (fld r 750 4) = []) :
    takeRecord die addr r index = writeState die addr 3 0xB0 := by
  rw [takeRecord, hs]

theorem takeRecord_refuses {addr r index : Nat} {t : List Nat} (hs : bitsOf 4 (fld r 750 4) = die :: t)
    (hl : readLaunch die index addr r w = .ok (none, w2)) (hw : writeState die addr 3 0xB0 w2 = .ok ((), v)) :
    takeRecord die addr r index w = .ok ((), v) := by
  rw [takeRecord, hs]
  dsimp only
  rw [if_pos rfl]
  exact (run_bind_ok hl).trans hw

theorem takeRecord_takes {addr r index : Nat} {t : List Nat} (hs : bitsOf 4 (fld r 750 4) = die :: t)
    (hl : readLaunch die index addr r w = .ok (some l, w2)) : takeRecord die addr r index w =
      .ok ((), ⟨{ w2.cur.setLaunch w2.cur.nextLaunch l with nextLaunch := w2.cur.nextLaunch + 1 }, w2.stores⟩) := by
  rw [takeRecord, hs]
  dsimp only
  rw [if_pos rfl]
  refine (run_bind_ok hl).trans ?_
  dsimp only
  rw [run_bind_ok (run_now _), run_bind_ok (run_putLaunch _ _ _)]
  exact run_upd_of_mem rfl rfl

/-! ## Commands that end (R529) -/

theorem run_commandDone (hd : Tab.find w.cur.dies die = some d) : commandDone die w = .ok ((), ⟨w.cur.commandEnds die d, w.stores⟩) := by
  rw [commandDone, run_bind_ok (run_modHost _ hd)]
  exact run_notify 3

theorem run_commandBad (hd : Tab.find w.cur.dies die = some d) : commandBad die w = .ok ((), ⟨w.cur.commandFails die d, w.stores⟩) := by
  rw [commandBad, run_bind_ok (run_modHost _ hd), run_commandDone (Tab.find_set_same _ _ _), State.commandFails, State.commandEnds,
    setDie_setDie, State.commandEnds]

theorem run_requestSwitch (hl : Tab.find w.cur.launches n = some l) :
    requestSwitch n w = .ok ((), ⟨w.cur.switching n l, w.stores⟩) := by
  rw [requestSwitch, run_bind_ok (run_modLaunch w hl _)]
  exact run_upd _ _

theorem withdrawCmd_acts (hd : Tab.find s.dies die = some d) (hc : d.host.hcmd = some (4, arg)) :
    (∀ n l, s.named die (fld arg 0 32) = some (n, l) → exec (.withdrawCmd die) s = .next ((s.setLaunch n { l with
      withdraw := if l.withdraw.contains die then l.withdraw else l.withdraw ++ [die] }).commandEnds die d)) ∧
    (s.named die (fld arg 0 32) = none → exec (.withdrawCmd die) s = .next (s.commandFails die d)) := by
  refine ⟨fun n l hn => perform_of_no_stores ?_ rfl, fun hn => perform_of_no_stores ?_ rfl⟩
  all_goals
    rw [run_bind_ok (run_getDie (w := ⟨s, []⟩) hd), hc]
    refine (run_bind_ok (run_now _)).trans ?_
    rw [hn]
    dsimp only
  · rw [run_bind_ok (run_putLaunch _ _ _)]
    exact run_commandDone (w := ⟨s.setLaunch n _, []⟩) hd
  · exact run_commandBad (w := ⟨s, []⟩) hd

theorem switchCmd_acts (hd : Tab.find s.dies die = some d) (hc : d.host.hcmd = some (3, arg)) :
    (∀ n l, s.named die (fld arg 0 32) = some (n, l) → (l.state = 0 ∨ l.out = true) →
      exec (.switchCmd die) s = .next (s.commandEnds die d)) ∧
    (∀ n l, s.named die (fld arg 0 32) = some (n, l) → l.state ≠ 0 → l.out = false → l.stopping = false →
      Tab.find s.launches n = some l → exec (.switchCmd die) s = .next (s.switching n l)) ∧
    (s.named die (fld arg 0 32) = none → exec (.switchCmd die) s = .next (s.commandFails die d)) := by
  refine ⟨fun n l hn h => perform_of_no_stores ?_ rfl, fun n l hn h0 ho hs hl => perform_of_no_stores ?_ rfl,
    fun hn => perform_of_no_stores ?_ rfl⟩
  all_goals
    rw [State.named] at hn
    rw [run_bind_ok (run_getDie (w := ⟨s, []⟩) hd), hc]
    refine (run_bind_ok (run_now _)).trans ?_
    rw [hn]
    dsimp only
  · rw [if_pos h]
    exact run_commandDone (w := ⟨s, []⟩) hd
  · rw [if_neg (by simp [h0, ho]), hs, run_bind_ok (run_guardA _ _)]
    exact run_requestSwitch (w := ⟨s, []⟩) hl
  · exact run_commandBad (w := ⟨s, []⟩) hd

theorem abortCmd_begins (hd : Tab.find s.dies die = some d) (hc : d.host.hcmd = some (2, arg)) :
    (s.named die (fld arg 0 32) = none → exec (.abortCmd die) s = .next (s.commandFails die d)) ∧
    (∀ n l, s.named die (fld arg 0 32) = some (n, l) → l.stopping = false → l.out = false → l.state = 1 →
      Tab.find s.launches n = some l → exec (.abortCmd die) s = .next (s.switching n l)) := by
  refine ⟨fun hn => perform_of_no_stores ?_ rfl, fun n l hn hs ho h1 hl => perform_of_no_stores ?_ rfl⟩
  all_goals
    rw [run_bind_ok (run_getDie (w := ⟨s, []⟩) hd), hc]
    refine (run_bind_ok (run_now _)).trans ?_
    rw [hn]
    dsimp only
  · exact run_commandBad (w := ⟨s, []⟩) hd
  · rw [hs, ho, h1]
    exact run_requestSwitch (w := ⟨s, []⟩) hl

theorem abortCmd_ends (hd : Tab.find s.dies die = some d) (hc : d.host.hcmd = some (2, arg))
    (hn : s.named die (fld arg 0 32) = some (n, l)) (hgo : l.stopping = true ∨ l.out = true ∨ l.state ≠ 1)
    (hready : l.out = true ∨ s.saveReady (s.gangsIn n) = true)
    (h1 : forM s.insts (fun i => freeBlock n i.2) ⟨s, []⟩ = .ok ((), w1))
    (h2 : endLaunch n 4 ⟨(w1.cur.discardLaunch n).setMem w1.cur.mem, w1.stores⟩ = .ok ((), w2))
    (h3 : forM (s.switchers l ++ s.resumers n) commandDone w2 = .ok ((), w3)) (h4 : commandDone die w3 = .ok ((), v)) :
    exec (.abortCmd die) s = .next (s.after v) := by
  have hno : (!l.stopping && !l.out && l.state == 1) = false := by
    rcases hgo with h | h | h
    · rw [h]; rfl
    · rw [h, Bool.not_true, Bool.and_false, Bool.false_and]
    · rw [beq_eq_false_iff_ne.mpr h, Bool.and_false]
  have hguard : (l.out || s.saveReady (s.gangsIn n)) = true := by simpa using hready
  refine perform_after ?_
  rw [run_bind_ok (run_getDie (w := ⟨s, []⟩) hd), hc]
  refine (run_bind_ok (run_now _)).trans ?_
  rw [hn]
  dsimp only
  rw [hno, if_neg (by decide), run_bind_ok (run_now _), run_bind_ok (run_now _), hguard, run_bind_ok (run_guardA _ _),
    run_bind_ok (run_now _)]
  refine (run_bind_ok h1).trans ?_
  rw [run_bind_ok (run_upd _ _)]
  exact (run_bind_ok h2).trans ((run_bind_ok h3).trans h4)

theorem tlbinvCmd_acts (hd : Tab.find s.dies die = some d) (hc : d.host.hcmd = some (5, arg))
    (ho : observeAll (fun i => i.die == die && i.phase == .pool) (fun w => w.2.2) s.insts
      ⟨s.setDie die { d with clusters := d.clusters.map (fun (c : Nat × Cluster) => (c.1, { c.2 with tlb := [] })) }, []⟩ = .ok ((), w))
    (hv : commandDone die w = .ok ((), v)) : exec (.tlbinvCmd die) s = .next (s.after v) := by
  refine perform_after ?_
  rw [run_bind_ok (run_getDie (w := ⟨s, []⟩) hd), hc]
  refine (run_bind_ok (run_putDie _ _ _)).trans ?_
  rw [run_bind_ok (run_now _)]
  exact (run_bind_ok ho).trans hv

/-! ## RESUME (R279, R529) -/

section

variable {key mode : Nat} {i : Inst} {p : Park}

/-- The die resumes none of its instances. -/
def NoneResuming (s : State) (die : Nat) : Prop := ∀ i ∈ s.insts, i.2.die = die → ∀ p, i.2.park = some p → p.resuming = none

/-- What RESUME does for a block, once none is being resumed. -/
def resumeBlock (die b : Nat) : Act Unit := do
  match (← now).parkedAt die b with
  | none => commandBad die
  | some (key, i) =>
    let p ← need i.park
    let mode ← physRead die (b + 20) 1
    if mode = 0xFF then
      let gangs := (← now).gangsOf key
      modInst key (fun i => { i with phase := .aborted, park := none, unstarted := [] })
      dropFailed gangs (← now).slots
      upd (fun s => s.abandon gangs)
      blockState die b 3
      commandDone die
    else if p.permits mode then
      let l ← getLaunch i.launch
      guardA (l.state == 1 && !l.out && !l.stopping)
      blockState die b 1
      modInst key (fun i => { i with park := some { p with resuming := some mode } })
      finishResume key
    else commandBad die

theorem resumeCmd_acts (hd : Tab.find s.dies die = some d) (hc : d.host.hcmd = some (1, arg)) (hno : NoneResuming s die)
    (h : resumeBlock die (fld arg 0 40 * 256) ⟨s, []⟩ = .ok ((), v)) : exec (.resumeCmd die) s = .next (s.after v) := by
  have hguard : (!s.insts.any (fun i => i.2.die == die &&
      (match i.2.park with | some p => p.resuming.isSome | none => false))) = true := by
    rw [Bool.not_eq_true', List.any_eq_false]
    intro i hi
    rw [Bool.and_eq_true, beq_iff_eq]
    rintro ⟨hdie, hp⟩
    cases hpark : i.2.park with
    | none => simp [hpark] at hp
    | some p => simp [hpark, hno i hi hdie p hpark] at hp
  refine perform_after ?_
  rw [run_bind_ok (run_getDie (w := ⟨s, []⟩) hd), hc]
  refine (run_bind_ok (run_now _)).trans ?_
  refine (run_bind_ok (a := ()) (v := ⟨s, []⟩) ?_).trans h
  exact (congrArg (fun b => guardA b ⟨s, []⟩) hguard).trans (run_guardA _ _)

theorem resumeBlock_none {b : Nat} (hd : Tab.find w.cur.dies die = some d) (hp : w.cur.parkedAt die b = none) :
    resumeBlock die b w = .ok ((), ⟨w.cur.commandFails die d, w.stores⟩) := by
  rw [resumeBlock, run_bind_ok (run_now _), hp]
  exact run_commandBad hd

section

variable {b : Nat} (hp : w.cur.parkedAt die b = some (key, i)) (hi : i.park = some p) (hm : physRead die (b + 20) 1 w = .ok (mode, w1))
include hp hi hm

theorem resumeBlock_forbids (hff : mode ≠ 0xFF) (hno : p.permits mode = false) (hv : commandBad die w1 = .ok ((), v)) :
    resumeBlock die b w = .ok ((), v) := by
  rw [resumeBlock, run_bind_ok (run_now _), hp]
  dsimp only
  rw [hi, run_bind_ok (run_need_some _ _), run_bind_ok hm, if_neg hff, hno]
  exact hv

theorem resumeBlock_permits (hff : mode ≠ 0xFF) (hok : p.permits mode = true) (hl : Tab.find w1.cur.launches i.launch = some l)
    (hst : l.state = 1) (hout : l.out = false) (hs : l.stopping = false) (h2 : blockState die b 1 w1 = .ok ((), w2))
    (h3 : modInst key (fun i => { i with park := some { p with resuming := some mode } }) w2 = .ok ((), w3))
    (h4 : finishResume key w3 = .ok ((), v)) : resumeBlock die b w = .ok ((), v) := by
  rw [resumeBlock, run_bind_ok (run_now _), hp]
  dsimp only
  rw [hi, run_bind_ok (run_need_some _ _), run_bind_ok hm, if_neg hff, hok, if_pos rfl, run_bind_ok (run_getLaunch w1 hl), hst, hout, hs,
    run_bind_ok (run_guardA _ _), run_bind_ok h2]
  exact (run_bind_ok h3).trans h4

theorem resumeBlock_aborts (hff : mode = 0xFF)
    (h2 : modInst key (fun i => { i with
      phase := .aborted
      park := none
      unstarted := [] }) w1 = .ok ((), w2))
    (h3 : dropFailed (w1.cur.gangsOf key) w2.cur.slots w2 = .ok ((), w3))
    (h4 : blockState die b 3 ⟨(w3.cur.abandon (w1.cur.gangsOf key)).setMem w3.cur.mem, w3.stores⟩ = .ok ((), w4))
    (h5 : commandDone die w4 = .ok ((), v)) : resumeBlock die b w = .ok ((), v) := by
  rw [resumeBlock, run_bind_ok (run_now _), hp]
  dsimp only
  rw [hi, run_bind_ok (run_need_some _ _), run_bind_ok hm, if_pos hff, run_bind_ok (run_now _)]
  refine (run_bind_ok h2).trans ?_
  rw [run_bind_ok (run_now _)]
  refine (run_bind_ok h3).trans ?_
  rw [run_bind_ok (run_upd _ _)]
  exact (run_bind_ok h4).trans h5

end

end

/-- Settles O47: a record is taken, refused or skipped by its die set, and each command ends, fails or begins by what it names. -/
theorem hostCommandsAct : Obligations.HostCommandsAct := by
  refine ⟨fun s die d r w1 hd hb hq hr d1 hd1 => ⟨fun first t hs hne => ?_, fun v hs hw => ?_, fun t w2 v hs hl hw => ?_,
      fun t l w2 hs hl => ?_⟩,
    fun s die d arg hd => ⟨fun n l hc hn => (withdrawCmd_acts hd hc).1 n l hn, fun hc hn => (withdrawCmd_acts hd hc).2 hn,
      fun n l hc hn h => (switchCmd_acts hd hc).1 n l hn h,
      fun n l hc hn h0 ho hs hl => (switchCmd_acts hd hc).2.1 n l hn h0 ho hs hl, fun hc hn => (switchCmd_acts hd hc).2.2 hn,
      fun hc hn => (abortCmd_begins hd hc).1 hn, fun n l hc hn hs ho h1 hl => (abortCmd_begins hd hc).2 n l hn hs ho h1 hl,
      fun n l w1 w2 w3 v hc hn hgo hready h1 h2 h3 h4 => abortCmd_ends hd hc hn hgo hready h1 h2 h3 h4,
      fun w v hc ho hv => tlbinvCmd_acts hd hc ho hv⟩,
    fun s die d arg hd hc hno => ⟨fun hp => ?_, fun key i p mode w1 hp hi hm => ⟨fun v hff hper hv => ?_,
      fun l w2 w3 v hff hper hl hst hout hs h2 h3 h4 => ?_, fun w2 w3 w4 v hff h2 h3 h4 h5 => ?_⟩⟩⟩
  · exact launchRecord_reads hd hb hq hr hd1 (takeRecord_skips hs hne)
  · exact launchRecord_reads hd hb hq hr hd1 ((congrFun (takeRecord_names_none hs) _).trans hw)
  · exact launchRecord_reads hd hb hq hr hd1 (takeRecord_refuses hs hl hw)
  · exact launchRecord_reads hd hb hq hr hd1 (takeRecord_takes hs hl)
  · exact (resumeCmd_acts hd hc hno (resumeBlock_none (w := ⟨s, []⟩) hd hp)).trans (congrArg _ (after_of_mem rfl))
  · exact resumeCmd_acts hd hc hno (resumeBlock_forbids (w := ⟨s, []⟩) hp hi hm hff hper hv)
  · exact resumeCmd_acts hd hc hno (resumeBlock_permits (w := ⟨s, []⟩) hp hi hm hff hper hl hst hout hs h2 h3 h4)
  · exact resumeCmd_acts hd hc hno (resumeBlock_aborts (w := ⟨s, []⟩) hp hi hm hff h2 h3 h4 h5)

end

end Sys2Proof.Machine
end

section
/-! ## Obligation O48: launches start, instances are dispatched, gangs admitted -/

namespace Sys2Proof.Machine

open Sys2Proof

section

variable {s : State} {w v w1 w2 : Work} {die n key x y z cl : Nat} {d d1 : Die} {i i1 : Inst} {l : Launch}

/-! ## Launches (R39, R471, R478) -/

theorem placing_of (hl : Tab.find s.launches n = some l) (h1 : l.state = 1) (ho : l.out = false) (hs : l.stopping = false) :
    s.placing n = true := by
  rw [State.placing, hl]
  dsimp only
  rw [h1, ho, hs]
  rfl

theorem takeParts_mem (s : State) (n : Nat) (ds : Tab (List Nat)) : (s.takeParts n ds).mem = s.mem := rfl

theorem launchStart_starts (hl : Tab.find s.launches n = some l) (h0 : l.state = 0)
    (hmin : fld l.record 736 3 ≤ (s.freeDies l).length) {ds : Tab (List Nat)} (hds : (s.freeDies l).take (fld l.record 739 3) = ds)
    (hw : writeState l.home l.addr 1 0 ⟨(s.takeParts n ds).setLaunch n { l with
      state := 1
      dies := ds
      since := (s.die l.home).clk
      tethers := ds.map (fun d => (d.1, Tether.fresh (s.die d.1).clk)) }, []⟩ = .ok ((), w1))
    (hn : startNodes n (ds.map (fun d => d.1)) l.nodes 0 w1 = .ok ((), w2)) (he : endCheck n w2 = .ok ((), v)) :
    exec (.launchStart n) s = .next (s.after v) := by
  subst hds
  refine perform_after ?_
  rw [run_bind_ok (run_now _), run_bind_ok (run_getLaunch ⟨s, []⟩ hl)]
  dsimp only
  rw [h0, decide_eq_true hmin, run_bind_ok (run_guardA _ _), run_bind_ok (run_upd_of_mem rfl (takeParts_mem ..)),
    run_bind_ok (run_putLaunch _ _ _)]
  exact (run_bind_ok hw).trans ((run_bind_ok hn).trans he)

/-! ## Dispatch (R472, R473, R476) -/

section

variable (hd : Tab.find s.dies die = some d) (hi : Tab.find s.insts key = some i) (hl : Tab.find s.launches i.launch = some l)
  (hdie : i.die = die) (hready : i.readyAt.isSome = true) (hadm : i.admitted = false) (hpark : i.park = none) (hst : l.state = 1)
include hd hi hl hdie hready hadm hpark hst

theorem dispatch_debits {e : Nat} (hout : l.out = false) (hstop : l.stopping = false) (hp : d.powerHold = false)
    (hth : d.thermalHold = false)
    (hfirst : ∀ j ∈ s.insts, j.2.die = die → j.2.readyAt.isSome = true → j.2.admitted = false → s.placing j.2.launch = true →
      s.dispatchBefore j (key, i) = false)
    (hx : readHome (s.schedPort i.launch die) (s.estimateAt i.launch i.node) 4 ⟨s, []⟩ = .ok (.ok e, w1))
    (ha : s.admits i (nodePrio (s.instNode key)) e = true) (hd1 : Tab.find w1.cur.dies die = some d1)
    (hi1 : Tab.find w1.cur.insts key = some i1) :
    exec (.dispatchInstance die key) s = .next (s.after ⟨(w1.cur.setDie die { d1 with
      energy := { d1.energy with bal := d1.energy.bal - e } }).setInst key { i1 with
        admitted := true
        debit := e }, w1.stores⟩) := by
  have hnone : (s.insts.filter (fun j => j.2.die == die && j.2.readyAt.isSome && !j.2.admitted && s.placing j.2.launch)).any
      (fun j => s.dispatchBefore j (key, i)) = false := by
    rw [List.any_eq_false]
    intro j hj
    obtain ⟨hmem, hcond⟩ := List.mem_filter.mp hj
    simp only [Bool.and_eq_true, beq_iff_eq, Bool.not_eq_true'] at hcond
    obtain ⟨⟨⟨h1, h2⟩, h3⟩, h4⟩ := hcond
    rw [hfirst j hmem h1 h2 h3 h4]
    exact Bool.false_ne_true
  refine perform_after ?_
  rw [run_bind_ok (run_now _), run_bind_ok (run_getDie (w := ⟨s, []⟩) hd), run_bind_ok (run_getInst ⟨s, []⟩ hi),
    run_bind_ok (run_getLaunch ⟨s, []⟩ hl), hdie, beq_self_eq_true, hready, hout, hadm, hpark, hst, run_bind_ok (run_guardA _ _),
    if_neg (by decide)]
  dsimp only
  rw [placing_of hl hst hout hstop, hnone, hp, hth, run_bind_ok (run_guardA _ _)]
  refine (run_bind_ok (run_bind_ok hx)).trans ?_
  rw [ha, run_bind_ok (run_guardA _ _), run_bind_ok (run_modDie w1 hd1 _)]
  exact run_modInst ⟨w1.cur.setDie die _, w1.stores⟩ hi1 _

theorem dispatch_switches {m : Nat} {lm : Launch} (hout : l.out = true) (hr : s.outranks l die = true)
    (hlow : s.lowestRanked die = some m) (hpl : s.placing m = true) (hm : Tab.find s.launches m = some lm) :
    exec (.dispatchInstance die key) s = .next (s.switching m lm) := by
  refine perform_of_no_stores ?_ rfl
  rw [run_bind_ok (run_now _), run_bind_ok (run_getDie (w := ⟨s, []⟩) hd), run_bind_ok (run_getInst ⟨s, []⟩ hi),
    run_bind_ok (run_getLaunch ⟨s, []⟩ hl), hdie, beq_self_eq_true, hready, hout, hadm, hpark, hst, run_bind_ok (run_guardA _ _),
    if_pos rfl, hr, run_bind_ok (run_guardA _ _), hlow, run_bind_ok (run_need_some _ _), hpl, run_bind_ok (run_guardA _ _)]
  exact run_requestSwitch (w := ⟨s, []⟩) hm

end

theorem timeSlice_switches (hl : Tab.find s.launches n = some l) (hp : s.placing n = true) (hne : fld l.record 768 32 ≠ 0)
    (hlate : fld l.record 768 32 * 1500 ≤ ((s.die l.home).clk + 2 ^ 64 - l.since) % 2 ^ 64)
    (hrival : ∃ x ∈ s.launches, x.2.state = 1 ∧ x.2.out = true ∧ fld x.2.record 743 4 = fld l.record 743 4 ∧
      ∃ i ∈ s.insts, i.2.launch = x.1 ∧ i.2.readyAt.isSome = true ∧ (Tab.find l.dies i.2.die).isSome = true) :
    exec (.timeSliceExpiry n) s = .next (s.switching n l) := by
  obtain ⟨x, hx, h1, ho, hprio, i, hi, hlaunch, hready, hdie⟩ := hrival
  have hany : s.launches.any (fun (x : Nat × Launch) => x.2.state == 1 && x.2.out && fld x.2.record 743 4 == fld l.record 743 4 &&
      s.insts.any (fun i => i.2.launch == x.1 && i.2.readyAt.isSome && (Tab.find l.dies i.2.die).isSome)) = true := by
    refine List.any_eq_true.mpr ⟨x, hx, ?_⟩
    have hin : s.insts.any (fun i => i.2.launch == x.1 && i.2.readyAt.isSome && (Tab.find l.dies i.2.die).isSome) = true :=
      List.any_eq_true.mpr ⟨i, hi, by rw [hlaunch, beq_self_eq_true, hready, hdie]; rfl⟩
    simp only [hin, h1, ho, hprio, beq_self_eq_true, Bool.and_self]
  refine perform_of_no_stores ?_ rfl
  rw [run_bind_ok (run_now _), run_bind_ok (run_getLaunch ⟨s, []⟩ hl)]
  dsimp only
  rw [hp, beq_eq_false_iff_ne.mpr hne, decide_eq_true hlate, hany, run_bind_ok (run_guardA _ _)]
  exact run_requestSwitch (w := ⟨s, []⟩) hl

/-! ## Admission (R50) -/

theorem gangAdmission_commits {r : Resv} (hr : s.resvOf key x y z = some r) (hc : r.cluster = cl)
    (hg : commitGang key x y z ⟨s, []⟩ = .ok ((), w)) (hf : finishResume key w = .ok ((), v)) :
    exec (.gangAdmission key x y z cl true) s = .next (s.after v) := by
  refine perform_after ?_
  rw [if_pos rfl, run_bind_ok (run_now _), hr, Option.map_some, hc, beq_self_eq_true, run_bind_ok (run_guardA _ _)]
  exact (run_bind_ok hg).trans hf

theorem admissionRetry_reserves {r : Resv} (hr : s.resvOf key x y z = some r) (hh : r.held = false)
    (hlate : r.retryAt ≤ (s.die r.die).clk) (hv : reserve key x y z none ⟨s, []⟩ = .ok ((), v)) :
    exec (.admissionRetry key x y z) s = .next (s.after v) := by
  refine perform_after ?_
  rw [run_bind_ok (run_now _), hr, run_bind_ok (run_need_some _ _), hh, decide_eq_true hlate, run_bind_ok (run_guardA _ _)]
  exact hv

/-- With no reservation on the machine, a gang that wants a place reserves the first window that fits. -/
theorem run_reserve_alone {c : Nat} {only : Option Nat} (hw : s.wantsPlace key x y z = true) (hi : Tab.find s.insts key = some i)
    (hl : Tab.find s.launches i.launch = some l) (hp : s.placeFor l (s.instNode key) i.die = some (cl, c))
    (honly : only = none ∨ only = some cl) (hno : s.resvOf key x y z = none) (hnone : s.resvs = [])
    (hfit : s.windowFits [] (s.instNode key) i.die cl c = true) (hh : s.heldBack key i = false) :
    reserve key x y z only ⟨s, []⟩ = .ok ((), ⟨{ s with resvs := [⟨key, x, y, z, i.die, cl, c, true, 0, 0⟩] }, []⟩) := by
  have hguard : (only == none || only == some cl) = true := by
    rcases honly with rfl | rfl
    · rfl
    · rw [beq_self_eq_true, Bool.or_true]
  rw [reserve, run_bind_ok (run_now _), run_bind_ok (run_getInst ⟨s, []⟩ hi), hw, hh, run_bind_ok (run_guardA _ _),
    run_bind_ok (run_getLaunch ⟨s, []⟩ hl)]
  dsimp only
  rw [hno, Option.map_none, Option.getD_none, run_bind_ok (run_guardA _ _), hp, run_bind_ok (run_need_some _ _)]
  dsimp only
  rw [hguard, run_bind_ok (run_guardA _ _), hnone, List.filter_nil, List.filter_nil, hfit, if_pos rfl,
    run_bind_ok (run_upd_of_mem (t := s) (by cases s; simp_all) rfl)]
  exact run_upd_of_mem (by rw [hnone]; rfl) rfl

/-- Settles O48: a launch starts, one of its instances is dispatched and a gang admitted once each guard on the state holds. -/
theorem launchesDispatchTheirInstances : Obligations.LaunchesDispatchTheirInstances :=
  ⟨fun _ _ _ _ _ _ hl h0 hmin hw hn he => launchStart_starts hl h0 hmin rfl hw hn he,
    fun _ _ _ _ _ _ _ _ _ _ hd hi hl hdie hready hadm hpark hst hout hstop hp hth hfirst hx ha hd1 hi1 =>
      dispatch_debits hd hi hl hdie hready hadm hpark hst hout hstop hp hth hfirst hx ha hd1 hi1,
    fun _ _ _ _ _ _ _ _ hd hi hl hdie hready hadm hpark hst hout hr hlow hpl hm =>
      dispatch_switches hd hi hl hdie hready hadm hpark hst hout hr hlow hpl hm,
    fun _ _ _ hl hp hne hlate hrival => timeSlice_switches hl hp hne hlate hrival,
    fun _ _ _ _ _ _ _ hv => perform_after hv, fun _ _ _ _ _ _ _ _ _ hr hc hg hf => gangAdmission_commits hr hc hg hf,
    fun _ _ _ _ _ _ _ hr hh hlate hv => admissionRetry_reserves hr hh hlate hv,
    fun _ _ _ _ _ _ _ _ _ _ hw hi hl hp honly hno hnone hfit hh => run_reserve_alone hw hi hl hp honly hno hnone hfit hh⟩

end

end Sys2Proof.Machine
end

section
/-! ## Obligation O49: gangs and instances retire, partitions are switched, parked instances written out -/

namespace Sys2Proof.Machine

open Sys2Proof

section

variable {s t u : State} {w v w1 w2 w3 w4 w6 : Work} {n die key : Nat} {d d4 : Die} {i i5 : Inst} {l l2 : Launch} {g g2 : Gang}

/-! ## Retire (R22, R41, R468, R475, R476, R526) -/

theorem gate_mem (s : State) (d c : Nat) : (s.gate d c).mem = s.mem := by
  rw [State.gate]
  split
  · split <;> rfl
  · rfl

section

variable (hg : Tab.find s.gangs n = some g) (hr : g.retired = false) (hp : g.placed = true) (hgo : s.instGoes g.inst = true)
  (hdone : s.gangDone n = true) (hc : s.contHeld n g = false) (hh : g.handoffs = []) (h1 : endHolds n ⟨s, []⟩ = .ok ((), w1))
  (h2 : retireSlots (s.ownedBy n) w1 = .ok ((), w2))
include hg hr hp hgo hdone hc hh h1 h2

theorem gangRetire_keeps (hown : w2.cur.ownedBy n ≠ []) : exec (.gangRetire n) s = .next (s.after w2) := by
  refine perform_after ?_
  rw [run_bind_ok (run_now _), run_bind_ok (run_getGang ⟨s, []⟩ hg), hr, hp, hgo, hdone, hc, hh, run_bind_ok (run_guardA _ _)]
  refine (run_bind_ok h1).trans ((run_bind_ok h2).trans ?_)
  rw [run_bind_ok (run_now _), if_neg (by rw [List.isEmpty_iff]; exact hown)]
  rfl

theorem gangRetire_ends (hown : w2.cur.ownedBy n = []) (hg2 : Tab.find w2.cur.gangs n = some g2) :
    exec (.gangRetire n) s = .next (s.after ⟨(w2.cur.setGang n { g2 with
      placed := false
      retired := true }).gate g.die g.cluster, w2.stores⟩) := by
  refine perform_after ?_
  rw [run_bind_ok (run_now _), run_bind_ok (run_getGang ⟨s, []⟩ hg), hr, hp, hgo, hdone, hc, hh, run_bind_ok (run_guardA _ _)]
  refine (run_bind_ok h1).trans ((run_bind_ok h2).trans ?_)
  rw [run_bind_ok (run_now _), hown, List.isEmpty_nil, if_pos rfl, run_bind_ok (run_modGang w2 hg2 _)]
  exact run_upd_of_mem rfl (gate_mem ..)

end

section

variable {launch number : Nat} (hi : Tab.find s.insts (instKey launch number) = some i) (hph : i.phase = .running)
  (hb : i.bucket = false) (hpark : i.park = none) (hun : i.unstarted = []) (hgs : s.gangsOf (instKey launch number) = [])
  (hpl : s.placing i.launch = true)
include hi hph hb hpark hun hgs hpl

theorem instanceRetire_retires
    (h1 : publishRest (s.schedPort i.launch i.die) (instKey launch number) ⟨s, []⟩ = .ok (none, w1))
    (h2 : settleEnergy i (w1.cur.energyOf i) w1 = .ok ((), w2)) (h3 : returnWeight i.die i.wgt.toNat w2 = .ok ((), w3))
    (h4 : modInst (instKey launch number) (fun i => { i with
      phase := .retired
      wgt := 0 }) w3 = .ok ((), w4)) (h5 : endCheck i.launch w4 = .ok ((), v)) :
    exec (.instanceRetire launch number) s = .next (s.after v) := by
  refine perform_after ?_
  rw [run_bind_ok (run_now _), run_bind_ok (run_getInst ⟨s, []⟩ hi), hph, hb, hpark, hun, hgs, hpl, run_bind_ok (run_guardA _ _)]
  refine (run_bind_ok h1).trans ?_
  dsimp only
  rw [run_bind_ok (run_now _)]
  exact (run_bind_ok h2).trans ((run_bind_ok h3).trans ((run_bind_ok h4).trans h5))

theorem instanceRetire_parks {c va : Nat}
    (h1 : publishRest (s.schedPort i.launch i.die) (instKey launch number) ⟨s, []⟩ = .ok (some (c, va), w1)) :
    exec (.instanceRetire launch number) s = .next (s.after ⟨w1.cur.park (instKey launch number) 8 { Cause.zero with
      code := c
      addr := va } (2 ^ 64 - 1) ⟨true, { Cause.zero with
        code := c
        addr := va }, 0, 0, [], 0⟩, w1.stores⟩) := by
  refine perform_after ?_
  rw [run_bind_ok (run_now _), run_bind_ok (run_getInst ⟨s, []⟩ hi), hph, hb, hpark, hun, hgs, hpl, run_bind_ok (run_guardA _ _)]
  refine (run_bind_ok h1).trans ?_
  exact run_upd_of_mem rfl (park_mem ..)

end

/-! ## Step boundaries (R55, R56, R478) -/

section

variable (hpl : s.placing n = true) (hl : Tab.find s.launches n = some l)
  (hall : ∀ g ∈ s.groupsIn n, g.2.exited = true ∨ g.2.atStep = true) (hany : ∃ g ∈ s.groupsIn n, g.2.atStep = true)
include hpl hl hall hany

/-- What a step boundary does once every group stands at it. -/
theorem stepBoundary_runs {b : Bool} (h1 : withdrawAll n l.dieSet.reverse ⟨s, []⟩ = .ok (b, w1))
    (h2 : (if b then do
        addDies n 4
        let l2 ← getLaunch n
        upd (fun t => t.releaseSteps n (maskOf l2.dieSet) ((s.groupsIn n).map (fun g => (g.1, s.dieOf g.1))))
      else pure () : Act Unit) w1 = .ok ((), v)) : exec (.stepBoundary n) s = .next (s.after v) := by
  have h3 : (s.groupsIn n).all (fun g => g.2.exited || g.2.atStep) = true :=
    List.all_eq_true.mpr fun x hx => by rw [Bool.or_eq_true]; exact hall x hx
  have h4 : (s.groupsIn n).any (fun g => g.2.atStep) = true := List.any_eq_true.mpr hany
  refine perform_after ?_
  rw [run_bind_ok (run_now _)]
  dsimp only
  rw [hpl, h3, h4, run_bind_ok (run_guardA _ _), run_bind_ok (run_getLaunch ⟨s, []⟩ hl)]
  exact (run_bind_ok h1).trans h2

theorem stepBoundary_ends (h1 : withdrawAll n l.dieSet.reverse ⟨s, []⟩ = .ok (true, w1)) (h2 : addDies n 4 w1 = .ok ((), w2))
    (hl2 : Tab.find w2.cur.launches n = some l2) : exec (.stepBoundary n) s = .next (s.after
      ⟨w2.cur.releaseSteps n (maskOf l2.dieSet) ((s.groupsIn n).map (fun g => (g.1, s.dieOf g.1))), w2.stores⟩) := by
  refine stepBoundary_runs hpl hl hall hany h1 ?_
  rw [if_pos rfl, run_bind_ok h2, run_bind_ok (run_getLaunch w2 hl2)]
  exact run_upd_of_mem rfl rfl

end

/-! ## What only the dies' records change -/

/-- The machine has changed in its dies at most. -/
def OnlyDies (s t : State) : Prop := t = { s with dies := t.dies }

theorem OnlyDies.trans (h1 : OnlyDies s t) (h2 : OnlyDies t u) : OnlyDies s u := by
  unfold OnlyDies at *
  refine h2.trans ?_
  rw [h1]

theorem onlyDies_foldl {α : Type} {f : State → α → State} (hf : ∀ s x, OnlyDies s (f s x)) (l : List α) (s : State) :
    OnlyDies s (l.foldl f s) := by
  induction l generalizing s with
  | nil => rfl
  | cons x l ih => exact (hf s x).trans (ih (f s x))

theorem onlyDies_gate (s : State) (d c : Nat) : OnlyDies s (s.gate d c) := by
  rw [State.gate]
  split
  · split <;> rfl
  · rfl

theorem onlyDies_gateAll (s : State) (ds : Tab (List Nat)) : OnlyDies s (s.gateAll ds) := by
  unfold State.gateAll
  refine onlyDies_foldl (fun s d => ?_) ds s
  exact onlyDies_foldl (fun s c => onlyDies_gate s d.1 c) _ s

theorem onlyDies_powerAll (s : State) (n d : Nat) : OnlyDies s (s.powerAll n d) := by
  rw [State.powerAll]
  split <;> rfl

theorem onlyDies_dropCores (s : State) (d cl c0 cores : Nat) : OnlyDies s (s.dropCores d cl c0 cores) := by
  unfold State.dropCores
  refine onlyDies_foldl (fun s c => ?_) _ s
  unfold State.dropCore
  split <;> rfl

theorem OnlyDies.mem (h : OnlyDies s t) : t.mem = s.mem := by
  have hf := congrArg State.mem h
  exact hf

theorem OnlyDies.insts (h : OnlyDies s t) : t.insts = s.insts := by
  have hf := congrArg State.insts h
  exact hf

theorem OnlyDies.launches (h : OnlyDies s t) : t.launches = s.launches := by
  have hf := congrArg State.launches h
  exact hf

theorem OnlyDies.gangs (h : OnlyDies s t) : t.gangs = s.gangs := by
  have hf := congrArg State.gangs h
  exact hf

/-! ## A partition is switched out (R65, R282) -/

theorem settled_mem (s : State) (l : Launch) (gangs : List Nat) : ((s.settleAll gangs).maskAll l gangs).mem = s.mem := rfl

theorem preemption_switches (hl : Tab.find s.launches n = some l) (h1 : l.state = 1) (hs : l.stopping = true) (ho : l.out = false)
    (hready : s.saveReady (s.gangsIn n) = true) {s2 : State}
    (hs2 : ((s.settleAll (s.gangsIn n)).maskAll l (s.gangsIn n)).setLaunch n { l with
      out := true
      stopping := false } = s2)
    (hv : forM (s.switchers l) commandDone ⟨(({ s2 with resvs := s2.resvs.map (fun (r : Resv) =>
      if r.inst / 2 ^ 32 = n then { r with retryAt := r.retryAt - (s2.die r.die).clk } else r) }.freeParts n).gateAll l.dies).setMem
        s.mem, []⟩ = .ok ((), v)) : exec (.preemption n) s = .next (s.after v) := by
  have hmem : s2.mem = s.mem := hs2 ▸ rfl
  have hl1 : Tab.find ((s.settleAll (s.gangsIn n)).maskAll l (s.gangsIn n)).launches n = some l := hl
  refine perform_after ?_
  rw [run_bind_ok (run_now _), run_bind_ok (run_getLaunch ⟨s, []⟩ hl)]
  dsimp only
  rw [h1, hs, ho, hready, run_bind_ok (run_guardA _ _), run_bind_ok (run_upd_of_mem rfl (settled_mem ..)),
    run_bind_ok (run_modLaunch (w := ⟨(s.settleAll (s.gangsIn n)).maskAll l (s.gangsIn n), []⟩) hl1 _), hs2]
  refine (run_bind_ok (run_upd_of_mem rfl rfl)).trans ((run_bind_ok (run_upd _ _)).trans ?_)
  rw [← hmem] at hv
  exact hv

/-! ## A partition is switched in (R68, R283, R285, R363) -/

/-- What is left of one of the instances without what it has been metered by. -/
def Inst.bare (i : Inst) : Inst := { i with shares := [] }

/-- The launches and memory stand as before, and the instances but for what they have been metered by. -/
def Metered (w v : Work) : Prop :=
  v.stores = w.stores ∧ v.cur.launches = w.cur.launches ∧
    ∀ key, (Tab.find v.cur.insts key).map Inst.bare = (Tab.find w.cur.insts key).map Inst.bare

theorem metered_refl (w : Work) : Metered w w := ⟨rfl, rfl, fun _ => rfl⟩

theorem Metered.trans (h1 : Metered w v) (h2 : Metered v w1) : Metered w w1 := by
  obtain ⟨hs1, hl1, hi1⟩ := h1
  obtain ⟨hs2, hl2, hi2⟩ := h2
  exact ⟨hs2.trans hs1, hl2.trans hl1, fun key => (hi2 key).trans (hi1 key)⟩

theorem Metered.isSome (h : Metered w v) (hk : (Tab.find w.cur.insts key).isSome = true) :
    (Tab.find v.cur.insts key).isSome = true := by
  obtain ⟨-, -, hi⟩ := h
  have := congrArg Option.isSome (hi key)
  rw [Option.isSome_map, Option.isSome_map] at this
  rw [this, hk]

theorem metered_meterFrom (die cl : Nat) (hk : (Tab.find w.cur.insts key).isSome = true) :
    ∃ v, meterFrom key die cl w = .ok ((), v) ∧ Metered w v := by
  obtain ⟨i, hi⟩ := Option.isSome_iff_exists.mp hk
  rw [meterFrom, run_bind_ok (run_getInst w hi), run_bind_ok (run_now _)]
  by_cases hs : (Tab.find i.shares (16 * die + cl)).isSome = true
  · rw [if_pos hs]
    exact ⟨w, rfl, metered_refl w⟩
  · rw [if_neg hs]
    refine ⟨_, run_putInst _ _ _, rfl, rfl, fun k => ?_⟩
    dsimp only
    rw [State.setInst, Tab.find_set]
    by_cases hkey : k = key
    · rw [if_pos hkey, hkey, hi]
      rfl
    · rw [if_neg hkey]

/-- What PARTITION_RESUME does for a gang. -/
def cameIn (n : Nat) (g : Nat × Gang) : Act Unit := do
  if g.2.launch = n ∧ g.2.placed then
    upd (fun s => s.dropCores g.2.die g.2.cluster g.2.core0 g.2.cores)
    meterFrom g.2.inst g.2.die g.2.cluster

theorem metered_cameIn {x : Nat × Gang} (hk : x.2.launch = n → (Tab.find w.cur.insts x.2.inst).isSome = true) :
    ∃ v, cameIn n x w = .ok ((), v) ∧ Metered w v := by
  rw [cameIn]
  by_cases hx : x.2.launch = n ∧ x.2.placed = true
  · have hdies := onlyDies_dropCores w.cur x.2.die x.2.cluster x.2.core0 x.2.cores
    rw [if_pos hx, run_bind_ok (run_upd_of_mem rfl hdies.mem)]
    obtain ⟨v, hv, hm⟩ := metered_meterFrom (w := ⟨w.cur.dropCores x.2.die x.2.cluster x.2.core0 x.2.cores, w.stores⟩) (key := x.2.inst)
      x.2.die x.2.cluster (by rw [hdies.insts]; exact hk hx.1)
    have hdrop : Metered w ⟨w.cur.dropCores x.2.die x.2.cluster x.2.core0 x.2.cores, w.stores⟩ :=
      ⟨rfl, hdies.launches, fun k => congrArg (fun t => (Tab.find t k).map Inst.bare) hdies.insts⟩
    exact ⟨v, hv, hdrop.trans hm⟩
  · rw [if_neg hx]
    exact ⟨w, rfl, metered_refl w⟩

theorem metered_forM (l : List (Nat × Gang)) (hk : ∀ x ∈ l, x.2.launch = n → (Tab.find w.cur.insts x.2.inst).isSome = true) :
    ∃ v, forM l (cameIn n) w = .ok ((), v) ∧ Metered w v := by
  induction l generalizing w with
  | nil => exact ⟨w, rfl, metered_refl w⟩
  | cons x l ih =>
    obtain ⟨u, hu, hmu⟩ := metered_cameIn (hk x (List.mem_cons_self ..))
    obtain ⟨v, hv, hmv⟩ := ih fun y hy hn => hmu.isSome (hk y (List.mem_cons_of_mem _ hy) hn)
    have hcons : forM (x :: l) (cameIn n) = (cameIn n x >>= fun _ => forM l (cameIn n)) := rfl
    exact ⟨v, by rw [hcons, run_bind_ok hu, hv], hmu.trans hmv⟩

theorem partitionResume_resumes {parts : List (Nat × List Nat)} (hl : Tab.find s.launches n = some l) (h1 : l.state = 1)
    (ho : l.out = true) (hp : s.partsOk l parts = true)
    (hin : ∀ x ∈ s.gangs, x.2.launch = n → (Tab.find s.insts x.2.inst).isSome = true) :
    ∃ t l1, exec (.partitionResume n parts) s = .next t ∧ Tab.find t.launches n = some l1 ∧ l1.out = false ∧ l1.dies = parts ∧
      l1.nodes = l.nodes ∧ l1.record = l.record ∧ t.mem = s.mem ∧
      ∀ key, (Tab.find t.insts key).map (fun (i : Inst) => { i with shares := [] }) =
        (Tab.find s.insts key).map (fun (i : Inst) => { i with shares := [] }) := by
  obtain ⟨s1, hs1⟩ : ∃ s1, { s with
      gangs := s.gangs.map (fun (g : Nat × Gang) =>
        if g.2.launch = n ∧ !g.2.retired then (g.1, { g.2 with cluster := s.newCluster n parts g.2.die g.2.cluster }) else g)
      resvs := s.resvs.map (fun (r : Resv) =>
        if r.inst / 2 ^ 32 = n then
          { r with cluster := s.newCluster n parts r.die r.cluster, retryAt := r.retryAt + (s.die r.die).clk } else r)
      dies := s.dies.map (fun (d : Nat × Die) =>
        (d.1, { d.2 with parts := (Tab.getD parts d.1 []).foldl (fun t p => Tab.set t p n) d.2.parts })) } = s1 := ⟨_, rfl⟩
  have hl1 : Tab.find s1.launches n = some l := hs1 ▸ hl
  have hinsts : s1.insts = s.insts := hs1 ▸ rfl
  have hgangs : ∀ x ∈ s1.gangs, x.2.launch = n → (Tab.find s1.insts x.2.inst).isSome = true := by
    intro x hx hn
    rw [hinsts]
    rw [← hs1] at hx
    obtain ⟨y, hy, rfl⟩ := List.mem_map.mp hx
    by_cases hc : y.2.launch = n ∧ (!y.2.retired) = true
    · rw [if_pos hc]
      exact hin y hy hc.1
    · rw [if_neg hc] at hn ⊢
      exact hin y hy hn
  obtain ⟨s2, hs2⟩ : ∃ s2, s1.setLaunch n { l with out := false, dies := parts, since := (s.die l.home).clk } = s2 := ⟨_, rfl⟩
  have hdies : OnlyDies s2 (parts.foldl (fun s d => s.powerAll n d.1) s2) := onlyDies_foldl (fun s d => onlyDies_powerAll s n d.1) parts s2
  obtain ⟨v, hv, hst, hlau, hins⟩ := metered_forM (n := n) (w := ⟨parts.foldl (fun s d => s.powerAll n d.1) s2, []⟩)
    (parts.foldl (fun s d => s.powerAll n d.1) s2).gangs (by
      rw [hdies.gangs, hdies.insts, ← hs2]
      exact hgangs)
  have hmod := run_modLaunch (w := ⟨s1, []⟩) hl1 (fun l => { l with out := false, dies := parts, since := (s.die l.home).clk })
  refine ⟨s.after ⟨v.cur.setStopped (v.cur.runnable n) false, v.stores⟩,
    { l with out := false, dies := parts, since := (s.die l.home).clk }, perform_after ?_, ?_, rfl, rfl, rfl, rfl, ?_, fun key => ?_⟩
  · rw [run_bind_ok (run_now _), run_bind_ok (run_getLaunch ⟨s, []⟩ hl)]
    dsimp only
    rw [h1, ho, hp, run_bind_ok (run_guardA _ _), run_bind_ok (run_upd_of_mem hs1 (hs1 ▸ rfl))]
    refine (run_bind_ok hmod).trans ?_
    rw [hs2]
    refine (run_bind_ok (run_upd_of_mem rfl hdies.mem)).trans ((run_bind_ok (run_now _)).trans ((run_bind_ok hv).trans ?_))
    exact run_upd_of_mem rfl rfl
  · have hset : Tab.find v.cur.launches n = some { l with out := false, dies := parts, since := (s.die l.home).clk } := by
      rw [hlau]
      dsimp only
      rw [hdies.launches, ← hs2]
      exact Tab.find_set_same _ _ _
    exact hset
  · show storeAll s.mem v.stores = s.mem
    rw [hst]
    rfl
  · refine (hins key).trans ?_
    dsimp only
    rw [hdies.insts, ← hs2, ← hinsts]
    rfl

/-! ## Parked instances are written out (R277, R278, R525, R530) -/

/-- What PARK_BLOCK_WRITE does once it has an address for the control block. -/
def writePark (inst : Nat) (img : List (BitVec 8)) (i : Inst) (p : Park) (l : Launch) (gangs : List Nat) (size slot a : Nat) : Act Unit := do
  upd (fun s => (s.settleAll gangs).maskAll l gangs)
  physWrite i.die a 64 (blockHeader i p size)
  physWrite i.die (a + 64) 128 ((← now).parkWords inst p)
  if p.reason ≠ 8 then physWrite i.die (a + 192) size (ofBytes img)
  physWrite i.die slot 16 (faultEntry i p a)
  modHost i.die (fun h => { h with fqtail := (h.fqtail + 1) % 2 ^ 32 })
  modInst inst (fun i => { i with phase := .parked, park := some { p with block := some a, isize := size } })
  upd (fun s => { s with resvs := s.resvs.map (fun r => if r.inst == inst then { r with held := false } else r) })
  vacate gangs
  notify i.die 2

/-- What PARK_BLOCK_WRITE does with the place found for the control block. -/
def placePark (s : State) (inst : Nat) (img : List (BitVec 8)) (i : Inst) (p : Park) (l : Launch) (gangs : List Nat) (size : Nat)
    (h : HostRegs) : Option Nat → Act Unit
  | none => modHost i.die (fun h => { h with parkfull := true })
  | some a =>
    if (h.fqtail + 2 ^ 32 - h.fqhead) % 2 ^ 32 ≥ 2 ^ h.fqctl then modHost i.die (fun h => { h with fqfull := true })
    else if (s.target (h.fqbase + 16 * (h.fqtail % 2 ^ h.fqctl))).isNone then
      modHost i.die (fun h => { h with fqbad := true, fqwait := true })
    else writePark inst img i p l gangs size (h.fqbase + 16 * (h.fqtail % 2 ^ h.fqctl)) a

section

variable {inst : Nat} {img : List (BitVec 8)} {p : Park} (hi : Tab.find s.insts inst = some i) (hp : i.park = some p)
  (hl : Tab.find s.launches i.launch = some l) (hblock : p.block = none) (ho : l.out = false)
  (hready : s.saveReady (s.gangsOf inst) = true) (hd : Tab.find s.dies i.die = some d) (hq : d.host.fqwait = false)
include hi hp hl hblock ho hready hd hq

theorem parkBlockWrite_places {r : Option Nat} {size : Nat} (hsize : (if p.reason = 8 then 0 else img.length) = size)
    (hr : placeBlock (fld l.record 448 64) (fld l.record 512 32) (192 + size) s.blocks = r)
    (hv : placePark s inst img i p l (s.gangsOf inst) size d.host r ⟨s, []⟩ = .ok ((), v)) :
    exec (.parkBlockWrite inst img) s = .next (s.after v) := by
  refine perform_after ?_
  rw [run_bind_ok (run_now _), run_bind_ok (run_getInst ⟨s, []⟩ hi), hp, run_bind_ok (run_need_some _ _),
    run_bind_ok (run_getLaunch ⟨s, []⟩ hl)]
  dsimp only
  rw [hblock, ho, hready, run_bind_ok (run_guardA _ _), run_bind_ok (run_getDie (w := ⟨s, []⟩) hd), hq, run_bind_ok (run_guardA _ _),
    hsize, hr]
  refine Eq.trans ?_ hv
  cases r <;> rfl

section

variable {size a : Nat} (hsize : (if p.reason = 8 then 0 else img.length) = size)
include hsize

theorem parkBlockWrite_without_place
    (hr : placeBlock (fld l.record 448 64) (fld l.record 512 32) (192 + size) s.blocks = none) :
    exec (.parkBlockWrite inst img) s = .next (s.setDie i.die (d.hostSet { d.host with parkfull := true })) := by
  refine (parkBlockWrite_places hi hp hl hblock ho hready hd hq hsize hr ?_).trans (congrArg Host.Outcome.next (after_of_mem rfl))
  rw [placePark]
  exact run_modHost (w := ⟨s, []⟩) _ hd

variable (hr : placeBlock (fld l.record 448 64) (fld l.record 512 32) (192 + size) s.blocks = some a)
include hr

theorem parkBlockWrite_into_full_queue (hfull : 2 ^ d.host.fqctl ≤ (d.host.fqtail + 2 ^ 32 - d.host.fqhead) % 2 ^ 32) :
    exec (.parkBlockWrite inst img) s = .next (s.setDie i.die (d.hostSet { d.host with fqfull := true })) := by
  refine (parkBlockWrite_places hi hp hl hblock ho hready hd hq hsize hr ?_).trans (congrArg Host.Outcome.next (after_of_mem rfl))
  rw [placePark, if_pos hfull]
  exact run_modHost (w := ⟨s, []⟩) _ hd

variable (hroom : (d.host.fqtail + 2 ^ 32 - d.host.fqhead) % 2 ^ 32 < 2 ^ d.host.fqctl)
include hroom

theorem parkBlockWrite_without_ring (ht : s.target (d.host.fqbase + 16 * (d.host.fqtail % 2 ^ d.host.fqctl)) = none) :
    exec (.parkBlockWrite inst img) s = .next (s.setDie i.die (d.hostSet { d.host with
      fqbad := true
      fqwait := true })) := by
  refine (parkBlockWrite_places hi hp hl hblock ho hready hd hq hsize hr ?_).trans (congrArg Host.Outcome.next (after_of_mem rfl))
  rw [placePark, if_neg (Nat.not_le.mpr hroom), ht, Option.isNone_none, if_pos rfl]
  exact run_modHost (w := ⟨s, []⟩) _ hd

theorem parkBlockWrite_writes (ht : (s.target (d.host.fqbase + 16 * (d.host.fqtail % 2 ^ d.host.fqctl))).isSome = true)
    (hv : writePark inst img i p l (s.gangsOf inst) size (d.host.fqbase + 16 * (d.host.fqtail % 2 ^ d.host.fqctl)) a ⟨s, []⟩ =
      .ok ((), v)) : exec (.parkBlockWrite inst img) s = .next (s.after v) := by
  refine parkBlockWrite_places hi hp hl hblock ho hready hd hq hsize hr ?_
  rw [placePark, if_neg (Nat.not_le.mpr hroom), if_neg (by rw [Option.isNone_iff_eq_none]; exact Option.isSome_iff_ne_none.mp ht)]
  exact hv

end

end

/-- The parked state has its control block, its admissions are held no more, and its gangs have left their cores. -/
theorem run_writePark {inst size slot a : Nat} {img : List (BitVec 8)} {p : Park} {gangs : List Nat} (h8 : p.reason ≠ 8)
    (h1 : physWrite i.die a 64 (blockHeader i p size) ⟨((s.settleAll gangs).maskAll l gangs).setMem s.mem, []⟩ = .ok ((), w1))
    (h2 : physWrite i.die (a + 64) 128 (w1.cur.parkWords inst p) w1 = .ok ((), w2))
    (h3 : physWrite i.die (a + 192) size (ofBytes img) w2 = .ok ((), w3))
    (h4 : physWrite i.die slot 16 (faultEntry i p a) w3 = .ok ((), w4)) (hd4 : Tab.find w4.cur.dies i.die = some d4)
    {s5 s6 : State} (hs5 : w4.cur.setDie i.die (d4.hostSet { d4.host with fqtail := (d4.host.fqtail + 1) % 2 ^ 32 }) = s5)
    (hi5 : Tab.find s5.insts inst = some i5)
    (hs6 : s5.setInst inst { i5 with
      phase := .parked
      park := some { p with
        block := some a
        isize := size } } = s6)
    (h5 : vacate gangs ⟨{ s6 with resvs := s6.resvs.map (fun (r : Resv) => if r.inst == inst then { r with held := false } else r) },
      w4.stores⟩ = .ok ((), w6)) (h6 : notify i.die 2 w6 = .ok ((), v)) :
    writePark inst img i p l gangs size slot a ⟨s, []⟩ = .ok ((), v) := by
  rw [writePark]
  refine (run_bind_ok (run_upd _ _)).trans ((run_bind_ok h1).trans ((run_bind_ok (run_now _)).trans ((run_bind_ok h2).trans ?_)))
  rw [if_pos h8]
  refine (run_bind_ok h3).trans ((run_bind_ok h4).trans ((run_bind_ok (run_modHost _ hd4)).trans ?_))
  rw [hs5]
  refine (run_bind_ok (run_modInst ⟨s5, w4.stores⟩ hi5 _)).trans ?_
  rw [hs6]
  exact (run_bind_ok (run_upd_of_mem rfl rfl)).trans ((run_bind_ok h5).trans h6)

end

/-- Settles O49: each step is its guards, then its parts one after another; a partition that is switched in changes of its
instances only what they have been metered by, since metering puts back nothing else. -/
theorem gangsAndInstancesRetire : Obligations.GangsAndInstancesRetire := by
  unfold Obligations.GangsAndInstancesRetire GangsAndInstancesEnd
  refine ⟨?_, ?_, ?_, ?_, ?_, ?_⟩
  · intro s n g w1 w2 hg hr hp hgo hdone hc hh h1 h2
    exact ⟨gangRetire_keeps hg hr hp hgo hdone hc hh h1 h2, fun g2 hown hg2 => gangRetire_ends hg hr hp hgo hdone hc hh h1 h2 hown hg2⟩
  · intro s launch number i key hi hph hb hpark hun hgs hpl
    exact ⟨fun w1 w2 w3 w4 v h1 h2 h3 h4 h5 => instanceRetire_retires hi hph hb hpark hun hgs hpl h1 h2 h3 h4 h5,
      fun c va w1 h1 => instanceRetire_parks hi hph hb hpark hun hgs hpl h1⟩
  · intro s n l w1 w2 l2 hpl hl hall hany
    exact ⟨fun h1 => stepBoundary_runs hpl hl hall hany h1 rfl, fun h1 h2 hl2 => stepBoundary_ends hpl hl hall hany h1 h2 hl2⟩
  · intro s n l v hl h1 hs ho gangs hready s1 s2 away s3 hv
    exact preemption_switches hl h1 hs ho hready rfl hv
  · intro s n l parts hl h1 ho hp hin
    exact partitionResume_resumes hl h1 ho hp hin
  · intro s inst img i p l d hi hp hl hblock ho hready hd hq size place ring used
    refine ⟨fun hr => parkBlockWrite_without_place hi hp hl hblock ho hready hd hq rfl hr,
      fun a hr hfull => parkBlockWrite_into_full_queue hi hp hl hblock ho hready hd hq rfl hr hfull,
      fun a hr hroom ht => parkBlockWrite_without_ring hi hp hl hblock ho hready hd hq rfl hr hroom ht, ?_⟩
    intro a w1 w2 w3 w4 d4 i5 w6 v hr hroom ht h8 s0 h1 h2 h3 h4 hd4 s5 hi5 s6 loose s7 h5 h6
    exact parkBlockWrite_writes hi hp hl hblock ho hready hd hq rfl hr hroom ht
      (run_writePark h8 h1 h2 h3 h4 hd4 rfl hi5 rfl h5 h6)

end Sys2Proof.Machine
end
